-- ==== Sys2Proof/Word.lean ====
section
/-! DEFINITION. The words of the module and the plainest arithmetic on them: 36-bit device words, nonets,
doublewords, the 16-word line, octets, and the sparse table in canonical form that every large store of the
model uses (memory, register files, directories). -/

namespace Sys2Proof

/-- A device word: 36 bits, bit 0 of the manual being the most significant (R9, R12). -/
abbrev Word := BitVec 36
/-- A nonet: 9 bits (R9, R77). -/
abbrev Nonet := BitVec 9
/-- A doubleword: 72 bits, the word at the even address holding bits 0-35 (R77). -/
abbrev DWord := BitVec 72
/-- An octet of one of the octet images (R82). -/
abbrev Octet := BitVec 8

/-- Bits `lo`..`hi` of a `w`-bit value in device numbering (bit 0 most significant, R9), right-justified, as a number. -/
def field {w : Nat} (x : BitVec w) (lo hi : Nat) : Nat :=
  (x.toNat / 2 ^ (w - 1 - hi)) % 2 ^ (hi + 1 - lo)

/-- Bit `i` of a `w`-bit value in device numbering (R9). -/
def dbit {w : Nat} (x : BitVec w) (i : Nat) : Bool := x.getLsbD (w - 1 - i)

/-- `x` with device bits `lo`..`hi` replaced by the low bits of `v` (R9). -/
def setField {w : Nat} (x : BitVec w) (lo hi : Nat) (v : Nat) : BitVec w :=
  let m : BitVec w := BitVec.ofNat w ((2 ^ (hi + 1 - lo) - 1) * 2 ^ (w - 1 - hi))
  (x &&& ~~~m) ||| (BitVec.ofNat w ((v % 2 ^ (hi + 1 - lo)) * 2 ^ (w - 1 - hi)))

/-- The word whose only set bits are device bits `lo`..`hi`. -/
def maskOf (lo hi : Nat) : Word := BitVec.ofNat 36 ((2 ^ (hi + 1 - lo) - 1) * 2 ^ (35 - hi))

/-- A Boolean as a number, 1 for true. -/
def b2n (b : Bool) : Nat := if b then 1 else 0

/-- The even (high) word of a doubleword (R77). -/
def dhi (d : DWord) : Word := BitVec.ofNat 36 (d.toNat / 2 ^ 36)
/-- The odd (low) word of a doubleword (R77). -/
def dlo (d : DWord) : Word := BitVec.ofNat 36 d.toNat
/-- The doubleword of an even and an odd word (R77). -/
def dword (h l : Word) : DWord := h ++ l

/-- A table kept as (key, value) pairs in one canonical form: keys strictly rising, and no entry equal to what
an unlisted key reads as. What an unlisted key reads as is the function `d` given to each operation. -/
abbrev Tab (α : Type) := List (Nat × α)

/-- The value of a key: its entry, or what an unlisted key reads as. -/
def Tab.get {α : Type} (d : Nat → α) : Tab α → Nat → α
  | [], k => d k
  | (k', v) :: t, k => if k' = k then v else Tab.get d t k

/-- The table with a key dropped, the order of the others kept. -/
def Tab.erase {α : Type} : Tab α → Nat → Tab α
  | [], _ => []
  | (k', v) :: t, k => if k' = k then Tab.erase t k else (k', v) :: Tab.erase t k

/-- The table with an entry put at its place in rising order. -/
def Tab.insert {α : Type} (k : Nat) (v : α) : Tab α → Tab α
  | [] => [(k, v)]
  | (k', v') :: t => if k < k' then (k, v) :: (k', v') :: t else (k', v') :: Tab.insert k v t

/-- Write a key: a value equal to what the key reads as when unlisted removes the entry. -/
def Tab.set {α : Type} [DecidableEq α] (d : Nat → α) (t : Tab α) (k : Nat) (v : α) : Tab α :=
  if v = d k then Tab.erase t k else Tab.insert k v (Tab.erase t k)

/-- The canonical form of a table, as a check. -/
def Tab.wf {α : Type} [DecidableEq α] (d : Nat → α) : Tab α → Bool
  | [] => true
  | [(k, v)] => decide (v ≠ d k)
  | (k, v) :: (k', v') :: t => decide (v ≠ d k) && decide (k < k') && Tab.wf d ((k', v') :: t)

/-- The signed value of a `w`-bit number read as two's complement (R79). -/
def signedOf (w n : Nat) : Int := if n % 2 ^ w < 2 ^ (w - 1) then (n % 2 ^ w : Nat) else (n % 2 ^ w : Nat) - (2 ^ w : Nat)

/-- The residue of an integer modulo 2^w, as a number. -/
def wrapTo (w : Nat) (i : Int) : Nat := (i % (2 ^ w : Nat)).toNat

/-- A saturating increment of a counter held in `bits` bits (R19). -/
def satInc (bits n : Nat) : Nat := if n + 1 < 2 ^ bits then n + 1 else 2 ^ bits - 1

/-- Positions below `n` whose bit is set in a mask, lowest first, given bit test `f`. -/
def positions (n : Nat) (f : Nat → Bool) : List Nat := (List.range n).filter f

end Sys2Proof
end

