-- ==== Sys2Proof/Syntax.lean ====
section
/-! DEFINITION. The commands the block takes: one constructor of `Instr` per row of spec/opcode_table.json, with
the row's operands. An instruction of the Porsal-36 core (R128-R160) is commanded by naming the core and the nonets it
fetches: the prefixes, the opcode and what follows it. The opcode nonets are the row's, or none that is assigned (R138-R140). An event row carries what
the outside world or the medium supplies for it (completion data, received message fields, sensor readings, the
verdict of a self-test). Every unit number is a `Fin`, so that a command cannot name a unit that does not exist (R26). -/

namespace Sys2Proof

/-- Physical core number (R26). -/
abbrev CoreId := Fin 192
/-- Physical quire number (R26). -/
abbrev QuireId := Fin 32
/-- Physical home slice number (R26). -/
abbrev HomeId := Fin 32
/-- Tile number (R26). -/
abbrev TileId := Fin 8
/-- Sheet number (R49). -/
abbrev SheetId := Fin 64
/-- Subchannel number, which is also the exchange ID (R421). -/
abbrev SubId := Fin 65536
/-- Physical vat number (R26). -/
abbrev VatId := Fin 16
/-- Physical memory-controller and stack number (R26). -/
abbrev McId := Fin 16
/-- Module-physical line address: the word address divided by 16 (R28, R317). -/
abbrev LineAddr := Fin 17179869184
/-- Stack line address Ls (R388). -/
abbrev StackLine := Fin 1073741824
/-- Requester index: quires 0o00-0o37, non-caching requesters of tile t 0o40 + t (R327). -/
abbrev ReqIdx := Fin 40

/-- The 16 words of a line and the poison flag that travels with them (R77, R323). -/
structure Line where
  words  : Vector Word 16
  poison : Bool
deriving DecidableEq, Repr

/-- A commanded Porsal-36 instruction: the core that executes it, its prefix nonets, its opcode nonets (two where it is
escaped), and the nonets after its opcode, in stream order (R128). -/
structure Insn where
  core : CoreId
  pre  : List Nonet
  opc  : List Nonet
  ops  : List Nonet
deriving DecidableEq, Repr

/-- The self-test of a panel, and what the two loopback patterns 0o525252525252 and 0o252525252525 read back as (R374, R375). -/
structure PanelTest where
  pass : Bool
  loop : Vector Word 2
deriving DecidableEq, Repr

/-- What a window of a sheet is bound to (R41). -/
inductive Window where
  | unbound | rootp (t : Nat) (i : Nat) (fn : Nat) | queue (q : Nat)
deriving DecidableEq, Repr

/-- What a watermark assigns beside its registers: the sheet of each core, and the binding of the windows of each sheet (R41, R49,
R50). The manual gives these no register (log entry 4). -/
structure Assign where
  cores   : List (CoreId × SheetId)
  windows : List (SheetId × Fin 64 × Window)
deriving DecidableEq, Repr

/-- What the module triptych looks at in a Dunul image (R645): MAGIC, FORMAT and LEN of its header, whether the hash of SIGNKEY is the one
held in fuses, and whether SIG is valid. -/
structure DunulHdr where
  magic      : BitVec 32
  format     : BitVec 32
  len        : BitVec 32
  keyMatches : Bool
  sigValid   : Bool
deriving DecidableEq, Repr

/-- A block of R37, named by its physical instance (R26). -/
inductive Blk where
  | core (c : CoreId) | retry (c : CoreId)
  | quire (q : QuireId) | l2 (q : QuireId) | qtrip (q : QuireId) | qpwr (q : QuireId)
  | home (h : HomeId) | dir (h : HomeId)
  | memc (m : McId) | stack (m : McId) | easel (t : TileId) | vat (v : VatId)
  | cal (t : TileId) | var (t : TileId)
  | linkgrp (t : TileId) (g : Fin 3) | rootp (t : TileId) (i : Fin 2) | endpt
  | web (t : TileId) (p : Fin 7) | ttrip (t : TileId)
  | mtrip | wmark | deckle | pwr | clk | lfi | rst | therm | ident
deriving DecidableEq, Repr

/-- A triptych: of a quire, of a tile, or of the module (R371). -/
inductive Trip where
  | quire (q : QuireId) | tile (t : TileId) | module
deriving DecidableEq, Repr

/-- A cache that an enable bit governs (R302). -/
inductive CacheSel where
  | l1i (c : CoreId) | l1d (c : CoreId) | l2 (q : QuireId)
deriving DecidableEq, Repr

/-- A felt link: tile, group (0 A, 1 B, 2 C) and the lane index of its first lane (R463, R493). -/
structure LinkId where
  tile  : TileId
  group : Fin 3
  lane  : Fin 8
deriving DecidableEq, Repr

/-- The final state a requester reports in Done (R323). -/
inductive FinalState where
  | s | e | m
deriving DecidableEq, Repr

/-- Who collects the InvAcks of an Inv (R323, R331). -/
inductive Collector where
  | quire (q : QuireId) | home
deriving DecidableEq, Repr

/-- Master named by TYPE and IDENT as in a freeze record (R71, R72): by MASTER_RELEASE, and by a request at a home (R56). -/
structure MasterId where
  type  : Fin 8
  ident : Fin 262144
deriving DecidableEq, Repr

/-- What travels with a request to a home slice beside its row's fields: its sheet tag and the master that would be frozen
(R56, R61), whether it is a prefetch or a speculative access (R58), and whether another request for the same line reaches
the home in the same CK_WEB cycle (R327). -/
structure Ask where
  sheet  : SheetId
  master : MasterId
  spec   : Bool
  more   : Bool
deriving DecidableEq, Repr

/-- A non-caching interlocked operation at the home (R323). -/
inductive AtomOp where
  | xchg | add | sub | inc | dec | and | or | xor | bset | bclr | bflip | min | max | minu | maxu
  | cas (expect : DWord)
deriving DecidableEq, Repr

/-- What the DRAM returns for one line read: the stack line address the array really read, and for each of the nine
codewords the bits that were in error (R390-R397). -/
structure RawRead where
  from_ : StackLine
  errs  : Vector (BitVec 80) 9
deriving DecidableEq, Repr

/-- One access waiting for an Easel bank in a cycle: master slot, Easel word address, word to write (none: a read) (R410, R411). -/
structure EaselReq where
  slot  : Fin 15
  addr  : Fin 4194304
  write : Option Word
deriving DecidableEq, Repr

/-- A port-B access of the same cycle to a dual-ported word (R412, R413). -/
structure EaselPortB where
  addr  : Fin 4194304
  write : Option Word
deriving DecidableEq, Repr

/-- The header of a received flit (R470). -/
structure FlitHdr where
  type : Fin 16
  vc   : Fin 4
  seq  : Fin 1024
  ack  : Fin 1024
  nak  : Bool
  cvc  : Fin 4
  cred : Fin 256
deriving DecidableEq, Repr

/-- The fields of a received felt message that name its exchange (R477). -/
structure FeltHdr where
  link : LinkId
  xid  : SubId
  gen  : Fin 1048576
  cseq : Fin 4096
deriving DecidableEq, Repr

/-- Root port: tile and instance (R568). -/
structure RootId where
  tile : TileId
  inst : Fin 2
deriving DecidableEq, Repr

/-- An inbound root-port request (R570): requester ID, byte address, and either a read of a length or octets to write. -/
structure InboundReq where
  rid   : BitVec 16
  addr  : BitVec 64
  len   : Nat
  write : Option (List Octet)
  ep    : Bool
deriving DecidableEq, Repr

/-- What the signature check of a console packet finds (R574, R594). -/
inductive SigState where
  | none | valid | invalid
deriving DecidableEq, Repr

/-- Header of a console command as the host wrote it (R574). -/
structure ConHdr where
  tag : BitVec 16
  sig : SigState
deriving DecidableEq, Repr

/-- A register named at the register port: block and register word offset (R36). -/
structure RegAt where
  blk : Blk
  off : Fin 262144
deriving DecidableEq, Repr

/-- A device word in a console parameter carries 64 host bits; the command checks bits 63:36 (R575). -/
abbrev HostWord := BitVec 64

/-- The commands of the block, one constructor per row of spec/opcode_table.json, in the table's order. -/
inductive Instr where
  /-- MOV (R166): Copies the source operand to the destination. -/
  | mov (n : Insn)
  /-- MOVZ (R166): Copies the source, zero-extended to the destination width. -/
  | movz (n : Insn)
  /-- MOVX (R166): Copies the source, sign-extended to the destination width. -/
  | movx (n : Insn)
  /-- XCHG (R166): Exchanges two operands; the exchange is interlocked when exactly one operand is in memory. -/
  | xchg (n : Insn)
  /-- CAS (R166): Compares x with r; on a match writes s to x, otherwise loads x into r, and sets Z. -/
  | cas (n : Insn)
  /-- LDA (R167): Writes the address of a memory operand into a pointer register without accessing memory. -/
  | lda (n : Insn)
  /-- MOVP (R166): Copies all 72 bits of one pointer to another. -/
  | movp (n : Insn)
  /-- PTAG (R166): Sets the TAG field of a pointer. -/
  | ptag (n : Insn)
  /-- PADD (R166): Adds a signed word count to the ADDR field of a pointer. -/
  | padd (n : Insn)
  /-- PSUB (R166): Writes the difference of two pointer ADDR fields into a register pair. -/
  | psub (n : Insn)
  /-- PCMP (R166): Compares the ADDR fields of two pointers as unsigned values. -/
  | pcmp (n : Insn)
  /-- ADD (R168): Adds s to x and sets the flags. -/
  | add (n : Insn)
  /-- ADC (R168): Adds s and C to x. -/
  | adc (n : Insn)
  /-- SUB (R168): Subtracts s from x. -/
  | sub (n : Insn)
  /-- SBC (R168): Subtracts s and C from x. -/
  | sbc (n : Insn)
  /-- NEG (R168): Negates x. -/
  | neg (n : Insn)
  /-- CMP (R168): Subtracts the second source from the first and sets the flags only. -/
  | cmp (n : Insn)
  /-- INC (R168): Adds 1 to x. -/
  | inc (n : Insn)
  /-- DEC (R168): Subtracts 1 from x. -/
  | dec (n : Insn)
  /-- MUL (R168): Writes the low bits of the signed product to x. -/
  | mul (n : Insn)
  /-- MULU (R168): Writes the low bits of the unsigned product to x. -/
  | mulu (n : Insn)
  /-- MULH (R168): Writes the high bits of the signed double-width product to x. -/
  | mulh (n : Insn)
  /-- MULHU (R168): Writes the high bits of the unsigned double-width product to x. -/
  | mulhu (n : Insn)
  /-- MULD (R168): Writes the signed 72-bit product of two words into a register pair. -/
  | muld (n : Insn)
  /-- MULDU (R168): Writes the unsigned 72-bit product of two words into a register pair. -/
  | muldu (n : Insn)
  /-- DIV (R169): Signed division of x by s. -/
  | div (n : Insn)
  /-- DIVU (R169): Unsigned division of x by s. -/
  | divu (n : Insn)
  /-- REM (R169): Signed remainder of x divided by s. -/
  | rem (n : Insn)
  /-- REMU (R169): Unsigned remainder of x divided by s. -/
  | remu (n : Insn)
  /-- DIVD (R169): Signed division of a pair by a word, giving quotient and remainder. -/
  | divd (n : Insn)
  /-- DIVDU (R169): Unsigned division of a pair by a word, giving quotient and remainder. -/
  | divdu (n : Insn)
  /-- ABS (R168): Replaces x with its absolute value. -/
  | abs (n : Insn)
  /-- MIN (R168): Writes the signed minimum of x and s to x. -/
  | min (n : Insn)
  /-- MAX (R168): Writes the signed maximum of x and s to x. -/
  | max (n : Insn)
  /-- MINU (R168): Writes the unsigned minimum of x and s to x. -/
  | minu (n : Insn)
  /-- MAXU (R168): Writes the unsigned maximum of x and s to x. -/
  | maxu (n : Insn)
  /-- AND (R170): Bitwise AND of x and s. -/
  | and (n : Insn)
  /-- OR (R170): Bitwise OR of x and s. -/
  | or (n : Insn)
  /-- XOR (R170): Bitwise exclusive OR of x and s. -/
  | xor (n : Insn)
  /-- NOT (R170): Inverts every bit of x. -/
  | not (n : Insn)
  /-- ANDN (R170): ANDs x with the complement of s. -/
  | andn (n : Insn)
  /-- TEST (R170): ANDs two sources and sets the flags only. -/
  | test (n : Insn)
  /-- SHL (R171): Shifts x left by a count. -/
  | shl (n : Insn)
  /-- SHR (R171): Shifts x right logically by a count. -/
  | shr (n : Insn)
  /-- SAR (R171): Shifts x right arithmetically by a count. -/
  | sar (n : Insn)
  /-- ROL (R170): Rotates x left. -/
  | rol (n : Insn)
  /-- ROR (R170): Rotates x right. -/
  | ror (n : Insn)
  /-- SHLD (R170): Shifts x left, filling the vacated bits from s1. -/
  | shld (n : Insn)
  /-- SHRD (R170): Shifts x right, filling the vacated bits from s1. -/
  | shrd (n : Insn)
  /-- BTST (R170): Tests one bit and sets C and Z from it. -/
  | btst (n : Insn)
  /-- BSET (R170): Sets one bit of x. -/
  | bset (n : Insn)
  /-- BCLR (R170): Clears one bit of x. -/
  | bclr (n : Insn)
  /-- BFLIP (R170): Inverts one bit of x. -/
  | bflip (n : Insn)
  /-- CLZ (R170): Counts leading zero bits. -/
  | clz (n : Insn)
  /-- CTZ (R170): Counts trailing zero bits. -/
  | ctz (n : Insn)
  /-- POPC (R170): Counts one bits. -/
  | popc (n : Insn)
  /-- BEXT (R172): Extracts a described bit field. -/
  | bext (n : Insn)
  /-- BINS (R172): Inserts bits into a described field of x. -/
  | bins (n : Insn)
  /-- BEQ (R173): Branches when Z is 1. -/
  | beq (n : Insn)
  /-- BNE (R173): Branches when Z is 0. -/
  | bne (n : Insn)
  /-- BLT (R173): Branches when N differs from V. -/
  | blt (n : Insn)
  /-- BGE (R173): Branches when N equals V. -/
  | bge (n : Insn)
  /-- BLE (R173): Branches when Z is 1 or N differs from V. -/
  | ble (n : Insn)
  /-- BGT (R173): Branches when Z is 0 and N equals V. -/
  | bgt (n : Insn)
  /-- BLO (R173): Branches when C is 1. -/
  | blo (n : Insn)
  /-- BHS (R173): Branches when C is 0. -/
  | bhs (n : Insn)
  /-- BLS (R173): Branches when C or Z is 1. -/
  | bls (n : Insn)
  /-- BHI (R173): Branches when C and Z are both 0. -/
  | bhi (n : Insn)
  /-- BVS (R173): Branches when V is 1. -/
  | bvs (n : Insn)
  /-- BVC (R173): Branches when V is 0. -/
  | bvc (n : Insn)
  /-- BMI (R173): Branches when N is 1. -/
  | bmi (n : Insn)
  /-- BPL (R173): Branches when N is 0. -/
  | bpl (n : Insn)
  /-- BR (R173): Branches always. -/
  | br (n : Insn)
  /-- LOOP (R175): Decrements ri and branches while the result is not zero. -/
  | loop (n : Insn)
  /-- LOOPU (R175): Increments ri and branches while the result is not zero. -/
  | loopu (n : Insn)
  /-- LOOPG (R175): Decrements ri and branches while the signed result is zero or greater. -/
  | loopg (n : Insn)
  /-- CALL (R179): Pushes the return doubleword and continues at the target. -/
  | call (n : Insn)
  /-- RET (R179): Pops a return doubleword and continues at the address it names. -/
  | ret (n : Insn)
  /-- RETN (R179): Returns as RET and then releases s further doublewords of stack. -/
  | retn (n : Insn)
  /-- PUSH (R179): Pushes a value after the stack limit check. -/
  | push (n : Insn)
  /-- POP (R179): Pops a value into the destination. -/
  | pop (n : Insn)
  /-- ENTER (R179): Pushes P6, sets up a frame pointer and reserves s doublewords. -/
  | enter (n : Insn)
  /-- LEAVE (R179): Sets P7 from P6 and pops the old P6. -/
  | leave (n : Insn)
  /-- SMOV (R181): Moves string units from P4 to P5, repeated under a repeat prefix. -/
  | smov (n : Insn)
  /-- SCMP (R181): Compares string units at P4 and P5. -/
  | scmp (n : Insn)
  /-- SSCAN (R181): Compares string units at P5 with s. -/
  | sscan (n : Insn)
  /-- SSTO (R181): Stores s into string units at P5. -/
  | ssto (n : Insn)
  /-- SLOD (R181): Loads string units from P4. -/
  | slod (n : Insn)
  /-- XCMP (R505): Submits a Calender compression job and returns a CC. -/
  | xcmp (n : Insn)
  /-- XEXP (R505): Submits a Calender expansion job and returns a CC. -/
  | xexp (n : Insn)
  /-- XCIP (R537): Submits a Varnish cipher job and returns a CC. -/
  | xcip (n : Insn)
  /-- XKEY_UNWRAP (R532): Takes a key slot, queues an unwrap of the blob and returns the handle. -/
  | xkeyUnwrap (n : Insn)
  /-- XKEY_GENERATE (R532): Takes a key slot, queues generation of a new key and blob, and returns the handle. -/
  | xkeyGenerate (n : Insn)
  /-- XKEY_FREE (R532): Queues the freeing of the key slot that a handle names. -/
  | xkeyFree (n : Insn)
  /-- FADD (R190): Floating-point addition, rounded once. -/
  | fadd (n : Insn)
  /-- FSUB (R190): Floating-point subtraction. -/
  | fsub (n : Insn)
  /-- FMUL (R190): Floating-point multiplication. -/
  | fmul (n : Insn)
  /-- FDIV (R190): Floating-point division. -/
  | fdiv (n : Insn)
  /-- FSQRT (R190): Floating-point square root. -/
  | fsqrt (n : Insn)
  /-- FMA (R190): Fused a times b plus c. -/
  | fma (n : Insn)
  /-- FMS (R190): Fused a times b minus c. -/
  | fms (n : Insn)
  /-- FNMA (R190): Negated fused multiply-add. -/
  | fnma (n : Insn)
  /-- FNMS (R190): Negated fused multiply-subtract. -/
  | fnms (n : Insn)
  /-- FMIN (R230): IEEE minimumNumber of x and s. -/
  | fmin (n : Insn)
  /-- FMAX (R230): IEEE maximumNumber of x and s. -/
  | fmax (n : Insn)
  /-- FABS (R190): Clears the sign of the source. -/
  | fabs (n : Insn)
  /-- FNEG (R190): Inverts the sign of the source. -/
  | fneg (n : Insn)
  /-- FCPYS (R190): Copies a value with the sign of a second source. -/
  | fcpys (n : Insn)
  /-- FCMP (R191): Quiet floating-point comparison that sets the flags. -/
  | fcmp (n : Insn)
  /-- FCMPS (R191): Signalling floating-point comparison that sets the flags. -/
  | fcmps (n : Insn)
  /-- FMOV (R190): Copies a floating-point value unchanged. -/
  | fmov (n : Insn)
  /-- FCLASS (R192): Writes a one-hot class word for the source. -/
  | fclass (n : Insn)
  /-- FRND (R229): Rounds to an integral value in the current rounding mode. -/
  | frnd (n : Insn)
  /-- LFPC (R215): Loads FPC from s after checking its reserved fields. -/
  | lfpc (n : Insn)
  /-- SFPC (R216): Stores FPC to d. -/
  | sfpc (n : Insn)
  /-- CVTWS (R227): Converts a word integer to F36. -/
  | cvtws (n : Insn)
  /-- CVTWD (R227): Converts a word integer to F72. -/
  | cvtwd (n : Insn)
  /-- CVTLS (R227): Converts a doubleword integer to F36. -/
  | cvtls (n : Insn)
  /-- CVTLD (R227): Converts a doubleword integer to F72. -/
  | cvtld (n : Insn)
  /-- CVTSW (R228): Converts F36 to a word integer. -/
  | cvtsw (n : Insn)
  /-- CVTDW (R228): Converts F72 to a word integer. -/
  | cvtdw (n : Insn)
  /-- CVTSL (R228): Converts F36 to a doubleword integer. -/
  | cvtsl (n : Insn)
  /-- CVTDL (R228): Converts F72 to a doubleword integer. -/
  | cvtdl (n : Insn)
  /-- CVTSD (R226): Widens F36 to F72. -/
  | cvtsd (n : Insn)
  /-- CVTDS (R226): Narrows F72 to F36 with rounding. -/
  | cvtds (n : Insn)
  /-- FENCE (R266): Orders all earlier accesses before all later ones. -/
  | fence (n : Insn)
  /-- FENCE_LL (R266): Orders earlier loads before later loads. -/
  | fenceLl (n : Insn)
  /-- FENCE_SS (R266): Orders earlier stores before later stores. -/
  | fenceSs (n : Insn)
  /-- FENCE_LS (R266): Orders earlier loads before later stores. -/
  | fenceLs (n : Insn)
  /-- FENCE_C (R269): Retires only once every earlier access has reached its end point. -/
  | fenceC (n : Insn)
  /-- PRELOAD (R198): Hints that the line holding m should be brought into the quire L2. -/
  | preload (n : Insn)
  /-- ISYNC (R288): Discards younger fetched instructions and refetches after earlier stores are performed. -/
  | isync (n : Insn)
  /-- CWB (R306): Writes the line back to memory and keeps it valid. -/
  | cwb (n : Insn)
  /-- CZERO (R306): Zeroes a whole line in the issuing L2 in state M without reading it. -/
  | czero (n : Insn)
  /-- SVC (R202): Makes a supervisor-call interruption at level 1. -/
  | svc (n : Insn)
  /-- BRK (R202): Raises the breakpoint program check. -/
  | brk (n : Insn)
  /-- RDCLK (R204): Reads the module clock. -/
  | rdclk (n : Insn)
  /-- GETF (R203): Writes the flag word. -/
  | getf (n : Insn)
  /-- SETF (R203): Loads the flags from s. -/
  | setf (n : Insn)
  /-- IN (R193): Reads a register word from IO-space after the checks of R42. -/
  | ioIn (n : Insn)
  /-- OUT (R193): Writes a register word to IO-space after the checks of R42. -/
  | ioOut (n : Insn)
  /-- SSCH (R432): Starts an exchange on a subchannel from a request block. -/
  | ssch (n : Insn)
  /-- TSCH (R434): Stores the IRB and collects a pending outcome. -/
  | tsch (n : Insn)
  /-- HSCH (R447): Halts the current exchange of a subchannel. -/
  | hsch (n : Insn)
  /-- CSCH (R447): Clears a subchannel. -/
  | csch (n : Insn)
  /-- MSCH (R433): Modifies the subchannel from a subchannel record. -/
  | msch (n : Insn)
  /-- RSCH (R441): Resumes a suspended channel program. -/
  | rsch (n : Insn)
  /-- STSCH (R433): Stores the subchannel record. -/
  | stsch (n : Insn)
  /-- TINV_A (R111): Invalidates every translation of the issuing core. -/
  | tinvA (n : Insn)
  /-- TINV_S (R111): Invalidates the issuing core's translations of one ASN. -/
  | tinvS (n : Insn)
  /-- TINV_V (R111): Invalidates the issuing core's translations of one address. -/
  | tinvV (n : Insn)
  /-- TINVB_A (R113): Invalidates every translation on every core of the sheet. -/
  | tinvbA (n : Insn)
  /-- TINVB_S (R113): Invalidates one ASN's translations on every core of the sheet. -/
  | tinvbS (n : Insn)
  /-- TINVB_V (R113): Invalidates one address's translations on every core of the sheet. -/
  | tinvbV (n : Insn)
  /-- CINV (R306): Invalidates every copy of a line without write-back. -/
  | cinv (n : Insn)
  /-- CINV_ALL (R306): Invalidates every line of the reached caches that are disabled and not draining. -/
  | cinvAll (n : Insn)
  /-- CWBI (R306): Writes a line back and invalidates every copy. -/
  | cwbi (n : Insn)
  /-- CWB_ALL (R306): Writes back every dirty line of the core's L1D and its quire's L2. -/
  | cwbAll (n : Insn)
  /-- PRELOAD_L (R296): Loads a line into the quire L2 and locks it in the named way. -/
  | preloadL (n : Insn)
  /-- CUNLK (R298): Unlocks one L2 way in every set. -/
  | cunlk (n : Insn)
  /-- SAVU (R200): Saves the upper half of the current bank to an area from CSFREE. -/
  | savu (n : Insn)
  /-- SAVL (R200): Saves the lower half of the current bank to an area from CSFREE. -/
  | savl (n : Insn)
  /-- RSTU (R200): Restores the upper half of the current bank from the head of CSLIST. -/
  | rstu (n : Insn)
  /-- RSTL (R200): Restores the lower half of the current bank from the head of CSLIST. -/
  | rstl (n : Insn)
  /-- IRET (R251): Returns from an interruption to the interrupted level. -/
  | iret (n : Insn)
  /-- LPSW (R241): Loads the PSW from memory. -/
  | lpsw (n : Insn)
  /-- SPSW (R202): Stores the PSW to memory. -/
  | spsw (n : Insn)
  /-- WAIT (R202): Drains stores and clock-gates the core until an interruption or a wake. -/
  | wait (n : Insn)
  /-- XCORE_QUERY (R205): Returns the run state of a target core as a CC. -/
  | xcoreQuery (n : Insn)
  /-- XCORE_POST (R205): Makes a level-4 core-post interruption pending in the target. -/
  | xcorePost (n : Insn)
  /-- XCORE_PAUSE (R205): Stops the target at its next instruction boundary. -/
  | xcorePause (n : Insn)
  /-- XCORE_RESUME (R205): Resumes a stopped target. -/
  | xcoreResume (n : Insn)
  /-- XCORE_WAKE (R205): Takes the target out of WAIT without an interruption. -/
  | xcoreWake (n : Insn)
  /-- SPRI (R202): Sets the PSW priority mask. -/
  | spri (n : Insn)
  /-- LCTL (R207): Loads a control register. -/
  | lctl (n : Insn)
  /-- SCTL (R207): Stores a control register. -/
  | sctl (n : Insn)
  /-- LBNK (R206): Reads a register of a selected bank. -/
  | lbnk (n : Insn)
  /-- SBNK (R206): Writes a register of a selected bank. -/
  | sbnk (n : Insn)
  /-- LSLIM (R202): Loads the stack limit of the current bank. -/
  | lslim (n : Insn)
  /-- SSLIM (R202): Stores the stack limit of the current bank. -/
  | sslim (n : Insn)
  /-- INTERRUPTION_ACCEPT (R243): At a boundary the core accepts the highest pending asynchronous interruption that qualifies. -/
  | interruptionAccept (c : CoreId)
  /-- CLOCK_COMPARATOR (R245): The module clock reaches CLKCMP and a level-4 interruption becomes pending. -/
  | clockComparator (c : CoreId)
  /-- STORE_BUFFER_DRAIN (R325): A committed store leaves the store buffer and is performed in its quire's copy. -/
  | storeBufferDrain (c : CoreId)
  /-- GATHER_TIMEOUT (R277): 256 cycles after the last join the gather buffer is emitted as one write. -/
  | gatherTimeout (c : CoreId)
  /-- WINDOW_ZERO_LENGTH_READ_DONE (R276): The completion of the zero-length read returns and the OUT reaches its end point. -/
  | windowZeroLengthReadDone (c : CoreId)
  /-- DEVICE_IN_COMPLETION (R276): The data of an IN to a device window returns and the IN is performed. -/
  | deviceInCompletion (c : CoreId) (data : Word) (ep : Bool)
  /-- QUIESCE_POINT (R54): A sheet reaches its quiesce point and the staged commit fields are applied. -/
  | quiescePoint (sh : SheetId)
  /-- RESIDENCY_CLEAN (R295): The residency limit expires and the dirty L1D line is written back to L2. -/
  | residencyClean (c : CoreId) (line : LineAddr) (parityError : Bool)
  /-- CACHE_DISABLE (R302): A write of 0 to an L1 or L2 enable bit starts the disable and sets DRAINING. -/
  | cacheDisable (x : CacheSel)
  /-- CACHE_ENABLE (R305): A write of 1 to an enable bit enables the cache, held while DRAINING is 1. -/
  | cacheEnable (x : CacheSel)
  /-- CACHE_DRAIN_DONE (R302): The disable completes, DRAINING clears and a held enable write is applied. -/
  | cacheDrainDone (x : CacheSel)
  /-- GETS (R333): The home handles a GetS request for a line. -/
  | gets (h : HomeId) (q : QuireId) (line : LineAddr) (count : Fin 65) (ask : Ask)
  /-- GETM (R333): The home handles a GetM request for a line. -/
  | getm (h : HomeId) (q : QuireId) (line : LineAddr) (count : Fin 65) (ask : Ask)
  /-- GETZ (R333): The home handles a GetZ request for a line. -/
  | getz (h : HomeId) (q : QuireId) (line : LineAddr) (count : Fin 65) (ask : Ask)
  /-- PUTM (R334): The home handles a PutM write-back. -/
  | putm (h : HomeId) (q : QuireId) (line : LineAddr) (data : Line) (ask : Ask)
  /-- PUTE (R334): The home handles a PutE. -/
  | pute (h : HomeId) (q : QuireId) (line : LineAddr) (ask : Ask)
  /-- MCLEAN (R333): The home handles MClean from CWB. -/
  | mclean (h : HomeId) (q : QuireId) (line : LineAddr) (count : Fin 65) (ask : Ask)
  /-- MFLUSH (R333): The home handles MFlush from CWBI. -/
  | mflush (h : HomeId) (q : QuireId) (line : LineAddr) (count : Fin 65) (ask : Ask)
  /-- MPURGE (R333): The home handles MPurge from CINV. -/
  | mpurge (h : HomeId) (q : QuireId) (line : LineAddr) (count : Fin 65) (ask : Ask)
  /-- READNC (R333): The home handles a non-caching read. -/
  | readnc (h : HomeId) (r : ReqIdx) (line : LineAddr) (count : Fin 65) (ask : Ask)
  /-- WRITENC (R333): The home handles a non-caching write. -/
  | writenc (h : HomeId) (r : ReqIdx) (line : LineAddr) (count : Fin 65) (mask : BitVec 16) (words : Vector Word 16) (ask : Ask)
  /-- ATOMNC (R333): The home handles a non-caching interlocked operation. -/
  | atomnc (h : HomeId) (r : ReqIdx) (line : LineAddr) (count : Fin 65) (op : AtomOp) (dbl : Bool) (word : Fin 16) (operand : DWord) (ask : Ask)
  /-- DONE (R336): The home receives Done, updates the entry and serves its queue. -/
  | done (h : HomeId) (q : QuireId) (line : LineAddr) (final : FinalState)
  /-- SDATA (R335): The home receives SData and completes a B_S transaction. -/
  | sdata (h : HomeId) (q : QuireId) (line : LineAddr) (data : Line) (dirty : Bool)
  /-- RDATA (R335): The home receives RData and holds the line for completion. -/
  | rdata (h : HomeId) (q : QuireId) (line : LineAddr) (data : Line) (dirty : Bool)
  /-- HOME_INVACK (R335): The home counts an InvAck and completes a B_C transaction when all have arrived. -/
  | homeInvack (h : HomeId) (q : QuireId) (line : LineAddr)
  /-- DATAS (R330): The quire receives DataS or DataE and fills the line. -/
  | datas (q : QuireId) (line : LineAddr) (data : Line) (exclusive : Bool)
  /-- DATAM (R330): The quire receives DataM and fills the line. -/
  | datam (q : QuireId) (line : LineAddr) (data : Line) (n : Fin 33)
  /-- GRANTM (R330): The quire receives GrantM. -/
  | grantm (q : QuireId) (line : LineAddr) (n : Fin 33)
  /-- INVACK (R330): The quire counts an InvAck for its open request. -/
  | invack (q : QuireId) (line : LineAddr)
  /-- PUTACK (R330): The quire receives PutAck and leaves MI_A or EI_A. -/
  | putack (q : QuireId) (line : LineAddr)
  /-- STALEACK (R341): The quire receives StaleAck and enters I. -/
  | staleack (q : QuireId) (line : LineAddr)
  /-- RETRY (R328): The quire or requester receives Retry and keeps its request for reissue. -/
  | retry (r : ReqIdx) (line : LineAddr) (count : Fin 65)
  /-- REQUEST_REISSUE (R328): 32 cycles after a Retry the requester reissues the request with a raised count. -/
  | requestReissue (r : ReqIdx) (line : LineAddr)
  /-- FWDGETS (R331): The owner quire handles FwdGetS. -/
  | fwdgets (q : QuireId) (line : LineAddr) (requester : QuireId)
  /-- FWDGETM (R331): The owner quire handles FwdGetM. -/
  | fwdgetm (q : QuireId) (line : LineAddr) (requester : QuireId) (n : Fin 33)
  /-- INV (R331): A quire handles Inv and acknowledges it. -/
  | inv (q : QuireId) (line : LineAddr) (collector : Collector)
  /-- RECALL (R331): The owner quire returns the line with RData. -/
  | recall (q : QuireId) (line : LineAddr)
  /-- SNP (R331): The owner quire answers a snoop with SData. -/
  | snp (q : QuireId) (line : LineAddr) (clean : Bool)
  /-- DATANC (R316): A non-caching requester receives DataNC. -/
  | datanc (r : ReqIdx) (line : LineAddr) (data : Line)
  /-- CMPNC (R316): A non-caching requester receives CmpNC. -/
  | cmpnc (r : ReqIdx) (line : LineAddr) (old : DWord)
  /-- HOME_TIMEOUT (R343): A home transaction stays busy for T cycles and the silent quires are dead. -/
  | homeTimeout (h : HomeId) (line : LineAddr)
  /-- QUIRE_TIMEOUT (R343): A quire waits 2T cycles for a reply and the home is dead. -/
  | quireTimeout (q : QuireId) (line : LineAddr)
  /-- L2_RETENTION_WAKE (R638): A retained L2 finishes waking and serves the waiting request. -/
  | l2RetentionWake (q : QuireId)
  /-- WEB_PORT_FAIL (R32): A web port fails, is fenced and traffic moves to a relay tile. -/
  | webPortFail (t : TileId) (p : Fin 7)
  /-- INSTRUCTION_RETRY (R354): A detector error restores the core from its checkpoint and re-executes. `line`: for cause 0o04 the dirty
  line that is lost, for cause 0o05 a line of the set (R356). -/
  | instructionRetry (c : CoreId) (cause : Fin 64) (line : LineAddr)
  /-- ATTEMPTS_CLEAR (R355): After 4,096 error-free retire groups ATTEMPTS returns to 0. -/
  | attemptsClear (c : CoreId)
  /-- SHED (R358): The recovery unit sheds the core and the supervisor chooses a spare; `line` as for INSTRUCTION_RETRY. -/
  | shed (c : CoreId) (cause : Fin 64) (line : LineAddr)
  /-- COUCH_FENCED (R358): Every transaction of the shed core is performed and COUCH becomes FENCED. -/
  | couchFenced (c : CoreId)
  /-- SPARE_WAKE_DONE (R362): A spare finishes its wake and self-test, or fails and the search resumes. -/
  | spareWakeDone (c : CoreId) (pass : Bool)
  /-- STATE_TRANSFER_DONE (R364): The checkpoint transfer into the spare ends. -/
  | stateTransferDone (c : CoreId)
  /-- SPARE_RELEASE (R364): The release condition holds, the spare is released, issues carried stores and begins. -/
  | spareRelease (c : CoreId)
  /-- PANEL_OUTVOTE (R373): A panel is outvoted, fenced and tested for a wire fault. The outputs of the three panels in a CK_SUP cycle
  (R371), and the test of a panel that they outvote. -/
  | panelOutvote (t : Trip) (a b c : Word) (test : PanelTest)
  /-- PANEL_RELOAD_DONE (R374): A fenced panel is reloaded, tested and rejoins the vote. `upset`: a word of a panel's memory that has
  changed by itself. -/
  | panelReloadDone (t : Trip) (upset : Option (Fin 3 × Fin 4194304 × Word)) (test : PanelTest)
  /-- TRIPTYCH_TAKEOVER (R377): The parent takes over the halted triptych's duties. -/
  | triptychTakeover (t : Trip)
  /-- TRIPTYCH_RESTART (R379): The parent reloads all three panels of a halted child. -/
  | triptychRestart (t : Trip)
  /-- TRIPTYCH_RESTART_DONE (R379): The restarted child passes or fails its self-test. -/
  | triptychRestartDone (t : Trip) (pass : Bool)
  /-- SUPERVISOR_ONLY_RESET (R382): The RST block restarts the module triptych in hardware. -/
  | supervisorOnlyReset
  /-- SUPERVISOR_ONLY_RESET_DONE (R382): The module triptych resumes duties and deferred commands and commits continue, or the restart
  fails (R373). -/
  | supervisorOnlyResetDone (pass : Bool)
  /-- MEMC_READ (R393): A controller reads a line, decodes its codewords and checks the fold. -/
  | memcRead (m : McId) (ls : StackLine) (first : RawRead) (second : RawRead)
  /-- MEMC_WRITE (R389): A controller writes a whole line. -/
  | memcWrite (m : McId) (ls : StackLine) (data : Line)
  /-- DEFERRED_POISON (R400): A controller that accepts requests again first poisons the lines named in the reset record. -/
  | deferredPoison (m : McId)
  /-- PATROL_SCRUB (R401): The patrol reads the next line of the stack. -/
  | patrolScrub (m : McId) (first : RawRead) (second : RawRead)
  /-- PATROL_REPAIR (R401): DataNC for a patrolled line arrives and is written to the stack unless newer data exists. -/
  | patrolRepair (m : McId) (ls : StackLine) (data : Line)
  /-- ROW_SPARE_DONE (R402): The row copy ends and accesses to the row resume. -/
  | rowSpareDone (m : McId) (pc : Fin 32) (bank : Fin 32) (row : Fin 32768) (errs : Vector (Vector (BitVec 80) 9) 32)
  /-- MIGRATION_START (R403): A migration of a die to the spare die starts. -/
  | migrationStart (m : McId) (die : Fin 16)
  /-- MIGRATION_COPY (R403): The controller copies the line at a copy pointer and raises it. -/
  | migrationCopy (m : McId) (half : Fin 2) (first : RawRead) (second : RawRead) (spareFails : Bool)
  /-- RECALIBRATION (R406): A pseudo-channel recalibrates every 100 ms. -/
  | recalibration (m : McId) (pc : Fin 32) (fails : Bool)
  /-- REFRESH (R407): A row is refreshed at the refresh period. -/
  | refresh (m : McId) (pc : Fin 32) (bank : Fin 32) (row : Fin 32768)
  /-- STACK_TEMP_SAMPLE (R407): The stack temperature is sampled and the refresh and throttle steps updated. -/
  | stackTempSample (m : McId) (temp : Fin 512)
  /-- EASEL_ACCESS (R411): The arbiter grants a master one Easel bank access. -/
  | easelAccess (t : TileId) (bank : Fin 32) (reqs : List EaselReq) (portB : Option EaselPortB) (errors : Fin 3)
  /-- EASEL_SCRUB (R409): The Easel scrubs a word and corrects a single error. -/
  | easelScrub (t : TileId) (addr : Fin 4194304) (errors : Fin 3)
  /-- EASEL_RETENTION (R414): Setting a RET bit drops a bank into retention. -/
  | easelRetention (t : TileId) (ret : BitVec 32)
  /-- EASEL_WAKE_DONE (R414): A retained bank wakes and the waiting access completes. -/
  | easelWakeDone (t : TileId) (bank : Fin 32)
  /-- SLOT_GRANT (R447): A waiting subchannel receives an exchange slot and the journal entry is written. -/
  | slotGrant (v : VatId)
  /-- PACKET_FETCH (R436): The vat fetches, checks and translates the next packet. -/
  | packetFetch (n : SubId)
  /-- XACK (R478): An XACK arrives; the journal advances or the exchange ends. -/
  | xack (m : FeltHdr) (status : Octet) (dstat : BitVec 16) (moved : Nat)
  /-- XDATA (R477): An inbound data message is converted and written to the data area. -/
  | xdata (m : FeltHdr) (octets : List Octet) (last : Bool) (poison : Bool)
  /-- RECORD (R457): A RECORD reply resolves the outcome of an exchange. -/
  | record (m : FeltHdr) (found : Bool) (lastGen : Fin 1048576) (highCseq : Fin 4096) (status : Octet)
  /-- ACK_TIMEOUT (R453): No acknowledgement arrives within 2^TMO ms and the path fails. -/
  | ackTimeout (n : SubId)
  /-- PATH_WAIT_TIMEOUT (R452): No path of LPM becomes available within 2^TMO ms. -/
  | pathWaitTimeout (n : SubId)
  /-- HALT_TIMEOUT (R457): A halt or clear receives no answer in time and is resolved. -/
  | haltTimeout (n : SubId)
  /-- SUBCHANNEL_MOVE (R424): An idle moved subchannel's control block is copied to its new vat and slot. -/
  | subchannelMove (n : SubId)
  /-- PATH_UPDATE (R486): Path words naming a link are updated and a PATH notice is made pending. -/
  | pathUpdate (l : LinkId)
  /-- VAT_RESTART (R458): A vat leaving reset reads its journal and continues each exchange. -/
  | vatRestart (v : VatId)
  /-- DATA_FLIT (R473): A DATA flit is accepted or discarded with NAK, and its ACK and credits taken. -/
  | dataFlit (l : LinkId) (lane : Fin 8) (h : FlitHdr) (crcGood : Bool)
  /-- IDLE_FLIT (R473): An IDLE flit's ACK, NAK and credits are taken. -/
  | idleFlit (l : LinkId) (lane : Fin 8) (h : FlitHdr) (crcGood : Bool)
  /-- REPLAY_TIMEOUT (R474): ACK has not advanced for 8 µs and the sender replays. -/
  | replayTimeout (l : LinkId)
  /-- ACK_TIMER (R473): A microsecond passes with unacknowledged flits and an ACK is sent. -/
  | ackTimer (l : LinkId)
  /-- LINK_IDENTIFY (R482): An IDENTIFY is received and the version is agreed or MISMATCH entered. -/
  | linkIdentify (l : LinkId) (words : Vector Word 8)
  /-- SLEEP (R484): A SLEEP CTRL flit is received and answered. -/
  | sleep (l : LinkId)
  /-- SLEEP_ACK (R484): SLEEP-ACK is received and the link enters SLEEP. -/
  | sleepAck (l : LinkId)
  /-- SLEEP_IDLE (R484): 20 µs pass with no DATA flit and the end sends SLEEP. -/
  | sleepIdle (l : LinkId)
  /-- LINK_WAKE (R484): A flit to send wakes a sleeping link. -/
  | linkWake (l : LinkId)
  /-- LANE_LOSS (R467): A lane loses signal for 10 µs and the link degrades or goes down. -/
  | laneLoss (l : LinkId) (lane : Fin 8)
  /-- DETECT_POLL (R479): DETECT looks for a partner once per millisecond. -/
  | detectPoll (l : LinkId) (found : Bool)
  /-- TRAINING_TIMEOUT (R480): TRAIN, ALIGN or IDENT times out and the link falls back a rate or returns to DETECT. -/
  | trainingTimeout (l : LinkId)
  /-- TRAINING_DONE (R479): Equalisation or alignment completes and the link advances state. -/
  | trainingDone (l : LinkId)
  /-- LINK_EN_WRITE (R479): A write of EN disables a link or releases it to DETECT. -/
  | linkEnWrite (l : LinkId) (en : Bool)
  /-- WWRITE (R491): A WWRITE request writes words into an inbound window and signals. -/
  | wwrite (m : FeltHdr) (devaddr : BitVec 16) (octets : List Octet) (poison : Bool)
  /-- SESSION_SENSE (R460): A session SENSE returns the previous session and the exchange record. -/
  | sessionSense (m : FeltHdr)
  /-- XREQ_REJECT (R490): An XREQ with another code, or on a group A or B link, is answered with status 0o01. -/
  | xreqReject (m : FeltHdr) (code : Octet)
  /-- WINDOW_ARM (R492): A write of ARM makes a window shadow active at the next boundary. -/
  | windowArm (t : TileId) (w : Fin 16)
  /-- CAL_JOB_START (R500): A free run position takes the next job from the queues. -/
  | calJobStart (t : TileId)
  /-- CAL_JOB_END (R507): A Calender job ends or pauses and writes its status word last. -/
  | calJobEnd (t : TileId) (queue : SheetId)
  /-- CAL_SLOT_PREEMPT (R501): 224 µs into a sealed slot the running jobs are saved and the state cleared. -/
  | calSlotPreempt (t : TileId)
  /-- CAL_SLOT_START (R501): A sealed slot begins and its sheet's jobs run. -/
  | calSlotStart (t : TileId) (slot : Fin 64)
  /-- VAR_JOB_START (R523): A free AES core takes a job from the queues. -/
  | varJobStart (t : TileId)
  /-- VAR_JOB_END (R538): A Varnish job or key operation ends and writes its status word last. -/
  | varJobEnd (t : TileId) (queue : SheetId)
  /-- VAR_SLOT_PREEMPT (R524): 28 µs into a sealed slot jobs stop and the cores are cleared. -/
  | varSlotPreempt (t : TileId)
  /-- VAR_SLOT_START (R524): A sealed Varnish slot begins. -/
  | varSlotStart (t : TileId) (slot : Fin 64)
  /-- CONFIG_REQUEST (R547): A configuration request to PF0 or PF1 is answered. -/
  | configRequest (f : Fin 2) (reg : Fin 1024) (write : Option (BitVec 32)) (be : BitVec 4)
  /-- BAR0_WRITE (R551): A host write to a PF0 or PF1 BAR0 register. -/
  | bar0Write (f : Fin 2) (off : Fin 262144) (value : BitVec 32)
  /-- CRTAIL_DOORBELL (R552): A write of CRTAIL posts console packets. -/
  | crtailDoorbell (tail : BitVec 16)
  /-- SVRST (R553): Writes of the key bytes to SVRST start a supervisor-only reset. -/
  | svrst (first second : Octet) (within : Bool)
  /-- BAR2_READ (R554): A host reads mailbox words over port B. -/
  | bar2Read (word : Fin 65536) (count : Fin 513) (portAWrites : Bool) (uncorrectable : Bool)
  /-- BAR2_WRITE (R554): A host writes mailbox words over port B. -/
  | bar2Write (off : Fin 524288) (octets : List Octet) (enables : List Bool) (ep : Bool)
  /-- HTAIL_DOORBELL (R559): A host write of HTAIL posts H2S messages. -/
  | htailDoorbell (q : SheetId) (tail : BitVec 16)
  /-- H2S_MOVE (R559): The endpoint copies a host slot into the sheet ring. -/
  | h2sMove (q : SheetId) (octets : List Octet) (ep : Bool)
  /-- S2H_MOVE (R559): The endpoint copies a sheet line into the host ring and sends vector q. -/
  | s2hMove (q : SheetId)
  /-- STAIL_DOORBELL (R560): A program OUT of STAIL posts S2H messages. -/
  | stailDoorbell (q : SheetId) (tail : BitVec 16)
  /-- COMPLETION_TIMEOUT (R559): A host read times out; QERR is set and the queue stops. -/
  | completionTimeout (q : SheetId)
  /-- MSI_SEND (R562): A held interrupt message is sent once unmasked with Bus Master Enable 1. -/
  | msiSend (f : Fin 2) (vector : Fin 64)
  /-- BUS_MASTER_ENABLE_CLEAR (R566): Clearing Bus Master Enable stops requests and flips the tag epoch. -/
  | busMasterEnableClear (f : Fin 2)
  /-- FLR (R566): A function-level reset returns a function's registers to Reset values. -/
  | flr (f : Fin 2)
  /-- HOT_RESET (R566): A hot reset or link down resets both functions. -/
  | hotReset
  /-- PERST_N_ASSERT (R566): PERST_N asserts and both functions reset; `ns` is how long it stays low (R660). -/
  | perstNAssert (ns : Nat)
  /-- PERST_N_DEASSERT (R567): PERST_N deasserts and the endpoint answers with retry status until ready. -/
  | perstNDeassert
  /-- ASPM_L1_ENTRY (R563): After 32 µs idle the endpoint enters L1. -/
  | aspmL1Entry
  /-- ASPM_L0S_ENTRY (R563): After 7 µs idle without Flit Mode the endpoint enters L0s. -/
  | aspmL0sEntry
  /-- ROOTP_CONFIG_ISSUE (R569): A write of GO issues one configuration request. -/
  | rootpConfigIssue (p : RootId) (v : Word)
  /-- ROOTP_CONFIG_COMPLETION (R569): A configuration completion arrives and BUSY clears with STAT. -/
  | rootpConfigCompletion (p : RootId) (stat : Fin 8) (data : BitVec 32)
  /-- INBOUND_REQUEST (R570): An inbound root-port request is translated and checked through the deckle map. -/
  | inboundRequest (p : RootId) (r : InboundReq)
  /-- CONTAINMENT (R571): An error enters containment and holds the link disabled. -/
  | containment (p : RootId) (cause : Fin 16) (hdr : Vector Word 4)
  /-- CONTAINMENT_RELEASE (R572): REL acts after 100 ms, clears CONT and retrains the link. -/
  | containmentRelease (p : RootId)
  /-- ROOTP_WINDOW_ARM (R570): ARM swaps a root-port window shadow in at the next TLP boundary. -/
  | rootpWindowArm (p : RootId) (w : Fin 16)
  /-- ROOTP_LINK_ENABLE (R568): A write of LEN enables or disables the root-port link. -/
  | rootpLinkEnable (p : RootId) (en : Bool)
  /-- CONSOLE_PACKET_TAKE (R576): Firmware reads the next command packet from the ring. -/
  | consolePacketTake (octets : List Octet) (ep : Bool)
  /-- IDENTIFY (R670): Returns part, serial, Dunul release and command versions. -/
  | identify (h : ConHdr)
  /-- SET_VERSION (R579): Selects the command-set version. -/
  | setVersion (h : ConHdr) (version : BitVec 32)
  /-- MODULE_STATUS (R581): Returns the triptych statuses and MSTAT. -/
  | moduleStatus (h : ConHdr)
  /-- OP_RELEASE (R586): Frees a done token slot. -/
  | opRelease (h : ConHdr) (token : BitVec 32)
  /-- OP_ABORT (R585): Ends a running memory-service command or FAULT_SCAN. -/
  | opAbort (h : ConHdr) (token : BitVec 32)
  /-- SHEET_QUERY (R581): Returns a sheet's state, service core and start record. -/
  | sheetQuery (h : ConHdr) (sheet : BitVec 32)
  /-- SHEET_START (R600): Starts a valid sheet at its start address. -/
  | sheetStart (h : ConHdr) (sheet : BitVec 32) (start : HostWord)
  /-- SHEET_STOP (R581): Stops every core of a running sheet. -/
  | sheetStop (h : ConHdr) (sheet : BitVec 32)
  /-- SHEET_RESET (R640): Resets a sheet and optionally restarts it. -/
  | sheetReset (h : ConHdr) (sheet : BitVec 32) (flags : BitVec 32)
  /-- MASTER_RELEASE (R67): Releases a frozen master in DELIVER or DISCARD mode. -/
  | masterRelease (h : ConHdr) (type ident mode : BitVec 32)
  /-- SHEET_NOTICE (R598): Makes a HOST service notice pending at a sheet. -/
  | sheetNotice (h : ConHdr) (sheet value : BitVec 32)
  /-- WM_QUERY (R602): Returns the WMARK registers. -/
  | wmQuery (h : ConHdr)
  /-- AUTH_NONCE (R594): Returns a fresh nonce for a signed command. -/
  | authNonce (h : ConHdr)
  /-- WATERMARK_COMMIT (R591): Snapshots, validates, stamps and applies the staged configuration; `assign` holds the part of it that
  has no register (R41, R50). -/
  | watermarkCommit (h : ConHdr) (assign : Assign)
  /-- WATERMARK_REVERT (R593): Makes the pentimento current by the commit steps. -/
  | watermarkRevert (h : ConHdr)
  /-- STAGE_DISCARD (R581): Sets every shadow to the value in effect. -/
  | stageDiscard (h : ConHdr)
  /-- FLASH_WRITE_DONE (R666): A watermark or session record write to the flash completes or fails. -/
  | flashWriteDone (ok : Bool)
  /-- COMMIT_WAVE (R592): A wave of a stamped commit applies at each block. -/
  | commitWave
  /-- CORE_QUERY (R581): Returns a core's state and RETRY_STAT. -/
  | coreQuery (h : ConHdr) (core : BitVec 32)
  /-- CORE_RESTART (R581): Resumes a STOPPED core from its checkpoint. -/
  | coreRestart (h : ConHdr) (core : BitVec 32)
  /-- CORE_RETEST (R359): Retests a FAILED core and returns it as spare or off. -/
  | coreRetest (h : ConHdr) (core : BitVec 32) (pass : Bool)
  /-- SUPERVISOR_RESTART (R379): Restarts a HALTED quire or tile triptych. -/
  | supervisorRestart (h : ConHdr) (level number : BitVec 32)
  /-- CKPT_READ (R671): Returns a register from the checkpoint of a FAILED core. -/
  | ckptRead (h : ConHdr) (core kind : BitVec 32) (selector : HostWord)
  /-- FAULT_SCAN (R672): Reports every non-zero FSTAT of a scope. -/
  | faultScan (h : ConHdr) (scope tile : BitVec 32)
  /-- FAULT_INJECT (R620): Arms an injected fault in a block. -/
  | faultInject (h : ConHdr) (addr : HostWord) (core source : BitVec 32)
  /-- FAULT_CLEAR (R611): Clears FSTAT bits of a block. -/
  | faultClear (h : ConHdr) (addr : HostWord) (core : BitVec 32) (mask : HostWord)
  /-- LINK_QUERY (R581): Returns a link's state, partner and counters. -/
  | linkQuery (h : ConHdr) (tile group lane : BitVec 32)
  /-- LINK_RESET (R581): Writes EN 0 and then 1 for a link. -/
  | linkReset (h : ConHdr) (tile group lane : BitVec 32)
  /-- REG_READ (R590): Reads register values in effect through the console. -/
  | regRead (h : ConHdr) (addr : HostWord) (count core : BitVec 32)
  /-- REG_WRITE (R588): Writes register values through the console under the class rules. -/
  | regWrite (h : ConHdr) (addr : HostWord) (count core : BitVec 32) (values : List HostWord)
  /-- SHADOW_READ (R581): Reads the shadow values of S-class fields. -/
  | shadowRead (h : ConHdr) (addr : HostWord) (count : BitVec 32)
  /-- MEM_READ (R582): Copies sheet memory into a host buffer. -/
  | memRead (h : ConHdr) (sheet : BitVec 32) (addr : HostWord) (words : BitVec 32) (buffer : BitVec 64) (image : BitVec 32)
  /-- MEM_WRITE (R582): Copies a host buffer into sheet memory. -/
  | memWrite (h : ConHdr) (sheet : BitVec 32) (addr : HostWord) (words : BitVec 32) (octets : List Octet) (ep : Bool) (image : BitVec 32)
  /-- MEM_ZERO (R582): Zeroes sheet memory. -/
  | memZero (h : ConHdr) (sheet : BitVec 32) (addr : HostWord) (words : BitVec 32)
  /-- CAL_JOB (R519): Runs a Calender job for a sheet from the console. -/
  | calJob (h : ConHdr) (sheet : BitVec 32) (expand : Bool) (block : Vector HostWord 12)
  /-- DIE_MIGRATE (R403): Sets START of STACK_MIG for a die. -/
  | dieMigrate (h : ConHdr) (tile controller die : BitVec 32)
  /-- HELD_ACCESS_RETRY (R590): Firmware retries an abandoned access to a block in reset every 1 ms. -/
  | heldAccessRetry (a : RegAt)
  /-- ACCESS_TIMEOUT (R43): An access held for a block in reset times out after 65,536 cycles. -/
  | accessTimeout (c : CoreId)
  /-- HEARTBEAT (R583): Firmware raises the mailbox heartbeat every 1 ms. -/
  | heartbeat
  /-- STAGING_CHUNK (R649): Firmware takes a staged image chunk and verifies the image after FINAL. -/
  | stagingChunk (keyMatches sigValid : Bool)
  /-- FAULT_EVENT (R612): A block source records a fault and takes its reaction on a clear-to-set change. For an error in an array, `line`
  is the line it lies in, and `flips` the bits in error of the line's nine codewords in an L2 or L3 (R289-R293); `others` are
  the sources that record in the same cycle (R610). -/
  | faultEvent (b : Blk) (src : Fin 18) (info : Word) (line : LineAddr) (flips : List (Fin 720)) (others : List (Fin 18 × Word))
  /-- FINJ_WRITE (R620): A write of FINJ arms or replaces an injection. -/
  | finjWrite (b : Blk) (v : Word)
  /-- INJECTION_FIRE (R620): An armed injection fires after DELAY cycles; `real` is a real fault of its source in that cycle (R621). -/
  | injectionFire (b : Blk) (real : Option (Word × LineAddr × List (Fin 720)))
  /-- RESET_SHADOW_END (R618): 64 cycles after a reset ends the reset shadow lifts. -/
  | resetShadowEnd (b : Blk)
  /-- BLOCK_RESET_END (R613): A block leaves reset and held accesses are applied. -/
  | blockResetEnd (b : Blk)
  /-- QUIRE_RESET (R640): Firmware resets a quire. -/
  | quireReset (q : QuireId)
  /-- TILE_RESET (R640): Firmware resets a tile. -/
  | tileReset (t : TileId)
  /-- PWROK_RISE (R640): PWROK asserts and a cold reset starts the gesso sequence. -/
  | pwrokRise (bootsrc : Fin 4)
  /-- PWROK_FALL (R625): PWROK deasserts; cores stop and VIN current falls; `ns` is how long it stays low (R660). -/
  | pwrokFall (ns : Nat)
  /-- VAUX_LOSS (R625): Loss of VAUX is a cold reset. -/
  | vauxLoss
  /-- VIN_FAULT (R641): VIN out of ±5% for 1 µs starts a module reset. -/
  | vinFault (millivolts : Fin 4096)
  /-- MOD_RESET_N_ASSERT (R641): MOD_RESET_N low for 1 µs starts a module reset; `ns` is how long it stays low (R660). -/
  | modResetNAssert (ns : Nat)
  /-- MODULE_RESET_HOLD_END (R648): The reset hold ends and the module-reset gesso sequence starts. -/
  | moduleResetHoldEnd
  /-- RST_MOD_KEY (R642): Writes of the key values to RST_MOD start a module reset. -/
  | rstModKey (first second : Nonet) (within : Bool)
  /-- REFCLK_LOSS (R637): REFCLK is lost and the PLL enters holdover. -/
  | refclkLoss
  /-- PLL_UNLOCK (R637): The root PLL loses lock. -/
  | pllUnlock
  /-- GESSO_STEP_END (R647): A gesso step ends and the next begins. -/
  | gessoStepEnd (copyA copyB : DunulHdr) (trainFails : List (McId × Fin 32)) (failedCores : List CoreId)
      (failedPorts : List (TileId × Fin 7)) (spares : List (QuireId × Fin 6))
  /-- THERMAL_SAMPLE (R639): THERM reads its sensors and applies the warning, floor or trip action. -/
  | thermalSample (temps : Vector (Fin 512) 64)
  /-- LFI_FRAME (R632): A Load Forecast Interface frame is published. -/
  | lfiFrame (amps : Fin 2048) (shedding : Bool)
  /-- LARGE_STEP_GRANT (R630): The LFI grants the next large step. -/
  | largeStepGrant
  /-- LARGE_STEP_BEGIN (R630): 2 µs after the first frame that includes it the large step begins. -/
  | largeStepBegin
  /-- STEP_CHANGE (R635): A write of STEP changes a quire's CK_CORE step. -/
  | stepChange (q : QuireId) (step : Fin 4)
  /-- STEP_CHANGE_DONE (R635): A step change ends and a held STEP write acts. -/
  | stepChangeDone (q : QuireId)
  /-- CLOCK_STRETCH (R636): The quire rail droops and every second CK_CORE edge is suppressed. -/
  | clockStretch (q : QuireId)
  /-- STRETCH_END (R636): 64 cycles after the rail recovers every edge is restored. -/
  | stretchEnd (q : QuireId)
  /-- POWER_GATE_TIMEOUT (R638): A core in WAIT for 1 ms with PGW set enters the cold state. -/
  | powerGateTimeout (c : CoreId)
  /-- SMBADDR_SAMPLE (R662): 1 ms after VAUX is valid the SMBus address strap is sampled. -/
  | smbaddrSample (addr : Fin 8)
  /-- SMBUS_IDENT (R665): The SMBus target returns the identity block. -/
  | smbusIdent
  /-- SMBUS_STATUS (R665): The SMBus target returns the status byte. -/
  | smbusStatus
  /-- SMBUS_TEMP (R665): The SMBus target returns the hottest temperature. -/
  | smbusTemp
  /-- SMBUS_VIN (R665): The SMBus target returns VIN. -/
  | smbusVin
  /-- SMBUS_IIN (R665): The SMBus target returns the VIN current. -/
  | smbusIin
  /-- SMBUS_LASTRST (R665): The SMBus target returns the last reset level and cause. -/
  | smbusLastrst
  /-- BYPASS (R667): JTAG BYPASS instruction. -/
  | bypass
  /-- IDCODE (R667): JTAG IDCODE instruction. -/
  | idcode
  /-- SAMPLE_PRELOAD (R667): JTAG SAMPLE/PRELOAD instruction. -/
  | samplePreload
  /-- EXTEST (R668): JTAG EXTEST, acting only while MOD_RESET_N is low. -/
  | extest
  /-- EXTEST_PULSE (R668): JTAG EXTEST_PULSE. -/
  | extestPulse
  /-- EXTEST_TRAIN (R668): JTAG EXTEST_TRAIN. -/
  | extestTrain
  /-- HIGHZ (R668): JTAG HIGHZ. -/
  | highz
  /-- CLAMP (R668): JTAG CLAMP. -/
  | clamp
  /-- READ_CLEAR (R17): A read of an RC field returns it and clears it. -/
  | readClear (r : RegAt)
  /-- REGISTER_WRITE (R17): A write to a register with no row of its own, under its access codes and classes. -/
  | registerWrite (r : RegAt) (value : Word) (console : Bool)
  /-- QUIRE_CMP (R332): The issuing quire receives Cmp for its MClean, MFlush or MPurge, ends its stall of loads and stores to the line, and the CWB, CWBI or CINV can complete. -/
  | quireCmp (q : QuireId) (line : LineAddr)
  /-- PARTNER_LEAVE (R485): A LEAVE CTRL flit arrives from a version 2.1 partner and the link goes down with DCAUSE LEAVE, discards its replay buffer and enters DETECT. -/
  | partnerLeave (l : LinkId)
deriving DecidableEq, Repr

end Sys2Proof
end

