-- ==== Sys2Proof/Machine/State.lean ====
section
/-! DEFINITION. The state of the module as plain data, why a command can stop, and the state right after reset.
Every register that has an IO-space address (R36) stands in `State.regs` under its address; what has no address
(core registers, memory, caches, queues, protocol state) has a field of its own. -/

namespace Sys2Proof.Machine

open Sys2Proof

/-- One register bank of a core: G0-G15, P0-P7, the PSW, the stack limit and whether the bank is busy (R238, R239). -/
structure Bank where
  g    : Vector Word 16
  p    : Vector DWord 8
  psw  : DWord
  slim : DWord
  busy : Bool
deriving DecidableEq, Repr

/-- A pending asynchronous interruption: level and the IREC fields its entry writes (R243, R247). -/
structure Irq where
  level : Nat
  code  : Nat
  param : Nat
  info  : Word
deriving DecidableEq, Repr

/-- What a store-buffer entry does when it is performed: a store, or a retired cache instruction (R279, R307). -/
inductive StoreKind where
  | data | cwb | cwbi | cinv | czero
deriving DecidableEq, Repr

/-- A committed store: the module-physical doubleword it lies in, the bits it writes, their values, and whether it is a
release write (R81, R265, R282). -/
structure Store where
  kind  : StoreKind
  addr  : Nat
  mask  : DWord
  value : DWord
  rel   : Bool
deriving DecidableEq, Repr

/-- The gather buffer: window, 16-word-aligned block of window offsets, and the words joined (R277). -/
structure Gather where
  window : Nat
  block  : Nat
  words  : Tab (Option Word)
deriving DecidableEq, Repr

/-- An OUT to a device window that has not reached its end point, and whether its zero-length read has been sent (R276). -/
structure DevOut where
  window : Nat
  offset : Nat
  value  : Word
  ewa    : Bool
  asked  : Bool
deriving DecidableEq, Repr

/-- A cached translation: space (true D), ASN tag, G, virtual page, large or 4 KiW, sheet-absolute page, the
permission bits of the leaf, and the sheet-absolute address and level of the leaf entry (R108). -/
structure Tlb where
  dspace : Bool
  asn    : Nat
  global : Bool
  large  : Bool
  vpage  : Nat
  page   : Nat
  leaf   : DWord
  leafAt : Nat
deriving DecidableEq, Repr

/-- What a core is doing (R202, R205, R351, R62): running, in WAIT, stopped (and whether it was in WAIT), frozen,
waiting for the data of an IN to a device window (the operand encoding is kept to write the destination, and the root port
as 2 tile + instance), or holding an instruction at a block in reset, with the address of the instruction after it and its place among all accesses
held: an IN or OUT (R43), or one that returns a CC at a vat or an engine (R429, R505). -/
inductive Run where
  | running
  | wait
  | stopped (inWait : Bool)
  | frozen
  | devIn (n : Insn) (port : Nat)
  | held (i : Instr) (b : Blk) (next order : Nat)
deriving DecidableEq, Repr

/-- State of a core as QTRIP_CSTATE shows it (R386). -/
inductive CState where
  | off | active | spare | couching | failed | stopped
deriving DecidableEq, Repr

/-- A couching in progress, kept at the shed core, with the clock at its SHED (R358-R366). -/
structure Couch where
  cause       : Nat
  shedAt      : Nat
  spare       : Option Nat
  woke        : Bool
  transferred : Bool
  lostLines   : List Nat
deriving DecidableEq, Repr

/-- One Porsal-36 core. Its register part is also its checkpoint: commands retire whole, so the checkpoint after the
last error-free retire group is the state itself (R351). `pausing`: a PAUSE waits for the instruction in progress to end (R205). -/
structure Core where
  banks   : Tab Bank
  level   : Nat
  gesso   : Bool
  spills  : Nat
  f       : Vector DWord 16
  fpc     : Word
  ctl     : Tab DWord
  sheet   : Option Nat
  cstate  : CState
  run     : Run
  cold    : Bool
  pend    : List Irq
  stores  : List Store
  gather  : Option Gather
  outs    : List DevOut
  tlb     : List Tlb
  walk    : List (Nat × DWord)
  couch   : Option Couch
  discard : Bool
  pausing : Bool
deriving DecidableEq, Repr

/-- State of a line at a quire agent (R320, R321). -/
inductive QState where
  | m | o | e | s | i | isD | imAD | smAD | omAD | imA | miA | eiA | iiA
deriving DecidableEq, Repr

/-- The kind of a request (R323), and the victim recall of R339. -/
inductive ReqKind where
  | getS | getM | getZ | putM | putE | mClean | mFlush | mPurge | readNC
  | writeNC (mask : BitVec 16) (words : Vector Word 16)
  | atomNC (op : AtomOp) (dbl : Bool) (word : Nat) (operand : DWord)
  | victim
deriving DecidableEq, Repr

/-- A line as its quire agent holds it (R285, R286, R320-R332): protocol state, data, whether it differs from the home's
value, InvAcks received and expected, the open GetS, GetM, GetZ or Put with its retry count, the way of its set, the L1Is
and L1Ds of the quire that hold it (bit i for core i), the core that has write permission, and the core whose L1D copy is
dirty. `data` is the line's current value, a dirty L1D copy included. -/
structure QLine where
  st      : QState
  data    : Line
  dirty   : Bool
  acks    : Nat
  expect  : Option Nat
  req     : Option ReqKind
  count   : Nat
  retried : Bool
  way     : Option Nat
  l1i     : BitVec 6
  l1d     : BitVec 6
  perm    : Option Nat
  l1dirty : Option Nat
deriving DecidableEq, Repr

/-- An open request that has no line state of its own: a maintenance request of a quire, or a non-caching request of an
index (R316, R328, R332): requester index, line, request, retry count, and whether a Retry has come. -/
structure OpenReq where
  who     : Nat
  line    : Nat
  kind    : ReqKind
  count   : Nat
  retried : Bool
deriving DecidableEq, Repr

/-- Stable home state (R322). -/
inductive HState where
  | di | ds | dO | dx
deriving DecidableEq, Repr

/-- Busy home state (R322). -/
inductive BState where
  | bd | bs | bc
deriving DecidableEq, Repr

/-- A request at a home: kind, requester index, retry count and the line a Put carries (R323, R326). -/
structure HReq where
  kind : ReqKind
  who  : Nat
  cnt  : Nat
  data : Option Line
deriving DecidableEq, Repr

/-- The transaction a busy line runs: its busy state, the request, InvAcks still missing, whether RData or SData is
still missing, the RData line held, and whether the forward was a FwdGetS (R322, R335, R336). -/
structure Txn where
  busy   : BState
  req    : HReq
  acks   : List Nat
  needD  : Bool
  got    : Option (Line × Bool)
  fwd    : Bool
deriving DecidableEq, Repr

/-- A directory entry (R322): the stable state a busy entry started from is `st`; `used` is the LRU stamp of R339. -/
structure DirEntry where
  st      : HState
  bc      : Bool
  owner   : Option Nat
  sharers : List Nat
  txn     : Option Txn
  queue   : List HReq
  used    : Nat
deriving DecidableEq, Repr

/-- A line in an L3 slice (R287). -/
structure L3Line where
  data  : Line
  dirty : Bool
deriving DecidableEq, Repr

/-- A reserved request at a home: requester index, line, and its request (R340); `own` is false for a request that was already
queued for its line when it came to need a way, which waits its turn behind the reservations. -/
structure Reserve where
  own  : Bool
  who  : Nat
  line : Nat
  req  : HReq
deriving DecidableEq, Repr

/-- What a home slice keeps beside its entries: rotation pointer (R327), LRU clock, requests waiting for a way with
their line (R339), reservations in the order granted (R340), and the requests of a CK_WEB cycle in which more are still to
arrive for the same line (R327). -/
structure Home where
  ptr      : Nat
  stamp    : Nat
  waiting  : List (Nat × HReq)
  resv     : List Reserve
  arrivals : List (Nat × HReq)
deriving DecidableEq, Repr

/-- An L2 way lock: none, holding a line, or empty after the line was invalidated (R296-R299). -/
inductive LockSlot where
  | none | full (line : Nat) | vacant (line : Nat)
deriving DecidableEq, Repr

/-- What a sheet keeps beside its DECKLE registers: running, checkstopped, the start record (R344, R600). -/
structure Sheet where
  running   : Bool
  checkstop : Bool
  start     : Option Word
deriving DecidableEq, Repr

/-- A frozen master: TYPE, IDENT, sheet and freeze record index, none when no record was free (R61, R65, R72). -/
structure Frozen where
  type  : Nat
  ident : Nat
  sheet : Nat
  recIdx : Option Nat
deriving DecidableEq, Repr

/-- A page that a unit of a tile has translated for a sheet: the virtual address of its first word touched, with that word's
sheet-absolute and module-physical address, and where its leaf stands, none with DAT = 0 (R101, R443). -/
structure Page where
  tile   : Nat
  sheet  : Nat
  va     : Nat
  sa     : Nat
  mp     : Nat
  leafAt : Option Nat
deriving DecidableEq, Repr

/-- A packet of the open command: ring index, COUNT, LINK, LENOK, data area and its translated pages (R437, R439, R443). -/
structure Pkt where
  idx   : Nat
  count : Nat
  link  : Nat
  lenok : Bool
  data  : Nat
  pages : List Page
deriving DecidableEq, Repr

/-- The vat's working registers for the exchange of a subchannel: packets of the open command and word 0 of the first,
its inline blocks, the next packet, whether a packet has been fetched in the exchange, whether
the packet at PKT is still to join the command, whether the command waits for a path or
has been sent, the path kept, octets sent out, whether an octet of the command has left, octets received, what has moved, re-drives, DSTAT, DETAIL and ADDR for the IRB, the error to end with after the
acknowledgement, and why the exchange is being resolved (R434, R439, R451-R457). -/
structure Xch where
  packets  : List Pkt
  head     : Word
  xpb      : List Word
  next     : Nat
  fetched  : Bool
  noted    : Bool
  ready    : Bool
  sent     : Bool
  path     : Option Nat
  out      : List Octet
  left     : Bool
  inb      : List Octet
  moved    : Nat
  redrive  : Nat
  redrives : Nat
  dstat    : Nat
  detail   : Nat
  addr     : Nat
  resume   : Bool
  err      : Option Nat
  halted   : Bool
  cleared  : Bool
  xchFlag  : Bool
  cause    : Nat
  quiet    : Bool
  queried  : Bool
deriving DecidableEq, Repr

/-- The body of a felt message (R478). -/
inductive FeltBody where
  | none
  | req (op fmt count : Nat)
  | data (octets : List Octet)
  | ack (dstat : Nat) (moved : Nat)
deriving DecidableEq, Repr

/-- A felt message to send: virtual channel, sheet whose traffic it is, header fields and body (R475-R478). -/
structure FeltMsg where
  vc      : Nat
  sheet   : Nat
  mtype   : Nat
  xid     : Nat
  gen     : Nat
  cseq    : Nat
  devaddr : Nat
  code    : Nat
  body    : FeltBody
  poison  : Bool
  last    : Bool
deriving DecidableEq, Repr

/-- Replay, credit and training state of one felt link: next SEQ to send, last SEQ acknowledged, SEQ expected, NAK set,
replays and accepted flits since the last ACK, credits held and given, credits to return, messages waiting, rate in
training, the partner's last IDENTIFY, whether it changed, SLEEP sent, MAXB, the numbers of the next flits of the stream in each
direction and the flits that wait for their lane's turn, with their CRC's result (R466), and whether the link has come up since its path words were last set (R428, R472-R484). -/
structure Link where
  txSeq     : Nat
  acked     : Nat
  rxNext    : Nat
  nakSent   : Bool
  replays   : Nat
  unacked   : Nat
  txCred    : Vector Nat 4
  rxCred    : Vector Nat 4
  owed      : Vector Nat 4
  txq       : List FeltMsg
  rate      : Nat
  serial    : DWord
  session   : Word
  seen      : Bool
  changed   : Bool
  sleepReq  : Bool
  maxb      : Nat
  txFlit    : Nat
  rxFlit    : Nat
  rxHeld    : List (Nat × FlitHdr × Bool)
  cameUp    : Bool
deriving DecidableEq, Repr

/-- A translation context captured from a core (R432, R506), and the tile of the unit that translates under it. -/
structure Ctx where
  tile  : Nat
  sheet : Nat
  dat   : Bool
  prob  : Bool
  org   : Nat
  asn   : Nat
deriving DecidableEq, Repr

/-- A Calender job: sheet-absolute block address, the 12 parameter words, direction, context, whether it runs,
the console token slot it answers in, and its status words once its data has been processed (R503, R506, R507, R519). -/
structure CalJob where
  block   : Nat
  words   : Vector Word 12
  expand  : Bool
  ctx     : Ctx
  running : Bool
  console : Option Nat
  result  : Option (Vector Word 4)
deriving DecidableEq, Repr

/-- A Varnish job or key operation: sheet-absolute block address, its words, context, slot taken by UNWRAP or
GENERATE, whether it runs, and the status and count with which it ends once its data has been processed (R531, R534, R538). -/
structure VarJob where
  block   : Nat
  words   : Vector Word 12
  key     : Bool
  slot    : Option Nat
  ctx     : Ctx
  running : Bool
  result  : Option (Nat × Nat)
deriving DecidableEq, Repr

/-- A paused Calender job as its state area keeps it: the 256 words of the context as written, the direction and options,
the whole input consumed, as words or octets, and the output delivered, since the job began (R516, R517). The manual
gives the context's contents beyond its header and CRC no layout. -/
structure CalSave where
  context : List Word
  expand  : Bool
  fmt     : Nat
  level   : Nat
  pmode   : Nat
  stride  : Nat
  inWords : List Word
  inOcts  : List Octet
  outDone : Nat
deriving DecidableEq, Repr

/-- State of a key slot (R530, R532). -/
inductive KState where
  | free | loading | ready
deriving DecidableEq, Repr

/-- A key slot: state, owner, generation, usage and key octets (R529, R530). -/
structure KeySlot where
  st    : KState
  sheet : Nat
  gen   : Nat
  usage : Nat
  key   : List Octet
deriving DecidableEq, Repr

/-- A long console command in a token slot, with the reply that waits for the module triptych (R381, R577, R583). -/
structure LongOp where
  slot   : Nat
  op     : Nat
  target : Nat
  reply  : Option Nat
deriving DecidableEq, Repr

/-- The packet that firmware has taken and not yet answered (R576). -/
structure Taken where
  opcode : Nat
  tag    : Nat
  index  : Nat
deriving DecidableEq, Repr

/-- A watermark record of the boot flash: image, version, CRC, record sequence number, AUTH, and the cores and windows it
assigns (R591). -/
structure WmRec where
  image   : Tab Word
  version : Nat
  crc     : Nat
  seq     : Nat
  auth    : Bool
  assign  : Assign
deriving DecidableEq, Repr

/-- A commit in progress: snapshot of every shadow and B-class field, token slot, authentication, stamped, the wave to apply
next, the sheets whose quiesce point it waits for, and the cores and windows it assigns (R591-R593). -/
structure Commit where
  snapshot : Tab Word
  slot     : Nat
  auth     : Bool
  stamped  : Bool
  wave     : Nat
  version  : Nat
  crc      : Nat
  waiting  : List Nat
  assign   : Assign
deriving DecidableEq, Repr

/-- What a memory controller keeps beside its registers: corrected codewords per row and per die in this patrol pass
(R402, R403), spare rows used per bank and as the fuse row records them (R402), misdirections per pseudo-channel, the two copy pointers of a migration, the patrolled lines for
which a ReadNC is out, each with whether a newer write reached it (R401), rows whose copy is in progress (R402), whether 95 °C is
reported (R407), and module regions to be poisoned whole when it next accepts requests (R400). -/
structure MemCtl where
  rows    : Tab Nat
  dies    : Tab Nat
  spared  : Tab Nat
  fused   : Tab Nat
  misdir  : Tab Nat
  ptrs    : Vector Nat 2
  patrol  : List (Nat × Bool)
  copying : List Nat
  hot     : Bool
  defer   : List Nat
deriving DecidableEq, Repr

/-- A large step: what asked for it, and whether it is a couching wake (R630). -/
inductive StepKind where
  | coreWake (c : Nat) | quireWake (q : Nat) | stepUp (q : Nat) (step : Nat) | burst (t : Nat) | unthrottle (m : Nat)
deriving DecidableEq, Repr

/-- A pin of the board (R658) that the model keeps. -/
structure Pins where
  pwrok      : Bool
  modResetN  : Bool
  perstN     : Bool
  thermtripN : Bool
deriving DecidableEq, Repr

/-- Where the module stands in a reset or the gesso sequence, and whether of a cold reset (R641, R647, R648). -/
inductive Phase where
  | off | gesso (step : Nat) (cold : Bool) | hold (cold : Bool) | ready | tripped
deriving DecidableEq, Repr

/-- Register accesses of the console path held while their block is in reset: those of a console command, its checks passed, with
the offsets, or the offsets and values, in order; or a write of one register by firmware or a program (R590). -/
inductive HeldReg where
  | read (h : ConHdr) (b : Blk) (offs : List Nat)
  | write (h : ConHdr) (b : Blk) (vs : List (Nat × Word))
  | shadow (h : ConHdr) (b : Blk) (offs : List Nat)
  | single (r : RegAt) (v : Word) (console : Bool)
deriving DecidableEq, Repr

/-- A host access to BAR2 held while the Easel of tile 0 is in reset: octet offset, units to read or octets to write with their
byte enables, and the clock when it arrived (R555). -/
structure HostAcc where
  off   : Nat
  count : Nat
  write : Option (List Octet × List Bool)
  since : Nat
deriving DecidableEq, Repr

/-- The endpoint beside its registers: link state (0 L0, 1 L0s, 2 L1), PERST_N asserted, ready, the tag epochs, interrupt
messages pending as function and vector, the held halves of paired live fields, the clock of a first SVRST key, and host
accesses held (R553, R555, R562-R567, R589). -/
structure Endpt where
  linkState : Nat
  perst     : Bool
  ready     : Bool
  epoch     : Vector Bool 2
  msi       : List (Nat × Nat)
  half      : Tab (Option (BitVec 32))
  svArm     : Option Nat
  heldAcc   : List HostAcc
deriving DecidableEq, Repr

/-- A memory-service command under way (R582): its slot and sheet, whether it writes, the sheet-absolute address it has reached, the
words still to read, those to write, those read, the words done, the reply it ends with when all are done, and the host buffer and
image of a MEM_READ. -/
structure SvcJob where
  slot   : Nat
  sheet  : Nat
  write  : Bool
  addr   : Nat
  left   : Nat
  put    : List Word
  got    : List Word
  done   : Nat
  reply  : Nat
  buffer : Nat
  image  : Nat
deriving DecidableEq, Repr

/-- What goes on as soon as no line it needs is busy: a recovery cause with its line (R354-R357), a core lost with its reason (R368), a
spare released (R364), a memory-service command (R582), an L3 slice that is being emptied (R314); and the COUCH notice about shed core
`c`, due once spare `p` has run its first instruction (R367). -/
inductive Wait where
  | recover (c cause line : Nat) | lost (c reason : Nat) | release (p : Nat) | notice (c p : Nat) (ran : Bool)
  | svc (j : SvcJob) | slice (h : Nat)
deriving DecidableEq, Repr

/-- What the block sends to the outside world or to another of its agents: everything a partner, the host, the
board or the fabric would see. -/
inductive Sent where
  | web (msg : String) (src dst : Nat) (line : Nat) (data : Option Line) (n : Nat)
  | hostWrite (addr : Nat) (octets : List Octet) (ep : Bool)
  | hostRead (addr : Nat) (len : Nat)
  | configReply (value : BitVec 32) | configDone | configRetry | hostUnsupported | bar2Reply (units : List (BitVec 64)) (ep : Bool) | completerAbort
  | msi (f : Nat) (vector : Nat)
  | felt (link : Nat) (m : FeltMsg)
  | flit (link lane type vc seq ack : Nat) (nak : Bool) (cvc cred : Nat) | ctrl (link kind : Nat) (body : List Word)
  | devWrite (t i fn : Nat) (words : List (Nat × Word)) | devZeroRead (t i fn : Nat) | devRead (t i fn off : Nat)
  | functionReset (t i fn : Nat)
  | rootConfig (t i : Nat) (type1 : Bool) (addr : Word) (data : Word)
  | rootCompletion (t i : Nat) (octets : List Octet) (ep : Bool) | rootAbort (t i : Nat) | rootUnsupported (t i : Nat)
  | easelWord (slot : Nat) (w : Word) (busy : Bool) (err : Bool)
  | lineOut (m : Nat) (data : Line)
  | frame (bits : BitVec 16)
  | smbus (octets : List Octet)
  | jtag (bits : Nat) (width : Nat)
  | checkstop (sheet subject : Nat)
  | regValue (b : Blk) (off : Nat) (v : Word)
deriving DecidableEq, Repr

/-- The whole module. -/
structure State where
  /-- Commands waiting, first in, first out. -/
  pending   : List Instr
  /-- The module clock: CK_SUP cycles since the last cold or module reset (R204). -/
  clock     : DWord
  /-- The cores (R26), by physical number. -/
  cores     : Tab Core
  /-- Every register with an IO-space address: the value in effect (for a B-class field the value last written) (R15, R36, R588). -/
  regs      : Tab Word
  /-- The shadows of S-class fields; only S-class bits of an entry are ever used (R20). -/
  shadow    : Tab Word
  /-- The B-class values in effect since the last module reset (R20). -/
  bEff      : Tab Word
  /-- Lines at the quire agents: key quire * 2^34 + line (R320). -/
  qlines    : Tab QLine
  /-- Directory entries: key home * 2^34 + line (R322). -/
  dir       : Tab DirEntry
  /-- L3 lines: key home * 2^34 + line; absent is not held (R287). -/
  l3        : Tab (Option L3Line)
  /-- Home slices (R326-R340). -/
  homes     : Tab Home
  /-- The DRAM stacks: module-physical line address (R28, R387). -/
  dram      : Tab Line
  /-- Module regions poisoned whole (R400): their lines not listed in `dram` read as poisoned. -/
  poisoned  : List Nat
  /-- The sheet that last owned each module region, 64 for none (R408). -/
  lastOwner : Tab Nat
  /-- Requests that have reached retry count 64 and hold no reservation, in the order in which each first reached it:
  requester index, home, line (R340). -/
  order64   : List (Nat × Nat × Nat)
  /-- Messages that wait for a retained L2 to wake, oldest first: quire and the command that brought them (R638). -/
  l2Wait    : List (Nat × Instr)
  /-- L2 way locks: key quire * 2^18 + set * 16 + way (R296). -/
  locks     : Tab LockSlot
  /-- Writes of CORE_L1CTL and L2_CTL held while DRAINING is 1, oldest first (R305). -/
  heldEn    : List (CacheSel × Word)
  /-- Lines that a disabled cache kept in its array, which no coherence action reaches (R304): key cache * 2^34 + line, cache
  c for the L1I of core c, 192 + c for its L1D, 384 + q for the L2 of quire q. -/
  arrays    : Tab (Option Line)
  /-- Maintenance and non-caching requests that are open, oldest first (R328, R332). -/
  openReqs  : List OpenReq
  /-- Sheets (R49). -/
  sheets    : Tab Sheet
  /-- Frozen masters (R61). -/
  frozen    : List Frozen
  /-- Device windows: key sheet * 64 + window (R41). -/
  windows   : Tab Window
  /-- Easel words: key tile * 2^22 + E (R409). -/
  easel     : Tab Word
  /-- Easel banks that were in retention at the last cold reset, until the Easel is cleared: key tile * 32 + bank (R415). -/
  keptBanks : List Nat
  /-- Rotating priority of the Easel banks: key tile * 32 + bank (R411). -/
  easelRot  : Tab Nat
  /-- Accesses waiting for an Easel bank to wake from retention: key tile * 32 + bank (R414). -/
  easelWait : Tab (List EaselReq)
  /-- Memory controllers (R387-R408). -/
  memctl    : Tab MemCtl
  /-- Subchannels waiting for an exchange slot, per vat, oldest first (R425). -/
  vatWait   : Tab (List Nat)
  /-- The vats' working registers of each subchannel (R434). -/
  xch       : Tab Xch
  /-- Subchannels whose move to a new vat or slot is not done: number, old vat, old slot (R424). -/
  moves     : List (Nat × Nat × Nat)
  /-- Felt links, by the physical lane number of their first lane (R26, R463). -/
  links     : Tab Link
  /-- Partner serial of each record table 0-7, none when unassigned, with its session and the session before it (R460, R491). -/
  recTabs   : Tab (Option (DWord × Word × Option Word))
  /-- Calender queues: key tile * 64 + sheet (R499). -/
  calq      : Tab (List CalJob)
  /-- Paused Calender jobs, newest first (R516). -/
  calSaved  : List CalSave
  /-- Octets counted below the unit of 4,096 by CAL_INOCT and VAR_OCT: key tile, 8 + tile for Varnish (R521, R544). -/
  octRem    : Tab Nat
  /-- Calender wheel slot now running, per tile, none between slots (R501). -/
  calSlot   : Tab (Option Nat)
  /-- Varnish queues (R522). -/
  varq      : Tab (List VarJob)
  /-- Varnish wheel slot, per tile (R524). -/
  varSlot   : Tab (Option Nat)
  /-- Key store: key tile * 4096 + slot (R530). -/
  keys      : Tab KeySlot
  /-- Configuration space: key function * 1024 + doubleword (R547). -/
  pcicfg    : Tab (BitVec 32)
  /-- BAR0 registers: key function * 2^18 + octet offset (R551, R558). -/
  bar0      : Tab (BitVec 32)
  /-- The endpoint beside its registers. -/
  endpt     : Endpt
  /-- REL writes held until 100 ms have passed: root port keys tile * 2 + instance (R572). -/
  relHeld   : List Nat
  /-- The packet taken and not yet answered (R576). -/
  taken     : Option Taken
  /-- Selected command-set version: 1 or 2 (R579). -/
  conVer    : Nat
  /-- A nonce is outstanding (R594). -/
  nonce     : Option Nat
  /-- Long commands running (R577). -/
  longOps   : List LongOp
  /-- Register accesses of the console path held at a block in reset, oldest first: the access, the clock at which it
  arrived, and its place among all accesses held (R44, R590). -/
  portHeld  : List (HeldReg × Nat × Nat)
  /-- Accesses held so far at blocks in reset: the place of the next one. The model's own count (R44). -/
  heldSeq   : Nat
  /-- Work of recovery units, supervisors and slices that waits, oldest first. -/
  waits     : List Wait
  /-- The cores and windows in effect (R41, R50). -/
  assign    : Assign
  /-- Panel memory (R371): key (3 * triptych + panel) * 2^22 + word, triptychs 0-31 quires, 32-39 tiles, 40 the module. -/
  panels    : Tab Word
  /-- Register accesses firmware abandoned at a block in reset (R590). -/
  heldFw    : List RegAt
  /-- Watermark records of the boot flash, at most three (R591). -/
  records   : List WmRec
  /-- The commit, revert or discard in progress (R595). -/
  commit    : Option Commit
  /-- Session number in the boot flash (R460). -/
  session   : Word
  /-- Web ports that have failed: tile * 7 + port (R32). -/
  webDown   : List Nat
  /-- Designated spare core index of each quire (R27). -/
  spareOf   : Tab Nat
  /-- Blocks held in reset (R43, R613). -/
  inReset   : List Blk
  /-- Reset shadows in force: the resetting block and the neighbour it masks (R618). -/
  shadows   : List (Blk × Blk)
  /-- Injections waiting for a shadow to end (R620). -/
  injWait   : List Blk
  /-- Panel outvotes since the triptych last restarted: triptych, panel, clock (R375). -/
  outvotes  : List (Trip × Nat × Nat)
  /-- Triptychs that their parent has restarted since they halted (R379). -/
  restarted : List Trip
  /-- Triptychs whose duties their parent has taken over (R377). -/
  carried   : List Trip
  /-- Large steps waiting, oldest first, with whether each is a couching wake (R630). -/
  steps     : List (StepKind × Bool)
  /-- The large step granted and not begun, with whether a published frame includes it (R630). -/
  granted   : Option (StepKind × Bool)
  /-- The standing wake reserve of each tile: 0 free, 1 taken and in no frame yet, otherwise the clock from which it is free
  again (R363, R630). -/
  reserve   : Tab Nat
  /-- Tiles in which the warning action is in force (R639). -/
  warned    : List Nat
  /-- STEP writes held while a change is in progress, and changes in progress with their target (R635). -/
  stepHeld  : Tab (Option Nat)
  stepGoing : Tab (Option Nat)
  /-- Quires whose stretcher is engaged (R636), and quires forced to the lowest step (R639). -/
  stretched : List Nat
  forced    : List Nat
  /-- Sequence bit of the next frame (R632). -/
  frameSeq  : Bool
  /-- Pins (R658). -/
  pins      : Pins
  /-- The SMBus address strap as sampled, none before (R662). -/
  smbAddr   : Option Nat
  /-- The JTAG instruction register (R667). -/
  jtagIr    : BitVec 8
  /-- Reset and start-up phase (R641, R647). -/
  phase     : Phase
  /-- What the hold of a module reset still waits for: REFCLK and lock (1), VIN (2) (R637, R641). -/
  holdFor   : List Nat
  /-- The clock of a first RST_MOD key, none when none counts (R642). -/
  rstArm    : Option Nat
  /-- Staging: the chunk number expected next, none when not staging (R649). -/
  staging   : Option Nat
  /-- The first octets of the image being staged, MAGIC, FORMAT and LEN of its header (R645, R649). -/
  stageHdr  : List Octet
  /-- The clock at which the forecast current last went above ICAP, and at which it last came back, none before (R629). -/
  surge     : Option Nat × Option Nat
  /-- Everything the block has sent, newest first. -/
  sent      : List Sent
  /-- Reactions taken and not yet carried out: block and code (R613). Between commands it holds only notices to firmware that wait
  for a triptych to carry out the duty (R372, R377). -/
  reacts    : List (Blk × Nat)
  /-- The model's own counter of free values drawn. -/
  freeCtr   : Nat
deriving DecidableEq, Repr

/-- Why a command stops the machine with a fault. The spec gives a stop of the whole block to none of its
commands, so no meaning raises one; the type has one constructor because a closed type must have a name for it. -/
inductive Fault where
  /-- Raised by no meaning. Safe. -/
  | none_
deriving DecidableEq, Repr

/-- Why a command is refused. -/
inductive Refusal where
  /-- An arm of `exec` whose meaning is not written yet. Safe. -/
  | notModelled (mnemonic : String)
  /-- Raised by a core instruction whose nonets are not the instruction its row names: a nonet of `pre` that is no prefix,
  or fewer or more nonets than its operands take, with no decode check that fails first (R128, R155). Safe: it is no
  command of the row. -/
  | notThisInstruction
deriving DecidableEq, Repr

/-- A line of zeros without poison. -/
def zeroLine : Line := { words := Vector.replicate 16 0, poison := false }

/-- A poisoned line: its data are zero (R395). -/
def poisonLine : Line := { words := Vector.replicate 16 0, poison := true }

/-- A bank at reset: the PSW of bank 0 has UP = 1 and MASK = 7, the others are 0 (R240); bank 0 is busy (R259). Registers with no
stated reset value are zero (log entry 1, DESIGN CHOICE). -/
def bankReset (k : Nat) : Bank :=
  { g := Vector.replicate 16 0, p := Vector.replicate 8 0,
    psw := if k = 0 then setField (setField (0 : DWord) 2 2 1) 18 20 7 else 0,
    slim := 0, busy := k == 0 }

/-- A core at reset: off, in no sheet, stopped at its start (R386, R600). -/
def coreReset : Core :=
  { banks := [], level := 0, gesso := false, spills := 0, f := Vector.replicate 16 0, fpc := 0, ctl := [],
    sheet := none, cstate := .off, run := .stopped false, cold := true, pend := [], stores := [], gather := none,
    outs := [], tlb := [], walk := [], couch := none, discard := false, pausing := false }

/-- A line a quire agent does not hold. -/
def qlineReset : QLine :=
  { st := .i, data := zeroLine, dirty := false, acks := 0, expect := none, req := none, count := 0, retried := false,
    way := none, l1i := 0, l1d := 0, perm := none, l1dirty := none }

/-- A line with no directory entry: home state DI (R322). -/
def dirReset : DirEntry :=
  { st := .di, bc := false, owner := none, sharers := [], txn := none, queue := [], used := 0 }

/-- A home slice at reset. -/
def homeReset : Home := { ptr := 0, stamp := 0, waiting := [], resv := [], arrivals := [] }

/-- A sheet that is not running. -/
def sheetReset : Sheet := { running := false, checkstop := false, start := none }

/-- An exchange's working registers when it starts. -/
def xchReset : Xch :=
  { packets := [], head := 0, xpb := [], next := 0, fetched := false, noted := false, ready := false, sent := false, path := none, out := [], left := false,
    inb := [], moved := 0, redrive := 0, redrives := 0, dstat := 0, detail := 0, addr := 0, resume := false, err := none,
    halted := false, cleared := false, xchFlag := false, cause := 0, quiet := false, queried := false }

/-- A felt link that has not trained. -/
def linkReset : Link :=
  { txSeq := 0, acked := 1023, rxNext := 0, nakSent := false, replays := 0, unacked := 0,
    txCred := Vector.replicate 4 0, rxCred := #v[32, 256, 32, 64], owed := Vector.replicate 4 0, txq := [], rate := 0,
    serial := 0, session := 0, seen := false, changed := false, sleepReq := false, maxb := 4096,
    txFlit := 0, rxFlit := 0, rxHeld := [], cameUp := false }

/-- A free key slot of generation 0 (R530). -/
def keyReset : KeySlot := { st := .free, sheet := 0, gen := 0, usage := 0, key := [] }

/-- A memory controller at reset. -/
def memctlReset : MemCtl :=
  { rows := [], dies := [], spared := [], fused := [], misdir := [], ptrs := #v[0, 0], patrol := [], copying := [], hot := false, defer := [] }

/-- No core and no window assigned. -/
def assignReset : Assign := { cores := [], windows := [] }

/-- The module right after a cold reset has begun: PWROK high, gesso step 1 not yet ended (R640, R647), every register at
its Reset value, memory with nothing listed, nothing sent. -/
def State.reset : State :=
  { pending := [], clock := 0, cores := [], regs := [], shadow := [], bEff := [], qlines := [], dir := [], l3 := [],
    homes := [], dram := [], poisoned := [], lastOwner := [], order64 := [], l2Wait := [], locks := [], heldEn := [], arrays := [], openReqs := [], sheets := [], frozen := [], windows := [],
    easel := [], keptBanks := [], easelRot := [], easelWait := [], memctl := [], vatWait := [], xch := [], moves := [], links := [], recTabs := [],
    calq := [], calSaved := [], octRem := [], calSlot := [], varq := [], varSlot := [], keys := [], pcicfg := [], bar0 := [],
    endpt := { linkState := 0, perst := true, ready := false, epoch := #v[false, false], msi := [], half := [], svArm := none, heldAcc := [] },
    relHeld := [], taken := none, conVer := 1, nonce := none, longOps := [], portHeld := [], heldSeq := 0, waits := [], assign := assignReset, panels := [], heldFw := [], records := [],
    commit := none, session := 0, webDown := [], spareOf := [], inReset := [], shadows := [], injWait := [],
    outvotes := [], restarted := [], carried := [], steps := [], granted := none, reserve := [], warned := [], stepHeld := [], stepGoing := [],
    stretched := [], forced := [], frameSeq := false,
    pins := { pwrok := true, modResetN := true, perstN := false, thermtripN := true },
    smbAddr := none, jtagIr := 0x01, phase := .gesso 1 true, holdFor := [], rstArm := none, staging := none, stageHdr := [], surge := (none, none), sent := [], reacts := [], freeCtr := 0 }

end Sys2Proof.Machine
end

