-- ==== Sys2Proof/Machine/Clock.lean ====
section
/-! DEFINITION. The passing of time when no command is commanded. -/

namespace Sys2Proof.Machine

open Sys2Proof

/-- One CK_SUP cycle: the module clock counts (R204). -/
def tick (s : State) : State := { s with clock := s.clock + 1 }

/-- Microseconds since the module reset, of which the registers keep `bits` bits: CK_SUP runs at 650 MHz (R634). -/
def micros (bits : Nat) (s : State) : Nat := (s.clock.toNat / 650) % 2 ^ bits

end Sys2Proof.Machine
end

