-- ==== Sys2Proof/Config.lean ====
section
/-! DEFINITION. What the manual leaves to the part, to the watermark's hidden contents or to chance: constants
without a body, so that no proof can rest on a value of them, and the free values drawn by the model's counter. -/

namespace Sys2Proof.Config

open Sys2Proof

/-- The n-th free value: a value the manual leaves undefined (log entry 3, DESIGN CHOICE). -/
opaque freeValue : Nat → DWord
/-- Silicon stepping in the fuses (R45). -/
opaque stepping : Nonet
/-- Module serial number in the fuses (R46). -/
opaque serial : DWord
/-- Fused SPARE and OUTDIE of each stack (R419). -/
opaque stackFuse : Nat → Nat × Nat
/-- Fused count of spare rows in use of each stack (R419). -/
opaque stackRows : Nat → Nat
/-- Fused set-point of each quire at each step, in mV (R635, R653). -/
opaque setPoint : Nat → Nat → Nat
/-- Fused 256-bit root key of the Varnish engines, as 32 octets (R526). -/
opaque rootKey : Nat → Octet
/-- Word w of panel memory as the verified Dunul image and the state its parent holds load it into every panel of a triptych, key
triptych * 2^22 + w (R371, R379; log entry 74). -/
opaque dunulWord : Nat → Word
/-- The Dunul release carried in the verified image (R670). -/
opaque dunulRelease : Word
/-- Which line of a full set of an L1, L2 or L3 is evicted: the manual gives no replacement rule (log entry 5). -/
opaque victimPick : Nat → Nat
/-- The directory set of a line, taken modulo 16,384: a fixed function of the line address that the manual does not give
(R322). -/
opaque dirSet : Nat → Nat
/-- The set of a line in its L3 slice, taken modulo 32,768: a fixed function that the manual does not give (R285). -/
opaque l3Set : Nat → Nat
/-- The estimated residue cost of a predictor (0 none, 1 previous, 2 stride, 3 median) on a block, given the words of the
stream up to the block's end, the block's first index and the stride: R511 gives no estimate (log entry 6). -/
opaque calCost : List Word → Nat → Nat → Nat → Nat
/-- The token the Calender's encoder chooses at a word, given the words of the stream up to the block's end and the level:
kind (0 residue, 1 zero run, 2 match), words covered, distance: R512 leaves the choice open (log entry 6). -/
opaque calToken : List Word → Nat → Nat → Nat × Nat × Nat
/-- How many of the pairs of input words that a paused native job could have consumed beyond what its output needs it did
consume (log entry 6). -/
opaque calAhead : Nat → Nat
/-- The zlib FLEVEL of an effort level: R513 says only that it comes from LEVEL (log entry 6). -/
opaque flevel : Nat → Nat
/-- The octets of the deflate stream the Calender writes for an input at a level (R513; log entry 6). -/
opaque deflate : List Octet → Nat → List Octet

end Sys2Proof.Config
end

