-- ==== Sys2Proof/Machine/Regs.lean ====
section
/-! DEFINITION. Every register map of the manual: for each block and register word offset, its fields with class,
access and Reset value (R14-R20), the IO-space address of each block (R36-R40), and the fault sources with their
default reactions (R622). -/

namespace Sys2Proof.Machine

open Sys2Proof

/-- Class of a field (R20). -/
inductive Cls where
  | l | s | b | c
deriving DecidableEq, Repr

/-- Access code of a field (R17). -/
inductive Acc where
  | rw | ro | wo | w1c | rc
deriving DecidableEq, Repr

/-- One field of a register map: bits `lo`..`hi` in device numbering, class, access, Reset value (R14). -/
structure Fld where
  lo  : Nat
  hi  : Nat
  cls : Cls
  acc : Acc
  rst : Nat
deriving DecidableEq, Repr

/-- A live read-write field. -/
def fL (lo hi rst : Nat) : Fld := ⟨lo, hi, .l, .rw, rst⟩
/-- A live read-only field. -/
def fR (lo hi rst : Nat) : Fld := ⟨lo, hi, .l, .ro, rst⟩
/-- A staged field. -/
def fS (lo hi rst : Nat) : Fld := ⟨lo, hi, .s, .rw, rst⟩
/-- A boot field. -/
def fB (lo hi rst : Nat) : Fld := ⟨lo, hi, .b, .rw, rst⟩
/-- A write-only field. -/
def fW (lo hi : Nat) : Fld := ⟨lo, hi, .l, .wo, 0⟩
/-- A write-one-to-clear field. -/
def f1 (lo hi : Nat) : Fld := ⟨lo, hi, .l, .w1c, 0⟩
/-- A read-and-clear field. -/
def fC (lo hi : Nat) : Fld := ⟨lo, hi, .l, .rc, 0⟩
/-- A constant field. -/
def fK (lo hi rst : Nat) : Fld := ⟨lo, hi, .c, .ro, rst⟩

/-- The fault sources of a block in source order, each as default PIN and CODE (R622). -/
def faultSources : Blk → List (Bool × Nat)
  | .core _ => [(false, 0), (false, 0), (false, 1)]
  | .retry _ => [(false, 0), (false, 1), (true, 1)]
  | .quire _ => [(true, 1), (true, 1)]
  | .l2 _ => [(false, 0), (false, 1), (true, 1)]
  | .qtrip _ | .ttrip _ | .mtrip => [(false, 0), (false, 1), (true, 1)]
  | .qpwr _ => [(false, 0), (true, 2)]
  | .home _ => [(false, 0), (false, 1), (true, 2)]
  | .dir _ => [(false, 0), (true, 1), (true, 1), (true, 1)]
  | .memc _ => [(false, 0), (false, 1), (true, 1), (true, 1), (false, 0)]
  | .stack _ => [(false, 1), (true, 1), (true, 1)]
  | .easel _ => [(false, 0), (false, 1), (false, 0)]
  | .vat _ => [(false, 1), (false, 0)]
  | .cal _ => [(false, 3)]
  | .var _ => [(false, 3), (true, 3)]
  | .linkgrp _ _ => [(false, 0), (false, 1), (false, 1)]
  | .rootp _ _ => [(false, 1), (false, 0)]
  | .endpt => [(true, 1), (false, 1)]
  | .web _ _ => [(true, 1), (true, 1)]
  | .deckle => [(false, 1), (false, 1)]
  | .wmark => [(true, 1)]
  | .pwr => [(true, 4), (false, 0)]
  | .clk => [(true, 4), (true, 4)]
  | .lfi => [(false, 0)]
  | .rst => [(true, 1)]
  | .therm => [(true, 1), (false, 5)]
  | .ident => [(true, 1)]

/-- The 4-bit default reaction fields of sources `from`.. for FREACT0 or FREACT1, at 4 bits a source (R607). -/
def freactFields (srcs : List (Bool × Nat)) : List Fld :=
  (srcs.zipIdx).map fun x => fS (4 * x.2) (4 * x.2 + 3) (8 * b2n x.1.1 + x.1.2)

/-- Bits for the defined sources of a block (R603), as one field per source starting at bit `at`. -/
def perSource (srcs : List (Bool × Nat)) (at_ : Nat) (mk : Nat → Nat → Fld) : List Fld :=
  (srcs.zipIdx).map fun x => mk (at_ + x.2) (at_ + x.2)

/-- The fault register set that every block carries at 0o777700-0o777707 (R40, R605-R609). -/
def faultReg (b : Blk) (i : Nat) : List Fld :=
  let srcs := faultSources b
  match i with
  | 0 => perSource srcs 0 f1 ++ perSource srcs 18 f1
  | 1 => perSource srcs 0 (fun lo hi => fL lo hi 0)
  | 2 => freactFields (srcs.take 9)
  | 3 => freactFields (srcs.drop 9)
  | 4 => [fL 0 4 0, fL 5 5 0, fL 6 8 7, fL 18 35 0]
  | 5 => [fC 0 35]
  | 6 => [f1 0 0, fR 1 1 0, fR 2 2 0, fR 3 7 0, fR 8 35 0]
  | _ => [fR 0 35 0]

/-- Four slots of a 64-slot wheel in one register: V and SHEET of each (R494, R521, R544). -/
def wheelFields : List Fld :=
  (List.range 4).flatMap fun i => [fS (9 * i) (9 * i) 0, fS (9 * i + 3) (9 * i + 8) 0]

/-- CORE registers (R121-R126, R159, R259, R284, R311). -/
def coreReg (o : Nat) : List Fld :=
  match o with
  | 0o200 => [fL 0 11 0]
  | 0o201 | 0o202 => [fL 0 22 0]
  | 0o203 => [fL 0 17 0]
  | 0o204 => [fR 18 35 0]
  | 0o205 => [fR 0 35 0]
  | 0o206 => [fR 0 8 0, fR 9 9 0, fR 10 12 0, fR 13 14 0, fR 15 15 0, fR 16 16 0]
  | 0o207 => [fR 0 8 0, fR 9 12 0, fR 13 17 0, fR 18 26 0, fR 27 35 0]
  | 0o210 => [fR 0 7 0o200, fR 8 8 0, fR 9 11 0, fR 18 35 0]
  | 0o211 => [fR 34 34 0, fR 35 35 0]
  | 0o220 => [fL 0 0 1, fL 1 1 1, fR 2 2 0, fL 6 9 7, fR 10 10 0]
  | _ => []

/-- DECKLE registers (R70, R71, R74, R127, R274, R315, R345, R346, R422, R528). -/
def deckleReg (o : Nat) : List Fld :=
  if 0o100 ≤ o ∧ o < 0o200 then [fS 0 0 0, fR 1 1 0, fR 2 2 0, fS 3 3 0, fR 9 26 0]
  else if 0o200 ≤ o ∧ o < 0o300 then [fS 0 0 0]
  else if 0o300 ≤ o ∧ o < 0o400 then [fS 0 31 0, fS 32 35 4]
  else if 0o400 ≤ o ∧ o < 0o500 then [fR 0 31 0]
  else if 0o500 ≤ o ∧ o < 0o600 then [fS 0 17 0]
  else if 0o4000 ≤ o ∧ o < 0o4400 then
    match o % 4 with
    | 0 => [fR 0 0 0, fR 1 3 0, fR 4 9 0, fR 10 17 0, fR 18 35 0]
    | 1 => [fR 0 5 0, fR 18 35 0]
    | _ => [fR 0 35 0]
  else if o = 0o4400 then [fR 0 6 0, f1 7 7]
  else if 0o10000 ≤ o ∧ o < 0o20000 then [fS 0 0 0, fS 1 1 0]
  else if 0o100000 ≤ o ∧ o < 0o300000 then [fS 0 0 0, fS 26 35 0]
  else if 0o300000 ≤ o ∧ o < 0o500000 then
    [fS 0 0 0, fS 1 6 0, fS 7 10 ((o - 0o300000) / 4096), fS 23 35 ((o - 0o300000) % 8192)]
  else []

/-- LINKGRP registers of group `g` of tile `t` (R493-R498). -/
def linkgrpReg (t g o : Nat) : List Fld :=
  if o = 0 then [fB 0 1 (if t = 0 ∧ g < 2 then 2 else 0), fS 2 3 3, fS 4 9 0,
    if g = 2 then fS 10 11 2 else fS 10 17 0o200]
  else if o = 1 then [fS 0 35 0]
  else if o = 2 then [fS 0 27 0]
  else if 0o20 ≤ o ∧ o < 0o40 then wheelFields
  else if 0o40 ≤ o ∧ o < 0o50 then [fS 0 1 3, fL 2 2 1, fL 3 3 1, fS 4 4 1]
  else if 0o60 ≤ o ∧ o < 0o70 then [fR 0 3 0, fR 4 7 0, fR 8 9 0, fR 10 11 0, fR 12 14 0, fR 15 18 0, fR 19 26 0]
  else if 0o100 ≤ o ∧ o < 0o140 then if o % 4 = 3 then [fR 0 2 0, fR 3 5 0] else [fR 0 35 0]
  else if 0o200 ≤ o ∧ o < 0o240 then [fC 0 35]
  else if g = 2 ∧ 0o1000 ≤ o ∧ o < 0o1100 then
    match o % 4 with
    | 0 => [fR 0 0 0, fR 1 6 0]
    | 1 => [fR 2 35 0]
    | 2 => [fR 0 35 0]
    | _ => []
  else if g = 2 ∧ 0o1100 ≤ o ∧ o < 0o1200 then
    match o % 4 with
    | 0 => [fL 0 0 0, fS 1 6 0]
    | 1 => [fL 2 35 0]
    | 2 => [fL 0 35 0]
    | _ => [fW 0 0]
  else []

/-- ROOTP registers (R573). -/
def rootpReg (o : Nat) : List Fld :=
  if o = 0 then [fL 0 0 0, fB 1 1 0, fS 2 7 0, fS 8 9 0, fL 10 10 1, fL 11 11 0, fL 12 19 0, fL 20 27 0, fL 28 28 0]
  else if o = 1 then [fR 0 2 0, fR 3 7 0, fR 8 10 0, fR 11 11 0, f1 12 14]
  else if o = 2 then [fR 0 0 0, fR 1 4 0, fW 5 5]
  else if o = 3 then [fW 0 0, fL 1 4 0, fL 5 12 0, fL 13 17 0, fL 18 20 0, fL 21 30 0, fL 31 31 0]
  else if o = 4 then [fR 0 0 0, fR 1 3 0]
  else if o = 5 then [fL 4 35 0]
  else if 0o10 ≤ o ∧ o < 0o14 then [fR 0 35 0]
  else if 0o100 ≤ o ∧ o < 0o200 then [fL 0 0 0, fL 20 35 0]
  else if 0o200 ≤ o ∧ o < 0o300 then
    match o % 4 with
    | 0 => [fR 0 0 0, fR 1 1 0, fR 12 35 0]
    | 1 => [fR 20 35 0]
    | 2 => [fR 0 35 0]
    | _ => [fR 2 35 0]
  else if 0o300 ≤ o ∧ o < 0o400 then
    match o % 4 with
    | 0 => [fL 0 0 0, fL 1 1 0, fW 2 2, fL 12 35 0]
    | 1 => [fL 20 35 0]
    | 2 => [fL 0 35 0]
    | _ => [fL 2 35 0]
  else []

/-- ENDPT registers: bindings (R561) and the sheet-side queue registers (R560). -/
def endptReg (o : Nat) : List Fld :=
  if 0o1000 ≤ o ∧ o < 0o1200 then
    if o % 2 = 0 then [fS 0 0 0, fS 1 6 0, fS 7 10 0] else [fS 2 35 0]
  else if 0o10000 ≤ o ∧ o < 0o11000 then
    match o % 8 with
    | 0 => [fR 20 35 0]
    | 1 => [fL 20 35 0]
    | 2 => [fL 20 35 0]
    | 3 => [fR 20 35 0]
    | 4 => [fL 0 0 0, fR 1 1 0, fR 2 2 0]
    | _ => []
  else []

/-- The fields of the register of a block at an offset; none at an offset where the block defines no register (R40). -/
def regFields (b : Blk) (o : Nat) : List Fld :=
  if 0o777700 ≤ o ∧ o ≤ 0o777707 then faultReg b (o - 0o777700) else
  match b with
  | .core _ => coreReg o
  | .retry _ => match o with
    | 0 => [fR 0 2 0, fR 3 4 0, fR 5 10 0]
    | 1 => [fC 0 35]
    | 2 => [fR 0 35 0]
    | _ => []
  | .l2 _ => match o with
    | 0 => [fL 0 0 1, fR 1 1 0]
    | 1 => [fR 0 17 0, fR 18 35 0]
    | _ => []
  | .qtrip _ => match o with
    | 0 => [fR 0 2 0, fR 3 5 0, fR 6 8 0, fR 9 10 0, fR 18 26 0, fR 27 35 0]
    | 1 => [fR 0 17 0]
    | _ => []
  | .ttrip _ | .mtrip => match o with
    | 0 => [fR 0 2 0, fR 3 5 0, fR 6 8 0, fR 9 10 0, fR 18 26 0, fR 27 35 0]
    | _ => []
  | .qpwr q => match o with
    | 0 => [fL 0 1 3, fL 2 7 0o50, fL 8 8 0, fL 9 9 1]
    | 1 => [fR 0 1 3, fR 2 12 (Config.setPoint q.val 3), fR 13 13 0, fR 14 14 0]
    | 2 => [fC 0 35]
    | _ => []
  | .home _ => match o with
    | 0 => [fS 0 0 1, fR 1 1 0]
    | _ => []
  | .dir _ => match o with
    | 0 => [fR 0 18 0, fR 19 27 0, fR 28 35 0]
    | 1 => [fR 0 31 0]
    | 2 => [fR 0 7 0]
    | 3 | 4 | 5 => [fC 0 35]
    | _ => []
  | .memc _ => match o with
    | 0 => [fR 0 1 0, fR 2 2 0, fR 3 3 0, fR 4 4 0]
    | 1 => [fL 0 0 1, fR 6 35 0]
    | 2 => [fL 0 8 4, fL 18 35 0o1000]
    | 3 | 4 | 5 | 6 => [fC 0 35]
    | 7 => [fR 0 2 0, fR 6 35 0]
    | _ => []
  | .stack m => match o with
    | 0 => [fR 0 1 (Config.stackFuse m.val).1, fR 2 5 (Config.stackFuse m.val).2, fR 6 14 0, fR 18 31 (Config.stackRows m.val)]
    | 1 => [fW 0 0, fR 1 1 0, fR 2 2 0, fR 3 3 0, fL 6 9 0, fR 10 35 0]
    | _ => []
  | .easel _ =>
    if o = 0 then [fL 1 31 0] else if o = 1 then [f1 0 0, f1 1 1, fC 18 35]
    else if 0o20 ≤ o ∧ o < 0o40 then [fC 0 35] else []
  | .vat _ => match o with
    | 0 => [fR 0 10 0, fR 11 24 0]
    | 1 => [fR 0 35 0]
    | 2 | 3 | 4 => [fC 0 35]
    | _ => []
  | .cal _ =>
    if o = 0 then [fS 0 0 0] else if 0o20 ≤ o ∧ o < 0o40 then wheelFields
    else if 0o100 ≤ o ∧ o < 0o200 then [fS 0 0 0, fS 1 8 0, fR 9 14 0, fR 15 15 0]
    else if 0o200 ≤ o ∧ o < 0o203 then [fC 0 35] else []
  | .var _ =>
    if o = 0 then [fS 0 0 0] else if 0o20 ≤ o ∧ o < 0o40 then wheelFields
    else if 0o100 ≤ o ∧ o < 0o200 then [fS 0 0 0, fS 1 8 0, fR 9 14 0, fR 15 15 0, fS 16 28 0]
    else if 0o200 ≤ o ∧ o < 0o300 then [fR 0 12 0]
    else if 0o300 ≤ o ∧ o < 0o303 then [fC 0 35] else []
  | .linkgrp t g => linkgrpReg t.val g.val o
  | .rootp _ _ => rootpReg o
  | .endpt => endptReg o
  | .deckle => deckleReg o
  | .wmark => match o with
    | 0 | 1 | 2 | 3 => [fR 4 35 0]
    | 4 => [fR 0 2 0, fR 3 3 0, fR 4 4 0]
    | _ => []
  | .pwr => match o with
    | 0 => [fB 0 0 1, fS 1 6 0o74, fS 7 17 0o2176]
    | 1 => [fR 0 11 0, fR 12 22 0, fR 23 23 0]
    | 2 => [fC 0 10]
    | _ => []
  | .clk => match o with
    | 0 => [fR 0 0 0, fR 1 1 0, fR 2 2 0]
    | _ => []
  | .lfi => match o with
    | 0 => [fS 0 0 1]
    | 1 => [fR 0 7 0, fR 8 9 0, fR 10 17 0, fR 18 26 0]
    | _ => []
  | .rst =>
    if o = 0 then [fR 0 3 0, fR 4 8 0, fR 9 26 0] else if o = 1 then [fW 27 35]
    else if o = 2 then [fK 0 1 0, fR 2 3 0] else if o = 3 then [fR 0 12 0, f1 13 13]
    else if 0o10000 ≤ o ∧ o < 0o30000 then
      if o % 2 = 0 then [fR 0 0 0, fR 1 1 0, fR 2 4 0, fR 5 8 0] else [fR 2 35 0]
    else []
  | .therm => match o with
    | 0 => [fS 0 8 0o132]
    | 1 => [fR 0 8 0, fR 9 17 0, fR 18 25 0]
    | _ => []
  | .ident => match o with
    | 0 => [fK 0 8 0o10, fK 9 17 0o300, fK 18 26 Config.stepping.toNat]
    | 1 => [fK 0 35 (dhi Config.serial).toNat]
    | 2 => [fK 0 35 (dlo Config.serial).toNat]
    | 3 => [fR 0 31 0]
    | _ => []
  | .quire _ | .web _ _ => []

/-- The bits of a register whose fields satisfy a test. -/
def regMask (fs : List Fld) (p : Fld → Bool) : Word :=
  fs.foldl (fun m f => if p f then m ||| maskOf f.lo f.hi else m) 0

/-- The Reset value of a register (R15). -/
def regReset (fs : List Fld) : Word := fs.foldl (fun w f => setField w f.lo f.hi f.rst) 0

/-- Digits 1-6 of a block's IO-space address: scope, tile, instance, block ID (R36, R37). -/
def blkDigits : Blk → Nat
  | .core _ => 0o001
  | .retry _ => 0o002
  | .quire q => 0o100010 + 0o10000 * (q.val / 4) + 0o1000 * (q.val % 4)
  | .l2 q => 0o100011 + 0o10000 * (q.val / 4) + 0o1000 * (q.val % 4)
  | .qtrip q => 0o100012 + 0o10000 * (q.val / 4) + 0o1000 * (q.val % 4)
  | .qpwr q => 0o100013 + 0o10000 * (q.val / 4) + 0o1000 * (q.val % 4)
  | .home h => 0o200020 + 0o10000 * (h.val / 4) + 0o1000 * (h.val % 4)
  | .dir h => 0o200021 + 0o10000 * (h.val / 4) + 0o1000 * (h.val % 4)
  | .memc m => 0o200030 + 0o10000 * (m.val / 2) + 0o1000 * (m.val % 2)
  | .stack m => 0o200031 + 0o10000 * (m.val / 2) + 0o1000 * (m.val % 2)
  | .easel t => 0o200040 + 0o10000 * t.val
  | .vat v => 0o200050 + 0o10000 * (v.val / 2) + 0o1000 * (v.val % 2)
  | .cal t => 0o200060 + 0o10000 * t.val
  | .var t => 0o200070 + 0o10000 * t.val
  | .linkgrp t g => 0o200100 + 0o10000 * t.val + 0o1000 * g.val
  | .rootp t i => 0o200110 + 0o10000 * t.val + 0o1000 * i.val
  | .endpt => 0o200111
  | .web t p => 0o200120 + 0o10000 * t.val + 0o1000 * p.val
  | .ttrip t => 0o200130 + 0o10000 * t.val
  | .mtrip => 0o300200
  | .wmark => 0o300201
  | .deckle => 0o300202
  | .pwr => 0o300203
  | .clk => 0o300204
  | .lfi => 0o300205
  | .rst => 0o300206
  | .therm => 0o300207
  | .ident => 0o300210

/-- The physical core of a scope-0 block; 0 for every other block (R39). -/
def blkCoreNo : Blk → Nat
  | .core c => c.val
  | .retry c => c.val
  | _ => 0

/-- The key of a register in the register tables: physical core number above the 36 address bits (R36, R39). -/
def regKey (b : Blk) (o : Nat) : Nat := blkCoreNo b * 2 ^ 36 + blkDigits b * 2 ^ 18 + o

/-- The block that six address digits name, for a given executing core; none where R38 has no such block. -/
def blkOfDigits (d core : Nat) : Option Blk :=
  let scope := d / 0o100000
  let t := d / 0o10000 % 8
  let i := d / 0o1000 % 8
  let id := d % 0o1000
  let ft : Fin 8 := Fin.ofNat 8 t
  let fc : Fin 192 := Fin.ofNat 192 core
  let f4 : Fin 32 := Fin.ofNat 32 (4 * t + i)
  let f2 : Fin 16 := Fin.ofNat 16 (2 * t + i)
  match scope with
  | 0 => if t ≠ 0 ∨ i ≠ 0 then none else if id = 0o001 then some (.core fc) else if id = 0o002 then some (.retry fc) else none
  | 1 => if 3 < i then none else
    match id with
    | 0o010 => some (.quire f4) | 0o011 => some (.l2 f4) | 0o012 => some (.qtrip f4) | 0o013 => some (.qpwr f4) | _ => none
  | 2 =>
    match id with
    | 0o020 => if i ≤ 3 then some (.home f4) else none
    | 0o021 => if i ≤ 3 then some (.dir f4) else none
    | 0o030 => if i ≤ 1 then some (.memc f2) else none
    | 0o031 => if i ≤ 1 then some (.stack f2) else none
    | 0o040 => if i = 0 then some (.easel ft) else none
    | 0o050 => if i ≤ 1 then some (.vat f2) else none
    | 0o060 => if i = 0 then some (.cal ft) else none
    | 0o070 => if i = 0 then some (.var ft) else none
    | 0o100 => if i ≤ 2 then some (.linkgrp ft (Fin.ofNat 3 i)) else none
    | 0o110 => if i ≤ 1 then some (.rootp ft (Fin.ofNat 2 i)) else none
    | 0o111 => if i = 0 ∧ t = 0 then some .endpt else none
    | 0o120 => if i ≤ 6 then some (.web ft (Fin.ofNat 7 i)) else none
    | 0o130 => if i = 0 then some (.ttrip ft) else none
    | _ => none
  | 3 => if t ≠ 0 ∨ i ≠ 0 then none else
    match id with
    | 0o200 => some .mtrip | 0o201 => some .wmark | 0o202 => some .deckle | 0o203 => some .pwr | 0o204 => some .clk
    | 0o205 => some .lfi | 0o206 => some .rst | 0o207 => some .therm | 0o210 => some .ident | _ => none
  | _ => none

/-- The block and offset of a register key. -/
def regAtKey (k : Nat) : Option (Blk × Nat) :=
  (blkOfDigits (k / 2 ^ 18 % 2 ^ 18) (k / 2 ^ 36)).map fun b => (b, k % 2 ^ 18)

/-- What a register that nothing has written reads as: its Reset value (R15). -/
def regDefault (k : Nat) : Word :=
  match regAtKey k with
  | some (b, o) => regReset (regFields b o)
  | none => 0

/-- The value in effect of a register as it is stored. -/
def State.reg (s : State) (b : Blk) (o : Nat) : Word := Tab.get regDefault s.regs (regKey b o)

/-- Store a register's value in effect. -/
def State.setReg (s : State) (b : Blk) (o : Nat) (v : Word) : State :=
  { s with regs := Tab.set regDefault s.regs (regKey b o) v }

/-- A field of a stored register, as a number. -/
def State.fld (s : State) (b : Blk) (o lo hi : Nat) : Nat := field (s.reg b o) lo hi

/-- Store one field of a register, as the hardware does it. -/
def State.setFld (s : State) (b : Blk) (o lo hi v : Nat) : State := s.setReg b o (setField (s.reg b o) lo hi v)

/-- A B-class field's value in effect: that of the last module reset (R20). -/
def State.bFld (s : State) (b : Blk) (o lo hi : Nat) : Nat := field (Tab.get regDefault s.bEff (regKey b o)) lo hi

/-- A saturating counter field rises by one (R19). -/
def State.count (s : State) (b : Blk) (o lo hi : Nat) : State := s.setFld b o lo hi (satInc (hi + 1 - lo) (s.fld b o lo hi))

end Sys2Proof.Machine
end

