-- ==== Sys2Proof/Machine/Base.lean ====
section
/-! DEFINITION. Named reads and updates of the state: the tables, the banks of a core, free values, pending
interruptions, the event log, the fault registers and their reactions (R247, R562, R597, R603-R618). -/

namespace Sys2Proof.Machine

open Sys2Proof

/-- Element `i` of a vector, `d` when there is none. -/
def vget {α : Type} {n : Nat} (v : Vector α n) (i : Nat) (d : α) : α := v.toArray.getD i d

/-- A vector with element `i` replaced; unchanged when there is none. -/
def vset {α : Type} {n : Nat} (v : Vector α n) (i : Nat) (x : α) : Vector α n := v.setIfInBounds i x

/-- Core `c` (R26). -/
def State.core (s : State) (c : Nat) : Core := Tab.get (fun _ => coreReset) s.cores c
/-- Replace core `c`. -/
def State.setCore (s : State) (c : Nat) (k : Core) : State := { s with cores := Tab.set (fun _ => coreReset) s.cores c k }
/-- A line at a quire agent (R320). -/
def State.qline (s : State) (q l : Nat) : QLine := Tab.get (fun _ => qlineReset) s.qlines (q * 2 ^ 34 + l)
/-- Replace a line at a quire agent. -/
def State.setQline (s : State) (q l : Nat) (x : QLine) : State :=
  { s with qlines := Tab.set (fun _ => qlineReset) s.qlines (q * 2 ^ 34 + l) x }
/-- A directory entry (R322). -/
def State.dirE (s : State) (h l : Nat) : DirEntry := Tab.get (fun _ => dirReset) s.dir (h * 2 ^ 34 + l)
/-- Replace a directory entry. -/
def State.setDirE (s : State) (h l : Nat) (x : DirEntry) : State :=
  { s with dir := Tab.set (fun _ => dirReset) s.dir (h * 2 ^ 34 + l) x }
/-- A line in an L3 slice, none when the slice does not hold it (R287). -/
def State.l3Line (s : State) (h l : Nat) : Option L3Line := Tab.get (fun _ => none) s.l3 (h * 2 ^ 34 + l)
/-- Replace a line in an L3 slice. -/
def State.setL3 (s : State) (h l : Nat) (x : Option L3Line) : State :=
  { s with l3 := Tab.set (fun _ => none) s.l3 (h * 2 ^ 34 + l) x }
/-- What a line of the stacks that nothing has written holds: zero data (R405), poison in a region poisoned whole (R400). -/
def dramDefault (ps : List Nat) (l : Nat) : Line := if ps.contains (l / 2 ^ 24) then poisonLine else zeroLine
/-- A line in the stacks. -/
def State.dramLine (s : State) (l : Nat) : Line := Tab.get (dramDefault s.poisoned) s.dram l
/-- Write a line of the stacks. -/
def State.setDram (s : State) (l : Nat) (x : Line) : State := { s with dram := Tab.set (dramDefault s.poisoned) s.dram l x }
/-- Home slice `h`. -/
def State.home (s : State) (h : Nat) : Home := Tab.get (fun _ => homeReset) s.homes h
/-- Replace home slice `h`. -/
def State.setHome (s : State) (h : Nat) (x : Home) : State := { s with homes := Tab.set (fun _ => homeReset) s.homes h x }
/-- Sheet `n` (R49). -/
def State.sheet (s : State) (n : Nat) : Sheet := Tab.get (fun _ => sheetReset) s.sheets n
/-- Replace sheet `n`. -/
def State.setSheet (s : State) (n : Nat) (x : Sheet) : State := { s with sheets := Tab.set (fun _ => sheetReset) s.sheets n x }
/-- What an Easel word that nothing has written holds: zero (R415); in a control block LAST 0o7 and paths not installed
(R458). The key is tile * 2^22 + E. -/
def easelDefault (k : Nat) : Word :=
  let e := k % 2 ^ 22
  if 0o10000000 ≤ e ∧ e < 0o10400000 then
    if e % 16 = 7 then 7 else if 8 ≤ e % 16 then BitVec.ofNat 36 (0o377 * 2 ^ 28) else 0
  else 0
/-- Word `e` of the Easel of tile `t` (R409). -/
def State.easelWord (s : State) (t e : Nat) : Word := Tab.get easelDefault s.easel (t * 2 ^ 22 + e)
/-- Write an Easel word. -/
def State.setEasel (s : State) (t e : Nat) (w : Word) : State := { s with easel := Tab.set easelDefault s.easel (t * 2 ^ 22 + e) w }
/-- Mailbox word `i` of BAR2: Easel word 32 i of tile 0 (R412, R554). -/
def State.mail (s : State) (i : Nat) : Word := s.easelWord 0 (32 * i)
/-- Write a mailbox word. -/
def State.setMail (s : State) (i : Nat) (w : Word) : State := s.setEasel 0 (32 * i) w
/-- Memory controller `m`. -/
def State.mc (s : State) (m : Nat) : MemCtl := Tab.get (fun _ => memctlReset) s.memctl m
/-- Replace memory controller `m`. -/
def State.setMc (s : State) (m : Nat) (x : MemCtl) : State := { s with memctl := Tab.set (fun _ => memctlReset) s.memctl m x }
/-- The L2 lock of a slot: quire, set, way (R296). -/
def State.lock (s : State) (q set way : Nat) : LockSlot := Tab.get (fun _ => .none) s.locks (q * 2 ^ 18 + set * 16 + way)
/-- Replace an L2 lock. -/
def State.setLock (s : State) (q set way : Nat) (x : LockSlot) : State :=
  { s with locks := Tab.set (fun _ => .none) s.locks (q * 2 ^ 18 + set * 16 + way) x }
/-- Send something out of the block. -/
def State.emit (s : State) (x : Sent) : State := { s with sent := x :: s.sent }

/-- Draw a free value of `w` bits: a value the manual leaves undefined (log entry 3). -/
def State.free (s : State) (w : Nat) : Nat × State :=
  ((Config.freeValue s.freeCtr).toNat % 2 ^ w, { s with freeCtr := s.freeCtr + 1 })

/-- Bank `b` of a core: 0-7, 8 the gesso bank (R238). -/
def Core.bank (k : Core) (b : Nat) : Bank := Tab.get bankReset k.banks b
/-- Replace a bank. -/
def Core.setBank (k : Core) (b : Nat) (x : Bank) : Core := { k with banks := Tab.set bankReset k.banks b x }
/-- The bank of the current level. -/
def Core.cur (k : Core) : Bank := k.bank k.level
/-- Replace the bank of the current level. -/
def Core.setCur (k : Core) (x : Bank) : Core := k.setBank k.level x
/-- The current PSW. -/
def Core.psw (k : Core) : DWord := k.cur.psw
/-- Control register `n` (R245). -/
def Core.ctlReg (k : Core) (n : Nat) : DWord := Tab.get (fun _ => 0) k.ctl n
/-- Replace a control register. -/
def Core.setCtl (k : Core) (n : Nat) (v : DWord) : Core := { k with ctl := Tab.set (fun _ => 0) k.ctl n v }

/-- The bank of the current level of core `c`. -/
def State.curBank (s : State) (c : Nat) : Bank := (s.core c).cur
/-- Replace the bank of the current level of core `c`. -/
def State.setCurBank (s : State) (c : Nat) (x : Bank) : State := s.setCore c ((s.core c).setCur x)

/-- PROB of a PSW (R240). -/
def pswProb (p : DWord) : Bool := dbit p 0
/-- DAT of a PSW. -/
def pswDat (p : DWord) : Bool := dbit p 1
/-- UP of a PSW. -/
def pswUp (p : DWord) : Bool := dbit p 2
/-- CHAIN of a PSW. -/
def pswChain (p : DWord) : Bool := dbit p 3
/-- SPL of a PSW. -/
def pswSpl (p : DWord) : Bool := dbit p 4
/-- PLVL of a PSW. -/
def pswPlvl (p : DWord) : Nat := field p 11 13
/-- MASK of a PSW. -/
def pswMask (p : DWord) : Nat := field p 18 20
/-- The instruction address of a PSW as a nonet address: WADDR x 4 + NIDX (R89). -/
def pswIa (p : DWord) : Nat := field p 36 71 * 4 + field p 16 17
/-- A PSW with its instruction address replaced; the nonet address wraps modulo 2^38 (R89, R154). -/
def pswSetIa (p : DWord) (a : Nat) : DWord := setField (setField p 36 71 (a % 2 ^ 38 / 4)) 16 17 (a % 4)
/-- The reserved fields of a PSW are zero (R240). -/
def pswOk (p : DWord) : Bool := field p 5 7 == 0 && field p 14 15 == 0 && field p 21 31 == 0

/-- A device-bit test of a register. -/
def State.rbit (s : State) (b : Blk) (o i : Nat) : Bool := s.fld b o i i == 1

/-- The quire of a core (R26). -/
def quireOf (c : Nat) : Nat := c / 6
/-- The tile of a core (R26). -/
def tileOf (c : Nat) : Nat := c / 24
/-- The core as a block index. -/
def coreFin (c : Nat) : CoreId := Fin.ofNat 192 c
/-- The CORE block of core `c`. -/
def coreBlk (c : Nat) : Blk := .core (coreFin c)
/-- The RETRY block of core `c`. -/
def retryBlk (c : Nat) : Blk := .retry (coreFin c)
/-- The quire as a block index. -/
def quireFin (q : Nat) : QuireId := Fin.ofNat 32 q
/-- The tile as a block index. -/
def tileFin (t : Nat) : TileId := Fin.ofNat 8 t

/-- The core is in service: active, or failed hand-over aside, able to execute (R205, R386). -/
def Core.active (k : Core) : Bool := k.cstate == .active

/-- The module triptych is HALTED or RESTARTING: it carries out none of its functions (R373, R381). -/
def State.moduleOut (s : State) : Bool := let m := s.fld .mtrip 0 0 2; m == 3 || m == 4

/-- The block of a triptych. -/
def tripBlk : Trip → Blk
  | .quire q => .qtrip q
  | .tile t => .ttrip t
  | .module => .mtrip

/-- MODE of a triptych (R385). -/
def State.tmode (s : State) (t : Trip) : Nat := s.fld (tripBlk t) 0 0 2

/-- A triptych is HALTED or RESTARTING, so that another carries its duties (R373, R377, R613). -/
def State.tripOut (s : State) (t : Trip) : Bool := s.tmode t == 3 || s.tmode t == 4

/-- The tile triptych above a quire. -/
def tripAbove (q : QuireId) : Trip := .tile (tileFin (q.val / 4))

/-- ACTING of a triptych (R377, R385). -/
def State.acting (s : State) : Trip → Nat
  | .quire q => if !s.tripOut (.quire q) then 0 else if !s.tripOut (tripAbove q) then 1 else if !s.tripOut .module then 2 else 3
  | .tile t => if !s.tripOut (.tile t) then 0 else if !s.tripOut .module then 1 else 3
  | .module => if !s.tripOut .module then 0 else 3

/-- The module triptych carries out its functions (R381). -/
def State.mtUp (s : State) : Bool := !s.moduleOut

/-- MTHALT: the module triptych is HALTED, or the supervisor-only reset that follows its halt has not ended (R551, R552, R665). -/
def State.mtHalt (s : State) : Bool := s.tmode .module == 3 || (s.tmode .module == 4 && s.restarted.contains .module)

/-- The duties of a triptych are carried out now: by itself, or by a parent that has taken them over (R372, R377). -/
def State.acts (s : State) (t : Trip) : Bool :=
  match s.acting t, t with
  | 0, _ => true
  | 1, _ => s.carried.contains t
  | 2, .quire q => s.carried.contains t && s.carried.contains (tripAbove q)
  | _, _ => false

/-- The duties of a quire's triptych are carried out now. -/
def State.served (s : State) (q : Nat) : Bool := s.acts (.quire (quireFin q))

/-- The triptych whose duty the fault reactions of a block are (R372). -/
def supervisor : Blk → Trip
  | .core c | .retry c => .quire (quireFin (quireOf c.val))
  | .quire q | .l2 q | .qpwr q | .qtrip q => .quire q
  | .home h | .dir h => .tile (tileFin (h.val / 4))
  | .memc m | .stack m => .tile (tileFin (m.val / 2))
  | .vat v => .tile (tileFin (v.val / 2))
  | .easel t | .cal t | .var t | .linkgrp t _ | .rootp t _ | .web t _ | .ttrip t => .tile t
  | .endpt => .tile 0
  | .mtrip | .wmark | .deckle | .pwr | .clk | .lfi | .rst | .therm | .ident => .module

/-- A duty of a triptych is done where some triptych carries out its duties (R372, R377). -/
def State.onDuty (s : State) (t : Trip) (f : State → State) : State := if s.acts t then f s else s

/-- The cores of a sheet that are active and not frozen, ascending. -/
def State.sheetCores (s : State) (sh : Nat) : List Nat :=
  (List.range 192).filter fun c => let k := s.core c; k.sheet == some sh && k.active && k.run != .frozen

/-- The service core of a sheet: its lowest-numbered core that is active and not frozen (R63). -/
def State.serviceCore (s : State) (sh : Nat) : Option Nat := (s.sheetCores sh).head?

/-- Make an asynchronous interruption pending in a core, behind those already pending (R243). -/
def State.post (s : State) (c : Nat) (i : Irq) : State :=
  let k := s.core c; s.setCore c { k with pend := k.pend ++ [i] }

/-- Make an interruption pending at the service core of a sheet, if it has one (R63). -/
def State.postService (s : State) (sh : Nat) (i : Irq) : State :=
  match s.serviceCore sh with | some c => s.post c i | none => s

/-- The sheets that run (R600, R344). -/
def State.runningSheets (s : State) : List Nat :=
  (List.range 64).filter fun n => (s.sheet n).running && !(s.sheet n).checkstop

/-- A level-2 service notice; one of the same kind and subject still pending is updated in place, COUCH excepted (R598). -/
def State.notice (s : State) (sh kind info27 subjectMask : Nat) : State :=
  match s.serviceCore sh with
  | none => s
  | some c =>
    let w : Word := BitVec.ofNat 36 (kind * 2 ^ 27 + info27 % 2 ^ 27)
    let irq : Irq := { level := 2, code := 0o200, param := 0, info := w }
    let k := s.core c
    let same (i : Irq) : Bool :=
      i.code == 0o200 && kind != 3 && field i.info 0 8 == kind && (i.info.toNat &&& subjectMask) == (w.toNat &&& subjectMask)
    if k.pend.any same then s.setCore c { k with pend := k.pend.map fun i => if same i then irq else i }
    else s.setCore c { k with pend := k.pend ++ [irq] }

/-- A BAR0 register that nothing has written: IMASK resets to 0xF, all others to 0 (R551, R558). -/
def bar0Default (k : Nat) : BitVec 32 := if k = 0x28 then 0xF else 0

/-- A BAR0 register of function `f` as stored. -/
def State.bar (s : State) (f o : Nat) : BitVec 32 := Tab.get bar0Default s.bar0 (f * 2 ^ 18 + o)
/-- Store a BAR0 register. -/
def State.setBar (s : State) (f o : Nat) (v : BitVec 32) : State :=
  { s with bar0 := Tab.set bar0Default s.bar0 (f * 2 ^ 18 + o) v }

/-- Reset value of a configuration register of function `f`: the header and capabilities of R547-R549, in the layout of PCI
Express Base 6.0 that they name (log entry 10, PRESUMED). The link width of 0x7C is that of x8; `cfgRead` adjusts it. -/
def cfgDefault (k : Nat) : BitVec 32 :=
  let f := k / 1024
  let pf (a b : Nat) : Nat := if f = 0 then a else b
  let dsn := Config.serial.toNat % 2 ^ 64
  BitVec.ofNat 32 (match 4 * (k % 1024) with
    | 0x00 => 0x0C381F3D | 0x04 => 0x00100000
    | 0x08 => pf 0x08800000 0x07800000 + Config.stepping.toNat % 256
    | 0x0C => 0x00800000 | 0x10 => 4 | 0x18 => pf 4 0 | 0x20 => 4
    | 0x2C => pf 0x00011F3D 0x00021F3D | 0x34 => 0x40
    | 0x40 => 0x00035001 | 0x44 => 8 | 0x50 => 0x018A7005
    | 0x70 => 0x0002B010 | 0x74 => 0x10008FE2 | 0x78 => 0x2810 | 0x7C => 0x0041CC86
    | 0x94 => 0x0003001F | 0x9C => 0x7E | 0xA0 => 6
    | 0xB0 => pf 0x00030011 0x003F0011 | 0xB4 => 4 | 0xB8 => 0x2004
    | 0x100 => pf 0x14820001 0x00020001 | 0x10C => 0x00462030 | 0x114 => 0xE000
    | 0x148 => pf 0x15810003 0 | 0x14C => pf (dsn % 2 ^ 32) 0 | 0x150 => pf (dsn / 2 ^ 32) 0
    | 0x158 => pf 0x16810025 0 | 0x15C => pf 0x80000001 0
    | 0x168 => pf 0x1A010026 0 | 0x1A0 => pf 0x1D01002A 0 | 0x1D0 => pf 0x00010031 0
    | _ => 0)

/-- Configuration register `r`, a doubleword index, of function `f` (R547). -/
def State.cfg (s : State) (f r : Nat) : BitVec 32 := Tab.get cfgDefault s.pcicfg (f * 1024 + r)
/-- Store a configuration register. -/
def State.setCfg (s : State) (f r : Nat) (v : BitVec 32) : State :=
  { s with pcicfg := Tab.set cfgDefault s.pcicfg (f * 1024 + r) v }

/-- An interrupt message of function `f` falls due: held pending until it can be sent, unless neither MSI nor MSI-X is enabled
(R562). -/
def State.msiDue (s : State) (f v : Nat) : State :=
  if (s.cfg f 0x14).getLsbD 16 || (s.cfg f 0x2C).getLsbD 31 then
    { s with endpt := { s.endpt with msi := s.endpt.msi.filter (· != (f, v)) ++ [(f, v)] } }
  else s

/-- Set cause `v` of ISTAT; a cause that IMASK does not mask makes an interrupt message due (R551, R562). -/
def State.istat (s : State) (v : Nat) : State :=
  let s := s.setBar 0 0x24 (s.bar 0 0x24 ||| BitVec.ofNat 32 (2 ^ v))
  if (s.bar 0 0x28).getLsbD v then s else s.msiDue 0 v

/-- Firmware records an event in the event log, raises EVTAIL, and sets cause 1 of ISTAT (R597). Word 2, which the manual
gives only for KIND 0x07 of a scope-0 block (R613), is otherwise a free value. -/
def State.logEvent (s : State) (kind sh subject : Nat) (detail : Word) (w2 : Option Nat := none) : State :=
  let n := (s.mail 6).toNat
  let at_ := 32768 + 4 * (n % 4096)
  let s := s.setMail at_ (BitVec.ofNat 36 (kind * 2 ^ 28 + sh * 2 ^ 22 + subject % 2 ^ 22))
  let s := s.setMail (at_ + 1) detail
  let s := match w2 with
    | some c => s.setMail (at_ + 2) (BitVec.ofNat 36 c)
    | none => let f := s.free 36; f.2.setMail (at_ + 2) (BitVec.ofNat 36 f.1)
  let s := s.setMail (at_ + 3) (BitVec.ofNat 36 (micros 36 s))
  let s := s.setMail 6 (BitVec.ofNat 36 (n + 1))
  s.istat 1

/-- Sheets with a valid DECKLE_MAP entry whose region satisfies `p`, from the registers that hold a written value (R106). -/
def State.mapOwners (s : State) (p : Nat → Bool) : List Nat :=
  let base := blkDigits .deckle * 2 ^ 18
  (s.regs.filter fun e =>
      decide (base + 0o100000 ≤ e.1 ∧ e.1 < base + 0o300000) && dbit e.2 0 && p (field e.2 26 35)).map
    fun e => (e.1 - base - 0o100000) / 1024

/-- The sheet that a module region belongs to (R106). -/
def State.regionOwner (s : State) (region : Nat) : Option Nat := (s.mapOwners (· == region)).head?

/-- The valid sheets (R49). -/
def State.validSheet (s : State) (sh : Nat) : Bool := s.rbit .deckle (0o100 + sh) 0

/-- Sheet `n` owns or shares a link group: MODE 0 its own, MODE 1 and 2 one of those that share it, MODE 3 no sheet's (R468). -/
def State.sheetGroup (s : State) (lg : Blk) (n : Nat) : Bool :=
  match s.fld lg 0 2 3 with
  | 0 => s.fld lg 0 4 9 == n
  | 1 | 2 => if n < 36 then s.rbit lg 1 n else s.rbit lg 2 (n - 36)
  | _ => false

/-- The sheets that a block serves (R614), running ones only. -/
def State.serves (s : State) (b : Blk) : List Nat :=
  let quireServes (q : Nat) := s.runningSheets.filter fun n => s.rbit .deckle (0o400 + n) q
  let homeServes (h : Nat) := s.runningSheets.filter fun n => s.validSheet n && s.rbit .deckle (0o300 + n) h
  let stackServes (m : Nat) := s.runningSheets.filter fun n => (s.mapOwners fun r => r / 64 == m).contains n
  match b with
  | .core c | .retry c => s.runningSheets.filter fun n => (s.core c).sheet == some n
  | .quire q | .l2 q | .qpwr q | .qtrip q => quireServes q
  | .home h | .dir h => homeServes h
  | .memc m | .stack m => stackServes m
  | .vat v =>
    let base := blkDigits .deckle * 2 ^ 18 + 0o300000
    s.runningSheets.filter fun n =>
      s.regs.any fun e => decide (base ≤ e.1 ∧ e.1 < base + 0o200000) && dbit e.2 0 && field e.2 1 6 == n && field e.2 7 10 == v.val
  | .cal t => s.runningSheets.filter fun n => s.rbit (.cal t) (0o100 + n) 0
  | .var t => s.runningSheets.filter fun n => s.rbit (.var t) (0o100 + n) 0
  | .linkgrp _ _ => s.runningSheets.filter (s.sheetGroup b)
  | .rootp _ _ => s.runningSheets.filter fun n => s.fld b 0 2 7 == n
  | _ => s.runningSheets

/-- The block ID digits of a block (R37). -/
def blkId (b : Blk) : Nat := blkDigits b % 512

/-- The block ID of the neighbour whose reset shadows a source, none when the source is on no interface (R622). -/
def faultIface (b : Blk) (src : Nat) : Option Nat :=
  match b with
  | .retry _ => if src = 1 then some 0o012 else none
  | .quire _ => some 0o020
  | .qtrip _ => if src = 2 then some 0o130 else none
  | .ttrip _ => if src = 2 then some 0o200 else none
  | .qpwr _ => if src = 1 then some 0o203 else none
  | .home _ => if src = 2 then some 0o120 else none
  | .dir _ => if src = 1 ∨ src = 3 then some 0o010 else none
  | .memc _ => if src = 3 then some 0o031 else none
  | .easel _ => if src = 2 then some 0o111 else none
  | .vat _ => if src = 0 then some 0o040 else none
  | .web _ _ => some 0o120
  | _ => none

/-- A source is shadowed while the neighbour on its interface is in a reset shadow (R618). -/
def State.shadowed (s : State) (b : Blk) (src : Nat) : Bool :=
  s.shadows.any fun x => x.2 == b && faultIface b src == some (blkId x.1)

/-- The reaction field of a source: PIN and CODE in effect (R607). -/
def State.react (s : State) (b : Blk) (src : Nat) : Bool × Nat :=
  let o := if src < 9 then 0o777702 else 0o777703
  let at_ := 4 * (src % 9)
  (s.fld b o at_ at_ == 1, s.fld b o (at_ + 1) (at_ + 3))

/-- ERR_N is held low: some source has MASK 0, status set, and PIN 1 or CODE 5; MTRIP source HALT ignores its mask (R617). -/
def State.errN (s : State) : Bool :=
  s.regs.any fun e =>
    e.1 % 2 ^ 18 == 0o777700 &&
    match regAtKey e.1 with
    | none => false
    | some (b, _) =>
      (List.range (faultSources b).length).any fun i =>
        (dbit e.2 i || dbit e.2 (18 + i)) && (!s.rbit b 0o777701 i || (b == .mtrip && i == 2)) &&
          ((s.react b i).1 || (s.react b i).2 == 5)

/-- ISTAT cause 2 when ERR_N has risen since a state before (R551). -/
def State.errRose (s s0 : State) : State := if s.errN && !s0.errN then s.istat 2 else s

/-- Code 1: firmware logs KIND 0x07 with the FSTAT of the block and sets ISTAT cause 1 (R613). -/
def State.faultLog (s : State) (b : Blk) : State :=
  s.logEvent 7 0 (blkDigits b) (s.reg b 0o777700) (match b with | .core c | .retry c => some c.val | _ => none)

/-- Code 2: a level-6 service trap at the service core of every running sheet the block serves (R613). -/
def State.serviceTrap (s : State) (b : Blk) : State :=
  let irq : Irq := { level := 6, code := 0o600, param := 0, info := BitVec.ofNat 36 (blkDigits b * 2 ^ 18 + 0o777700) }
  let shs := (s.serves b).filter fun n => (s.serviceCore n).isSome
  shs.foldl (fun s n => s.postService n irq) s

/-- Take a reaction code; what it does follows the command's own effect, the block taking the reaction of highest rank once (R613,
R615). -/
def State.takeReact (s : State) (b : Blk) (code : Nat) : State :=
  if 1 ≤ code ∧ code ≤ 4 then { s with reacts := s.reacts ++ [(b, code)] } else s

/-- A source records an event: status, FCNT, FFIRST and FINFO, and its reaction on a change from clear to set while not
masked; a shadowed source records nothing (R605-R613, R618). `inj` carries IREACT for an injected event. -/
def State.fault (s : State) (b : Blk) (src : Nat) (info : Word) (inj : Option Nat := none) : State :=
  if s.shadowed b src then s else
  let s0 := s
  let before := s.rbit b 0o777700 src || s.rbit b 0o777700 (18 + src)
  let s := s.setFld b 0o777700 (if inj.isSome then 18 + src else src) (if inj.isSome then 18 + src else src) 1
  let s := if inj.isSome then s else s.count b 0o777705 0 35
  let s := if s.rbit b 0o777706 0 then s else
    let w := setField (setField (setField (setField (0 : Word) 0 0 1) 1 1 (b2n inj.isSome)) 2 2 (b2n inj.isNone)) 3 7 src
    (s.setReg b 0o777706 (setField w 8 35 (micros 28 s))).setReg b 0o777707 info
  let s := if before || s.rbit b 0o777701 src then s else
    let code := match inj with
      | some r => if r = 7 then (s.react b src).2 else r
      | none => (s.react b src).2
    s.takeReact b code
  s.errRose s0

/-- The block of a root port. -/
def rpBlk (t i : Nat) : Blk := .rootp (tileFin t) (Fin.ofNat 2 i)

/-- PERS in effect of group A (0) or B (1) of a tile (R462, R493). -/
def State.pers (s : State) (t g : Nat) : Nat := s.bFld (.linkgrp (tileFin t) (Fin.ofNat 3 g)) 0 0 1

/-- The instance is a root port (R568, R569). -/
def State.isRootPort (s : State) (t i : Nat) : Bool :=
  s.pers t i == 1 && (i == 0 || s.bFld (rpBlk t 0) 0 1 1 == 0)

/-- A PF1 message queue is bound (R556, R561). -/
def State.qBound (s : State) (q : Nat) : Bool := s.rbit .endpt (0o1000 + 2 * q) 0

/-- The sheet of a PF1 message queue (R556, R561). -/
def State.qSheet (s : State) (q : Nat) : Nat := s.fld .endpt (0o1000 + 2 * q) 1 6

/-- A binding of a window of a sheet is to something of that sheet: a requester function of a root port it owns, or its PF1 message
queue registers (R41). -/
def State.ownWindow (s : State) (sh : Nat) : Window → Bool
  | .unbound => true
  | .queue q => s.qBound q && s.qSheet q == sh
  | .rootp t i _ => s.isRootPort t i && s.fld (rpBlk t i) 0 2 7 == sh

/-- Window `w` of a sheet: unbound where its binding is not to something of the sheet (R41). -/
def State.window (s : State) (sh w : Nat) : Window :=
  let b := Tab.get (fun _ => .unbound) s.windows (sh * 64 + w)
  if s.ownWindow sh b then b else .unbound

/-- Bank `b` of the Easel of a tile is in retention (R414). -/
def State.retained (s : State) (t b : Nat) : Bool := b != 0 && s.rbit (.easel (tileFin t)) 0 b

/-- The 36-bit word of a number. -/
def w36 (n : Nat) : Word := BitVec.ofNat 36 n

end Sys2Proof.Machine
end

