-- ==== Sys2Proof/Machine/Coherence.lean ====
section
/-! DEFINITION. The lines of a sheet at the quire agents, the home slices and the stacks: the quire's answers to
forwarded messages (R331), and each home transaction run whole on a line that is not busy, which is the net effect of
the tables R330-R337. A line that is busy, or a controller that does not answer, gives none: the access stalls. -/

namespace Sys2Proof.Machine

open Sys2Proof

/-- The home slice of a line: 1 bit number (L mod k) of SLICES of the sheet that owns its region (R317); none while the slice
is in reset and answers nothing. -/
def State.homeOf (s : State) (l : Nat) : Option Nat :=
  match s.regionOwner (l / 2 ^ 24) with
  | none => none
  | some sh =>
    let ones := positions 32 fun h => s.rbit .deckle (0o300 + sh) h
    ones[l % ones.length]?.filter fun h =>
      !s.inReset.contains (.home (Fin.ofNat 32 h)) && !s.inReset.contains (.dir (Fin.ofNat 32 h))

/-- The home slice that a line's requests go to, in reset or not (R317). -/
def State.homeNo (s : State) (l : Nat) : Nat :=
  match s.regionOwner (l / 2 ^ 24) with
  | none => 0
  | some sh =>
    let ones := positions 32 fun h => s.rbit .deckle (0o300 + sh) h
    (ones[l % ones.length]?).getD 0

/-- The quire set of the sheet that owns a line (R318, R338). -/
def State.quireSet (s : State) (l : Nat) : List Nat :=
  match s.regionOwner (l / 2 ^ 24) with
  | none => []
  | some sh => positions 32 fun q => s.rbit .deckle (0o400 + sh) q

/-- The stack of a line, which is also its memory controller (R28, R388). -/
def stackOf (l : Nat) : Nat := l / 2 ^ 30 % 16

/-- The controller block of a line. -/
def memcOf (l : Nat) : Blk := .memc (Fin.ofNat 16 (stackOf l))

/-- The row of a stack line, numbered with its bank and pseudo-channel (R388). -/
def rowKey (ls : Nat) : Nat := (ls % 32) * 2 ^ 20 + (ls / 32 % 32) * 2 ^ 15 + ls / 32768

/-- A line of stack `m` is still to be poisoned: named in the reset record and not DONE, or in a region to be poisoned whole
(R400, R643). -/
def State.mustPoison (s : State) (m : Nat) : Bool :=
  !(s.mc m).defer.isEmpty ||
    (s.fld .rst 3 0 12 != 0 && (List.range 4096).any fun i =>
      s.rbit .rst (0o10000 + 2 * i) 0 && !s.rbit .rst (0o10000 + 2 * i) 1 &&
        stackOf (s.fld .rst (0o10000 + 2 * i + 1) 2 35) == m)

/-- The controller of a line accepts requests for it: not in reset, its deferred poisons written, and the line's row not
being copied (R389, R400, R402). -/
def State.memUp (s : State) (l : Nat) : Bool :=
  !s.inReset.contains (memcOf l) && !(s.mc (stackOf l)).copying.contains (rowKey (l % 2 ^ 30)) && !s.mustPoison (stackOf l)

/-- A line written to the stack; a write to the line under patrol repair is remembered as newer (R389, R401). -/
def State.memWrite (s : State) (l : Nat) (x : Line) : State :=
  let m := stackOf l
  let k := s.mc m
  let s := if k.patrol.any (·.1 == l % 2 ^ 30) then
      s.setMc m { k with patrol := k.patrol.map fun y => if y.1 == l % 2 ^ 30 then (y.1, true) else y } else s
  s.setDram l x

/-- MEMC_LAST (R418). -/
def State.memLast (s : State) (m kind ls : Nat) : State :=
  (s.setFld (.memc (Fin.ofNat 16 m)) 7 0 2 kind).setFld (.memc (Fin.ofNat 16 m)) 7 6 35 ls

/-- A line that a controller reads for a home slice: one that is poisoned counts in MEMC_POISON (R398). -/
def State.memRead (s : State) (l : Nat) : Line × State :=
  let d := s.dramLine l
  (d, if d.poison then (s.count (memcOf l) 6 0 35).memLast (stackOf l) 4 (l % 2 ^ 30) else s)

/-- The L3 slice of home `h` is enabled (R314). -/
def State.l3On (s : State) (h : Nat) : Bool := s.rbit (.home (Fin.ofNat 32 h)) 0 0

/-- Lines of the L3 set of a line (R285): the set index is a fixed function the manual does not give. -/
def State.l3SetLines (s : State) (h l : Nat) : Tab (Option L3Line) :=
  s.l3.filter fun x => x.1 / 2 ^ 34 == h && Config.l3Set (x.1 % 2 ^ 34) % 32768 == Config.l3Set l % 32768

/-- Room for a line in its L3 set: with its 16 ways in use a line that is clean, or whose controller takes it, gives way, a
dirty one written to memory (R285, R287; log entry 5). None where there is no such line. -/
def State.l3Room (s : State) (h l : Nat) : Option State :=
  let set := s.l3SetLines h l
  if (s.l3Line h l).isSome || decide (set.length < 16) then some s else
    let can := set.filter fun x => x.2.all fun y => !y.dirty || s.memUp (x.1 % 2 ^ 34)
    match can[Config.victimPick s.freeCtr % can.length]? with
    | none => none
    | some v =>
      let s : State := { s with freeCtr := s.freeCtr + 1 }
      let s := match v.2 with | some y => if y.dirty then s.memWrite (v.1 % 2 ^ 34) y.data else s | none => s
      some (s.setL3 h (v.1 % 2 ^ 34) none)

/-- Data the home sends: the L3 copy, or the stack's line, which is then placed in the L3 (R337). -/
def State.homeData (s : State) (h l : Nat) : Option (Line × State) :=
  match s.l3Line h l with
  | some x => some (x.data, s)
  | none =>
    if s.memUp l then
      let r := s.memRead l
      some (r.1, match (if r.2.l3On h then r.2.l3Room h l else none) with
        | some s => s.setL3 h l (some { data := r.1, dirty := false })
        | none => r.2)
    else none

/-- A line written back to the home: into the L3, or to the stack while the slice is disabled or has no room (R287, R304). -/
def State.homeWrite (s : State) (h l : Nat) (d : Line) : State :=
  match (if s.l3On h then s.l3Room h l else none) with
  | some s => s.setL3 h l (some { data := d, dirty := true })
  | none => (s.memWrite l d).setL3 h l none

/-- A home can store a line that comes back to it (R287, R304, R389). -/
def State.canWrite (s : State) (h l : Nat) : Bool := (s.l3On h && (s.l3Room h l).isSome) || s.memUp l

/-- The line at its home is written to memory where the L3 copy is dirty, and the copy stays, clean (R306, R333); none while
the controller does not take it. -/
def State.l3Clean (s : State) (h l : Nat) : Option State :=
  match s.l3Line h l with
  | some x =>
    if !x.dirty then some s else if !s.memUp l then none
    else some ((s.memWrite l x.data).setL3 h l (some { x with dirty := false }))
  | none => some s

/-- The SData of an MClean: the line is written to the L3 as clean, and to memory where the owner's copy or the L3's differs from
memory (R306, R335); none while the controller does not take it. -/
def State.cleanLine (s : State) (h l : Nat) (d : Line) (dirty : Bool) : Option State :=
  let dirty := dirty || (s.l3Line h l).any (·.dirty)
  if dirty && !s.memUp l then none else
  let s := match (if s.l3On h then s.l3Room h l else none) with
    | some s => s.setL3 h l (some { data := d, dirty := false })
    | none => s
  some (if dirty then s.memWrite l d else s)

/-- The L2 set of a line (R285). -/
def l2SetOf (l : Nat) : Nat := l % 16384

/-- Lines of the L2 set of a line that a quire holds, as (line, state). -/
def State.l2Set (s : State) (q l : Nat) : List (Nat × QLine) :=
  (s.qlines.filter fun x => x.1 / 2 ^ 34 == q && x.1 % 16384 == l % 16384 && x.2.st != .i).map fun x => (x.1 % 2 ^ 34, x.2)

/-- The way in which a quire holds a lock on a line, full or vacant (R296, R299). -/
def State.lockWay (s : State) (q l : Nat) : Option Nat :=
  (List.range 12).find? fun w =>
    match s.lock q (l2SetOf l) w with | .full k | .vacant k => k == l | .none => false

/-- A line in this state stands in a way of the L2 set. -/
def QState.resident : QState → Bool
  | .m | .o | .e | .s | .smAD | .omAD | .imA => true
  | _ => false

/-- A way of the L2 set of a line that no other line stands in and no other line's lock keeps empty (R285, R299). -/
def State.wayFree (s : State) (q l w : Nat) : Bool :=
  !((s.l2Set q l).any fun x => x.1 != l && x.2.way == some w) &&
    (match s.lock q (l2SetOf l) w with | .vacant k => k == l | _ => true)

/-- The way that a line takes: the one locked for it, or the lowest free one (R296, R299; log entry 5). -/
def State.wayFor (s : State) (q l : Nat) : Option Nat :=
  match s.lockWay q l with
  | some w => some w
  | none => (List.range 16).find? fun w => s.wayFree q l w

/-- Put a line's state at a quire. A line takes a way as it comes to stand in the set; one that leaves it is removed from
every L1 (R286), and a lock on it stays, empty (R299). A line that becomes I is forgotten but for an open request. -/
def State.qput (s : State) (q l : Nat) (x : QLine) : State :=
  let res := x.st.resident
  let y : QLine :=
    if res then { x with way := match x.way with | some w => some w | none => s.wayFor q l }
    else { x with way := none, l1i := 0, l1d := 0, perm := none, l1dirty := none }
  let s := match s.lockWay q l with
    | some w => s.setLock q (l2SetOf l) w (if res then .full l else .vacant l)
    | none => s
  s.setQline q l (if x.st = QState.i then { qlineReset with req := x.req, count := x.count, retried := x.retried } else y)

/-- A quire's line after the L2 has collected a dirty L1D copy and taken write permission back (R286). -/
def QLine.collected (x : QLine) : QLine := { x with perm := none, l1dirty := none }

/-- FwdGetS at a quire: the data it sends and its new state, none where R331 has no answer. -/
def qFwdGetS (x : QLine) : Option (QLine × Line) :=
  match x.st with
  | .m | .e => some ({ x.collected with st := .o, dirty := x.dirty || x.st == .m }, x.data)
  | .o | .omAD | .miA | .eiA => some (x, x.data)
  | _ => none

/-- FwdGetM at a quire (R331). -/
def qFwdGetM (x : QLine) : Option (QLine × Line) :=
  match x.st with
  | .m | .o | .e => some ({ x with st := .i }, x.data)
  | .omAD => some ({ x with st := .imAD }, x.data)
  | .miA | .eiA => some ({ x with st := .iiA }, x.data)
  | _ => none

/-- Inv at a quire, which answers InvAck (R331). -/
def qInv (x : QLine) : Option QLine :=
  match x.st with
  | .s => some { x with st := .i }
  | .smAD => some { x with st := .imAD }
  | .i | .isD | .imAD | .iiA => some x
  | _ => none

/-- Whether the line that a quire gives away differs from the home's value: M is dirty, O clean or dirty, E clean (R320). -/
def QLine.isDirty (x : QLine) : Bool := x.st == .m || x.dirty

/-- A quire answers for a line as its owner (R320, R341). -/
def QState.owns : QState → Bool
  | .m | .o | .e | .omAD | .miA | .eiA => true
  | _ => false

/-- Recall at a quire: RData with its dirty flag (R331). -/
def qRecall (x : QLine) : Option (QLine × Line × Bool) :=
  (qFwdGetM x).map fun r => (r.1, r.2, x.isDirty)

/-- Snp at a quire: SData with its dirty flag; the clean flag moves M to E, O to S and OM_AD to SM_AD (R331). -/
def qSnp (clean : Bool) (x : QLine) : Option (QLine × Line × Bool) :=
  match x.st with
  | .m => some (if clean then { x.collected with st := .e, dirty := false } else x.collected, x.data, true)
  | .o => some (if clean then { x with st := .s, dirty := false } else x, x.data, x.dirty)
  | .omAD => some (if clean then { x with st := .smAD, dirty := false } else x, x.data, x.dirty)
  | .e => some (x, x.data, false)
  | .miA | .eiA => some (x, x.data, x.isDirty)
  | _ => none

/-- Sh of R333: the sharer pointers, or the quire set when BC = 1, without the requester and the owner. -/
def State.shOf (s : State) (l : Nat) (e : DirEntry) (r : Option Nat) : List Nat :=
  (if e.bc then s.quireSet l else e.sharers).filter fun q => some q != r && some q != e.owner

/-- Add a sharer to an entry (R338). -/
def DirEntry.share (e : DirEntry) (q : Nat) : DirEntry :=
  if e.bc || e.sharers.contains q then e
  else if e.sharers.length < 4 then { e with sharers := e.sharers ++ [q] } else { e with bc := true, sharers := [] }

/-- An entry that runs no transaction and queues nothing. -/
def DirEntry.idle (e : DirEntry) : Bool := e.txn.isNone && e.queue.isEmpty

/-- An entry stands in a way of the directory: its line has a home state other than DI, or runs a transaction (R322). -/
def DirEntry.valid (e : DirEntry) : Bool := e.st != .di || e.txn.isSome

/-- The L2 of a quire is in retention: a request that meets it waits for the wake (R638, R653). -/
def State.retentive (s : State) (q : Nat) : Bool := s.rbit (.qpwr (quireFin q)) 1 14

/-- A quire's agent answers a forwarded message: its blocks are not in reset and its L2 is not in retention (R43, R638). -/
def State.answers (s : State) (q : Nat) : Bool :=
  !s.retentive q && !s.inReset.contains (.quire (quireFin q)) && !s.inReset.contains (.l2 (quireFin q))

/-- Requests for a line wait at its home outside its entry: for a way, for memory, for the rest of their cycle, or reserved. -/
def Home.waits (k : Home) (l : Nat) : Bool :=
  k.waiting.any (·.1 == l) || k.arrivals.any (·.1 == l) || k.resv.any (·.line == l)

/-- A request can run whole on a line at its home: the line runs and queues nothing, and every quire that its transaction would
reach answers (R326, R638). -/
def State.ready (s : State) (h l : Nat) : Bool :=
  let e := s.dirE h l
  e.idle && !(s.home h).waits l && (e.owner.toList ++ s.shOf l e none).all s.answers

/-- The rotation pointer moves one past the index ordered first in a cycle in which requests reached the home (R327). -/
def State.rotate (s : State) (h r : Nat) : State := s.setHome h { s.home h with ptr := (r + 1) % 40 }

/-- The DIR block of home `h`. -/
def dirBlk (h : Nat) : Blk := .dir (Fin.ofNat 32 h)

/-- Invalidate a set of sharers of a line; a transaction that sends Inv with BC = 1 counts in DIR_BCAST (R338, R349). -/
def State.invAll (s : State) (h l : Nat) (bc : Bool) (qs : List Nat) : State :=
  let s := if bc && !qs.isEmpty then s.count (dirBlk h) 3 0 35 else s
  qs.foldl (fun s q => match qInv (s.qline q l) with | some x => s.qput q l x | none => s) s

/-- Write an entry as most recently used (R339). -/
def State.putDir (s : State) (h l : Nat) (e : DirEntry) : State :=
  let k := s.home h
  let s := s.setHome h { k with stamp := k.stamp + 1 }
  s.setDirE h l (if !e.valid && e.queue.isEmpty then dirReset else { e with used := k.stamp + 1 })

/-- A request that a home answers from an entry uses it, whether or not it changes the entry: what counts as a use in "least
recently used" (R339) is not stated (log entry 5, DESIGN CHOICE). -/
def State.useDir (s : State) (h l : Nat) : State := if (s.dirE h l).valid then s.putDir h l (s.dirE h l) else s

/-- The owner gives its line up to the home; a dirty line is written to the L3 (R335). -/
def State.recallOwner (s : State) (h l : Nat) (e : DirEntry) : Option State :=
  match e.owner with
  | none => some s
  | some o =>
    match qRecall (s.qline o l) with
    | none => none
    | some (x, d, dirty) =>
      if dirty && !s.canWrite h l then none
      else some (let s := s.qput o l x; if dirty then s.homeWrite h l d else s)

/-- The directory set of a line, one of 16,384 (R322). -/
def dirSetOf (l : Nat) : Nat := Config.dirSet l % 16384

/-- Entries that stand in the directory set of a line (R322). -/
def State.dirSetEntries (s : State) (h l : Nat) : List (Nat × DirEntry) :=
  s.dir.filter fun x => x.1 / 2 ^ 34 == h && dirSetOf (x.1 % 2 ^ 34) == dirSetOf l && x.2.valid

/-- Rank of a victim: DS before DO before DX (R339). -/
def victimRank (e : DirEntry) : Nat := match e.st with | .ds => 0 | .dO => 1 | .dx => 2 | .di => 3

/-- The victim that a full set gives up: not busy, by rank, then least recently used (R339). -/
def pickVictim (es : List (Nat × DirEntry)) : Option (Nat × DirEntry) :=
  (es.filter fun x => x.2.txn.isNone).foldl (fun b x =>
    match b with
    | none => some x
    | some y =>
      if victimRank x.2 < victimRank y.2 ∨ (victimRank x.2 = victimRank y.2 ∧ x.2.used < y.2.used) then some x else some y) none

/-- A reservation waits at a home on the directory set of a line (R340). -/
def State.reservedSet (s : State) (h l : Nat) : Bool :=
  (s.home h).resv.any fun x => (s.dirE h x.line).txn.isNone && dirSetOf x.line == dirSetOf l

/-- Make a way free in the directory set of a line, evicting a victim entry when all 16 are in use (R339); none while a
reservation or another request waits on the set (R340). -/
def State.allocate (s : State) (h l : Nat) : Option State :=
  if s.reservedSet h l || (s.home h).waiting.any (fun w => dirSetOf w.1 == dirSetOf l) then none else
  let es := s.dirSetEntries h l
  if es.length < 16 then some s else
    match pickVictim es with
    | none => none
    | some (k, e) =>
      let lv := k % 2 ^ 34
      if !s.ready h lv then none else
      let s := s.count (dirBlk h) 5 0 35
      let s := s.invAll h lv e.bc (s.shOf lv e none)
      (s.recallOwner h lv e).map fun s => s.setDirE h lv dirReset

/-- A quire gives a line back at once: Put from M, O or E, a silent drop from S (R330, R334). -/
def State.evict (s : State) (q l : Nat) : Option State :=
  let x := s.qline q l
  match x.st with
  | .i => some s
  | .s => some (s.qput q l { x with st := .i })
  | .m | .o | .e =>
    match s.homeOf l with
    | none => none
    | some h =>
      let e := s.dirE h l
      if !s.ready h l || !(x.st == .e || s.canWrite h l) then none else
      let s := (if x.st == .e then s else s.homeWrite h l x.data).rotate h q
      let e := if e.owner != some q then e else
        if e.st == .dx then dirReset else { e with owner := none, st := .ds }
      some ((s.putDir h l e).qput q l { x with st := .i })
  | _ => none

/-- Room for a line in its L2 set: an unlocked line is evicted when no way is free for it (R285, R286, R299; log entry 5). -/
def State.makeRoom (s : State) (q l : Nat) : Option State :=
  if (s.wayFor q l).isSome then some s else
    let can := (s.l2Set q l).filter fun x =>
      (s.lockWay q x.1).isNone && (x.2.st == .m || x.2.st == .o || x.2.st == .e || x.2.st == .s)
    match can[Config.victimPick s.freeCtr % can.length]? with
    | none => none
    | some v => ({ s with freeCtr := s.freeCtr + 1 }).evict q v.1

/-- A line as a fill leaves it at a quire. -/
def qlineIn (st : QState) (d : Line) (dirty : Bool) : QLine := { qlineReset with st := st, data := d, dirty := dirty }

/-- GetS run whole: quire `q` holds nothing and comes to hold the line in S or E (R330, R333, R336). -/
def State.acquireS (s : State) (q l : Nat) : Option State :=
  match s.homeOf l with
  | none => none
  | some h =>
    let e := s.dirE h l
    if !s.ready h l then none else
    let s := s.rotate h q
    match e.st with
    | .di =>
      (s.allocate h l).bind fun s => (s.homeData h l).map fun r =>
        (r.2.putDir h l { dirReset with st := .dx, owner := some q }).qput q l (qlineIn .e r.1 false)
    | .ds =>
      (s.homeData h l).map fun r => (r.2.putDir h l (e.share q)).qput q l (qlineIn .s r.1 false)
    | .dO | .dx =>
      match e.owner with
      | none => none
      | some o =>
        if o = q then none else
        (qFwdGetS (s.qline o l)).map fun r =>
          ((s.qput o l r.1).putDir h l { (e.share q) with st := .dO }).qput q l (qlineIn .s r.2 false)

/-- GetM or GetZ run whole: quire `q` comes to hold the only copy, in M; GetZ makes it all zero without reading it
(R330, R333, R336). -/
def State.acquireM (s : State) (q l : Nat) (zero : Bool) : Option State :=
  match s.homeOf l with
  | none => none
  | some h =>
    let e := s.dirE h l
    if !s.ready h l then none else
    let s := s.rotate h q
    let fin (s : State) (d : Line) : State :=
      (s.putDir h l { dirReset with st := .dx, owner := some q }).qput q l
        { s.qline q l with st := .m, dirty := true, data := if zero then zeroLine else d }
    match e.st with
    | .di => (s.allocate h l).bind fun s =>
        if zero then some (fin s zeroLine) else (s.homeData h l).map fun r => fin r.2 r.1
    | .ds =>
      let s := s.invAll h l e.bc (s.shOf l e (some q))
      if zero then some (fin s zeroLine) else (s.homeData h l).map fun r => fin r.2 r.1
    | .dO | .dx =>
      match e.owner with
      | none => none
      | some o =>
        let s := s.invAll h l e.bc (s.shOf l e (some q))
        if o = q then some (fin s (s.qline q l).data)
        else (qFwdGetM (s.qline o l)).map fun r => fin (s.qput o l r.1) r.2

/-- ReadNC run whole for requester index `r` (R333, R335). -/
def State.ncRead (s : State) (r l : Nat) : Option (Line × State) :=
  match s.homeOf l with
  | none => none
  | some h =>
    let e := s.dirE h l
    if !s.ready h l then none else
    let s := (s.rotate h r).useDir h l
    match e.owner with
    | none => s.homeData h l
    | some o => (qSnp false (s.qline o l)).map fun x => (x.2.1, s.qput o l x.1)

/-- WriteNC or AtomNC run whole for requester index `r`: every copy is invalidated or recalled, and the operation is applied
(R333, R335). -/
def State.ncWrite (s : State) (r l : Nat) (f : Line → Line) : Option State :=
  match s.homeOf l with
  | none => none
  | some h =>
    let e := s.dirE h l
    if !s.ready h l then none else
    let s := (s.rotate h r).invAll h l e.bc (s.shOf l e none)
    (s.recallOwner h l e).bind fun s =>
      (s.homeData h l).bind fun x =>
        if x.2.canWrite h l then some ((x.2.homeWrite h l (f x.1)).putDir h l dirReset) else none

/-- A fill of a line is in flight into some quire (R308). -/
def State.filling (s : State) (l : Nat) : Bool :=
  s.qlines.any fun x => x.1 % 2 ^ 34 == l &&
    match x.2.st with | .isD | .imAD | .smAD | .omAD | .imA => true | _ => false

/-- MClean run whole for quire `r` (R306, R308, R333, R335). -/
def State.mClean (s : State) (r l : Nat) : Option State :=
  match s.homeOf l with
  | none => none
  | some h =>
    let e := s.dirE h l
    if !s.ready h l || s.filling l then none else
    let s := (s.rotate h r).useDir h l
    match e.owner with
    | none => s.l3Clean h l
    | some o =>
      (qSnp true (s.qline o l)).bind fun x =>
        ((s.qput o l x.1).cleanLine h l x.2.1 x.2.2).map fun s =>
          if e.st == .dO then s.putDir h l { ({ e with owner := none, st := .ds }).share o with st := .ds } else s

/-- MFlush (`keep` true: dirty data goes to memory) or MPurge (dirty data is discarded) run whole for quire `r` (R306, R308, R333,
R335). -/
def State.mFlush (s : State) (r l : Nat) (keep : Bool) : Option State :=
  match s.homeOf l with
  | none => none
  | some h =>
    let e := s.dirE h l
    if !s.ready h l || s.filling l || (keep && !s.memUp l) then none else
    let s := (s.rotate h r).invAll h l e.bc (s.shOf l e none)
    let drop (s : State) : State := (s.setL3 h l none).putDir h l dirReset
    let l3out (s : State) : State :=
      match s.l3Line h l with | some x => if x.dirty && keep then s.memWrite l x.data else s | none => s
    match e.owner with
    | none => some (drop (l3out s))
    | some o =>
      (qRecall (s.qline o l)).map fun x =>
        let s := s.qput o l x.1
        drop (if x.2.2 && keep then s.memWrite l x.2.1 else l3out s)

/-- The L2 of a quire serves its cores: EN 1 (R302, R303, R312). -/
def State.l2On (s : State) (q : Nat) : Bool := s.rbit (.l2 (quireFin q)) 0 0

/-- A quire holds a readable copy in a state (R330). -/
def QState.readable : QState → Bool
  | .m | .o | .e | .s | .smAD | .omAD => true
  | _ => false

/-- A quire keeps its own accesses to a line waiting for the Cmp of a maintenance request (R332). -/
def State.stalled (s : State) (q l : Nat) : Bool :=
  s.openReqs.any fun x => x.who == q && x.line == l &&
    match x.kind with | .mClean | .mFlush | .mPurge => true | _ => false

/-- The L1I, or with `d` the L1D, of a core serves it: its own enable bit and the L2's are 1 (R303, R311). -/
def State.l1On (s : State) (c : Nat) (d : Bool) : Bool := s.rbit (coreBlk c) 0o220 (b2n d) && s.l2On (quireOf c)

/-- The L1I or L1D of the quire's core `i` holds a line (R286). -/
def QLine.inL1 (x : QLine) (d : Bool) (i : Nat) : Bool := if d then x.l1d.getLsbD i else x.l1i.getLsbD i

/-- The array number of a cache. -/
def cacheNo : CacheSel → Nat
  | .l1i c => c.val
  | .l1d c => 192 + c.val
  | .l2 q => 384 + q.val

/-- The L1I or L1D of a core, by name. -/
def l1Of (c : Nat) (d : Bool) : CacheSel := if d then .l1d (coreFin c) else .l1i (coreFin c)

/-- A line that a cache kept in its array over a disable (R304). -/
def State.array (s : State) (x : CacheSel) (l : Nat) : Option Line := Tab.get (fun _ => none) s.arrays (cacheNo x * 2 ^ 34 + l)
/-- Replace a line kept in an array. -/
def State.setArray (s : State) (x : CacheSel) (l : Nat) (d : Option Line) : State :=
  { s with arrays := Tab.set (fun _ => none) s.arrays (cacheNo x * 2 ^ 34 + l) d }
/-- Forget what a cache kept in its array. -/
def State.clearArray (s : State) (x : CacheSel) : State := { s with arrays := s.arrays.filter fun e => e.1 / 2 ^ 34 != cacheNo x }

/-- Lines in the L1I or L1D set of a line, 256 sets of 8 ways, those kept over a disable included (R285, R304). -/
def State.l1Set (s : State) (c : Nat) (d : Bool) (l : Nat) : List Nat :=
  ((s.qlines.filter fun x => x.1 / 2 ^ 34 == quireOf c && x.1 % 256 == l % 256 && x.2.inL1 d (c % 6)).map fun x => x.1 % 2 ^ 34) ++
    (s.arrays.filter fun x => x.1 / 2 ^ 34 == cacheNo (l1Of c d) && x.1 % 256 == l % 256).map fun x => x.1 % 2 ^ 34

/-- Remove a line from an L1; a dirty copy has gone to L2 (R285, R286). -/
def QLine.dropL1 (x : QLine) (c : Nat) (d : Bool) : QLine :=
  let m := ~~~BitVec.ofNat 6 (2 ^ (c % 6))
  if d then { x with l1d := x.l1d &&& m, perm := if x.perm = some c then none else x.perm, l1dirty := if x.l1dirty = some c then none else x.l1dirty }
  else { x with l1i := x.l1i &&& m }

/-- A line leaves an L1 of a core. -/
def State.l1Drop (s : State) (c : Nat) (d : Bool) (l : Nat) : State :=
  (s.setQline (quireOf c) l ((s.qline (quireOf c) l).dropL1 c d)).setArray (l1Of c d) l none

/-- An L1 of a core takes a line that its L2 holds (R285, R286): with the 8 ways of the set in use one of its lines leaves (log
entry 5), and a dirty copy in another L1 has been collected. -/
def State.l1Fill (s : State) (c : Nat) (d : Bool) (l : Nat) : State :=
  let q := quireOf c
  if (s.qline q l).inL1 d (c % 6) then s else
  let held := s.l1Set c d l
  let s : State := if held.length < 8 then s else
    match held[Config.victimPick s.freeCtr % held.length]? with
    | some v => ({ s with freeCtr := s.freeCtr + 1 } : State).l1Drop c d v
    | none => s
  let x := (s.qline q l).collected
  let b := BitVec.ofNat 6 (2 ^ (c % 6))
  s.setQline q l (if d then { x with l1d := x.l1d ||| b } else { x with l1i := x.l1i ||| b })

/-- A read of a line for quire `q`, into its L2: a hit, or GetS run whole on a miss (R330); a non-caching read while the L2 is
disabled (R303). -/
def State.quireRead (s : State) (q l : Nat) : Option (Line × State) :=
  if s.retentive q then none else
  if !s.l2On q then s.ncRead q l else
  let x := s.qline q l
  if s.stalled q l then none
  else if x.st.readable then some (x.data, s)
  else if x.st == .i then
    ((s.makeRoom q l).bind fun s => s.acquireS q l).map fun s => ((s.qline q l).data, s)
  else none

/-- The prefetch of the line after a demand access that missed (R300, R301): the L2 takes it, and with `l1` the core's L1D; not
across a 4 KiW page, not with PFOFF, not into a locked slot that stands empty (R299), and not a poisoned line. -/
def State.prefetch (s : State) (c sh l : Nat) (l1 : Bool) : State :=
  let q := quireOf c
  if (l + 1) % 256 = 0 ∨ s.rbit .deckle (0o200 + sh) 0 = true ∨ s.stalled q (l + 1) = true then s else
    let x := s.qline q (l + 1)
    let s? : Option State :=
      if x.st.readable then some s
      else if x.st == .i && (s.lockWay q (l + 1)).isNone then (s.makeRoom q (l + 1)).bind fun s => s.acquireS q (l + 1)
      else none
    match s? with
    | some s' => if (s'.qline q (l + 1)).data.poison then s else if l1 then s'.l1Fill c true (l + 1) else s'
    | none => s

/-- A load of a line by core `c` in sheet `sh`: from its L1D, stale where that was enabled again without being emptied (R304), or
through its L2; the L1D takes the line, and a miss prefetches (R285, R300). -/
def State.loadLine (s : State) (c sh l : Nat) : Option (Line × State) :=
  let q := quireOf c
  let on := s.l1On c true
  match (if on && !s.retentive q then s.array (l1Of c true) l else none) with
  | some x => some (x, s)
  | none =>
    let x := s.qline q l
    let l1miss := on && !x.inL1 true (c % 6)
    (s.quireRead q l).map fun r =>
      if !s.l2On q then r else
      let s1 := if l1miss then r.2.l1Fill c true l else r.2
      (r.1, if l1miss || x.st == .i then s1.prefetch c sh l l1miss else s1)

/-- An instruction fetch of a line by core `c`, through its L1I (R285, R293, R304). -/
def State.fetchLine (s : State) (c l : Nat) : Option (Line × State) :=
  let q := quireOf c
  let on := s.l1On c false
  match (if on && !s.retentive q then s.array (l1Of c false) l else none) with
  | some x => some (x, s)
  | none => (s.quireRead q l).map fun r => (r.1, if on then r.2.l1Fill c false l else r.2)

/-- A line that core `c` writes: no other L1 keeps a copy, and its own L1D holds the new data, dirty, with write permission
(R285, R286); with its L1D off the L2 holds them. -/
def State.writeL1 (s : State) (c l : Nat) (x : QLine) : State :=
  let q := quireOf c
  let mine := x.l1d &&& BitVec.ofNat 6 (2 ^ (c % 6))
  let s := (s.setArray (l1Of c true) l none).qput q l { x with l1i := 0, l1d := mine, perm := none, l1dirty := none }
  if s.l1On c true then
    let s := s.l1Fill c true l
    s.setQline q l { s.qline q l with perm := some c, l1dirty := some c }
  else s

/-- A write of a line for core `c`: a hit in M or E, or GetM run whole (R325, R330). -/
def State.quireWrite (s : State) (c sh l : Nat) (f : Line → Line) : Option State :=
  let q := quireOf c
  if s.retentive q then none else
  if !s.l2On q then s.ncWrite q l f else
  let x := s.qline q l
  let l1miss := s.l1On c true && !x.inL1 true (c % 6)
  if s.stalled q l then none else
  match x.st with
  | .m | .e =>
    let s := s.writeL1 c l { x with st := .m, dirty := true, data := f x.data }
    some (if l1miss then s.prefetch c sh l true else s)
  | .o | .s | .i =>
    ((if x.st == .i then s.makeRoom q l else some s).bind fun s => s.acquireM q l false).map fun s' =>
      let y := s'.qline q l
      let s' := s'.writeL1 c l { y with data := f y.data }
      if l1miss || x.st == .i then s'.prefetch c sh l l1miss else s'
  | _ => none

/-- CZERO of a line by core `c`: the issuing quire's L2 holds it in M, all zero, unread, and no L1 holds it (R306, R332). -/
def State.quireZero (s : State) (c l : Nat) : Option State :=
  let q := quireOf c
  if s.retentive q then none else
  if !s.l2On q then s.ncWrite q l fun _ => zeroLine else
  let x := s.qline q l
  let out (s : State) (x : QLine) : State :=
    s.qput q l { x with st := .m, dirty := true, data := zeroLine, l1i := 0, l1d := 0, perm := none, l1dirty := none }
  if s.stalled q l then none else
  match x.st with
  | .m | .e => some (out s x)
  | .o | .s | .i =>
    ((if x.st == .i then s.makeRoom q l else some s).bind fun s => s.acquireM q l true).map fun s => out s (s.qline q l)
  | _ => none

/-- A doubleword of a line: words 2d and 2d+1 (R77). -/
def lineDw (x : Line) (d : Nat) : DWord := dword (vget x.words (2 * d) 0) (vget x.words (2 * d + 1) 0)

/-- A line with bits of a doubleword replaced under a mask (R81); a partial store leaves poison as it is (R293). -/
def linePutDw (x : Line) (d : Nat) (mask value : DWord) : Line :=
  let v := (lineDw x d &&& ~~~mask) ||| (value &&& mask)
  { x with words := vset (vset x.words (2 * d) (dhi v)) (2 * d + 1) (dlo v) }

end Sys2Proof.Machine
end

