-- ==== Sys2Proof/Machine/Memory.lean ====
section
/-! DEFINITION. The stacked memory: the 80-bit codeword, its decoding and the address fold (R390-R395), reads with demand
scrub, misdirection and poison (R396-R398), patrol, row sparing and die migration (R401-R404), temperature (R407), and
the reset record's deferred poisons (R400, R643). -/

namespace Sys2Proof.Machine

open Sys2Proof

/-- The product in GF(2^7) modulo x^7 + x^3 + 1 (R391). -/
def gfMul (a b : Nat) : Nat :=
  let p := (List.range 7).foldl (fun r i => if b.testBit i then r ^^^ (a * 2 ^ i) else r) 0
  (List.range 6).foldl (fun r i => if r.testBit (12 - i) then r ^^^ (0b10001001 * 2 ^ (5 - i)) else r) p

/-- `n` powers of alpha from `x` on. -/
def gfList (x : Nat) : Nat → List Nat
  | 0 => []
  | n + 1 => x :: gfList (gfMul x 2) n

/-- Powers of alpha for the exponents of bits 78 down to 0. -/
def gfExps : List Nat := gfList 1 79

/-- The exponent e ≤ 78 with alpha^e = x, if any. -/
def gfLog (x : Nat) : Option Nat := gfExps.findIdx? (· == x)

/-- The cube in GF(2^7). -/
def gfCube (x : Nat) : Nat := gfMul x (gfMul x x)

/-- The syndrome of bits 0-78 at a field element (R393). -/
def syndrome (at_ : Nat) (r : BitVec 80) : Nat :=
  (List.range 79).foldl (fun acc j => gfMul acc at_ ^^^ b2n (dbit r j)) 0

/-- The exclusive-or of all bits of a number below 2^80. -/
def parity80 (x : Nat) : Bool := (List.range 80).foldl (fun p i => p != x.testBit i) false

/-- The remainder modulo g(x) = (x^7 + x^3 + 1)(x^7 + x^3 + x^2 + x + 1), the second factor being the minimal polynomial of
alpha^3 (R391). -/
def bchRem (x : Nat) : Nat :=
  (List.range 65).foldl (fun r i => if r.testBit (78 - i) then r ^^^ (0x4377 * 2 ^ (64 - i)) else r) x

/-- The CHECK pattern whose syndrome is S1 = 0, S3 = 1 (R395). -/
def poisonCheck : Nat := 0x1F55

/-- A codeword of 64 data bits and a fold bit; a poison codeword carries the poison pattern (R390, R391, R395). -/
def cwEncode (data : Nat) (fold poison : Bool) : BitVec 80 :=
  let v := (data * 2 + b2n fold) * 2 ^ 14
  let w := v + (bchRem v ^^^ (if poison then poisonCheck else 0))
  BitVec.ofNat 80 (w * 2 + b2n (parity80 w))

/-- The fold H(L) of a module-physical line address (R392). -/
def foldOf (l : Nat) : Nat :=
  (List.range 34).foldl (fun h i => if l.testBit i then h ^^^ ((i + 1) + 64 * ((i + 1) % 7)) else h) 0

/-- Bit k of the fold, bit 0 the most significant of nine. -/
def foldBit (l k : Nat) : Bool := (foldOf l).testBit (8 - k)

/-- What decoding a codeword finds (R393). -/
inductive CwOut where
  | good (r : BitVec 80) (fixed : Bool)
  | poison
  | bad
deriving DecidableEq, Repr

/-- A codeword with device bit `j` inverted. -/
def cwFlip (r : BitVec 80) (j : Nat) : BitVec 80 := r ^^^ BitVec.ofNat 80 (2 ^ (79 - j))

/-- Decode a codeword by the table of R393. -/
def cwDecode (r : BitVec 80) : CwOut :=
  let s1 := syndrome 2 r
  let s3 := syndrome (gfCube 2) r
  let p := parity80 r.toNat
  if s1 = 0 then
    if s3 = 0 then if p then .good (cwFlip r 79) true else .good r false
    else if s3 = 1 ∧ !p then .poison else .bad
  else if p then
    if s3 = gfCube s1 then match gfLog s1 with
      | some e => .good (cwFlip r (78 - e)) true
      | none => .bad
    else .bad
  else
    let hit := (List.range 79).findSome? fun e =>
      let x := gfExps.getD e 0
      let y := s1 ^^^ x
      if y ≠ 0 ∧ gfCube x ^^^ gfCube y = s3 then (gfLog y).map fun f => (e, f) else none
    match hit with
    | some (e, f) => if e = f then .bad else .good (cwFlip (cwFlip r (78 - e)) (78 - f)) true
    | none => .bad

/-- The 576 data bits of a line in device order (R390). -/
def lineBits (x : Line) : Nat := x.words.toList.foldl (fun n w => n * 2 ^ 36 + w.toNat) 0

/-- The line of 576 data bits. -/
def lineOfBits (n : Nat) : Line :=
  { words := Vector.ofFn fun (i : Fin 16) => BitVec.ofNat 36 (n / 2 ^ (36 * (15 - i.val))), poison := false }

/-- Codeword `k` of a line as it is stored at a module-physical line address (R390-R395). -/
def storedCw (l : Nat) (x : Line) (k : Nat) : BitVec 80 :=
  if x.poison then cwEncode 0 (foldBit l k) true
  else cwEncode (lineBits x / 2 ^ (64 * (8 - k)) % 2 ^ 64) (foldBit l k) false

/-- What a read of nine codewords finds (R394): the corrected codewords, and the line or why there is none; a poisoned line
may hold an uncorrectable codeword beside. -/
inductive LineOut where
  | ok (x : Line) (fixed : Nat)
  | misdir (fixed : Nat)
  | poison (bad : Bool)
  | bad
deriving DecidableEq, Repr

/-- Decode nine codewords read for a module-physical line address (R394). -/
def lineDecode (l : Nat) (cs : List (BitVec 80)) : LineOut :=
  let os := cs.map cwDecode
  if os.contains .poison then .poison (os.contains .bad)
  else if os.contains .bad then .bad
  else
    let rs := os.filterMap fun o => match o with | .good r f => some (r, f) | _ => none
    let fixed := (rs.filter (·.2)).length
    let foldsOk := rs.zipIdx.all fun x => dbit x.1.1 64 == foldBit l x.2
    if foldsOk then .ok (lineOfBits (rs.foldl (fun n x => n * 2 ^ 64 + x.1.toNat / 2 ^ 16) 0)) fixed else .misdir fixed

/-- The stack block of controller `m`. -/
def stackBlk (m : Nat) : Blk := .stack (Fin.ofNat 16 m)
/-- The controller block `m`. -/
def mcBlk (m : Nat) : Blk := .memc (Fin.ofNat 16 m)

/-- What the array returns for one read of stack `m` (R387, R390): the codewords stored at the address really read, with the
bits in error inverted. -/
def State.rawLine (s : State) (m : Nat) (r : RawRead) : List (BitVec 80) :=
  let l := m * 2 ^ 30 + r.from_.val
  let x := s.dramLine l
  (List.range 9).map fun k => storedCw l x k ^^^ vget r.errs k 0

/-- The sheet-absolute word address of a module-physical line, with the sheet that owns its region (R106, R399). -/
def State.sheetAbs (s : State) (l : Nat) : Option (Nat × Nat) :=
  match s.regionOwner (l / 2 ^ 24) with
  | none => none
  | some sh =>
    ((List.range 1024).find? fun n =>
      let e := s.reg .deckle (0o100000 + 0o2000 * sh + n)
      dbit e 0 && field e 26 35 == l / 2 ^ 24).map fun n => (sh, n * 2 ^ 28 + l % 2 ^ 24 * 16)

/-- A level-7 machine check 0o702 of the memory side, at the service core of the sheet that owns a line (R399). -/
def State.memCheck (s : State) (l source : Nat) : State :=
  match s.sheetAbs l with
  | none => s
  | some (sh, sa) => s.postService sh { level := 7, code := 0o702, param := source * 512 + 0o777, info := w36 (sa / 16) }

/-- Start a migration of a die to the spare die; ignored while SPARE is not 0 (R403, R419). -/
def State.migrate (s : State) (m die : Nat) : State :=
  if s.fld (stackBlk m) 0 0 1 ≠ 0 then s else
    let s := (s.setFld (stackBlk m) 0 0 1 1).setFld (stackBlk m) 0 2 5 die
    let s := ((s.setFld (stackBlk m) 1 6 9 die).setFld (stackBlk m) 1 1 3 0b100).setFld (stackBlk m) 1 10 35 0
    s.setMc m { s.mc m with ptrs := #v[0, 0] }

/-- Start sparing a row: its lines wait until the copy ends (R402). With no spare row left the row stays in service, ROWEX is
raised and the die of the bank migrates (R403). -/
def State.spareRow (s : State) (m ls : Nat) : State :=
  let k := s.mc m
  let key := rowKey ls
  let bank := key / 2 ^ 15
  if k.copying.contains key then s
  else if 8 ≤ Tab.get (fun _ => 0) k.spared bank then
    (s.fault (stackBlk m) 0 (w36 (bank % 32))).migrate m (ls % 32 / 2)
  else s.setMc m { k with copying := k.copying ++ [key] }

/-- A migration aborts: the stack stays split at the pointers (R404). -/
def State.migAbort (s : State) (m : Nat) : State :=
  let die := s.fld (stackBlk m) 0 2 5
  ((s.setFld (stackBlk m) 1 1 3 0b001).setFld (stackBlk m) 0 0 1 3).fault (stackBlk m) 1 (w36 die)

/-- An uncorrectable codeword was found in a line: its row is spared (R402), and a migration aborts where the line already lives
on the spare die (R403, R404). -/
def State.badCodeword (s : State) (m ls : Nat) : State :=
  let s := s.spareRow m ls
  if s.rbit (stackBlk m) 1 1 && ls % 32 / 2 == s.fld (stackBlk m) 0 2 5 && decide (ls / 32 < vget (s.mc m).ptrs (ls % 2) 0)
  then s.migAbort m else s

/-- Corrected codewords of a line count against its row and its die in this patrol pass (R402, R403). -/
def State.countCorrected (s : State) (m ls n : Nat) : State :=
  if n = 0 then s else
    let k := s.mc m
    let key := rowKey ls
    let die := ls % 32 / 2
    let r := Tab.get (fun _ => 0) k.rows key + n
    let d := Tab.get (fun _ => 0) k.dies die + n
    let s := s.setMc m { k with rows := Tab.set (fun _ => 0) k.rows key r, dies := Tab.set (fun _ => 0) k.dies die d }
    let s := if s.fld (mcBlk m) 2 0 8 ≤ r then s.spareRow m ls else s
    if s.fld (mcBlk m) 2 18 35 ≤ d then s.migrate m die else s

/-- A good line was read with `n` corrected codewords: it is rewritten in place and counted (R396). -/
def State.scrubbed (s : State) (m ls n : Nat) (x : Line) : State :=
  if n = 0 then s else
    let s := s.setDram (m * 2 ^ 30 + ls) x
    let s := (s.count (mcBlk m) 3 0 35).memLast m 1 ls
    (s.fault (mcBlk m) 0 (w36 ls)).countCorrected m ls n

/-- A misdirected read that persisted: four on a pseudo-channel in one patrol pass migrate its die (R397, R403). -/
def State.misdirected (s : State) (m ls : Nat) : State :=
  let s := (s.memLast m 3 ls).fault (mcBlk m) 2 (w36 ls)
  let k := s.mc m
  let n := Tab.get (fun _ => 0) k.misdir (ls % 32) + 1
  let s := s.setMc m { k with misdir := Tab.set (fun _ => 0) k.misdir (ls % 32) n }
  if 4 ≤ n then s.migrate m (ls % 32 / 2) else s

/-- How a read of a line ended, for those that act on it (R401-R403). -/
inductive ReadEnd where
  | good | poison | bad | misdir
deriving DecidableEq, Repr

/-- Read a line of stack `m`, with what the array returns first and, for a misdirected read, on the second try (R396-R398):
the line delivered and how the read ended. A second read that finds the line poisoned or uncorrectable counts as one that fails
too: nothing is counted in MEMC_UE or MEMC_POISON and nothing is written (R397 speaks of the fold only; log entry 77, DESIGN
CHOICE). -/
def State.mcLine (s : State) (m ls : Nat) (first second : RawRead) : Line × ReadEnd × State :=
  let l := m * 2 ^ 30 + ls
  match lineDecode l (s.rawLine m first) with
  | .ok x n => (x, .good, s.scrubbed m ls n x)
  | .poison bad =>
    let s := (s.count (mcBlk m) 6 0 35).memLast m 4 ls
    (poisonLine, .poison, if bad then s.badCodeword m ls else s)
  | .bad =>
    let s := (s.memWrite l poisonLine).count (mcBlk m) 4 0 35
    (poisonLine, .bad, ((s.memLast m 2 ls).fault (mcBlk m) 1 (w36 ls)).badCodeword m ls)
  | .misdir _ =>
    match lineDecode l (s.rawLine m second) with
    | .ok x n => (x, .good, ((s.count (mcBlk m) 5 0 35).memLast m 3 ls).scrubbed m ls n x)
    | .bad | .poison true => (poisonLine, .misdir, (s.misdirected m ls).badCodeword m ls)
    | .misdir _ | .poison false => (poisonLine, .misdir, s.misdirected m ls)

/-- A controller reads a line for a home slice (R389, R393); a request waits while the controller is in reset or the row is
being copied. -/
def State.memcRead (s : State) (m ls : Nat) (first second : RawRead) : State :=
  if !s.memUp (m * 2 ^ 30 + ls) then s else
    let r := s.mcLine m ls first second
    r.2.2.emit (.lineOut m r.1)

/-- A controller writes a whole line (R389, R395). -/
def State.memcWrite (s : State) (m ls : Nat) (x : Line) : State :=
  if s.memUp (m * 2 ^ 30 + ls) then s.memWrite (m * 2 ^ 30 + ls) x else s

/-- A free entry of the reset record (R643). -/
def State.freeRec (s : State) : Option Nat := (List.range 4096).find? fun i => !s.rbit .rst (0o10000 + 2 * i) 0

/-- Name a line in the reset record: KIND 1 a committed store, 2 a cached line; where the record is full, the regions of
sheet `sh` in the line's stack are to be poisoned whole (R283, R310, R400, R643). -/
def State.nameLine (s : State) (sh l kind level : Nat) : State :=
  match s.freeRec with
  | some i =>
    let w := setField (setField (setField (0 : Word) 0 0 1) 2 4 kind) 5 8 level
    let s := (s.setReg .rst (0o10000 + 2 * i) w).setReg .rst (0o10000 + 2 * i + 1) (w36 l)
    s.setFld .rst 3 0 12 (s.fld .rst 3 0 12 + 1)
  | none =>
    let m := stackOf l
    let s := (s.setFld .rst 3 13 13 1).fault .rst 0 (w36 m)
    let owned := (List.range 1024).filterMap fun n =>
      let e := s.reg .deckle (0o100000 + 0o2000 * sh + n)
      if dbit e 0 && field e 26 35 / 64 == m then some (field e 26 35) else none
    let k := s.mc m
    s.setMc m { k with defer := k.defer ++ owned.filter fun r => !k.defer.contains r }

/-- The deferred poisons of a controller that accepts requests again (R400): each line named in the reset record is
poisoned and reported, its entry marked DONE, logged and freed (R643); then the regions to be poisoned whole. -/
def State.deferredPoison (s : State) (m : Nat) : State :=
  if s.inReset.contains (mcBlk m) then s else
  let one (s : State) (i : Nat) : State :=
    let a := 0o10000 + 2 * i
    let l := s.fld .rst (a + 1) 2 35
    if s.rbit .rst a 0 && !s.rbit .rst a 1 && stackOf l == m then
      let s := ((s.memWrite l poisonLine).setFld .rst a 1 1 1).memCheck l 0o011
      -- the manual gives the log entry of a DONE line no KIND, SUBJECT or DETAIL: free values
      let k := s.free 8
      let u := k.2.free 22
      let d := u.2.free 36
      let s := d.2.logEvent k.1 ((d.2.regionOwner (l / 2 ^ 24)).getD 0) u.1 (w36 d.1)
      (s.setReg .rst a 0).setReg .rst (a + 1) 0 |>.setFld .rst 3 0 12 (s.fld .rst 3 0 12 - 1)
    else s
  let s := (List.range 4096).foldl one s
  let whole (s : State) (r : Nat) : State :=
    let k := s.mc m
    let s := s.setMc m { k with patrol := k.patrol.map fun y => if y.1 / 2 ^ 24 = r % 64 then (y.1, true) else y }
    let s : State := { s with
      dram := s.dram.filter fun e => e.1 / 2 ^ 24 != r
      poisoned := if s.poisoned.contains r then s.poisoned else s.poisoned ++ [r] }
    s.memCheck (r * 2 ^ 24) 0o015
  let rs := (s.mc m).defer
  rs.foldl whole (s.setMc m { s.mc m with defer := [] })

/-- The patrol reads the line at POS and moves on; a wrap starts a new pass, and firmware records the spared rows (R401, R402). An
uncorrectable line of a sheet asks its home for a cached copy. -/
def State.patrol (s : State) (m : Nat) (first second : RawRead) : State :=
  if !s.rbit (mcBlk m) 1 0 then s else
  let ls := s.fld (mcBlk m) 1 6 35
  if !s.memUp (m * 2 ^ 30 + ls) then s else
  let s := s.setFld (mcBlk m) 1 6 35 ((ls + 1) % 2 ^ 30)
  let r := s.mcLine m ls first second
  let l := m * 2 ^ 30 + ls
  let s := match r.2.1 with
    | .bad =>
      if (r.2.2.regionOwner (l / 2 ^ 24)).isNone then r.2.2 else
      let k := r.2.2.mc m
      (r.2.2.setMc m { k with patrol := (k.patrol.filter fun y => y.1 != ls) ++ [(ls, false)] }).emit
        (.web "ReadNC" (32 + m / 2) (r.2.2.homeNo l) l none 0)
    | .misdir => r.2.2.memCheck l 0o014
    | _ => r.2.2
  if ls + 1 = 2 ^ 30 then s.setMc m { s.mc m with rows := [], dies := [], misdir := [], fused := (s.mc m).spared } else s

/-- DataNC for a patrolled line arrives: an unpoisoned line is written unless a newer write reached it, and a poisoned one is
reported (R401). -/
def State.patrolRepair (s : State) (m ls : Nat) (x : Line) : State :=
  let k := s.mc m
  match k.patrol.find? (·.1 == ls) with
  | none => s
  | some (_, newer) =>
    let s := s.setMc m { k with patrol := k.patrol.filter fun y => y.1 != ls }
    if x.poison then s.memCheck (m * 2 ^ 30 + ls) 0o010
    else if newer then s
    else s.setDram (m * 2 ^ 30 + ls) x

/-- Copy one line through the code: corrected lines are written corrected, uncorrectable and poisoned ones as poison and the
uncorrectable reported under `source`; a misdirected read that persists is reported as 0o014 (R399, R402, R403). -/
def State.copyLine (s : State) (m ls source : Nat) (first second : RawRead) : State :=
  let r := s.mcLine m ls first second
  let l := m * 2 ^ 30 + ls
  match r.2.1 with
  | .bad => r.2.2.memCheck l source
  | .misdir => r.2.2.memCheck l 0o014
  | _ => r.2.2

/-- The row copy ends: 32 lines are copied, a spare row is used, and the row's accesses resume (R402). -/
def State.rowSpared (s : State) (m pc bank row : Nat) (errs : Vector (Vector (BitVec 80) 9) 32) : State :=
  let key := pc * 2 ^ 20 + bank * 2 ^ 15 + row
  if !(s.mc m).copying.contains key then s else
  let one (s : State) (col : Nat) : State :=
    let ls := row * 32768 + col * 1024 + bank * 32 + pc
    let r : RawRead := { from_ := Fin.ofNat _ ls, errs := vget errs col (Vector.replicate 9 0) }
    s.copyLine m ls 0o012 r r
  let s := (List.range 32).foldl one s
  let k := s.mc m
  let b := key / 2 ^ 15
  let s := s.setMc m { k with
    copying := k.copying.filter (· != key)
    rows := Tab.set (fun _ => 0) k.rows key 0
    spared := Tab.set (fun _ => 0) k.spared b (Tab.get (fun _ => 0) k.spared b + 1) }
  s.setFld (stackBlk m) 0 18 31 (s.fld (stackBlk m) 0 18 31 + 1)

/-- The controller copies the line at one of the two copy pointers of a migration and raises it (R403, R404). -/
def State.migCopy (s : State) (m half : Nat) (first second : RawRead) (spareFails : Bool) : State :=
  if !s.rbit (stackBlk m) 1 1 then s else
  if spareFails then s.migAbort m else
  let k := s.mc m
  let p := vget k.ptrs half 0
  if 2 ^ 25 ≤ p then s else
  let ls := p * 32 + 2 * s.fld (stackBlk m) 0 2 5 + half
  if !s.memUp (m * 2 ^ 30 + ls) then s else
  let s := s.copyLine m ls 0o013 first second
  let k := s.mc m
  let s := s.setMc m { k with ptrs := vset k.ptrs half (p + 1) }
  let low := Nat.min (vget (s.mc m).ptrs 0 0) (vget (s.mc m).ptrs 1 0)
  let s := s.setFld (stackBlk m) 1 10 35 low
  if low = 2 ^ 25 then (s.setFld (stackBlk m) 1 1 3 0b010).setFld (stackBlk m) 0 0 1 2 else s

/-- A pseudo-channel recalibrates; a failure on the spare die during a migration aborts it (R404, R406). -/
def State.recalibrate (s : State) (m pc : Nat) (fails : Bool) : State :=
  if fails && s.rbit (stackBlk m) 1 1 && pc / 2 == s.fld (stackBlk m) 0 2 5 then s.migAbort m else s

/-- The stack temperature is sampled: refresh rate, throttle and the 95 °C report, each left 2 °C below its lower bound; leaving
THROTTLE is a large step and waits for its grant, and above 90 °C is neither asked for nor granted (R407, R630). -/
def State.stackTemp (s : State) (m temp : Nat) : State :=
  let s := s.setFld (stackBlk m) 0 6 14 temp
  let s := if 85 < temp then s.setFld (mcBlk m) 0 3 3 1 else if temp ≤ 83 then s.setFld (mcBlk m) 0 3 3 0 else s
  let want : StepKind × Bool := (.unthrottle m, false)
  let s := if 90 < temp then
      let s : State := { s with
        steps := s.steps.filter (· != want), granted := s.granted.filter fun g => g.1 != .unthrottle m }
      if s.rbit (mcBlk m) 0 2 then s else (s.setFld (mcBlk m) 0 2 2 1).fault (mcBlk m) 4 (w36 temp)
    else if temp ≤ 88 && s.rbit (mcBlk m) 0 2 && !s.steps.contains want && s.granted.all (fun g => g.1 != .unthrottle m) then
      { s with steps := s.steps ++ [want] }
    else s
  let k := s.mc m
  if 95 ≤ temp then
    let s := s.setMc m { k with hot := true }
    if k.hot then s else s.fault (stackBlk m) 2 (w36 temp)
  else if temp ≤ 93 then s.setMc m { k with hot := false } else s

end Sys2Proof.Machine
end

