-- ==== Sys2Proof/Machine/Flags.lean ====
section
/-! DEFINITION. The four integer flags (R162) and every integer result with its flags (R166-R175, R208, R209). A
`w`-bit operand is a number below 2^w. An execution check on a value answers its program-check code (R165). -/

namespace Sys2Proof.Machine

open Sys2Proof

/-- The flags N, Z, C and V (R162). -/
structure Flg where
  n : Bool
  z : Bool
  c : Bool
  v : Bool
deriving DecidableEq, Repr

/-- The flags of a PSW (R240). -/
def pswFlags (p : DWord) : Flg := { n := dbit p 32, z := dbit p 33, c := dbit p 34, v := dbit p 35 }

/-- The flags as bits N Z C V of a 4-bit number. -/
def Flg.bits (f : Flg) : Nat := 8 * b2n f.n + 4 * b2n f.z + 2 * b2n f.c + b2n f.v

/-- The flags of a 4-bit number. -/
def flgOf (x : Nat) : Flg := { n := x / 8 % 2 == 1, z := x / 4 % 2 == 1, c := x / 2 % 2 == 1, v := x % 2 == 1 }

/-- A PSW with its flags replaced. -/
def pswSetFlags (p : DWord) (f : Flg) : DWord := setField p 32 35 f.bits

/-- The flags of a condition code (R194). -/
def ccFlags (cc : Nat) : Flg := { n := false, z := cc == 0, c := cc / 2 % 2 == 1, v := cc % 2 == 1 }

/-- Bit 0, the most significant bit, of a `w`-bit number. -/
def msb (w x : Nat) : Bool := decide (2 ^ (w - 1) ≤ x % 2 ^ w)

/-- Bit `i` in device numbering of a `w`-bit number. -/
def nbit (w x i : Nat) : Bool := x.testBit (w - 1 - i)

/-- N and Z of a `w`-bit result with given C and V. -/
def nzcv (w r : Nat) (c v : Bool) : Flg := { n := msb w r, z := r % 2 ^ w == 0, c := c, v := v }

/-- An integer does not fit in `w` bits as a signed number. -/
def ovf (w : Nat) (i : Int) : Bool := decide (i < -(2 ^ (w - 1) : Nat) ∨ ((2 ^ (w - 1) : Nat) : Int) ≤ i)

/-- A result and its flags, or the code of a program check. -/
abbrev AluR := Except Nat (Nat × Flg)

/-- x + s + c (R162, R168). -/
def aluAdd (w x s cin : Nat) : Nat × Flg :=
  let t := x + s + cin
  let r := t % 2 ^ w
  (r, nzcv w r (decide (2 ^ w ≤ t)) (ovf w (signedOf w x + signedOf w s + cin)))

/-- x - s - c; C is the borrow (R162, R168). -/
def aluSub (w x s cin : Nat) : Nat × Flg :=
  let r := wrapTo w ((x : Int) - s - cin)
  (r, nzcv w r (decide (x < s + cin)) (ovf w (signedOf w x - signedOf w s - cin)))

/-- INC and DEC leave C (R168). -/
def keepC (old : Flg) (r : Nat × Flg) : Nat × Flg := (r.1, { r.2 with c := old.c })

/-- The low w bits of a product; C = V = 1 when it does not fit (R168). -/
def aluMul (signed : Bool) (w x s : Nat) : Nat × Flg :=
  if signed then
    let p := signedOf w x * signedOf w s
    let r := wrapTo w p
    (r, nzcv w r (ovf w p) (ovf w p))
  else
    let p := x * s
    let r := p % 2 ^ w
    let big := decide (2 ^ w ≤ p)
    (r, nzcv w r big big)

/-- The high w bits of the 2w-bit product (R168). -/
def aluMulH (signed : Bool) (w x s : Nat) : Nat × Flg :=
  let r := if signed then wrapTo (2 * w) (signedOf w x * signedOf w s) / 2 ^ w else x * s / 2 ^ w % 2 ^ w
  (r, nzcv w r false false)

/-- The 72-bit product of two words (R168). -/
def aluMulD (signed : Bool) (x s : Nat) : Nat × Flg :=
  let r := if signed then wrapTo 72 (signedOf 36 x * signedOf 36 s) else x * s % 2 ^ 72
  (r, nzcv 72 r false false)

/-- DIV and REM (`rem` true) and their unsigned forms (R169, R209). -/
def aluDiv (signed rem : Bool) (w x s : Nat) : AluR :=
  if s % 2 ^ w = 0 then .error 0o011
  else if signed then
    let a := signedOf w x
    let b := signedOf w s
    let q := a.tdiv b
    if ovf w q then
      let r := if rem then 0 else x
      .ok (r, nzcv w r false true)
    else
      let r := wrapTo w (if rem then a.tmod b else q)
      .ok (r, nzcv w r false false)
  else
    let r := if rem then x % s else x / s
    .ok (r, nzcv w r false false)

/-- DIVD and DIVDU: quotient in the even word, remainder in the odd; N and Z from the even word (R169, R209). -/
def aluDivD (signed : Bool) (x s : Nat) : AluR :=
  if s % 2 ^ 36 = 0 then .error 0o011
  else
    let a : Int := if signed then signedOf 72 x else x
    let b : Int := if signed then signedOf 36 s else s
    let q := a.tdiv b
    let bad := if signed then ovf 36 q else decide (((2 ^ 36 : Nat) : Int) ≤ q)
    let r := if bad then x else wrapTo 36 q * 2 ^ 36 + wrapTo 36 (a.tmod b)
    .ok (r, nzcv 36 (r / 2 ^ 36) false bad)

/-- ABS (R168). -/
def aluAbs (w x : Nat) : Nat × Flg :=
  let r := if msb w x then wrapTo w (-(signedOf w x)) else x
  (r, nzcv w r false (ovf w ((signedOf w x).natAbs)))

/-- MIN, MAX, MINU and MAXU (R168). -/
def aluMin (signed max : Bool) (w x s : Nat) : Nat :=
  let less := if signed then decide (signedOf w x < signedOf w s) else decide (x < s)
  if less == max then s else x

/-- A logical result (R170). -/
def aluLogic (w r : Nat) : Nat × Flg := (r, nzcv w r false false)

/-- NOT of a `w`-bit number. -/
def notW (w x : Nat) : Nat := 2 ^ w - 1 - x % 2 ^ w

/-- SHL (R170, R171). -/
def aluShl (w x n : Nat) (old : Flg) : Nat × Flg :=
  if n = 0 then (x, old)
  else
    let r := if n > w then 0 else x * 2 ^ n % 2 ^ w
    let c := if n > w then false else nbit w x (n - 1)
    let top := msb w x
    let out := (List.range (Nat.min n w)).any fun i => nbit w x i != top
    (r, nzcv w r c (out || msb w r != top))

/-- SHR (R170, R171). -/
def aluShr (w x n : Nat) (old : Flg) : Nat × Flg :=
  if n = 0 then (x, old)
  else
    let r := if n > w then 0 else x / 2 ^ n
    (r, nzcv w r (if n > w then false else nbit w x (w - n)) false)

/-- SAR (R170, R171). -/
def aluSar (w x n : Nat) (old : Flg) : Nat × Flg :=
  if n = 0 then (x, old)
  else
    let k := Nat.min n w
    let r := wrapTo w (signedOf w x / (2 ^ k : Nat))
    (r, nzcv w r (if n > w then msb w x else nbit w x (w - n)) false)

/-- ROL by n mod w (R170, R171). -/
def aluRol (w x n : Nat) (old : Flg) : Nat × Flg :=
  let k := n % w
  if k = 0 then (x, old)
  else
    let r := (x * 2 ^ k + x / 2 ^ (w - k)) % 2 ^ w
    (r, nzcv w r (r % 2 == 1) false)

/-- ROR by n mod w (R170, R171). -/
def aluRor (w x n : Nat) (old : Flg) : Nat × Flg :=
  let k := n % w
  if k = 0 then (x, old)
  else
    let r := (x / 2 ^ k + x * 2 ^ (w - k)) % 2 ^ w
    (r, nzcv w r (msb w r) false)

/-- SHLD: the vacated low bits take the n most significant bits of s1 (R170, R171). -/
def aluShld (w x s1 n : Nat) (old : Flg) : AluR :=
  if n > w then .error 0o006
  else if n = 0 then .ok (x, old)
  else
    let r := (x * 2 ^ n + s1 / 2 ^ (w - n)) % 2 ^ w
    .ok (r, nzcv w r (nbit w x (n - 1)) false)

/-- SHRD: the vacated high bits take the n least significant bits of s1 (R170, R171). -/
def aluShrd (w x s1 n : Nat) (old : Flg) : AluR :=
  if n > w then .error 0o006
  else if n = 0 then .ok (x, old)
  else
    let r := (x / 2 ^ n + s1 * 2 ^ (w - n)) % 2 ^ w
    .ok (r, nzcv w r (nbit w x (w - n)) false)

/-- BTST, BSET, BCLR and BFLIP: `f` gives the new bit from the old; C and Z come from the old bit (R170, R172). -/
def aluBit (f : Bool → Bool) (w x n : Nat) (old : Flg) : AluR :=
  if n ≥ w then .error 0o006
  else
    let b := nbit w x n
    let m := 2 ^ (w - 1 - n)
    let r := if f b == b then x else if b then x - m else x + m
    .ok (r, { old with c := b, z := !b })

/-- CLZ: 0 bits before the first 1 from bit 0 (R170). -/
def aluClz (w x : Nat) : Nat × Flg :=
  let r := ((List.range w).takeWhile fun i => !nbit w x i).length
  (r, { n := false, z := x == 0, c := false, v := false })

/-- CTZ: 0 bits before the first 1 from bit w-1 (R170). -/
def aluCtz (w x : Nat) : Nat × Flg :=
  let r := ((List.range w).takeWhile fun i => !x.testBit i).length
  (r, { n := false, z := x == 0, c := false, v := false })

/-- POPC (R170). -/
def aluPopc (w x : Nat) : Nat × Flg :=
  let r := ((List.range w).filter fun i => x.testBit i).length
  (r, { n := false, z := x == 0, c := false, v := false })

/-- POS and LEN of a field descriptor, checked against the width (R172). -/
def fieldDesc (w d : Nat) : Except Nat (Nat × Nat) :=
  let pos := d / 512 % 512
  let len := d % 512
  if len = 0 ∨ pos + len > w then .error 0o006 else .ok (pos, len)

/-- BEXT (R170, R172). -/
def aluBext (w s1 d : Nat) : AluR :=
  match fieldDesc w d with
  | .error e => .error e
  | .ok (pos, len) => .ok (aluLogic w (s1 / 2 ^ (w - pos - len) % 2 ^ len))

/-- BINS (R170, R172). -/
def aluBins (w x s1 d : Nat) : AluR :=
  match fieldDesc w d with
  | .error e => .error e
  | .ok (pos, len) =>
    let sh := 2 ^ (w - pos - len)
    .ok (aluLogic w (x - (x / sh % 2 ^ len) * sh + (s1 % 2 ^ len) * sh))

/-- A signed number of `v` bits sign-extended to `w` bits. -/
def sext (v w x : Nat) : Nat := wrapTo w (signedOf v x)

/-- The condition of a branch, by its place in the opcode rows 0o200 and 0o210 (R138, R173). -/
def branchTaken (code : Nat) (f : Flg) : Bool :=
  match code with
  | 0 => f.z
  | 1 => !f.z
  | 2 => f.n != f.v
  | 3 => f.n == f.v
  | 4 => f.z || f.n != f.v
  | 5 => !f.z && f.n == f.v
  | 6 => f.c
  | 7 => !f.c
  | 8 => f.c || f.z
  | 9 => !f.c && !f.z
  | 10 => f.v
  | 11 => !f.v
  | 12 => f.n
  | 13 => !f.n
  | _ => true

end Sys2Proof.Machine
end

