-- ==== Sys2Proof/Machine/Translate.lean ====
section
/-! DEFINITION. The store buffer of a core performed in order (R262, R279, R282), the deckle map (R104), and the path
from a virtual address to a module-physical word (R94-R108). -/

namespace Sys2Proof.Machine

open Sys2Proof

/-- Perform one committed store or retired cache instruction of core `c`; none while its line is busy (R279, R307, R325). -/
def State.perform (s : State) (c : Nat) (t : Store) : Option State :=
  let sh := (s.core c).sheet.getD 64
  let l := t.addr / 16
  match t.kind with
  | .data => s.quireWrite c sh l fun x => linePutDw x (t.addr % 16 / 2) t.mask t.value
  | .czero => s.quireZero c l
  | .cwb => s.mClean (quireOf c) l
  | .cwbi => s.mFlush (quireOf c) l true
  | .cinv => s.mFlush (quireOf c) l false

/-- An OUT of the core is not performed yet: one without early acknowledgement that has not reached its end point (R276). -/
def State.outOpen (s : State) (c : Nat) : Bool := (s.core c).outs.any fun o => !o.ewa

/-- Some OUT of the core is not performed: it is open, or waits in the gather buffer (R276, R277). A release write waits for it
(R265). -/
def State.outPending (s : State) (c : Nat) : Bool := (s.core c).gather.isSome || s.outOpen c

/-- Perform the oldest entry of a core's store buffer; nothing when it is empty. Stores are performed strictly first in, first out:
R263 would let one pass another (log entry 78, DESIGN CHOICE). -/
def State.drainOne (s : State) (c : Nat) : Option State :=
  match (s.core c).stores with
  | [] => some s
  | t :: _ => if t.rel && s.outPending c then none else (s.perform c t).map fun s => s.setCore c { s.core c with stores := (s.core c).stores.drop 1 }

/-- Perform the oldest `n` entries of a core's store buffer. -/
def State.drainN (s : State) (c : Nat) : Nat → Option State
  | 0 => some s
  | n + 1 => (s.drainOne c).bind fun s => s.drainN c n

/-- Drain a core's store buffer (R282). -/
def State.drainAll (s : State) (c : Nat) : Option State := s.drainN c (s.core c).stores.length

/-- Entries of a store buffer up to and including the last release write. -/
def relCount (ts : List Store) : Nat := (ts.reverse.dropWhile fun t => !t.rel).length

/-- Perform every store up to the last release write, before an acquire read (R265). -/
def State.drainRel (s : State) (c : Nat) : Option State := s.drainN c (relCount (s.core c).stores)

/-- A buffered entry touches the doubleword at a module-physical address: a data store by its doubleword, a cache
instruction by its line (R307). -/
def Store.touches (t : Store) (mp : Nat) : Bool :=
  match t.kind with | .data => t.addr == mp | _ => t.addr / 16 == mp / 16

/-- The module-physical address of a sheet-absolute one; none where the deckle map has no valid entry (R104). -/
def State.deckleMap (s : State) (sh sa : Nat) : Option Nat :=
  if 2 ^ 38 ≤ sa ∨ 64 ≤ sh then none else
  let e := s.reg .deckle (0o100000 + 0o2000 * sh + sa / 2 ^ 28)
  if dbit e 0 then some (field e 26 35 * 2 ^ 28 + sa % 2 ^ 28) else none

/-- Who makes an access: a core, through its caches, or a unit of a tile, which reads and writes lines at the home (R316). -/
inductive Agent where
  | core (c : Nat) | tile (t : Nat)
deriving DecidableEq, Repr

/-- The requester index of the non-caching requesters of a tile (R327). -/
def ncIndex (t : Nat) : Nat := 32 + t

/-- A line read by an agent: by a core's walker and entry logic from its L2. -/
def State.agentLine (s : State) (ag : Agent) (l : Nat) : Option (Line × State) :=
  match ag with
  | .core c => s.quireRead (quireOf c) l
  | .tile t => s.ncRead (ncIndex t) l

/-- A line changed by an agent in a sheet, as one interlocked access (R187). -/
def State.agentUpd (s : State) (ag : Agent) (sh l : Nat) (f : Line → Line) : Option State :=
  match ag with
  | .core c => s.quireWrite c sh l f
  | .tile t => s.ncWrite (ncIndex t) l f

/-- The doubleword at an even module-physical address as an agent reads it, with the line's poison; a core first performs
its own buffered stores when one touches it. -/
def State.agentDw (s : State) (ag : Agent) (mp : Nat) : Option (DWord × Bool × State) :=
  let s? := match ag with
    | .core c => if (s.core c).stores.any fun t => t.touches mp then s.drainAll c else some s
    | .tile _ => some s
  s?.bind fun s => (s.agentLine ag (mp / 16)).map fun r => (lineDw r.1 (mp % 16 / 2), r.1.poison, r.2)

/-- Why an address does not translate: the access waits; a translation check with the level of its entry (R116); an
address beyond 2^38 with DAT = 0 (R94); a deckle violation with its KIND and sheet-absolute address (R73, R105); a
poisoned table entry (R293). -/
inductive XFail where
  | stall
  | check (code level : Nat) (large : Bool)
  | range
  | deckle (kind sa : Nat)
  | poison (sa : Nat)
deriving DecidableEq, Repr

/-- A translated address: sheet-absolute, module-physical, and where its leaf stands, none with DAT = 0. -/
structure Xl where
  sa     : Nat
  mp     : Nat
  leafAt : Option Nat
deriving DecidableEq, Repr

/-- Read one table entry through the deckle map (R97, R105). -/
def State.readEntry (s : State) (ag : Agent) (sh ea : Nat) : Except XFail (DWord × State) :=
  match s.deckleMap sh ea with
  | none => .error (.deckle 4 ea)
  | some mp =>
    match s.agentDw ag mp with
    | none => .error .stall
    | some (e, bad, s) => if bad then .error (.poison ea) else .ok (e, s)

/-- A valid entry breaks R99. -/
def entryBad (dspace : Bool) (level : Nat) (e : DWord) : Bool :=
  let big := dbit e 1
  let leaf := level == 3 || (level == 2 && big)
  let low := if big then 26 else if leaf then 12 else 15
  field e 30 33 != 0 || (big && level != 2) || field e 34 71 % 2 ^ low != 0 || (leaf && dspace && dbit e 3 && !dbit e 2)

/-- The walk through the remaining levels, each with its index: the leaf's address, the leaf, its level (R95-R99, R103).
Non-leaf entries go into the walk cache of a core, of which the newest 64 are kept, and are taken from it by the address of the
entry under any ASN, space or root: the manual gives the walk cache no tag and no replacement rule (R108, R110; log entry 76,
DESIGN CHOICE). -/
def State.walk (s : State) (ag : Agent) (sh : Nat) (dspace : Bool) : List (Nat × Nat) → Nat → Except XFail (Nat × DWord × Nat × State)
  | [], _ => .error .stall
  | (lv, ix) :: rest, org =>
    let ea := org + 2 * ix
    let cached : Option (Nat × DWord) := match ag with
      | .core c => (s.core c).walk.find? fun (x : Nat × DWord) => x.1 == ea && lv < 3
      | .tile _ => none
    match cached with
    | some (_, e) => s.walk ag sh dspace rest (field e 34 71)
    | none =>
      match s.readEntry ag sh ea with
      | .error x => .error x
      | .ok (e, s) =>
        if !dbit e 0 then .error (.check 0o020 lv false)
        else if entryBad dspace lv e then .error (.check 0o022 lv false)
        else if lv == 3 || dbit e 1 then .ok (ea, e, lv, s)
        else
          let s := match ag with
            | .core c => let k := s.core c; s.setCore c { k with walk := ((ea, e) :: k.walk).take 64 }
            | .tile _ => s
          s.walk ag sh dspace rest (field e 34 71)

/-- The levels of a walk with their indexes (R95, R96). -/
def walkPlan (dspace : Bool) (va : Nat) : List (Nat × Nat) :=
  if dspace then [(1, va / 2 ^ 40 % 16384), (2, va / 2 ^ 26 % 16384), (3, va / 2 ^ 12 % 16384)]
  else [(2, va / 2 ^ 26 % 1024), (3, va / 2 ^ 12 % 16384)]

/-- A leaf grants an access of KIND 1 load, 2 store, 3 fetch, 4 ATOM (R100, R126). -/
def grants (prob : Bool) (kind : Nat) (e : DWord) : Bool :=
  (!prob || dbit e 5) &&
    match kind with
    | 1 => dbit e 2
    | 2 => dbit e 3
    | 3 => dbit e 4
    | _ => dbit e 2 && dbit e 3

/-- The leaf with A set (R101). -/
def leafA (e : DWord) : DWord := setField e 7 7 1

/-- The leaf with D set (R101). -/
def leafD (e : DWord) : DWord := setField e 8 8 1

/-- The page offset of an address under a leaf of a level (R95). -/
def pageOff (lv va : Nat) : Nat := if lv = 2 then va % 2 ^ 26 else va % 2 ^ 12

/-- Set A of a leaf by an interlocked update; nothing where it is set (R101, R102). -/
def State.setA (s : State) (ag : Agent) (sh ea : Nat) (e : DWord) : Except XFail (DWord × State) :=
  if leafA e = e then .ok (e, s) else
    match s.deckleMap sh ea with
    | none => .error (.deckle 4 ea)
    | some mp =>
      match s.agentUpd ag sh (mp / 16) fun x => linePutDw x (mp % 16 / 2) (BitVec.allOnes 72) (leafA e) with
      | none => .error .stall
      | some s => .ok (leafA e, s)

/-- Set D of the leaf that a store went through, before the store is visible (R101); none while the line of the entry is busy. -/
def State.setD (s : State) (ag : Agent) (sh : Nat) (leafAt : Option Nat) : Option State :=
  match leafAt.bind fun ea => (s.deckleMap sh ea).map fun mp => (ea, mp) with
  | none => some s
  | some (ea, mp) =>
    let known := match ag with
      | .core c => (s.core c).tlb.any fun t => t.leafAt == ea && leafD t.leaf == t.leaf
      | .tile _ => false
    if known then some s else
    (s.agentDw ag mp).bind fun r =>
      if leafD r.1 = r.1 then some r.2.2 else
      (r.2.2.agentUpd ag sh (mp / 16) fun x => linePutDw x (mp % 16 / 2) (BitVec.allOnes 72) (leafD r.1)).map fun s =>
        match ag with
        | .core c =>
          let k := s.core c
          s.setCore c { k with tlb := k.tlb.map fun u => if u.leafAt = ea then { u with leaf := leafD u.leaf } else u }
        | .tile _ => s

/-- A translation buffer entry covers an address under an ASN (R108). -/
def Tlb.covers (t : Tlb) (dspace : Bool) (asn va : Nat) : Bool :=
  t.dspace == dspace && (t.global || t.asn == asn) && t.vpage == (if t.large then va / 2 ^ 26 else va / 2 ^ 12)

/-- Walk the tables for a core's access, and keep the translation (R95-R103, R108). The buffers are one list of which the newest
4,096 are kept: the manual gives their sizes and no replacement rule (log entry 76, DESIGN CHOICE). -/
def State.coreWalk (s : State) (c sh : Nat) (dspace prob : Bool) (kind va asn : Nat) : Except XFail (Nat × Nat × State) :=
  let org := s.fld (coreBlk c) (if dspace then 0o202 else 0o201) 0 22 * 2 ^ 15
  match s.walk (.core c) sh dspace (walkPlan dspace va) org with
  | .error x => .error x
  | .ok (ea, e, lv, s) =>
    if !grants prob kind e then .error (.check 0o021 lv (lv == 2)) else
    match s.setA (.core c) sh ea e with
    | .error x => .error x
    | .ok (e, s) =>
      let page := field e 34 71
      let t : Tlb := {
        dspace := dspace, asn := asn, global := dbit e 6, large := lv == 2,
        vpage := if lv = 2 then va / 2 ^ 26 else va / 2 ^ 12, page := page, leaf := e, leafAt := ea }
      let k := s.core c
      .ok (page + pageOff lv va, ea, s.setCore c { k with tlb := (t :: k.tlb).take 4096 })

/-- The sheet-absolute address of a core's access with DAT = 1: from a buffered translation, whose A has been set when it was
walked, or from a walk (R101, R102, R108, R110). -/
def State.coreMap (s : State) (c sh : Nat) (dspace prob : Bool) (kind va : Nat) : Except XFail (Nat × Nat × State) :=
  let asn := s.fld (coreBlk c) 0o200 0 11
  match (s.core c).tlb.find? fun t => t.covers dspace asn va with
  | none => s.coreWalk c sh dspace prob kind va asn
  | some t =>
    let lv := if t.large then 2 else 3
    if !grants prob kind t.leaf then .error (.check 0o021 lv t.large) else .ok (t.page + pageOff lv va, t.leafAt, s)

/-- Translate an access of core `c` to module-physical (R94-R104, R117). `fkind` is the KIND a deckle violation records. -/
def State.xlate (s : State) (c : Nat) (dspace : Bool) (kind fkind va : Nat) : Except XFail (Xl × State) :=
  let k := s.core c
  let sh := k.sheet.getD 64
  let fin (sa : Nat) (leafAt : Option Nat) (s : State) : Except XFail (Xl × State) :=
    match s.deckleMap sh sa with
    | none => .error (.deckle fkind sa)
    | some mp => .ok ({ sa := sa, mp := mp, leafAt := leafAt }, s)
  if pswDat k.psw then
    match s.coreMap c sh dspace (pswProb k.psw) kind va with
    | .error x => .error x
    | .ok (sa, ea, s) => fin sa (some ea) s
  else if 2 ^ 38 ≤ va then .error .range
  else fin va none s

/-- Translate a D-space address of a unit of a tile under a captured context (R442, R506): the walk uses no buffer. -/
def State.ctxXlate (s : State) (x : Ctx) (kind fkind va : Nat) : Except XFail (Xl × State) :=
  let fin (sa : Nat) (leafAt : Option Nat) (s : State) : Except XFail (Xl × State) :=
    match s.deckleMap x.sheet sa with
    | none => .error (.deckle fkind sa)
    | some mp => .ok ({ sa := sa, mp := mp, leafAt := leafAt }, s)
  if x.dat then
    match s.walk (.tile x.tile) x.sheet true (walkPlan true va) (x.org * 2 ^ 15) with
    | .error e => .error e
    | .ok (ea, e, lv, s) =>
      if !grants x.prob kind e then .error (.check 0o021 lv (lv == 2)) else
      match s.setA (.tile x.tile) x.sheet ea e with
      | .error y => .error y
      | .ok (e, s) => fin (field e 34 71 + pageOff lv va) (some ea) s
  else if 2 ^ 38 ≤ va then .error .range
  else fin va none s

end Sys2Proof.Machine
end

