-- ==== Sys2Proof/Machine/Ops.lean ====
section
/-! DEFINITION. The named operations of a core: device-window writes and the gather buffer (R276, R277), freezing a
master (R61-R65), core checkstop (R256, R357), interruption entry with collisions and spills (R246-R256), return with
refill (R251, R258), and loads, stores and interlocked accesses (R187, R262-R272, R293) in the monad of instructions. -/

namespace Sys2Proof.Machine

open Sys2Proof

/-- The CORE_MODEL span class of core `c`: true for class M (R55, R284). -/
def State.classM (s : State) (c : Nat) : Bool := s.rbit (coreBlk c) 0o211 35

/-- The DECKLE_RATTR register of a window: EWA in bit 0, GATH in bit 1 (R274). -/
def rattrAt (sh w : Nat) : Nat := 0o10000 + 0o100 * sh + w

/-- An OUT applied to word `k` of the sheet-side registers of PF1 queue `q` (R560). -/
def State.queueOut (s : State) (q k : Nat) (v : Word) : State :=
  let at_ := 0o10000 + 8 * q + k
  match k with
  | 1 | 2 => s.setFld .endpt at_ 20 35 (field v 20 35)
  | 4 => s.setFld .endpt at_ 0 0 (field v 0 0)
  | _ => s

/-- A root port is contained (R571). -/
def State.contained (s : State) (t i : Nat) : Bool := s.rbit (.rootp (tileFin t) (Fin.ofNat 2 i)) 2 0

/-- One write request to a window: the words go to the adapter or the queue registers, and with EWA = 0 a zero-length
read follows (R276). A contained root port drops it, and it reaches its end point at once (R571). -/
def State.windowWrite (s : State) (c sh w : Nat) (words : List (Nat × Word)) : State :=
  match s.window sh w with
  | .unbound => s
  | .queue q => words.foldl (fun s x => s.queueOut q x.1 x.2) s
  | .rootp t i fn =>
    if s.contained t i then s else
    let ewa := s.rbit .deckle (rattrAt sh w) 0
    let s := s.emit (.devWrite t i fn words)
    let s : State := if ewa then s else s.emit (.devZeroRead t i fn)
    let k : Core := s.core c
    let last := words.getLastD (0, 0)
    let o : DevOut := { window := w, offset := last.1, value := last.2, ewa := ewa, asked := !ewa }
    let old := k.outs.filter fun (x : DevOut) => !(x.window == w && x.ewa && !x.asked && ewa)
    let k' : Core := { k with outs := old ++ [o] }
    s.setCore c k'

/-- Ask for the zero-length read of every OUT that FENCE.C, or the fence of a shed core, waits on and that has none yet (R276,
R358). -/
def State.askOuts (s : State) (c : Nat) : State :=
  let k := s.core c
  let sh := k.sheet.getD 64
  k.outs.foldl (fun (s : State) (o : DevOut) =>
    if o.asked then s else
    match s.window sh o.window with
    | .rootp t i fn =>
      let s := s.emit (.devZeroRead t i fn)
      let k := s.core c
      s.setCore c { k with outs := k.outs.map fun x => if x = o then { x with asked := true } else x }
    | _ =>
      let k := s.core c
      s.setCore c { k with outs := k.outs.filter (· != o) }) s

/-- Emit the gather buffer of a core as one write request (R277). -/
def State.gatherEmit (s : State) (c : Nat) : State :=
  let k := s.core c
  match k.gather with
  | none => s
  | some g =>
    let s := s.setCore c { k with gather := none }
    let words := g.words.filterMap fun x => x.2.map fun v => (g.block * 16 + x.1, v)
    s.windowWrite c (k.sheet.getD 64) g.window words

/-- Drain everything a core has committed: its gather buffer and its store buffer (R282); none while a line is busy. -/
def State.drainEvent (s : State) (c : Nat) : Option State := (s.gatherEmit c).drainAll c

/-- The lowest free freeze record (R65). -/
def State.freeRecord (s : State) : Option Nat := (List.range 64).find? fun i => !s.rbit .deckle (0o4000 + 4 * i) 0

/-- A master is frozen. -/
def State.isFrozen (s : State) (type ident : Nat) : Bool := s.frozen.any fun f => f.type == type && f.ident == ident

/-- Write freeze record `i` (R71-R73). -/
def State.writeRecord (s : State) (i type ident sh kind addr : Nat) : State :=
  let b := 0o4000 + 4 * i
  let w0 := setField (setField (setField (setField (0 : Word) 0 0 1) 1 3 type) 4 9 sh) 18 35 ident
  let w1 := setField (setField (0 : Word) 0 5 kind) 18 35 (addr / 2 ^ 36)
  (((s.setReg .deckle b w0).setReg .deckle (b + 1) w1).setReg .deckle (b + 2) (w36 addr)).setReg .deckle (b + 3) (w36 (micros 36 s))

/-- Freeze a master whose deckle check failed: its record, FROZEN, the FRZ source and the level-4 notice; a master that is
already frozen only counts in REPEAT (R61-R65). -/
def State.freeze (s : State) (type ident sh kind addr : Nat) : State :=
  match s.frozen.find? fun f => f.type == type && f.ident == ident with
  | some f =>
    match f.recIdx with
    | some i => s.count .deckle (0o4000 + 4 * i) 10 17
    | none => s
  | none =>
    let r := s.freeRecord
    let fz : Frozen := { type := type, ident := ident, sheet := sh, recIdx := r }
    let s : State := { s with frozen := s.frozen ++ [fz] }
    let s := s.count .deckle (0o100 + sh) 9 26
    let idx := r.getD 0o777777
    let s := match r with
      | some i => s.writeRecord i type ident sh kind addr
      | none => (s.setFld .deckle 0o4400 7 7 1).fault .deckle 1 (w36 sh)
    let s := s.fault .deckle 0 (w36 idx)
    s.postService sh { level := 4, code := 0o402, param := idx, info := 0 }

/-- Freeze a core: it stops with everything kept (R62). -/
def State.freezeCore (s : State) (c kind addr : Nat) : State :=
  let k := s.core c
  (s.setCore c { k with run := .frozen }).freeze 1 c (k.sheet.getD 64) kind addr

/-- Drain what a core has committed as far as it can be: the gather buffer, and the stores up to the first whose line is busy. -/
def State.drainSome (s : State) (c : Nat) : State :=
  (List.range (s.core c).stores.length).foldl (fun s _ => (s.drainOne c).getD s) (s.gatherEmit c)

/-- Core checkstop: the recovery unit stops the core, records the cause, and posts 0o703 at the service core (R256, R357). A stop
in a spill or refill leaves the gesso bank busy (R255, R258, R259). -/
def State.coreStop (s : State) (c cause : Nat) : State :=
  let k := s.core c
  let s := s.setCore c { k with cstate := .stopped, run := .stopped (k.run == .wait), gesso := k.gesso || cause == 0o11 }
  let s := s.setFld (retryBlk c) 0 5 10 cause
  let s := s.fault (retryBlk c) 2 (w36 cause)
  let s := s.logEvent 3 (k.sheet.getD 0) c (w36 cause)
  s.postService (k.sheet.getD 64) { level := 7, code := 0o703, param := c, info := 0 }

/-- Vector entry `l` of core `c` (R246): none while its line is busy, none inside where it fails the checks of R246. -/
def State.vector (s : State) (c l : Nat) : Option (Option DWord × State) :=
  let k := s.core c
  let sh := k.sheet.getD 64
  let iv := field (k.ctlReg 2) 18 71
  if iv % 32 ≠ 0 then some (none, s) else
  match s.deckleMap sh (iv + 2 * l) with
  | none => some (none, s)
  | some mp =>
    (s.agentDw (.core c) mp).map fun r =>
      (if r.2.1 || !pswOk r.1 then none else some r.1, r.2.2)

/-- The PSW of the entered bank (R249 step 4). -/
def entryPsw (vec old : DWord) (l lc : Nat) (spl : Bool) : DWord :=
  let p := setField (setField (setField (0 : DWord) 0 0 (field vec 0 0)) 1 1 (field vec 1 1)) 2 2 (field old 2 2)
  let p := setField (setField (setField (setField p 3 3 1) 4 4 (b2n spl)) 8 10 l) 11 13 lc
  let mask := Nat.max l (Nat.max (pswMask old) (pswMask vec))
  setField (setField (setField p 16 17 (field vec 16 17)) 18 20 mask) 36 71 (field vec 36 71)

/-- IRECL (R247). -/
def irecOf (code sub param : Nat) (info : Word) : DWord :=
  dword (setField (setField (setField (0 : Word) 0 8 code) 9 17 sub) 18 35 param) info

/-- Enter level `l` with its vector entry read: mark the bank busy, build its PSW, write IRECL (R249 steps 4 and 5). -/
def Core.enter (k : Core) (vec : DWord) (l code sub param : Nat) (info : Word) (spl : Bool) : Core :=
  let b := k.bank l
  let k := k.setBank l { b with busy := true, psw := entryPsw vec k.psw l k.level spl }
  { (k.setCtl (0o10 + l) (irecOf code sub param info)) with level := l }

/-- The header word of a save area (R253). -/
def saHeader (upper spill : Bool) (lv : Nat) : Word :=
  let h := setField (setField (0 : Word) 0 8 1) 18 19 (if upper then 1 else 2)
  if spill then setField (setField h 20 20 1) 21 24 lv else h

/-- The ADDR field of a long-form pointer (R90). -/
def ptrAddr (p : DWord) : Nat := field p 18 71

/-- Translate a D-space address of core `c`; none when the access stalls, none inside when any check fails. -/
def State.tryXlate (s : State) (c kind fkind va : Nat) : Option (Option Xl × State) :=
  match s.xlate c true kind fkind va with
  | .ok (x, s) => some (some x, s)
  | .error .stall => none
  | .error _ => some (none, s)

/-- Write a doubleword at an even module-physical address for core `c`, performed at once. -/
def State.putDwAt (s : State) (c mp : Nat) (v : DWord) : Option State :=
  s.quireWrite c ((s.core c).sheet.getD 64) (mp / 16) fun x => linePutDw x (mp % 16 / 2) (BitVec.allOnes 72) v

/-- Write a list of doublewords at offsets (in words) from a module-physical address. -/
def State.putDws (s : State) (c mp : Nat) : List (Nat × DWord) → Option State
  | [] => some s
  | (o, v) :: r => (s.putDwAt c (mp + o) v).bind fun s => s.putDws c mp r

/-- Write doublewords of a translated area, D of its leaf being set first (R101). -/
def State.putArea (s : State) (c : Nat) (x : Xl) (ds : List (Nat × DWord)) : Option State :=
  (s.setD (.core c) ((s.core c).sheet.getD 64) x.leafAt).bind fun s => s.putDws c x.mp ds

/-- Write one word at a module-physical address for core `c`, keeping its neighbour. -/
def State.putWordAt (s : State) (c mp : Nat) (v : Word) : Option State :=
  s.quireWrite c ((s.core c).sheet.getD 64) (mp / 16) fun x =>
    { x with words := vset x.words (mp % 16) v }

/-- The doublewords of an upper (G8-G15, P4-P7) or lower (G0-G7, P0-P3) half of a bank, at their area offsets (R252). -/
def halfDws (b : Bank) (upper : Bool) : List (Nat × DWord) :=
  let g := if upper then 8 else 0
  let p := if upper then 4 else 0
  ((List.range 4).map fun i => (4 + 2 * i, dword (vget b.g (g + 2 * i) 0) (vget b.g (g + 2 * i + 1) 0))) ++
    (List.range 4).map fun i => (12 + 2 * i, vget b.p (p + i) 0)

/-- A bank with a half loaded from the doublewords of an area, given as a function of the area offset (R252). -/
def loadHalf (b : Bank) (upper : Bool) (at_ : Nat → DWord) : Bank :=
  let g := if upper then 8 else 0
  let p := if upper then 4 else 0
  let b := (List.range 4).foldl (fun (b : Bank) i =>
    { b with g := vset (vset b.g (g + 2 * i) (dhi (at_ (4 + 2 * i)))) (g + 2 * i + 1) (dlo (at_ (4 + 2 * i))) }) b
  (List.range 4).foldl (fun (b : Bank) i => { b with p := vset b.p (p + i) (at_ (12 + 2 * i)) }) b

/-- Read a doubleword at a module-physical address for core `c`: none stalls; poison gives none inside. -/
def State.getDwAt (s : State) (c mp : Nat) : Option (Option DWord × State) :=
  (s.agentDw (.core c) mp).map fun r => (if r.2.1 then none else some r.1, r.2.2)

/-- Read a run of doublewords at area offsets for core `c`. -/
def State.getDws (s : State) (c mp : Nat) : List Nat → Option (Option (List (Nat × DWord)) × State)
  | [] => some (some [], s)
  | o :: r =>
    (s.getDwAt c (mp + o)).bind fun x =>
      match x.1 with
      | none => some (none, x.2)
      | some d => (x.2.getDws c mp r).map fun y => (y.1.map fun ds => (o, d) :: ds, y.2)

/-- The doubleword of a run at an offset. -/
def dwAt (ds : List (Nat × DWord)) (o : Nat) : DWord := Tab.get (fun _ => 0) ds o

/-- What a spill or refill ends in. -/
inductive Spilled where
  | stall | failed | done (s : State)

/-- A long-form pointer that names an address, TAG and NIDX zero (R90): what a spill writes where R255 writes an address (log entry
79, DESIGN CHOICE). -/
def ptrTo (a : Nat) : DWord := BitVec.ofNat 72 (a % 2 ^ 54)

/-- Spill the occupant of bank `l` to the spill list (R255): every check comes before the first write. -/
def State.spill (s : State) (c l : Nat) : Spilled :=
  let k := s.core c
  let free := k.ctlReg 0
  let u := ptrAddr free
  if u = 0 ∨ u % 32 ≠ 0 then .failed else
  match s.tryXlate c 2 2 u with
  | none => .stall
  | some (none, _) => .failed
  | some (some xu, s) =>
    match s.getDwAt c (xu.mp + 2) with
    | none => .stall
    | some (none, _) => .failed
    | some (some w, s) =>
      let a := ptrAddr w
      if a = 0 ∨ a % 32 ≠ 0 then .failed else
      match s.tryXlate c 2 2 a with
      | none => .stall
      | some (none, _) => .failed
      | some (some xk, s) =>
        match s.getDwAt c (xk.mp + 2) with
        | none => .stall
        | some (none, _) => .failed
        | some (some w2, s) =>
          let b := k.bank l
          let up := [(0, dword (saHeader true true l) 0), (2, k.ctlReg 3)] ++ halfDws b true
          let lowHead := saHeader false true l
          let low := [(0, dword lowHead 0), (2, ptrTo u)] ++ halfDws b false ++ [(20, b.psw), (22, b.slim)]
          match (s.putArea c xu up).bind fun s => s.putArea c xk low with
          | none => .stall
          | some s =>
            let k := (((s.core c).setCtl 3 (ptrTo a)).setCtl 0 w2)
            let ge := k.bank 8
            let k := k.setBank 8 { ge with g := vset ge.g 0 lowHead, p := vset (vset ge.p 0 (ptrTo u)) 1 (ptrTo a), psw := b.psw }
            .done (s.setCore c { k with spills := satInc 18 k.spills })

/-- A synchronous interruption of level `l`, the PSW of the current bank already naming the address to save: entry, or a
collision (R254), or a gesso trap (R255); the cause of a core checkstop, with nothing changed, where one is made (R256). None
while a line is busy. -/
def State.syncEnter (s : State) (c l code param : Nat) (info : Word) : Option (Except Nat State) :=
  let s := s.gatherEmit c
  let k := s.core c
  let plain (s : State) (l code sub param : Nat) (info : Word) : Option (Except Nat State) :=
    (s.vector c l).map fun r =>
      match r.1 with
      | none => .error 0o10
      | some v => .ok (r.2.setCore c ((r.2.core c).enter v l code sub param info false))
  if !(k.bank l).busy then plain s l code 0 param info
  else if !pswUp k.psw then
    if (k.bank 7).busy then some (.error 0o12)
    else plain s 7 0o700 l param (w36 (code * 2 ^ 27))
  else
    match s.vector c l with
    | none => none
    | some (none, _) => some (.error 0o10)
    | some (some v, s) =>
      match s.spill c l with
      | .stall => none
      | .failed => some (.error 0o11)
      | .done s' =>
        -- the entry takes the saved status of the interrupted bank, whose copy the spill has written out
        let k := s'.core c
        some (.ok (s'.setCore c (k.enter v l code 0 param info true)))

/-- Accept an asynchronous interruption (R243, R249): the one at the head of `pend` that qualifies is removed and entered. A bad
vector entry stops the core once its committed stores have drained (R246, R282), and an entry at level 3 is an acquire (R273). -/
def State.asyncEnter (s : State) (c : Nat) (i : Irq) : Option State :=
  (if i.level = 3 then s.drainRel c else some s).bind fun s =>
    (s.vector c i.level).bind fun r =>
      match r.1 with
      | none => (r.2.drainEvent c).map fun s => s.coreStop c 0o10
      | some v =>
        let s := r.2.gatherEmit c
        let k := s.core c
        let k := { k with pend := k.pend.erase i, run := .running }
        some (s.setCore c (k.enter v i.level i.code 0 i.param i.info false))

/-- A pending interruption qualifies for acceptance (R243). -/
def Core.accepts (k : Core) (i : Irq) : Bool :=
  !(k.bank i.level).busy && (6 ≤ i.level || pswMask k.psw < i.level)

/-- The clock-comparator interruption is pending while CLKCMP is not 0 and the clock has reached it (R245). -/
def State.clkPending (s : State) (k : Core) : Bool :=
  k.ctlReg 4 != 0 && decide ((k.ctlReg 4).toNat ≤ s.clock.toNat)

/-- The pending interruptions of a core that qualify: the highest level, and within it the oldest (R243). -/
def Core.nextIrq (k : Core) : Option Irq :=
  (k.pend.filter k.accepts).foldl (fun b i => match b with
    | none => some i
    | some j => if j.level < i.level then some i else some j) none

/-- Refill bank `l` from the spill list (R258): every check comes before any change. -/
def State.refill (s : State) (c l : Nat) : Spilled :=
  let k := s.core c
  let kp := k.ctlReg 3
  let a := ptrAddr kp
  if a = 0 ∨ a % 32 ≠ 0 then .failed else
  match s.tryXlate c 1 1 a with
  | none => .stall
  | some (none, _) => .failed
  | some (some xr, s) =>
  match s.tryXlate c 2 2 a with
  | none => .stall
  | some (none, _) => .failed
  | some (some _, s) =>
    match s.getDws c xr.mp [0, 2, 4, 6, 8, 10, 12, 14, 16, 18, 20, 22] with
    | none => .stall
    | some (none, _) => .failed
    | some (some ld, s) =>
      if dhi (dwAt ld 0) ≠ saHeader false true l then .failed else
      let up := dwAt ld 2
      let u := ptrAddr up
      if u = 0 ∨ u % 32 ≠ 0 then .failed else
      match s.tryXlate c 1 1 u with
      | none => .stall
      | some (none, _) => .failed
      | some (some yr, s) =>
      match s.tryXlate c 2 2 u with
      | none => .stall
      | some (none, _) => .failed
      | some (some _, s) =>
        match s.getDws c yr.mp [0, 2, 4, 6, 8, 10, 12, 14, 16, 18] with
        | none => .stall
        | some (none, _) => .failed
        | some (some ud, s) =>
          if dhi (dwAt ud 0) ≠ saHeader true true l then .failed else
          let b := loadHalf (loadHalf (k.bank l) false (dwAt ld)) true (dwAt ud)
          let b := { b with psw := setField (dwAt ld 20) 8 10 l, slim := dwAt ld 22 }
          match (s.putArea c xr [(2, k.ctlReg 0)]).bind fun s => s.putArea c yr [(2, kp)] with
          | none => .stall
          | some s =>
            let k := (((s.core c).setBank l b).setCtl 0 up).setCtl 3 (dwAt ud 2)
            .done (s.setCore c k)

/-- Why an instruction ends without its own effect: a program check with the CORE registers it loads (R120, R158), a
deckle violation with KIND and address (R61), poisoned data consumed with SOURCE and sheet-absolute address (R293), an
access that waits, or the core checkstop of a failed refill (R256). -/
inductive Trap where
  | check (code : Nat) (regs : List (Nat × Word))
  | freeze (kind addr : Nat)
  | poison (source sa : Nat)
  | stall
  | stop (cause : Nat)
deriving DecidableEq, Repr

/-- A trap, the state it leaves in force, none for the state before the instruction (R184), and the state in which it was
met. -/
structure Stop where
  trap : Trap
  keep : Option State
  met  : State

/-- What an instruction does: it changes the state, or stops. -/
abbrev M := StateT State (Except Stop)

/-- Stop an instruction with nothing changed. -/
def trap {α : Type} (t : Trap) : M α := do
  let s ← get
  throw { trap := t, keep := none, met := s }

/-- Stop an instruction with a state kept. -/
def stopWith {α : Type} (t : Trap) (s : State) : M α := throw { trap := t, keep := some s, met := s }

/-- A program check with no register of its own (R165). -/
def pcheck {α : Type} (code : Nat) : M α := trap (.check code [])

/-- An access that may have to wait. -/
def orStall {α : Type} : Option α → M α
  | some a => pure a
  | none => trap .stall

/-- Run a state change that may have to wait. -/
def doStall (f : State → Option State) : M Unit := do
  let s ← get
  let s ← orStall (f s)
  set s

/-- CORE_TEAH, CORE_TEAL and CORE_TEINFO of a translation check (R120, R125, R126). -/
def teRegs (dspace prob : Bool) (va kind code level : Nat) (large : Bool) : List (Nat × Word) :=
  let i := setField (setField (setField (0 : Word) 0 8 code) 9 9 (b2n dspace)) 10 12 kind
  [(0o204, w36 (if dspace then va / 2 ^ 36 else 0)), (0o205, w36 va),
   (0o206, setField (setField (setField i 13 14 level) 15 15 (b2n prob)) 16 16 (b2n large))]

/-- The trap of an address that does not translate (R94, R116, R105, R293). -/
def xTrap (dspace prob : Bool) (va kind : Nat) : XFail → Trap
  | .stall => .stall
  | .check code lv large => .check code (teRegs dspace prob va kind code lv large)
  | .range => .check 0o005 []
  | .deckle k sa => .freeze k sa
  | .poison sa => .poison 2 sa

/-- Translate an address in an instruction of core `c` (R117). KIND 1 load, 2 store, 3 fetch, 4 ATOM. A freeze record gives an
interlocked access that fails the deckle check KIND 0o02, a store: R73 names loads and stores only (log entry 80, DESIGN
CHOICE). -/
def xlateM (c : Nat) (dspace : Bool) (kind va : Nat) : M Xl := do
  let s ← get
  let fk := match kind with | 1 => 1 | 3 => 3 | _ => 2
  match s.xlate c dspace kind fk va with
  | .ok (x, s) => set s; pure x
  | .error e => trap (xTrap dspace (pswProb (s.core c).psw) va kind e)

/-- Operand widths N, H, W and D (R77). -/
inductive Wid where
  | wN | wH | wW | wD
deriving DecidableEq, Repr

/-- Bits of a width. -/
def Wid.bits : Wid → Nat
  | .wN => 9 | .wH => 18 | .wW => 36 | .wD => 72

/-- The first device bit, within its aligned doubleword, of an operand at a word address and nonet index (R77). -/
def startBit (mp nidx : Nat) : Wid → Nat
  | .wN | .wH => 36 * (mp % 2) + 9 * nidx
  | .wW => 36 * (mp % 2)
  | .wD => 0

/-- The mask of an operand within its aligned doubleword. -/
def opMask (mp nidx : Nat) (w : Wid) : DWord :=
  setField (0 : DWord) (startBit mp nidx w) (startBit mp nidx w + w.bits - 1) (2 ^ w.bits - 1)

/-- The operand's bits of its aligned doubleword. -/
def opGet (mp nidx : Nat) (w : Wid) (d : DWord) : Nat :=
  field d (startBit mp nidx w) (startBit mp nidx w + w.bits - 1)

/-- A value placed at the operand's bits of its aligned doubleword. -/
def opPut (mp nidx : Nat) (w : Wid) (v : Nat) : DWord :=
  setField (0 : DWord) (startBit mp nidx w) (startBit mp nidx w + w.bits - 1) v

/-- The youngest buffered entry that touches an operand: a data store whose bits overlap it, or a cache instruction of its
line (R262, R307). -/
def youngest (ts : List Store) (dmp : Nat) (need : DWord) : Option Store :=
  ts.reverse.find? fun t => match t.kind with
    | .data => t.addr == dmp && (t.mask &&& need) != 0
    | _ => t.addr / 16 == dmp / 16

/-- A load of core `c` (R262, R270-R272, R293): its own youngest buffered store is forwarded in class T when it covers the
operand; a partial overlap, or class M, waits until the stores are performed; `acq` waits for earlier release writes. A load is
performed at its own command, never before an earlier access of its core: R263 would allow that (log entry 78, DESIGN CHOICE). -/
def load (c : Nat) (x : Xl) (nidx : Nat) (w : Wid) (acq : Bool) : M Nat := do
  if acq then doStall fun s => s.drainRel c
  let dmp := x.mp - x.mp % 2
  let need := opMask x.mp nidx w
  let s ← get
  let k := s.core c
  let fwd ← match youngest k.stores dmp need with
    | none => pure none
    | some t =>
      if !s.classM c && t.kind == .data && (t.mask &&& need) == need then pure (some t.value)
      else do doStall fun s => s.drainAll c; pure none
  match fwd with
  | some v => pure (opGet x.mp nidx w v)
  | none =>
    let s ← get
    let r ← orStall (s.loadLine c (k.sheet.getD 64) (dmp / 16))
    set r.2
    if r.1.poison then trap (.poison 2 x.sa)
    else pure (opGet x.mp nidx w (lineDw r.1 (dmp % 16 / 2)))

/-- A store of core `c`, committed into its store buffer of 96 entries (R282) once D of its leaf is set (R101). -/
def store (c : Nat) (x : Xl) (nidx : Nat) (w : Wid) (v : Nat) (rel : Bool) : M Unit := do
  let s ← get
  if 96 ≤ (s.core c).stores.length then doStall fun s => s.drainOne c
  doStall fun s => s.setD (.core c) ((s.core c).sheet.getD 64) x.leafAt
  modify fun s =>
    let k := s.core c
    s.setCore c { k with stores := k.stores ++ [{
      kind := .data, addr := x.mp - x.mp % 2, mask := opMask x.mp nidx w, value := opPut x.mp nidx w v, rel := rel }] }

/-- An interlocked access of core `c` (R187-R189): the line is taken for writing, the operand read, and `f` gives the value
to write, none to write nothing, and what the instruction keeps. With REL it waits for every earlier OUT (R265). -/
def rmw {α : Type} (c : Nat) (rel : Bool) (x : Xl) (nidx : Nat) (w : Wid) (f : Nat → Option Nat × α) : M α := do
  doStall fun s => if rel && s.outPending c then none else s.drainAll c
  let s ← get
  let sh := (s.core c).sheet.getD 64
  let dmp := x.mp - x.mp % 2
  doStall fun s => s.quireWrite c sh (dmp / 16) id
  let s ← get
  let r ← orStall (s.quireRead (quireOf c) (dmp / 16))
  set r.2
  if r.1.poison then trap (.poison 3 x.sa)
  else
    let o := f (opGet x.mp nidx w (lineDw r.1 (dmp % 16 / 2)))
    match o.1 with
    | none => pure o.2
    | some v =>
      doStall fun s => (s.setD (.core c) sh x.leafAt).bind fun s => s.quireWrite c sh (dmp / 16) fun l =>
        linePutDw l (dmp % 16 / 2) (opMask x.mp nidx w) (opPut x.mp nidx w v)
      pure o.2

/-- Enter level `l` for a synchronous interruption, or stop the core where R256 says so. None while a line is busy. -/
def State.enterOrStop (s : State) (c l code param : Nat) (info : Word) : Option State :=
  (s.syncEnter c l code param info).map fun r =>
    match r with
    | .ok s' => s'
    | .error cause => s.coreStop c cause

/-- Carry out what stops an instruction of core `c`, in the state it leaves, once its older stores have drained (R249, R282, R62,
R244). None while one of them, or a line of the entry, is busy: the instruction then waits. -/
def State.takeTrap (s : State) (c : Nat) (t : Trap) : Option State :=
  match t with
  | .stall => none
  | .check code regs =>
    (s.drainEvent c).bind fun s1 =>
      (regs.foldl (fun s r => s.setReg (coreBlk c) r.1 r.2) s1).enterOrStop c 5 code 0 0
  | .poison source sa =>
    (s.drainEvent c).bind fun s1 => s1.enterOrStop c 7 0o702 (source * 512 + c) (w36 (sa / 16))
  | .freeze kind addr => (s.drainEvent c).map fun s1 => s1.freezeCore c kind addr
  | .stop cause => (s.drainEvent c).map fun s1 => s1.coreStop c cause

/-- The committed stores of before an instruction that are still buffered after part of it: those it drained are gone, and its own
are discarded (R282). -/
def olderStores (before now : List Store) : List Store :=
  match (List.range (before.length + 1)).find? fun n => (before.drop n).isPrefixOf now with
  | some n => before.drop n
  | none => before

/-- An instruction is undone where it stopped: its core has the registers of before it; what its accesses did to memory, the caches,
A bits and the translation buffers stands (R101, R184). -/
def State.undone (s : State) (c : Nat) (now : State) : State :=
  let k := now.core c
  now.setCore c { s.core c with
    stores := olderStores (s.core c).stores k.stores, gather := k.gather, outs := k.outs, tlb := k.tlb, walk := k.walk }

end Sys2Proof.Machine
end

