-- ==== Sys2Proof/Machine/Units.lean ====
section
/-! DEFINITION. What the units of a tile share: the octet images of words (R82-R86), CRC-32C and the other checks of
R509 and R513, and reads and writes of sheet memory under a captured context (R443, R506), in a monad that waits on a
busy line and stops on a failure with what was done before it kept. -/

namespace Sys2Proof.Machine

open Sys2Proof

/-- The image of an octet-side buffer (R82). -/
inductive Image where
  | packed | octet | wide
deriving DecidableEq, Repr

/-- Words that an image of `n` octets covers (R442, R540). -/
def Image.words : Image → Nat → Nat
  | .packed, n => (2 * n + 8) / 9
  | .octet, n => (n + 3) / 4
  | .wide, n => (n + 4) / 5

/-- Octets that an image of `n` words holds (R83). -/
def Image.octets : Image → Nat → Nat
  | .packed, n => (9 * n + 1) / 2
  | .octet, n => 4 * n
  | .wide, n => 5 * n

/-- Words that `n` octets of an image fill whole. -/
def Image.full : Image → Nat → Nat
  | .packed, n => 8 * n / 36
  | .octet, n => n / 4
  | .wide, n => n / 5

/-- The `k` octets of a number of `8 k` bits, most significant first. -/
def octetsOf (x : Nat) : Nat → List Octet
  | 0 => []
  | k + 1 => BitVec.ofNat 8 (x / 256 ^ k) :: octetsOf x k

/-- The number that octets spell, most significant first. -/
def numOf (os : List Octet) : Nat := os.foldl (fun n o => n * 256 + o.toNat) 0

/-- The packed image of words (R82, R83). -/
def packOf : List Word → List Octet
  | [] => []
  | [w] => octetsOf (w.toNat * 16) 5
  | w :: v :: r => octetsOf (dword w v).toNat 9 ++ packOf r

/-- The octet image of one word up to a nonet with bit 0 set, and whether all four are good (R84). -/
def octOfWord (w : Word) : List Octet × Bool :=
  let ns := (List.range 4).map fun j => field w (9 * j) (9 * j + 8)
  let good := ns.takeWhile (· < 256)
  (good.map fun n => BitVec.ofNat 8 n, good.length == 4)

/-- The octet image of words: the octets before the first bad nonet, and the index of its word (R84). -/
def octOf (k : Nat) : List Word → List Octet × Option Nat
  | [] => ([], none)
  | w :: r =>
    let x := octOfWord w
    if x.2 then let y := octOf (k + 1) r; (x.1 ++ y.1, y.2) else (x.1, some k)

/-- The image of words: octets, and the word at which a conversion fails (R82, R84). -/
def Image.ofWords (im : Image) (ws : List Word) : List Octet × Option Nat :=
  match im with
  | .packed => (packOf ws, none)
  | .octet => octOf 0 ws
  | .wide => (ws.flatMap fun w => octetsOf w.toNat 5, none)

/-- The first `n` octets of the image of words; a failure counts only within them. -/
def Image.take (im : Image) (ws : List Word) (n : Nat) : List Octet × Option Nat :=
  let x := im.ofWords ws
  if x.1.length < n then (x.1, x.2) else (x.1.take n, none)

/-- The words of the packed image (R85, R86). -/
def unpack : List Octet → List Word
  | a :: b :: c :: d :: e :: f :: g :: h :: i :: r =>
    let n := numOf [a, b, c, d, e, f, g, h, i]
    BitVec.ofNat 36 (n / 2 ^ 36) :: BitVec.ofNat 36 n :: unpack r
  | [] => []
  | os =>
    let n := numOf os * 2 ^ (72 - 8 * os.length)
    if 8 * os.length ≤ 36 then [BitVec.ofNat 36 (n / 2 ^ 36)] else [BitVec.ofNat 36 (n / 2 ^ 36), BitVec.ofNat 36 n]

/-- The words of the octet image (R85, R86). -/
def unoct : List Octet → List Word
  | a :: b :: c :: d :: r =>
    BitVec.ofNat 36 (((a.toNat * 512 + b.toNat) * 512 + c.toNat) * 512 + d.toNat) :: unoct r
  | [] => []
  | os => [BitVec.ofNat 36 ((os.foldl (fun n o => n * 512 + o.toNat) 0) * 512 ^ (4 - os.length))]

/-- The words of the wide image, and the index of the first that fails (R85, R86). -/
def unwide (k : Nat) : List Octet → List Word × Option Nat
  | a :: b :: c :: d :: e :: r =>
    if 16 ≤ a.toNat then ([], some k)
    else let y := unwide (k + 1) r; (BitVec.ofNat 36 (numOf [a, b, c, d, e]) :: y.1, y.2)
  | [] => ([], none)
  | os => if 16 ≤ (os.headD 0).toNat then ([], some k) else ([BitVec.ofNat 36 (numOf os * 256 ^ (5 - os.length))], none)

/-- The words of an octet string, and the word at which a conversion fails (R85). -/
def Image.toWords (im : Image) (os : List Octet) : List Word × Option Nat :=
  match im with
  | .packed => (unpack os, none)
  | .octet => (unoct os, none)
  | .wide => unwide 0 os

/-- One bit of a CRC register processed least significant bit first. -/
def crcBit (poly c : Nat) : Nat := if c % 2 = 1 then (c / 2) ^^^ poly else c / 2

/-- One octet of a reflected CRC. -/
def crcOctet (poly c : Nat) (o : Octet) : Nat := (List.range 8).foldl (fun c _ => crcBit poly c) (c ^^^ o.toNat)

/-- CRC-32C (R509). -/
def crc32c (os : List Octet) : Nat := (os.foldl (crcOctet 0x82F63B78) 0xFFFFFFFF) ^^^ 0xFFFFFFFF

/-- CRC-32 of RFC 1952 (R513). -/
def crc32 (os : List Octet) : Nat := (os.foldl (crcOctet 0xEDB88320) 0xFFFFFFFF) ^^^ 0xFFFFFFFF

/-- Adler-32 of RFC 1950 (R513). -/
def adler32 (os : List Octet) : Nat :=
  let r := os.foldl (fun (x : Nat × Nat) o => let a := (x.1 + o.toNat) % 65521; (a, (x.2 + a) % 65521)) (1, 0)
  r.2 * 65536 + r.1

/-- Why a unit stops: translation with its code and virtual word address; deckle with KIND and sheet-absolute address;
poison with the line's sheet-absolute address; a format error at a word index; a bad word of a packet or block. -/
inductive UErr where
  | xlate (code va : Nat)
  | deckle (kind sa : Nat)
  | poison (sa : Nat)
  | fmt (idx : Nat)
  | program (word : Nat)
deriving DecidableEq, Repr

/-- What a unit does: none waits for a busy line and changes nothing; an error keeps what was done before it. -/
abbrev U := ExceptT UErr (StateT State Option)

/-- The unit waits. -/
def uWait {α : Type} : U α := fun _ => none

/-- An access that may have to wait. -/
def uTry {α : Type} (f : State → Option (α × State)) : U α := fun s => (f s).map fun r => (.ok r.1, r.2)

/-- A state change that may have to wait. -/
def uDo (f : State → Option State) : U Unit := fun s => (f s).map fun s => (.ok (), s)

/-- Translate one D-space address under a context (R443, R506): KIND 1 read, 2 write, 4 both. -/
def uXlate (x : Ctx) (kind fkind va : Nat) : U Page := fun s =>
  match s.ctxXlate x kind fkind (va % 2 ^ 54) with
  | .ok (y, s) => some (.ok { tile := x.tile, sheet := x.sheet, va := va, sa := y.sa, mp := y.mp, leafAt := y.leafAt }, s)
  | .error .stall => none
  | .error (.check code _ _) => some (.error (.xlate code (va % 2 ^ 54)), s)
  | .error .range => some (.error (.xlate 0o005 (va % 2 ^ 54)), s)
  | .error (.deckle k sa) => some (.error (.deckle k sa), s)
  | .error (.poison sa) => some (.error (.poison sa), s)

/-- Number of 4 KiW pages that `n` words from an address touch. -/
def pageSpan (va n : Nat) : Nat := if n = 0 then 0 else (va % 4096 + n + 4095) / 4096

/-- Translate every page of an area in order (R443, R444). -/
def uPages (x : Ctx) (kind fkind va n : Nat) : U (List Page) :=
  (List.range (pageSpan va n)).mapM fun i => uXlate x kind fkind (if i = 0 then va else (va / 4096 + i) * 4096)

/-- The page of word `i` of an area whose pages are translated. -/
def areaPage (va : Nat) (ps : List Page) (i : Nat) : Page :=
  ps.getD ((va % 4096 + i) / 4096) { tile := 0, sheet := 64, va := 0, sa := 0, mp := 0, leafAt := none }

/-- The module-physical and sheet-absolute address of word `i` of an area whose pages are translated. -/
def areaAt (va : Nat) (ps : List Page) (i : Nat) : Nat × Nat :=
  let p := areaPage va ps i
  let d := va + i - p.va
  (p.mp + d, p.sa + d)

/-- Read a word for a unit of tile `t`; poison stops it (R293). -/
def uWord (t mp sa : Nat) : U Word := do
  let l ← uTry fun s => s.ncRead (ncIndex t) (mp / 16)
  if l.poison then throw (.poison sa) else pure (vget l.words (mp % 16) 0)

/-- Read `n` words of an area from word `i`. -/
def uWords (va : Nat) (ps : List Page) (i n : Nat) : U (List Word) :=
  (List.range n).mapM fun k => let a := areaAt va ps (i + k); uWord (areaPage va ps (i + k)).tile a.1 a.2

/-- Split words written from an address at line boundaries. -/
def lineChunks (fuel mp : Nat) (ws : List Word) : List (Nat × List Word) :=
  match fuel with
  | 0 => []
  | f + 1 => if ws.isEmpty then [] else
    let k := 16 - mp % 16
    (mp, ws.take k) :: lineChunks f (mp + k) (ws.drop k)

/-- Words put into a line from word `j`; a line written whole loses its poison (R293). -/
def linePutWords (x : Line) (j : Nat) (ws : List Word) : Line :=
  let y := (ws.zipIdx).foldl (fun (v : Vector Word 16) p => vset v (j + p.2) p.1) x.words
  { words := y, poison := x.poison && ws.length != 16 }

/-- Set D of a translated page before it is written (R101). -/
def uDirty (p : Page) : U Unit := uDo fun s => s.setD (.tile p.tile) p.sheet p.leafAt

/-- Write words from a module-physical address inside a translated page. -/
def uPut (p : Page) (mp : Nat) (ws : List Word) : U Unit := do
  uDirty p
  (lineChunks (ws.length + 1) mp ws).forM fun c =>
    uDo fun s => s.ncWrite (ncIndex p.tile) (c.1 / 16) fun x => linePutWords x (c.1 % 16) c.2

/-- Write words of an area from word `i`, page by page. -/
def uStore (va : Nat) (ps : List Page) (i : Nat) (ws : List Word) : U Unit :=
  let rec go (fuel i : Nat) (ws : List Word) : U Unit :=
    match fuel with
    | 0 => pure ()
    | f + 1 => if ws.isEmpty then pure () else do
      let k := 4096 - (va + i) % 4096
      uPut (areaPage va ps i) (areaAt va ps i).1 (ws.take k)
      go f (i + k) (ws.drop k)
  go (ws.length + 1) i ws

/-- Write as poison every line that `n` words of an area from word `i` touch (R395, R445). -/
def uPoison (va : Nat) (ps : List Page) (i n : Nat) : U Unit :=
  (((List.range n).map fun k => ((areaAt va ps (i + k)).1 / 16, areaPage va ps (i + k))).dedup).forM fun x => do
    uDirty x.2
    uDo fun s => s.ncWrite (ncIndex x.2.tile) x.1 fun _ => poisonLine

/-- Read `n` words of sheet memory page by page as a unit reaches them (R506): the words read, and why it stopped short. -/
def uStream (x : Ctx) (fkind va n : Nat) : U (List Word × Option UErr) :=
  let rec go (fuel va n : Nat) (acc : List Word) : U (List Word × Option UErr) :=
    match fuel with
    | 0 => pure (acc, none)
    | f + 1 => if n = 0 then pure (acc, none) else do
      let k := Nat.min n (4096 - va % 4096)
      let r ← fun s => match (show StateT State Option (Except UErr (List Word)) from
          (do let p ← uXlate x 1 fkind va; uWords va [p] 0 k : U (List Word)).run) s with
        | none => none
        | some (.ok ws, s) => some (.ok (Except.ok ws), s)
        | some (.error e, s) => some (.ok (Except.error e), s)
      match r with
      | .ok ws => go f (va + k) (n - k) (acc ++ ws)
      | .error e => pure (acc, some e)
  go (pageSpan va n + 1) va n []

/-- Write words to sheet memory page by page as a unit reaches them (R506): how many were written, and why it stopped
short. -/
def uSink (x : Ctx) (fkind va : Nat) (ws : List Word) : U (Nat × Option UErr) :=
  let rec go (fuel va : Nat) (ws : List Word) (done : Nat) : U (Nat × Option UErr) :=
    match fuel with
    | 0 => pure (done, none)
    | f + 1 => if ws.isEmpty then pure (done, none) else do
      let k := Nat.min ws.length (4096 - va % 4096)
      let r ← fun s => match (show StateT State Option (Except UErr Unit) from
          (do let p ← uXlate x 2 fkind va; uPut p p.mp (ws.take k) : U Unit).run) s with
        | none => none
        | some (.ok _, s) => some (.ok (Except.ok ()), s)
        | some (.error e, s) => some (.ok (Except.error e), s)
      match r with
      | .ok _ => go f (va + k) (ws.drop k) (done + k)
      | .error e => pure (done, some e)
  go (pageSpan va ws.length + 1) va ws 0

/-- The context of core `c` as a channel instruction or a job of a unit of tile `t` captures it (R432, R506). -/
def State.capture (s : State) (c t : Nat) : Ctx :=
  let k := s.core c
  { tile := t, sheet := k.sheet.getD 64, dat := pswDat k.psw, prob := pswProb k.psw, org := s.fld (coreBlk c) 0o202 0 22,
    asn := s.fld (coreBlk c) 0o200 0 11 }

/-- First mailbox word of token slot `k` (R583). -/
def slotAt (k : Nat) : Nat := 1024 + 64 * k
/-- SEQ, STATE, REPLY and PROGRESS of a token slot (R584). -/
def State.slotStat (s : State) (k : Nat) : Nat × Nat × Nat × Nat :=
  let w := (s.mail (slotAt k)).toNat
  (w / 2 ^ 28 % 256, w / 2 ^ 26 % 4, w / 2 ^ 18 % 256, w % 2 ^ 18)
/-- Write the status word of a token slot. -/
def State.setSlot (s : State) (k seq st reply progress : Nat) : State :=
  s.setMail (slotAt k) (w36 (seq % 256 * 2 ^ 28 + st * 2 ^ 26 + reply * 2 ^ 18 + progress % 2 ^ 18))
/-- A partial-result word of a token slot (R583, R585). -/
def State.setPartial (s : State) (k i : Nat) (w : Word) : State := s.setMail (slotAt k + i) w
/-- PROGRESS of a running slot. -/
def State.slotProgress (s : State) (k p : Nat) : State :=
  let x := s.slotStat k; s.setSlot k x.1 x.2.1 x.2.2.1 p
/-- A long command ends: STATE done, its reply code, and cause 1 of ISTAT (R585). While the module triptych is out the reply waits for
it (R381). -/
def State.slotDone (s : State) (k reply : Nat) : State :=
  if s.moduleOut then
    { s with longOps := s.longOps.map fun o =>
        if o.slot == k && o.reply.isNone then { o with reply := some reply } else o }
  else
  let x := s.slotStat k
  let s := s.setSlot k x.1 2 reply x.2.2.2
  let s : State := { s with longOps := s.longOps.filter (·.slot != k) }
  s.istat 1

/-- Add octets to a counter in units of 4,096 (R521, R544); `key` names its remainder. -/
def State.countOct (s : State) (b : Blk) (o key n : Nat) : State :=
  let t := Tab.get (fun _ => 0) s.octRem key + n
  let s : State := { s with octRem := Tab.set (fun _ => 0) s.octRem key (t % 4096) }
  s.setFld b o 0 35 (Nat.min (2 ^ 36 - 1) (s.fld b o 0 35 + t / 4096))

/-- The freeze record index reported for a frozen master, 0o777777 when none was written (R65). -/
def State.frzIdx (s : State) (type ident : Nat) : Nat :=
  match s.frozen.find? fun f => f.type == type && f.ident == ident with
  | some f => f.recIdx.getD 0o777777
  | none => 0o777777

/-- Two ranges of D-space words overlap (R504, R536). -/
def overlaps (a n b m : Nat) : Bool :=
  n != 0 && m != 0 && (decide ((b + 2 ^ 54 - a) % 2 ^ 54 < n) || decide ((a + 2 ^ 54 - b) % 2 ^ 54 < m))

end Sys2Proof.Machine
end

