-- ==== Sys2Proof/Machine/Subchannel.lean ====
section
/-! DEFINITION. The registers, control blocks and journal entries of subchannels (R421, R422, R426, R427, R450): where each
stands in the Easel and how a field of it is read and written. -/

namespace Sys2Proof.Machine

open Sys2Proof

/-- DECKLE_SUBCH of a subchannel (R422). -/
def subAt (n : Nat) : Nat := 0o300000 + n
/-- The subchannel is valid. -/
def State.subV (s : State) (n : Nat) : Bool := s.rbit .deckle (subAt n) 0
/-- Its owning sheet. -/
def State.subSheet (s : State) (n : Nat) : Nat := s.fld .deckle (subAt n) 1 6
/-- The vat and control-block slot that serve it: the old ones until a move is done (R424). -/
def State.subLoc (s : State) (n : Nat) : Nat × Nat :=
  match s.moves.find? fun x => x.1 == n with
  | some (_, v, k) => (v, k)
  | none => (s.fld .deckle (subAt n) 7 10, s.fld .deckle (subAt n) 23 35)
/-- Its vat. -/
def State.subVat (s : State) (n : Nat) : Nat := (s.subLoc n).1
/-- The vat block. -/
def vatBlk (v : Nat) : Blk := .vat (Fin.ofNat 16 v)
/-- The sheet owns the subchannel (R429). -/
def State.ownsSub (s : State) (sh n : Nat) : Bool := s.subV n && s.subSheet n == sh

/-- Easel address of word `w` of the control block at a slot (R426). -/
def cbAt (slot w : Nat) : Nat := 0o10000000 + 16 * slot + w
/-- Word `w` of a subchannel's control block. -/
def State.cb (s : State) (n w : Nat) : Word := let l := s.subLoc n; s.easelWord (l.1 / 2) (cbAt l.2 w)
/-- A vat's access to an Easel word wakes the bank that holds it from retention, and clears its RET bit (R414). -/
def State.easelTouch (s : State) (t e : Nat) : State :=
  let b := Blk.easel (tileFin t)
  if e % 32 ≠ 0 ∧ s.rbit b 0 (e % 32) = true then s.setFld b 0 (e % 32) (e % 32) 0 else s
/-- Write a word of a control block. -/
def State.setCb (s : State) (n w : Nat) (v : Word) : State :=
  let l := s.subLoc n
  (s.easelTouch (l.1 / 2) (cbAt l.2 w)).setEasel (l.1 / 2) (cbAt l.2 w) v
/-- A vat reads a control block: the banks that hold it wake (R414). -/
def State.subTouch (s : State) (n : Nat) : State :=
  let l := s.subLoc n
  (List.range 16).foldl (fun s w => s.easelTouch (l.1 / 2) (cbAt l.2 w)) s
/-- A field of a control block. -/
def State.cbF (s : State) (n w lo hi : Nat) : Nat := field (s.cb n w) lo hi
/-- Write a field of a control block. -/
def State.setCbF (s : State) (n w lo hi v : Nat) : State := s.setCb n w (setField (s.cb n w) lo hi v)
/-- STATE of a subchannel (R447). -/
def State.subSt (s : State) (n : Nat) : Nat := s.cbF n 0 0 3
/-- Set STATE. -/
def State.setSubSt (s : State) (n v : Nat) : State := s.setCbF n 0 0 3 v
/-- SP. -/
def State.subSp (s : State) (n : Nat) : Bool := dbit (s.cb n 0) 6
/-- FRZ. -/
def State.subFrz (s : State) (n : Nat) : Bool := dbit (s.cb n 0) 7
/-- 2^RLOG. -/
def State.ringSize (s : State) (n : Nat) : Nat := 2 ^ s.cbF n 4 0 3
/-- GEN. -/
def State.subGen (s : State) (n : Nat) : Nat := s.cbF n 6 0 19
/-- The exchange's working registers. -/
def State.xc (s : State) (n : Nat) : Xch := Tab.get (fun _ => xchReset) s.xch n
/-- Replace them. -/
def State.setXc (s : State) (n : Nat) (x : Xch) : State := { s with xch := Tab.set (fun _ => xchReset) s.xch n x }

/-- Easel address of word `w` of journal entry `x` of a vat (R450). -/
def jAt (v x w : Nat) : Nat := 0o10400000 + 8 * (1024 * (v % 2) + x) + w
/-- Word `w` of a journal entry. -/
def State.jw (s : State) (v x w : Nat) : Word := s.easelWord (v / 2) (jAt v x w)
/-- Write a field of a journal entry. -/
def State.setJ (s : State) (v x w lo hi val : Nat) : State :=
  (s.easelTouch (v / 2) (jAt v x w)).setEasel (v / 2) (jAt v x w) (setField (s.jw v x w) lo hi val)
/-- A field of the journal entry of a subchannel's exchange. -/
def State.jF (s : State) (n w lo hi : Nat) : Nat := field (s.jw (s.subVat n) (s.cbF n 6 20 29) w) lo hi
/-- Write it. -/
def State.setJF (s : State) (n w lo hi v : Nat) : State := s.setJ (s.subVat n) (s.cbF n 6 20 29) w lo hi v
/-- PHASE (R450). -/
def State.phaseOf (s : State) (n : Nat) : Nat := s.jF n 0 1 2
/-- CSEQ of the open command. -/
def State.cseqOf (s : State) (n : Nat) : Nat := s.jF n 1 20 31

/-- Path word `i` of a subchannel (R427). -/
def State.pathW (s : State) (n i : Nat) : Word := s.cb n (8 + i)
/-- PST of a path. -/
def State.pst (s : State) (n i : Nat) : Nat := field (s.pathW n i) 10 11
/-- Set PST. -/
def State.setPst (s : State) (n i v : Nat) : State := s.setCbF n (8 + i) 10 11 v
/-- LINK of a path. -/
def State.pathLink (s : State) (n i : Nat) : Nat := field (s.pathW n i) 0 7
/-- VER of a path. -/
def State.pathVer (s : State) (n i : Nat) : Nat := field (s.pathW n i) 8 9

/-- Subchannels that some valid DECKLE_SUBCH gives to a sheet that `f` accepts. -/
def State.validSubs (s : State) (f : Nat → Bool) : List Nat :=
  let base := blkDigits .deckle * 2 ^ 18 + 0o300000
  (s.regs.filter fun e => decide (base ≤ e.1 ∧ e.1 < base + 0o200000) && dbit e.2 0 && f (field e.2 1 6)).map fun e => e.1 - base

/-- The first octet of a command of an exchange leaves on a path: SENT (R432). -/
def State.xreqLeft (s : State) (n gen : Nat) : State :=
  if s.subV n && s.subGen n == gen && (s.xc n).sent then (s.setCbF n 6 34 34 1).setXc n { s.xc n with left := true } else s

end Sys2Proof.Machine
end

