-- ==== Sys2Proof/Machine/Felt.lean ====
section
/-! DEFINITION. The felt links beneath the exchanges: link numbers and registers (R26, R493-R498), sending a message in
DATA flits within credits, replay buffer and slots (R468-R478), and the ACK, NAK and credits of a header (R472-R476). -/

namespace Sys2Proof.Machine

open Sys2Proof

/-- Physical lane number of the first lane of a link, which is the link's number (R26, R463). -/
def linkNo (l : LinkId) : Nat := 18 * l.tile.val + 8 * l.group.val + l.lane.val

/-- Tile of a lane number. -/
def laneTile (n : Nat) : Nat := n / 18
/-- Group of a lane number: 0 A, 1 B, 2 C. -/
def laneGroup (n : Nat) : Nat := n % 18 / 8
/-- Group lane index of a lane number. -/
def laneIdx (n : Nat) : Nat := n % 18 % 8

/-- The LINKGRP block of a lane number. -/
def linkBlk (n : Nat) : Blk := .linkgrp (tileFin (laneTile n)) (Fin.ofNat 3 (laneGroup n))

/-- State of link `n`. -/
def State.lnk (s : State) (n : Nat) : Link := Tab.get (fun _ => linkReset) s.links n
/-- Replace the state of link `n`. -/
def State.setLnk (s : State) (n : Nat) (x : Link) : State := { s with links := Tab.set (fun _ => linkReset) s.links n x }

/-- Offset of LINKGRP_LSTAT of a lane. -/
def lstatAt (n : Nat) : Nat := 0o60 + laneIdx n
/-- LSTATE of a link (R479). -/
def State.lstate (s : State) (n : Nat) : Nat := s.fld (linkBlk n) (lstatAt n) 0 3
/-- Set LSTATE of a link. -/
def State.setLstate (s : State) (n v : Nat) : State := s.setFld (linkBlk n) (lstatAt n) 0 3 v
/-- WIDTH of a link. -/
def State.lwidth (s : State) (n : Nat) : Nat := s.fld (linkBlk n) (lstatAt n) 4 7
/-- VER of a link (R427). -/
def State.lver (s : State) (n : Nat) : Nat := s.fld (linkBlk n) (lstatAt n) 10 11
/-- PTYPE of a link's partner (R481). -/
def State.lptype (s : State) (n : Nat) : Nat := s.fld (linkBlk n) (lstatAt n) 12 14
/-- The link is up: ACTIVE or SLEEP (R479). -/
def State.linkUp (s : State) (n : Nat) : Bool := s.lstate n == 5 || s.lstate n == 6
/-- Word `i` of LINKGRP_PID of a link. -/
def pidAt (n i : Nat) : Nat := 0o100 + 4 * laneIdx n + i
/-- Word `i` of LINKGRP_CNT of a link. -/
def lcntAt (n i : Nat) : Nat := 0o200 + 4 * laneIdx n + i

/-- The personality in effect of a link's group is FELT (R462). -/
def State.isFelt (s : State) (n : Nat) : Bool := s.bFld (linkBlk n) 0 0 1 == 0

/-- START of a group begins a link at a lane index (R463). -/
def State.startsAt (s : State) (n : Nat) : Bool := s.rbit (linkBlk n) 0 (10 + laneIdx n)

/-- Lanes of the group of a link: 8, or 2 in group C. -/
def groupLanes (n : Nat) : Nat := if laneGroup n = 2 then 2 else 8

/-- Width of a link as START divides its group (R463). -/
def State.linkWidth (s : State) (n : Nat) : Nat :=
  let rest := (List.range (groupLanes n - laneIdx n)).drop 1
  1 + (rest.takeWhile fun i => !s.rbit (linkBlk n) 0 (10 + laneIdx n + i)).length

/-- Sheet `sh` owns or shares the group of a link (R468). -/
def State.groupHas (s : State) (n sh : Nat) : Bool := s.sheetGroup (linkBlk n) sh

/-- Some slot of the wheel of a link's group belongs to a sheet (R468, R494). -/
def State.hasSlot (s : State) (n sh : Nat) : Bool :=
  (List.range 64).any fun j =>
    s.rbit (linkBlk n) (0o20 + j / 4) (9 * (j % 4)) &&
      s.fld (linkBlk n) (0o20 + j / 4) (9 * (j % 4) + 3) (9 * (j % 4) + 8) == sh

/-- The group lets a sheet's messages leave: by owner, slot or share (R468). An answer that belongs to no sheet (64) leaves on
any assigned group. -/
def State.maySend (s : State) (n sh : Nat) : Bool :=
  if sh = 64 then s.fld (linkBlk n) 0 2 3 != 3 else s.groupHas n sh && (s.fld (linkBlk n) 0 2 3 != 1 || s.hasSlot n sh)

/-- DATA flits not yet acknowledged (R472). -/
def Link.inFlight (k : Link) : Nat := (k.txSeq + 1024 - k.acked - 1) % 1024

/-- Octets of a message's body (R477, R478): an XREQ carries its operation, FMT and COUNT, for which the manual gives no
encoding and which is counted within one flit. -/
def FeltBody.len : FeltBody → Nat
  | .none => 0
  | .req _ _ _ => 8
  | .data os => os.length
  | .ack _ _ => 6

/-- DATA flits that a message takes (R469, R477). -/
def FeltMsg.flits (m : FeltMsg) : Nat := (12 + m.body.len + 239) / 240

/-- The credits a header returns: those of the lowest virtual channel with any to return (R476; log entry 7). -/
def Link.returns (k : Link) : Nat × Nat × Link :=
  match (List.range 4).find? fun v => vget k.owed v 0 != 0 with
  | none => (0, 0, k)
  | some v =>
    let n := Nat.min (vget k.owed v 0) 255
    (v, n, { k with owed := vset k.owed v (vget k.owed v 0 - n), rxCred := vset k.rxCred v (vget k.rxCred v 0 + n) })

/-- The lane of a link of N lanes that carries flit j of its stream, and the flit's place on that lane (R466). -/
def stripe (N j : Nat) : Nat × Nat := (j % N, j / N)

/-- Send one flit header of a type with ACK, NAK and returned credits, on the lane whose turn it is (R466, R470, R473). -/
def State.flitOut (s : State) (n type vc seq : Nat) (nak : Bool) : State :=
  let k := s.lnk n
  let r := k.returns
  (s.setLnk n { r.2.2 with unacked := 0, txFlit := k.txFlit + 1 }).emit
    (.flit n (stripe (s.lwidth n) k.txFlit).1 type vc seq ((k.rxNext + 1023) % 1024) nak r.1 r.2.1)

/-- Send a message of a link whose conditions hold. An XREQ of the module's own exchange sets SENT (R432). -/
def State.msgOut (s : State) (n : Nat) (m : FeltMsg) : State :=
  let s := s.emit (.felt n m)
  let s := if m.mtype = 1 then s.xreqLeft m.xid m.gen else s
  (List.range m.flits).foldl (fun s _ =>
    let k := s.lnk n
    let s := s.setLnk n { k with txSeq := (k.txSeq + 1) % 1024, txCred := vset k.txCred m.vc (vget k.txCred m.vc 0 - 1) }
    s.flitOut n 1 m.vc k.txSeq false) s

/-- A message may leave now: the link is ACTIVE, its sheet may send, and credits and replay buffer suffice (R468, R472, R476). -/
def State.canSend (s : State) (n : Nat) (m : FeltMsg) : Bool :=
  let k := s.lnk n
  s.lstate n == 5 && s.maySend n m.sheet && decide (m.flits ≤ vget k.txCred m.vc 0) && decide (k.inFlight + m.flits ≤ 512)

/-- Send waiting messages of a link: those of one virtual channel leave in order (R475). -/
def State.feltFlush (s : State) (n : Nat) : State :=
  (s.lnk n).txq.foldl (fun (x : State × List Nat) m =>
    let s := x.1
    if x.2.contains m.vc || !s.canSend n m then (s, m.vc :: x.2)
    else
      let k := s.lnk n
      ((s.setLnk n { k with txq := k.txq.erase m }).msgOut n m, x.2)) (s, []) |>.1

/-- Hand a message to a link (R475, R484). -/
def State.feltSend (s : State) (n : Nat) (m : FeltMsg) : State :=
  let k := s.lnk n
  (s.setLnk n { k with txq := k.txq ++ [m] }).feltFlush n

/-- The virtual channel of a message of the module as sender (R475): CPL toward a module recipient. -/
def State.vcOf (s : State) (n mtype : Nat) : Nat :=
  if laneGroup n = 2 ∧ s.lptype n = 1 then 3 else if mtype = 2 then 1 else if mtype = 3 ∨ mtype = 0o10 then 2 else 0

/-- Replay every buffered flit from ACK + 1 (R472, R474). -/
def State.resend (s : State) (n : Nat) : State :=
  let k := s.lnk n
  (List.range k.inFlight).foldl (fun s i => s.flitOut n 1 0 ((k.acked + 1 + i) % 1024) false) s

/-- The ACK and returned credits of a received header (R473, R476). -/
def State.takeAck (s : State) (n : Nat) (h : FlitHdr) : State :=
  let k := s.lnk n
  let adv := (h.ack.val + 1024 - k.acked) % 1024
  let k := if adv ≠ 0 ∧ adv ≤ k.inFlight then { k with acked := h.ack.val, replays := 0 } else k
  s.setLnk n { k with txCred := vset k.txCred h.cvc.val (vget k.txCred h.cvc.val 0 + h.cred.val) }

end Sys2Proof.Machine
end

