-- ==== Sys2Proof/Machine/Codec.lean ====
section
/-! DEFINITION. The Calender's streams: the native stream's predictors, tokens, blocks and trailer (R509-R511) written and
read, and the streams of RFC 1951, RFC 1950 and RFC 1952 (R513). -/

namespace Sys2Proof.Machine

open Sys2Proof

/-- How reading a stream ends: more input is needed, the end with the input units used, a breach, a check mismatch (R508). -/
inductive CStop where
  | more
  | done (used : Nat)
  | data
  | crc
deriving DecidableEq, Repr

/-- Word i of a stream; words before word 0 are 0 (R510). -/
def xAt (x : Array Word) (i : Int) : Word := if i < 0 then 0 else x.getD i.toNat 0

/-- The prediction for word i (R510): 0 none, 1 previous, 2 stride, 3 median. -/
def predict (pred s : Nat) (x : Array Word) (i : Nat) : Word :=
  match pred with
  | 0 => 0
  | 1 => xAt x (i - 1 : Int)
  | 2 => xAt x (i - s : Int)
  | _ =>
    let a := xAt x (i - 1 : Int)
    let b := xAt x (i - s : Int)
    let c := xAt x (i - s - 1 : Int)
    let mx := if a.toInt < b.toInt then b else a
    let mn := if a.toInt < b.toInt then a else b
    if mx.toInt ≤ c.toInt then mn else if c.toInt ≤ mn.toInt then mx else a + b - c

/-- The residue of a word mapped to a natural number (R510). -/
def zigzag (r : Word) : Nat := if r.toInt < 0 then (-2 * r.toInt - 1).toNat else (2 * r.toInt).toNat

/-- The residue that a mapped number stands for (R510). -/
def unzig (z : Nat) : Word := if z % 2 = 0 then BitVec.ofNat 36 (z / 2) else BitVec.ofInt 36 (-(((z + 1) / 2 : Nat) : Int))

/-- `n` bits of a number, most significant first. -/
def bitsOf (x : Nat) : Nat → List Bool
  | 0 => []
  | n + 1 => x.testBit n :: bitsOf x n

/-- The number that bits spell, most significant first. -/
def ofBits (bs : List Bool) : Nat := bs.foldl (fun n b => 2 * n + b2n b) 0

/-- Rice(v, k) with raw width w (R510). -/
def rice (v k w : Nat) : List Bool :=
  if v / 2 ^ k < 24 then List.replicate (v / 2 ^ k) true ++ [false] ++ bitsOf v k
  else List.replicate 24 true ++ bitsOf v w

/-- The coder state of a block (R510). -/
structure Coder where
  a  : Nat
  n  : Nat
  kr : Nat
deriving DecidableEq, Repr

/-- The coder state at a block start (R510). -/
def coderInit : Coder := { a := 16, n := 1, kr := 0 }

/-- The smallest k from 0 to 35 with N x 2^k ≥ A (R510). -/
def Coder.k (c : Coder) : Nat := ((List.range 36).find? fun k => decide (c.a ≤ c.n * 2 ^ k)).getD 35

/-- The coder state after a residue token (R510). -/
def Coder.residue (c : Coder) (z : Nat) : Coder :=
  if c.n + 1 = 64 then { c with a := (c.a + z) / 2, n := 32 } else { c with a := c.a + z, n := c.n + 1 }

/-- The coder state after a zero run of m words (R510). -/
def Coder.run (c : Coder) (m : Nat) : Coder :=
  let b := if m - 1 < 2 then 0 else (m - 1).log2 + 1
  { c with kr := Nat.min 15 (b - 1) }

/-- The tokens of a block from word i to its end: each as the encoder's plan gives it where the words allow that token, else
a residue (R510, R512). -/
def blockBits (fuel : Nat) (x : Array Word) (pred s level i endd : Nat) (c : Coder) : List Bool :=
  match fuel with
  | 0 => []
  | f + 1 => if endd ≤ i then [] else
    let t := Config.calToken x.toList i level
    let n := t.2.1
    let d := t.2.2
    let zeroOk := t.1 = 1 ∧ 1 ≤ n ∧ i + n ≤ endd ∧ n ≤ 65536 ∧
      (List.range n).all (fun k => x.getD (i + k) 0 == predict pred s x (i + k)) = true
    let matchOk := t.1 = 2 ∧ 3 ≤ n ∧ i + n ≤ endd ∧ n ≤ 65538 ∧ 1 ≤ d ∧ d ≤ Nat.min 65536 i ∧
      (List.range n).all (fun k => x.getD (i + k) 0 == x.getD (i + k - d) 0) = true
    if zeroOk then
      [true, false] ++ rice (n - 1) c.kr 16 ++ blockBits f x pred s level (i + n) endd (c.run n)
    else if matchOk then
      [true, true] ++ rice (n - 3) 2 16 ++ bitsOf (d - 1) 16 ++ blockBits f x pred s level (i + n) endd c
    else
      let z := zigzag (x.getD i 0 - predict pred s x i)
      [false] ++ rice z c.k 36 ++ blockBits f x pred s level (i + 1) endd (c.residue z)

/-- Bits packed into words from device bit 0 downward, the last padded with 0 bits (R509). -/
def packBits (fuel : Nat) (bs : List Bool) : List Word :=
  match fuel with
  | 0 => []
  | f + 1 => if bs.isEmpty then [] else
    let h := bs.take 36
    BitVec.ofNat 36 (ofBits h * 2 ^ (36 - h.length)) :: packBits f (bs.drop 36)

/-- The block header word (R509). -/
def blockHeader (last stored : Bool) (pred s len : Nat) : Word :=
  setField (setField (setField (setField (setField (0 : Word) 0 0 (b2n last)) 1 1 (b2n stored)) 2 4 pred) 5 16 s) 17 32 (len - 1)

/-- The stride detected for a block, 0 for none (R511). -/
def detectStride (x : Array Word) (i len : Nat) : Nat :=
  let n := Nat.min len 4096
  let cnt (s : Nat) := ((List.range n).filter fun k => x.getD (i + k) 0 == xAt x ((i + k : Nat) - s : Int)).length
  let best := (List.range 4094).foldl (fun (b : Nat × Nat) k => let c := cnt (k + 2); if b.2 < c then (k + 2, c) else b) (0, 0)
  if 16 * best.2 < n then 0 else best.1

/-- The predictor and stride of a block under PMODE and STRIDE (R511). -/
def choosePred (x : Array Word) (i len pmode stride : Nat) : Nat × Nat :=
  let s := if stride = 0 then detectStride x i len else stride
  let fix (p : Nat) := if s = 0 then (1, 0) else (p, s)
  match pmode with
  | 1 => (0, 0)
  | 2 => (1, 0)
  | 3 => fix 2
  | 4 => fix 3
  | _ =>
    let d := detectStride x i len
    let cands := if d = 0 then [0, 1] else [0, 1, 2, 3]
    let w := x.toList
    let best := cands.foldl (fun (b : Option (Nat × Nat)) p =>
      let c := Config.calCost w i p d
      match b with
      | none => some (p, c)
      | some y => if c < y.2 then some (p, c) else b) none
    let p := (best.getD (0, 0)).1
    (p, if 2 ≤ p then d else 0)

/-- One block of the native stream: words i to i + len - 1, stored when coding would not make it shorter (R509, R511). -/
def nativeBlock (x : Array Word) (last : Bool) (i len pmode stride level : Nat) : List Word :=
  let seen := x.extract 0 (i + len)
  let p := choosePred seen i len pmode stride
  let bs := blockBits (len + 1) seen p.1 p.2 level i (i + len) coderInit
  let ws := packBits (bs.length + 1) bs
  if len ≤ ws.length then blockHeader last true 0 0 len :: (seen.extract i (i + len)).toList
  else blockHeader last false p.1 p.2 len :: ws

/-- The blocks of a native stream from word i; without FINAL a block is formed once a word follows it (R511). -/
def nativeBlocks (fuel : Nat) (x : Array Word) (final : Bool) (i pmode stride level : Nat) : List Word :=
  match fuel with
  | 0 => []
  | f + 1 =>
    let left := x.size - i
    if 65536 < left then nativeBlock x false i 65536 pmode stride level ++ nativeBlocks f x final (i + 65536) pmode stride level
    else if final ∧ 0 < left then nativeBlock x true i left pmode stride level
    else []

/-- The trailer words (R509). -/
def trailerOf (ws : List Word) : List Word := [BitVec.ofNat 36 (crc32c (packOf ws)), BitVec.ofNat 36 ws.length]

/-- The header word of a native stream (R509). -/
def nativeMagic : Word := 0o103114001000

/-- The native stream of the words read so far; with FINAL it is whole (R509-R512). -/
def nativeCompress (ws : List Word) (final : Bool) (pmode stride level : Nat) : List Word :=
  nativeMagic :: nativeBlocks (ws.length / 65536 + 2) ws.toArray final 0 pmode stride level ++
    (if final then trailerOf ws else [])

/-- Read Rice(v, k) with raw width w (R510). -/
def unrice (k w : Nat) (bs : List Bool) : Option (Nat × List Bool) :=
  let q := ((bs.take 24).takeWhile id).length
  if q = 24 then
    let r := bs.drop 24
    if r.length < w then none else some (ofBits (r.take w), r.drop w)
  else
    let r := bs.drop q
    if r.length < k + 1 then none else some (q * 2 ^ k + ofBits ((r.drop 1).take k), r.drop (k + 1))

/-- Read the tokens of a coded block until its words are covered (R510). -/
def readTokens (fuel pred s endd : Nat) (c : Coder) (x : Array Word) (bs : List Bool) : Array Word × Except CStop (List Bool) :=
  match fuel with
  | 0 => (x, .error .data)
  | f + 1 => if endd ≤ x.size then (x, .ok bs) else
    match bs with
    | false :: r =>
      match unrice c.k 36 r with
      | none => (x, .error .more)
      | some (z, r) => readTokens f pred s endd (c.residue z) (x.push (predict pred s x x.size + unzig z)) r
    | true :: false :: r =>
      match unrice c.kr 16 r with
      | none => (x, .error .more)
      | some (m, r) =>
        if endd < x.size + m + 1 then (x, .error .data)
        else readTokens f pred s endd (c.run (m + 1))
          ((List.range (m + 1)).foldl (fun (y : Array Word) _ => y.push (predict pred s y y.size)) x) r
    | true :: true :: r =>
      match unrice 2 16 r with
      | none => (x, .error .more)
      | some (l, r) =>
        if r.length < 16 then (x, .error .more) else
        let d := ofBits (r.take 16) + 1
        if endd < x.size + l + 3 ∨ x.size < d then (x, .error .data)
        else readTokens f pred s endd c
          ((List.range (l + 3)).foldl (fun (y : Array Word) _ => y.push (y.getD (y.size - d) 0)) x) (r.drop 16)
    | _ => (x, .error .more)

/-- A block header's fields are values of R509. -/
def headerOk (h : Word) : Bool :=
  let pred := field h 2 4
  let s := field h 5 16
  field h 33 35 == 0 && decide (pred ≤ 3) && (!dbit h 1 || (pred == 0 && s == 0)) &&
    (match pred with | 0 | 1 => s == 0 | 2 => decide (1 ≤ s) | _ => decide (2 ≤ s))

/-- Read the blocks and trailer of a native stream; `used` counts the words read (R509, R510). -/
def readBlocks (fuel : Nat) (x : Array Word) (used : Nat) (ws : List Word) : Array Word × CStop :=
  match fuel with
  | 0 => (x, .data)
  | f + 1 =>
    match ws with
    | [] => (x, .more)
    | h :: r =>
      if !headerOk h then (x, .data) else
      let len := field h 17 32 + 1
      let res : Array Word × Except CStop (Nat × List Word) :=
        if dbit h 1 then
          if r.length < len then (x ++ r.toArray, .error .more) else (x ++ (r.take len).toArray, .ok (len, r.drop len))
        else
          let bs := r.flatMap fun w => bitsOf w.toNat 36
          let t := readTokens (bs.length + len + 1) (field h 2 4) (field h 5 16) (x.size + len) coderInit x bs
          match t.2 with
          | .error e => (t.1, .error e)
          | .ok left => let k := (bs.length - left.length + 35) / 36; (t.1, .ok (k, r.drop k))
      match res.2 with
      | .error e => (res.1, e)
      | .ok (k, rest) =>
        if dbit h 0 then
          match rest with
          | t0 :: t1 :: _ =>
            if field t0 0 3 ≠ 0 then (res.1, .data)
            else if [t0, t1] = trailerOf res.1.toList then (res.1, .done (used + 1 + k + 2)) else (res.1, .crc)
          | _ => (res.1, .more)
        else readBlocks f res.1 (used + 1 + k) rest

/-- Read a native stream: the words it gives and how it ends (R509). -/
def nativeExpand (ws : List Word) : Array Word × CStop :=
  match ws with
  | [] => (#[], .more)
  | h :: r => if h ≠ nativeMagic then (#[], .data) else readBlocks (r.length + 1) #[] 1 r

/-- The next `n` bits of a deflate stream, least significant first. -/
def takeLsb (n : Nat) (bs : List Bool) : Option (Nat × List Bool) :=
  if bs.length < n then none
  else some (((bs.take n).reverse).foldl (fun v b => 2 * v + b2n b) 0, bs.drop n)

/-- Canonical Huffman codes as RFC 1951 builds them: codes of each length and the symbols in order; none for a set of lengths
that is over-subscribed, or incomplete beyond a single code of one bit. -/
def huffOf (lens : List Nat) : Option (List Nat × List Nat) :=
  let cnt := (List.range 16).map fun l => (lens.filter (· == l)).length
  let left := ((List.range 15).foldl (fun (v : Int) l => 2 * v - cnt.getD (l + 1) 0) 1)
  let tooMany := (List.range 15).any fun l =>
    decide (((List.range (l + 1)).foldl (fun (v : Int) j => 2 * v - cnt.getD (j + 1) 0) 1) < 0)
  let syms := (List.range 15).flatMap fun l => (lens.zipIdx.filter fun p => p.1 == l + 1).map (·.2)
  if tooMany ∨ (0 < left ∧ ¬(lens.length = cnt.getD 0 0 + 1 ∧ cnt.getD 1 0 = 1)) then none else some (cnt, syms)

/-- Read one symbol: more input, a code that stands for none, or the symbol. -/
def huffSym (h : List Nat × List Nat) (fuel len code first index : Nat) (bs : List Bool) : Except CStop (Nat × List Bool) :=
  match fuel, bs with
  | 0, _ => .error .data
  | _, [] => .error .more
  | f + 1, b :: r =>
    let code := code + b2n b
    let n := h.1.getD len 0
    if code < first + n then .ok (h.2.getD (index + (code - first)) 0, r)
    else huffSym h f (len + 1) (2 * code) (2 * (first + n)) (index + n) r

/-- Read a symbol from its start. -/
def huffRead (h : List Nat × List Nat) (bs : List Bool) : Except CStop (Nat × List Bool) := huffSym h 15 1 0 0 0 bs

/-- Base length and extra bits of length code c (RFC 1951). -/
def lenBase (c : Nat) : Nat × Nat :=
  if c < 8 then (c + 3, 0) else if c = 28 then (258, 0)
  else let e := (c - 4) / 4; ((4 + c % 4) * 2 ^ e + 3, e)

/-- Base distance and extra bits of distance code c (RFC 1951). -/
def distBase (c : Nat) : Nat × Nat :=
  if c < 4 then (c + 1, 0) else let e := (c - 2) / 2; ((2 + c % 2) * 2 ^ e + 1, e)

/-- Read the symbols of a compressed block up to its end (RFC 1951). -/
def inflateSyms (fuel : Nat) (hl hd : List Nat × List Nat) (x : Array Octet) (bs : List Bool) : Array Octet × Except CStop (List Bool) :=
  match fuel with
  | 0 => (x, .error .data)
  | f + 1 =>
    match huffRead hl bs with
    | .error e => (x, .error e)
    | .ok (s, r) =>
      if s < 256 then inflateSyms f hl hd (x.push (BitVec.ofNat 8 s)) r
      else if s = 256 then (x, .ok r)
      else if 285 < s then (x, .error .data)
      else
        let lb := lenBase (s - 257)
        match takeLsb lb.2 r with
        | none => (x, .error .more)
        | some (le, r) =>
          match huffRead hd r with
          | .error e => (x, .error e)
          | .ok (ds, r) =>
            if 29 < ds then (x, .error .data) else
            let db := distBase ds
            match takeLsb db.2 r with
            | none => (x, .error .more)
            | some (de, r) =>
              let d := db.1 + de
              if x.size < d ∨ 32768 < d then (x, .error .data)
              else inflateSyms f hl hd
                ((List.range (lb.1 + le)).foldl (fun (y : Array Octet) _ => y.push (y.getD (y.size - d) 0)) x) r

/-- Read code lengths under the code-length code (RFC 1951). -/
def readLens (fuel : Nat) (h : List Nat × List Nat) (n : Nat) (acc : List Nat) (bs : List Bool) : Except CStop (List Nat × List Bool) :=
  match fuel with
  | 0 => .error .data
  | f + 1 =>
    if n < acc.length then .error .data else if acc.length = n then .ok (acc, bs) else
    match huffRead h bs with
    | .error e => .error e
    | .ok (s, r) =>
      if s < 16 then readLens f h n (acc ++ [s]) r
      else
        let spec : Nat × Nat × Nat := if s = 16 then (2, 3, acc.getLastD 0) else if s = 17 then (3, 3, 0) else (7, 11, 0)
        if s = 16 ∧ acc.isEmpty = true then .error .data else
        match takeLsb spec.1 r with
        | none => .error .more
        | some (k, r) => readLens f h n (acc ++ List.replicate (spec.2.1 + k) spec.2.2) r

/-- The order of the code-length code's lengths (RFC 1951). -/
def clOrder : List Nat := [16, 17, 18, 0, 8, 7, 9, 6, 10, 5, 11, 4, 12, 3, 13, 2, 14, 1, 15]

/-- Read the two codes of a dynamic block (RFC 1951). -/
def readDynamic (bs : List Bool) : Except CStop ((List Nat × List Nat) × (List Nat × List Nat) × List Bool) :=
  match takeLsb 14 bs with
  | none => .error .more
  | some (v, r) =>
    let nl := v % 32 + 257
    let nd := v / 32 % 32 + 1
    let nc := v / 1024 + 4
    if 286 < nl ∨ 30 < nd then .error .data else
    match takeLsb (3 * nc) r with
    | none => .error .more
    | some (cl, r) =>
      let at_ (s : Nat) : Nat := match clOrder.findIdx? (· == s) with | some i => if i < nc then cl / 8 ^ i % 8 else 0 | none => 0
      match huffOf ((List.range 19).map at_) with
      | none => .error .data
      | some h =>
        match readLens (nl + nd + 1) h (nl + nd) [] r with
        | .error e => .error e
        | .ok (ls, r) =>
          if ls.getD 256 0 = 0 then .error .data else
          match huffOf (ls.take nl), huffOf (ls.drop nl) with
          | some hl, some hd => .ok (hl, hd, r)
          | _, _ => .error .data

/-- The fixed codes (RFC 1951). -/
def fixedLens : List Nat := List.replicate 144 8 ++ List.replicate 112 9 ++ List.replicate 24 7 ++ List.replicate 8 8

/-- Read the blocks of a deflate stream (RFC 1951); what is left keeps its octet boundary. -/
def inflateBlocks (fuel : Nat) (x : Array Octet) (bs : List Bool) : Array Octet × Except CStop (List Bool) :=
  match fuel with
  | 0 => (x, .error .data)
  | f + 1 =>
    match takeLsb 3 bs with
    | none => (x, .error .more)
    | some (h, r) =>
      let next (y : Array Octet × Except CStop (List Bool)) : Array Octet × Except CStop (List Bool) :=
        match y.2 with
        | .error e => (y.1, .error e)
        | .ok r => if h % 2 = 1 then (y.1, .ok r) else inflateBlocks f y.1 r
      match h / 2 with
      | 0 =>
        match takeLsb 32 (r.drop (r.length % 8)) with
        | none => (x, .error .more)
        | some (v, r) =>
          let n := v % 65536
          if v / 65536 ≠ 65535 - n then (x, .error .data) else
          let k := Nat.min n (r.length / 8)
          let y := (List.range k).foldl (fun (y : Array Octet) i =>
            y.push (BitVec.ofNat 8 (((takeLsb 8 (r.drop (8 * i))).getD (0, [])).1))) x
          if k < n then (y, .error .more) else next (y, .ok (r.drop (8 * n)))
      | 1 =>
        match huffOf fixedLens with
        | some hl => next (inflateSyms (r.length + 1) hl ((List.range 16).map fun l => if l = 5 then 30 else 0, List.range 30) x r)
        | none => (x, .error .data)
      | 2 =>
        match readDynamic r with
        | .error e => (x, .error e)
        | .ok (hl, hd, r) => next (inflateSyms (r.length + 1) hl hd x r)
      | _ => (x, .error .data)

/-- The bits of octets, least significant first. -/
def lsbBits (os : List Octet) : List Bool := os.flatMap fun o => (List.range 8).map fun i => o.getLsbD i

/-- Read a raw deflate stream: the octets it gives and how it ends, with the octets used (R513). -/
def inflate (os : List Octet) : Array Octet × CStop :=
  let bs := lsbBits os
  let r := inflateBlocks (bs.length + 1) #[] bs
  match r.2 with
  | .error e => (r.1, e)
  | .ok left => (r.1, .done (os.length - left.length / 8))

/-- Read a zlib stream (R513). -/
def unzlib (os : List Octet) : Array Octet × CStop :=
  match os with
  | c :: f :: r =>
    if c.toNat % 16 ≠ 8 ∨ 7 < c.toNat / 16 ∨ (c.toNat * 256 + f.toNat) % 31 ≠ 0 ∨ f.getLsbD 5 = true then (#[], .data) else
    let y := inflate r
    match y.2 with
    | .done n =>
      let t := (r.drop n).take 4
      if t.length < 4 then (y.1, .more)
      else if numOf t = adler32 y.1.toList then (y.1, .done (n + 6)) else (y.1, .crc)
    | e => (y.1, e)
  | _ => (#[], .more)

/-- Skip a zero-terminated field of a gzip header. -/
def skipZ (os : List Octet) : Option (List Octet) :=
  let r := os.dropWhile (· != 0)
  if r.isEmpty then none else some (r.drop 1)

/-- The number that octets spell, least significant first. -/
def numLsb (os : List Octet) : Nat := numOf os.reverse

/-- What follows the header of a gzip member; a bad header or check stops (R513). -/
def gunzipHead (os : List Octet) : Except CStop (List Octet) :=
  if os.length < 10 then .error .more
  else if os.getD 0 0 ≠ 0x1F ∨ os.getD 1 0 ≠ 0x8B ∨ os.getD 2 0 ≠ 8 ∨ 32 ≤ (os.getD 3 0).toNat then .error .data
  else
    let flg := os.getD 3 0
    let r? : Option (List Octet) := if flg.getLsbD 2 then
        let n := numLsb ((os.drop 10).take 2)
        if os.length < 12 + n then none else some (os.drop (12 + n))
      else some (os.drop 10)
    let r? := if flg.getLsbD 3 then r?.bind skipZ else r?
    let r? := if flg.getLsbD 4 then r?.bind skipZ else r?
    match r? with
    | none => .error .more
    | some r =>
      if flg.getLsbD 1 then
        if r.length < 2 then .error .more
        else if numLsb (r.take 2) = crc32 (os.take (os.length - r.length)) % 65536 then .ok (r.drop 2) else .error .crc
      else .ok r

/-- Read one member of a gzip stream (R513). -/
def gunzip (os : List Octet) : Array Octet × CStop :=
  match gunzipHead os with
  | .error e => (#[], e)
  | .ok r =>
    let y := inflate r
    match y.2 with
    | .done n =>
      let t := (r.drop n).take 8
      if t.length < 8 then (y.1, .more)
      else if numLsb (t.take 4) = crc32 y.1.toList ∧ numLsb (t.drop 4) = y.1.size % 2 ^ 32 then
        (y.1, .done (os.length - r.length + n + 8))
      else (y.1, .crc)
    | e => (y.1, e)

/-- Expand octets of an RFC format (R513). -/
def rfcExpand (fmt : Nat) (os : List Octet) : Array Octet × CStop :=
  match fmt with | 1 => inflate os | 2 => unzlib os | _ => gunzip os

/-- The second octet of a zlib header: FLEVEL from LEVEL, by a rule the manual does not give, with FCHECK (RFC 1950, R513). -/
def zlibFlg (level : Nat) : Octet :=
  let f := Config.flevel level % 4 * 64
  BitVec.ofNat 8 (f + (31 - (0x7800 + f) % 31) % 31)

/-- The octets of `n` little-endian. -/
def octetsLsb (n k : Nat) : List Octet := (octetsOf n k).reverse

/-- The stream of an RFC format for the octets read so far: its header, and with FINAL the whole (R513). -/
def rfcCompress (fmt : Nat) (os : List Octet) (final : Bool) (level : Nat) : List Octet :=
  let head : List Octet := match fmt with
    | 1 => []
    | 2 => [0x78, zlibFlg level]
    | _ => [0x1F, 0x8B, 8, 0, 0, 0, 0, 0, 0, 0xFF]
  let tail : List Octet := match fmt with
    | 1 => []
    | 2 => octetsOf (adler32 os) 4
    | _ => octetsLsb (crc32 os) 4 ++ octetsLsb (os.length % 2 ^ 32) 4
  if final then head ++ Config.deflate os level ++ tail else head

end Sys2Proof.Machine
end

