-- ==== Sys2Proof/Machine/Calender.lean ====
section
/-! DEFINITION. The Calender: its queues and shares (R499-R502), the checks of a parameter block (R503-R505), a job run
whole (R506-R517), its status (R507, R508), the sealed wheel (R501), inline jobs (R518) and resets (R520). -/

namespace Sys2Proof.Machine

open Sys2Proof

/-- The Calender block of a tile. -/
def calBlk (t : Nat) : Blk := .cal (tileFin t)
/-- The queue of a sheet at a tile's Calender. -/
def State.calQueue (s : State) (t sh : Nat) : List CalJob := Tab.get (fun _ => []) s.calq (t * 64 + sh)
/-- Replace a queue, and QUEUED with it. -/
def State.setCalQueue (s : State) (t sh : Nat) (q : List CalJob) : State :=
  { s with calq := Tab.set (fun _ => []) s.calq (t * 64 + sh) q }.setFld (calBlk t) (0o100 + sh) 9 14 q.length
/-- Queue `sh` is frozen. -/
def State.calFrz (s : State) (t sh : Nat) : Bool := s.rbit (calBlk t) (0o100 + sh) 15
/-- IDENT of an engine job queue (R72). -/
def queueIdent (varnish : Bool) (t sh : Nat) : Nat := b2n varnish * 2 ^ 17 + t * 2 ^ 14 + sh

/-- Word 0 of a parameter block (R503). -/
structure CalOpt where
  fmt    : Nat
  level  : Nat
  pmode  : Nat
  stride : Nat
  img    : Image
  final  : Bool
  resume : Bool
  tile   : Nat
deriving DecidableEq, Repr

/-- The fields of word 0. -/
def calOpt (w : Word) : CalOpt :=
  { fmt := field w 0 1, level := field w 2 5, pmode := field w 6 8, stride := field w 9 20,
    img := if dbit w 21 then .octet else .packed, final := dbit w 22, resume := dbit w 23, tile := field w 24 26 }

/-- A doubleword of a parameter block. -/
def blkDw (ws : Vector Word 12) (i : Nat) : DWord := dword (vget ws i 0) (vget ws (i + 1) 0)
/-- A number of a parameter block. -/
def blkN (ws : Vector Word 12) (i : Nat) : Nat := (vget ws i 0).toNat

/-- Words of the input and output ranges of a block (R503). -/
def calRanges (ws : Vector Word 12) (expand : Bool) : Nat × Nat :=
  let o := calOpt (vget ws 0 0)
  let oct (n : Nat) := o.img.words n
  if o.fmt = 0 then
    if expand then (Image.packed.words (blkN ws 4), blkN ws 8) else (blkN ws 4, blkN ws 8)
  else (oct (blkN ws 4), oct (blkN ws 8))

/-- Word 0 breaks a rule of R504 on its fields. -/
def calOptBad (w : Word) (expand : Bool) : Bool :=
  let o := calOpt w
  field w 27 35 != 0 || (!expand && (o.level == 0 || decide (9 < o.level))) || decide (4 < o.pmode) ||
    (o.pmode == 4 && o.stride == 1) || (o.img == .octet && o.fmt == 0)

/-- A parameter block breaks a rule of R504; `m` is its word address. -/
def calBad (m : Nat) (ws : Vector Word 12) (expand : Bool) : Bool :=
  let st := ptrAddr (blkDw ws 10)
  let inn := ptrAddr (blkDw ws 2)
  let out := ptrAddr (blkDw ws 6)
  let r := calRanges ws expand
  m % 16 != 0 || st % 16 != 0 || calOptBad (vget ws 0 0) expand || field (vget ws 1 0) 0 17 != 0 || vget ws 5 0 != 0 ||
    overlaps inn r.1 out r.2 || overlaps inn r.1 st 65792 || overlaps out r.2 st 65792

/-- The condition code of a submission to a Calender (R505). -/
def State.calCc (s : State) (t sh : Nat) : Nat :=
  if s.inReset.contains (calBlk t) || !s.rbit (calBlk t) (0o100 + sh) 0 then 3
  else if 32 ≤ (s.calQueue t sh).length then 2
  else if s.calFrz t sh then 1 else 0

/-- Accept a job (R505, R506). -/
def State.calAccept (s : State) (t : Nat) (j : CalJob) : State := s.setCalQueue t j.ctx.sheet (s.calQueue t j.ctx.sheet ++ [j])

/-- Word 12 of a status (R507). -/
def calWord12 (stat : Nat) (outfull inend : Bool) (buf detail : Nat) : Word :=
  let w := setField (setField (setField (0 : Word) 0 0 1) 1 8 stat) 9 9 (b2n outfull)
  setField (setField (setField w 10 10 (b2n inend)) 12 14 buf) 15 35 detail

/-- An access of an engine's job fails its deckle check: the job's queue freezes (R56, R61, R62). -/
def State.engineFreeze (s : State) (varnish : Bool) (t sh kind sa : Nat) : State :=
  (s.freeze 3 (queueIdent varnish t sh) sh kind sa).setFld (if varnish then .var (tileFin t) else calBlk t) (0o100 + sh) 15 15 1

/-- The status that a failed access ends a job with: STAT and DETAIL, with the queue frozen for a deckle failure (R506-R508). -/
def State.engineFail (s : State) (varnish : Bool) (t sh : Nat) (e : UErr) : Nat × Nat × State :=
  match e with
  | .xlate code _ => (if varnish then 0o010 else 0o011, code, s)
  | .deckle kind sa =>
    let s := s.engineFreeze varnish t sh kind sa
    (if varnish then 0o007 else 0o010, s.frzIdx 3 (queueIdent varnish t sh), s)
  | .poison _ => (if varnish then 0o011 else 0o012, 0, s)
  | .fmt _ => (if varnish then 0o006 else 0o007, 0, s)
  | .program _ => (if varnish then 0o013 else 0o014, 0, s)

/-- What a job's stream functions work on: options, direction, whole input read so far as words or octets. -/
structure CalData where
  opt    : CalOpt
  expand : Bool
  words  : List Word
  octs   : List Octet
deriving DecidableEq, Repr

/-- Input units available: words in the native format, otherwise octets. -/
def CalData.size (d : CalData) : Nat := if d.opt.fmt = 0 then d.words.length else d.octs.length

/-- The data cut to its first `n` input units. -/
def CalData.cut (d : CalData) (n : Nat) : CalData := { d with words := d.words.take n, octs := d.octs.take n }

/-- Output of a job over its input: native words, or octets, and how reading ended; a compression whose input has ended is done. -/
def CalData.run (d : CalData) (final : Bool) : List Word × List Octet × CStop :=
  if d.expand then
    if d.opt.fmt = 0 then let r := nativeExpand d.words; (r.1.toList, [], r.2)
    else let r := rfcExpand d.opt.fmt d.octs; ([], r.1.toList, r.2)
  else
    let e := if final then CStop.done d.size else .more
    if d.opt.fmt = 0 then (nativeCompress d.words final d.opt.pmode d.opt.stride d.opt.level, [], e)
    else ([], rfcCompress d.opt.fmt d.octs final d.opt.level, e)

/-- Output units of a run. -/
def outSize (r : List Word × List Octet × CStop) : Nat := r.1.length + r.2.1.length

/-- The least number of input units whose output reaches `n` units. -/
def CalData.need (d : CalData) (final : Bool) (n : Nat) : Nat :=
  ((List.range d.size).find? fun k => decide (n ≤ outSize ((d.cut k).run false))).getD
    (if final then d.size else d.size)

/-- Input octets that a number of input units counts for: those of the packed image for words (R507). -/
def CalData.inOctets (d : CalData) (n : Nat) : Nat := if d.opt.fmt = 0 then Image.packed.octets n else n

/-- The limit on a job's total output under OMAX and the ratio guard, with the status it ends in (R515). -/
def calLimit (d : CalData) (expr omax inOct : Nat) : Option (Nat × Nat) :=
  let r := if expr = 0 then 1024 else expr
  let g := r * Nat.max inOct 1024
  let guard := if d.opt.fmt = 0 then 2 * g / 9 else g
  if !d.expand then (if omax = 0 then none else some (omax, 3))
  else if omax = 0 then some (guard, 4)
  else if omax ≤ guard then some (omax, 3) else some (guard, 4)

/-- The words of a state area: free values but for the header and CRC of its context (R516). -/
def stateArea (s : State) (fmt : Nat) (expand : Bool) : List Word × List Word × State :=
  let go (s : State) (n : Nat) : List Word × State :=
    (List.range n).foldl (fun (x : List Word × State) _ => let f := x.2.free 36; (w36 f.1 :: x.1, f.2)) ([], s)
  let h := go s 65536
  let c := go h.2 254
  let head := setField (setField (setField (0 : Word) 0 8 1) 18 19 fmt) 20 20 (b2n expand)
  let ctx := head :: c.1
  (h.1, ctx ++ [w36 (crc32c (packOf ctx))], c.2)

/-- Write the state area of a job (R516). -/
def calSaveArea (x : Ctx) (st : Nat) (h c : List Word) : U (Option UErr) := do
  let r ← uSink x 0o11 st (h ++ c)
  pure r.2

/-- The context words of a state area, and why they could not be read. -/
def calReadContext (x : Ctx) (st : Nat) : U (List Word × Option UErr) := uStream x 0o10 (st + 65536) 256

/-- The status words that a failed access gives. -/
def calFailWords (t sh : Nat) (e : UErr) (buf indone outdone crc : Nat) : U (Vector Word 4) := do
  let s ← get
  let f := s.engineFail false t sh e
  set f.2.2
  let b := match e with | .xlate _ _ | .deckle _ _ | .poison _ => buf | _ => 0
  pure #v[calWord12 f.1 false false b f.2.1, w36 indone, w36 outdone, w36 crc]

/-- Read the new input of a job: the data with it joined, and why reading stopped short (R503, R506, R508). -/
def calReadInput (j : CalJob) (d : CalData) : U (CalData × Option UErr) := do
  let va := ptrAddr (blkDw j.words 2)
  let n := blkN j.words 4
  if d.opt.fmt = 0 then
    let k := if j.expand then 2 * n / 9 else n
    let r ← uStream j.ctx 0o10 va k
    pure ({ d with words := d.words ++ r.1 }, r.2)
  else
    let r ← uStream j.ctx 0o10 va (d.opt.img.words n)
    let o := d.opt.img.take r.1 n
    -- a nonet that breaks the image stands before the page at which reading stopped (R84)
    pure ({ d with octs := d.octs ++ o.1 }, match o.2 with
      | some k => some (.fmt k)
      | none => r.2)

/-- Run a Calender job: read the input, write the output and the state area, and give words 12 to 15 of its status
(R506-R508, R514-R517). -/
def calRun (t : Nat) (j : CalJob) : U (Vector Word 4) := do
  let sh := j.ctx.sheet
  let opt := calOpt (vget j.words 0 0)
  let st := ptrAddr (blkDw j.words 10)
  let fresh : CalSave := {
    context := [], expand := j.expand, fmt := opt.fmt, level := opt.level, pmode := opt.pmode, stride := opt.stride,
    inWords := [], inOcts := [], outDone := 0 }
  let start : Except (Option UErr) CalSave ← (do
    if opt.resume then do
      let r ← calReadContext j.ctx st
      match r.2 with
      | some e => pure (Except.error (some e))
      | none => do
        let s ← get
        match s.calSaved.find? fun (v : CalSave) => v.context == r.1 && v.expand == j.expand && v.fmt == opt.fmt with
        | some v => pure (Except.ok v)
        | none => pure (Except.error none)
    else pure (Except.ok fresh))
  match start with
  | .error (some e) => calFailWords t sh e 3 0 0 0
  | .error none => pure #v[calWord12 0o013 false false 0 0, 0, 0, 0]
  | .ok sv =>
    let opt : CalOpt := { opt with level := sv.level, pmode := sv.pmode, stride := sv.stride }
    let d0 : CalData := { opt := opt, expand := j.expand, words := sv.inWords, octs := sv.inOcts }
    let i ← calReadInput j d0
    let d := i.1
    let final := opt.final && i.2.isNone
    let r := d.run final
    let total := outSize r
    let room := blkN j.words 8
    let lim := calLimit d (field (vget j.words 1 0) 18 35) (blkN j.words 9) (d.inOctets d.size)
    let cap := match lim with | some l => Nat.min (sv.outDone + room) l.1 | none => sv.outDone + room
    let upto := Nat.min total cap
    let out : List Word := if opt.fmt = 0 then (r.1.take upto).drop sv.outDone
      else (opt.img.toWords ((r.2.1.take upto).drop sv.outDone)).1
    let w ← uSink j.ctx 0o11 (ptrAddr (blkDw j.words 6)) out
    -- units delivered: all, or those in the words written before a failure
    let given := match w.2 with
      | none => upto - sv.outDone
      | some _ => if opt.fmt = 0 then w.1 else Nat.min (upto - sv.outDone) (opt.img.octets w.1)
    let crcOf (n m : Nat) : Nat :=
      if j.expand then (if opt.fmt = 0 then crc32c (packOf (r.1.take m)) else crc32c (r.2.1.take m))
      else if opt.fmt = 0 then crc32c (packOf (d.words.take n)) else crc32c (d.octs.take n)
    let used (n : Nat) : Nat := d.inOctets n - d.inOctets d0.size
    match w.2 with
    | some e =>
      let n := d.need final (sv.outDone + given)
      calFailWords t sh e 2 (used n) given (crcOf n (sv.outDone + given))
    | none =>
      let plain (stat n : Nat) : Vector Word 4 := #v[calWord12 stat false false 0 0, w36 (used n), w36 given, w36 (crcOf n upto)]
      let limited := match lim with | some l => l.1 < total && l.1 ≤ sv.outDone + room | none => false
      let full := !limited && decide (sv.outDone + room < total)
      if limited then pure (plain (match lim with | some l => l.2 | none => 3) (d.need final upto))
      else
        match full, r.2.2, i.2 with
        | false, _, some e => calFailWords t sh e 1 (used d.size) given (crcOf d.size upto)
        | false, .done n, none => pure (plain 1 n)
        | false, .data, none | false, .crc, none => do
          let s ← get
          let f := s.free 36
          set f.2
          pure #v[calWord12 (if r.2.2 = .data then 5 else 6) false false 0 0, w36 f.1, w36 given, w36 (crcOf d.size upto)]
        | _, _, _ => do
          if !full && final then pure (plain 5 d.size) else do
          let need := if full then d.need final upto else d.size
          let n := if !full then d.size else if opt.fmt = 0 then
              Nat.min d.size ((need + 1) / 2 * 2 + 2 * Config.calAhead (need + upto))
            else Nat.min d.size (need + Config.calAhead (need + upto))
          let s ← get
          let a := stateArea s opt.fmt j.expand
          let kept : CalSave := {
            context := a.2.1, expand := j.expand, fmt := opt.fmt, level := opt.level, pmode := opt.pmode,
            stride := opt.stride, inWords := (d.cut n).words, inOcts := (d.cut n).octs, outDone := upto }
          set ({ a.2.2 with calSaved := kept :: a.2.2.calSaved } : State)
          let e ← calSaveArea j.ctx st a.1 a.2.1
          match e with
          | some e => calFailWords t sh e 3 (used n) given (crcOf n upto)
          | none => pure #v[calWord12 2 full (!full) 0 0, w36 (used n), w36 given, w36 (crcOf n upto)]

/-- Replace a job of a queue by place. -/
def State.setCalJob (s : State) (t sh i : Nat) (j : CalJob) : State := s.setCalQueue t sh ((s.calQueue t sh).set i j)

/-- Jobs running at a tile's Calender. -/
def State.calRunning (s : State) (t : Nat) : Nat :=
  ((List.range 64).flatMap fun sh => (s.calQueue t sh).filter (·.running)).length

/-- Sheets whose queue has a job to start at a tile's Calender: its share valid and not frozen, and under SEALED only the
slot's sheet (R499-R501). -/
def State.calReady (s : State) (t : Nat) : List Nat :=
  let slotSheet : Option Nat := match Tab.get (fun _ => none) s.calSlot t with
    | none => none
    | some k =>
      let o := 0o20 + k / 4
      let b := 9 * (k % 4)
      if s.rbit (calBlk t) o b then some (s.fld (calBlk t) o (b + 3) (b + 8)) else none
  (List.range 64).filter fun sh =>
    s.rbit (calBlk t) (0o100 + sh) 0 && !s.calFrz t sh && (s.calQueue t sh).any (fun (j : CalJob) => !j.running) &&
      (!s.rbit (calBlk t) 0 0 || slotSheet == some sh)

/-- A free run position takes the next job of a queue that round robin picks, and runs it (R499-R501, R506; log entry 9). -/
def State.calJobStart (s : State) (t : Nat) : State :=
  if s.inReset.contains (calBlk t) || decide (4 ≤ s.calRunning t) then s else
  let qs := s.calReady t
  let pick := s.free 36
  match qs[pick.1 % qs.length]? with
  | none => s
  | some sh =>
    match (s.calQueue t sh).findIdx? (fun (j : CalJob) => !j.running) with
    | none => s
    | some i =>
      match (s.calQueue t sh)[i]? with
      | none => s
      | some j =>
        match j.result with
        | some _ => pick.2.setCalJob t sh i { j with running := true }
        | none =>
          match (calRun t j).run pick.2 with
          | some (.ok r, s) => s.setCalJob t sh i { j with running := true, result := some r }
          | _ => s

/-- The status words of a job written to its block through the deckle map of its sheet, word 12 last (R507). A block that the map no
longer holds takes none, and the write that fails its deckle check freezes the queue (R56, R61). -/
def State.writeStatus (s : State) (varnish : Bool) (t sh block at_ : Nat) (rest : List Word) (last : Word) (lastAt : Nat) : Option State :=
  match s.deckleMap sh block with
  | none => some (s.engineFreeze varnish t sh 0o11 (block + at_))
  | some mp =>
    let put (s : State) (i : Nat) (w : Word) : Option State :=
      s.ncWrite (ncIndex t) ((mp + i) / 16) fun x => linePutWords x ((mp + i) % 16) [w]
    ((rest.zipIdx).foldl (fun (s : Option State) p => s.bind fun s => put s (at_ + p.2) p.1) (some s)).bind fun s =>
      put s lastAt last

/-- A job ends or pauses (R507, R514, R521): status, counters, its place in the queue. -/
def State.calJobEnd (s : State) (t sh : Nat) : State :=
  let q := s.calQueue t sh
  match q.findIdx? (fun (j : CalJob) => j.running && j.result.isSome) with
  | none => s
  | some i =>
    match q[i]?, (q[i]?).bind (·.result) with
    | some j, some r =>
      let w12 := vget r 0 0
      let s? := match j.console with
        | some k => some ((s.setPartial k 3 w12).slotDone k 0)
        | none => s.writeStatus false t sh j.block 13 [vget r 1 0, vget r 2 0, vget r 3 0] w12 12
      match s? with
      | none => s
      | some s =>
        let s := s.count (calBlk t) 0o200 0 35
        let s := if field w12 1 8 = 2 then s.count (calBlk t) 0o201 0 35 else s
        let s := s.countOct (calBlk t) 0o202 t (vget r 1 0).toNat
        s.setCalQueue t sh (q.eraseIdx i)
    | _, _ => s

/-- A running job is stopped at the end of its slot: its state goes to its state area and it waits for the sheet's next slot; where
that write fails, the job ends with the failure's status (R501, R506). None where the write has to wait. -/
def State.calStop (s : State) (t sh i : Nat) (j : CalJob) : Option State :=
  let a := stateArea s (calOpt (vget j.words 0 0)).fmt j.expand
  match (calSaveArea j.ctx (ptrAddr (blkDw j.words 10)) a.1 a.2.1).run a.2.2 with
  | none => none
  | some (.error _, s) => some s
  | some (.ok none, s) => some (s.setCalJob t sh i { j with running := false })
  | some (.ok (some e), s) =>
    let f := s.engineFail false t sh e
    let r := j.result.getD (Vector.replicate 4 0)
    some (f.2.2.setCalJob t sh i { j with result := some (vset r 0 (calWord12 f.1 false false 3 f.2.1)) })

/-- 224 µs into a sealed slot: each running job stops, not reported as paused (R501); nothing happens yet while one has to wait. -/
def State.calPreempt (s : State) (t : Nat) : State :=
  if !s.rbit (calBlk t) 0 0 then s else
  let jobs := (List.range 64).flatMap fun sh =>
    (s.calQueue t sh).zipIdx.filterMap fun x => if x.1.running then some (sh, x.2, x.1) else none
  match jobs.foldl (fun (s : Option State) x => s.bind fun s => s.calStop t x.1 x.2.1 x.2.2) (some s) with
  | none => s
  | some s => { s with calSlot := Tab.set (fun _ => none) s.calSlot t none }

/-- A sealed slot begins: jobs of its sheet that were stopped continue (R501). -/
def State.calSlotBegin (s : State) (t k : Nat) : State :=
  if !s.rbit (calBlk t) 0 0 then s else
  let s : State := { s with calSlot := Tab.set (fun _ => none) s.calSlot t (some k) }
  let o := 0o20 + k / 4
  let b := 9 * (k % 4)
  if !s.rbit (calBlk t) o b then s else
    let sh := s.fld (calBlk t) o (b + 3) (b + 8)
    s.setCalQueue t sh ((s.calQueue t sh).map fun (j : CalJob) => if j.result.isSome then { j with running := true } else j)

/-- CAL block reset, tile reset: running jobs are to end RESET when the block leaves reset (R520). -/
def State.calBlockReset (s : State) (t : Nat) : State :=
  (List.range 64).foldl (fun s sh =>
    let q := s.calQueue t sh
    if q.isEmpty then s else
    let f := s.free 32
    f.2.setCalQueue t sh (q.map fun (j : CalJob) =>
      if j.running then { j with result := some #v[calWord12 0o015 false false 0 0, 0, 0, w36 f.1] } else j)) s

/-- The block leaves reset: the jobs it lost write their status (R520). -/
def State.calLeaveReset (s : State) (t : Nat) : State :=
  (List.range 64).foldl (fun s sh =>
    ((s.calQueue t sh).filter (·.running)).foldl (fun s _ => s.calJobEnd t sh) s) s

/-- Sheet reset or checkstop: the sheet's jobs are discarded on every tile (R520). -/
def State.calDropSheet (s : State) (sh : Nat) : State :=
  (List.range 8).foldl (fun s t => if (s.calQueue t sh).isEmpty then s else s.setCalQueue t sh []) s

/-- Module and cold reset: every job is discarded (R520). -/
def State.calDropAll (s : State) : State := (List.range 64).foldl (fun s sh => s.calDropSheet sh) s

/-- An inline block breaks a rule of R504 or R518; `sealed` requires a valid state area address. -/
def calInlineBad (blk : List Word) (expand sealed : Bool) : Bool :=
  let w0 := blk.getD 0 0
  let w := setField (setField w0 24 26 0) 21 21 0
  calOptBad w expand || dbit w0 23 || field (blk.getD 1 0) 0 17 != 0 ||
    (sealed && (ptrAddr (dword (blk.getD 2 0) (blk.getD 3 0)) % 16 != 0)) || (blk.drop 4).any (· != 0)

/-- An inline job of the Calender on the way out (`expand` false: memory-side octets to the link) or in, with the memory-side
image and the room in octets; the job status when it is not OK (R518). -/
def calInline (blk : List Word) (expand sealed : Bool) (im : Image) (os : List Octet) (room : Nat) : Except Nat (List Octet) :=
  if calInlineBad blk expand sealed then .error 0o014 else
  let opt := calOpt (blk.getD 0 0)
  let d : CalData := { opt := opt, expand := expand,
                       words := if opt.fmt = 0 then (if expand then unpack os else (im.toWords os).1) else [],
                       octs := if opt.fmt = 0 then [] else os }
  let r := d.run true
  let out : List Octet := if opt.fmt = 0 then (if expand then (im.ofWords r.1).1 else packOf r.1) else r.2.1
  let lim := calLimit d (field (blk.getD 1 0) 18 35) 0 os.length
  match lim with
  | some l => if l.1 < outSize r then .error l.2 else fin r out
  | none => fin r out
where
  fin (r : List Word × List Octet × CStop) (out : List Octet) : Except Nat (List Octet) :=
    match r.2.2 with
    | .done _ => if room < out.length then .error 3 else .ok out
    | .crc => .error 6
    | _ => .error 5

end Sys2Proof.Machine
end

