-- ==== Sys2Proof/Machine/Crypto.lean ====
section
/-! DEFINITION. The ciphers that chapter 16 names by their standards (log entry 8): AES (FIPS-197) with its modes ECB, CBC,
CTR, XTS, GCM, CCM and CMAC (R535), the key wrap of RFC 5649 (R529) and the KDF of SP 800-108 (R526). Octet strings are
lists. -/

namespace Sys2Proof.Machine

open Sys2Proof

/-- Doubling in GF(2^8) of AES. -/
def xtime (a : Octet) : Octet := (a <<< 1) ^^^ (if a.msb then 0x1B else 0)

/-- The product in GF(2^8) of AES. -/
def gmul (a b : Octet) : Octet :=
  ((List.range 8).foldl (fun (x : Octet × Octet) i => (if b.getLsbD i then x.1 ^^^ x.2 else x.1, xtime x.2)) (0, a)).1

/-- The inverse in GF(2^8), 0 of 0: the power 254. -/
def ginv (a : Octet) : Octet :=
  ((List.range 7).foldl (fun (x : Octet × Octet) _ => let s := gmul x.2 x.2; (gmul x.1 s, s)) (1, a)).1

/-- The AES S-box. -/
def sbox (a : Octet) : Octet :=
  let b := ginv a
  b ^^^ b.rotateLeft 1 ^^^ b.rotateLeft 2 ^^^ b.rotateLeft 3 ^^^ b.rotateLeft 4 ^^^ 0x63

/-- The inverse AES S-box. -/
def isbox (a : Octet) : Octet := ginv (a.rotateLeft 1 ^^^ a.rotateLeft 3 ^^^ a.rotateLeft 6 ^^^ 0x05)

/-- Exclusive-or of octet strings, as long as the shorter. -/
def xorO (a b : List Octet) : List Octet := List.zipWith (· ^^^ ·) a b

/-- Octet `i` of a string. -/
def oAt (l : List Octet) (i : Nat) : Octet := l.getD i 0

/-- Octet strings cut into pieces of `n`, the last shorter. -/
def chunks (fuel n : Nat) (l : List Octet) : List (List Octet) :=
  match fuel with
  | 0 => []
  | f + 1 => if l.isEmpty then [] else l.take n :: chunks f n (l.drop n)

/-- The 16-octet blocks of a string. -/
def blocks16 (l : List Octet) : List (List Octet) := chunks (l.length + 1) 16 l

/-- The expanded key words of AES, four octets each. -/
def keyWords (key : List Octet) : List (List Octet) :=
  let nk := key.length / 4
  let w0 := chunks (nk + 1) 4 key
  let grow (x : List (List Octet) × Octet) (i : Nat) : List (List Octet) × Octet :=
    let i := i + nk
    let t := x.1.getD (i - 1) []
    let r : List Octet × Octet := if i % nk = 0 then
        let rot := (t.drop 1 ++ t.take 1).map sbox
        (xorO rot [x.2, 0, 0, 0], xtime x.2)
      else if 6 < nk ∧ i % nk = 4 then (t.map sbox, x.2) else (t, x.2)
    (x.1 ++ [xorO (x.1.getD (i - nk) []) r.1], r.2)
  ((List.range (4 * (nk + 7) - nk)).foldl grow (w0, 1)).1

/-- The round keys of AES. -/
def roundKeys (key : List Octet) : List (List Octet) :=
  let w := keyWords key
  (List.range (key.length / 4 + 7)).map fun r => ((w.drop (4 * r)).take 4).flatten

/-- ShiftRows and its inverse: the octet at row r of column c comes from column c + d r. -/
def shiftRows (d : Nat) (s : List Octet) : List Octet :=
  (List.range 16).map fun i => oAt s (4 * ((i / 4 + d * (i % 4)) % 4) + i % 4)

/-- MixColumns with a first row of coefficients, and its inverse. -/
def mixCols (m : List Octet) (s : List Octet) : List Octet :=
  (List.range 16).map fun i =>
    (List.range 4).foldl (fun (a : Octet) j => a ^^^ gmul (oAt m ((j + 4 - i % 4) % 4)) (oAt s (4 * (i / 4) + j))) 0

/-- AES encryption of one block under round keys. -/
def aesEnc (rk : List (List Octet)) (b : List Octet) : List Octet :=
  let n := rk.length - 1
  let s := xorO b (rk.getD 0 [])
  let s := (List.range (n - 1)).foldl (fun s i => xorO (mixCols [2, 3, 1, 1] (shiftRows 1 (s.map sbox))) (rk.getD (i + 1) [])) s
  xorO (shiftRows 1 (s.map sbox)) (rk.getD n [])

/-- AES decryption of one block under round keys. -/
def aesDec (rk : List (List Octet)) (b : List Octet) : List Octet :=
  let n := rk.length - 1
  let s := (shiftRows 3 (xorO b (rk.getD n []))).map isbox
  let s := (List.range (n - 1)).foldl (fun s i =>
    (shiftRows 3 (mixCols [14, 11, 13, 9] (xorO s (rk.getD (n - 1 - i) [])))).map isbox) s
  xorO s (rk.getD 0 [])

/-- PKCS#7 padding (R535). -/
def pad7 (m : List Octet) : List Octet :=
  let p := 16 - m.length % 16
  m ++ List.replicate p (BitVec.ofNat 8 p)

/-- Remove PKCS#7 padding; none where it is not that. -/
def unpad7 (m : List Octet) : Option (List Octet) :=
  let p := (m.getLastD 0).toNat
  if p = 0 ∨ 16 < p ∨ m.length < p then none
  else if (m.drop (m.length - p)).all (· == BitVec.ofNat 8 p) then some (m.take (m.length - p)) else none

/-- CBC encryption of whole blocks. -/
def cbcEnc (rk : List (List Octet)) (iv : List Octet) : List (List Octet) → List Octet
  | [] => []
  | b :: r => let c := aesEnc rk (xorO b iv); c ++ cbcEnc rk c r

/-- CBC decryption of whole blocks. -/
def cbcDec (rk : List (List Octet)) (iv : List Octet) : List (List Octet) → List Octet
  | [] => []
  | b :: r => xorO (aesDec rk b) iv ++ cbcDec rk b r

/-- A 16-octet counter block plus one, as a big-endian integer modulo 2^128 (R535). -/
def inc128 (b : List Octet) : List Octet := octetsOf ((numOf b + 1) % 2 ^ 128) 16

/-- inc32 of SP 800-38D. -/
def inc32 (b : List Octet) : List Octet := b.take 12 ++ octetsOf ((numOf (b.drop 12) + 1) % 2 ^ 32) 4

/-- A stream cipher from successive counter blocks. -/
def ctrWith (rk : List (List Octet)) (inc : List Octet → List Octet) (cb : List Octet) : List (List Octet) → List Octet
  | [] => []
  | b :: r => xorO b (aesEnc rk cb) ++ ctrWith rk inc (inc cb) r

/-- Multiplication of an XTS tweak by the primitive element. -/
def xtsMul (t : List Octet) : List Octet :=
  let n := numOf t.reverse
  let d := n * 2 % 2 ^ 128
  (octetsOf (if 2 ^ 127 ≤ n then d ^^^ 0x87 else d) 16).reverse

/-- XTS of one block. -/
def xtsBlock (f : List Octet → List Octet) (t b : List Octet) : List Octet := xorO (f (xorO b t)) t

/-- XTS of the blocks of one data unit from a tweak, with ciphertext stealing for a final partial block (IEEE 1619). -/
def xtsBlocks (enc : Bool) (f : List Octet → List Octet) (t : List Octet) : List (List Octet) → List Octet
  | [] => []
  | [b] => xtsBlock f t b
  | b :: p :: r =>
    if r.isEmpty ∧ p.length < 16 then
      let t2 := xtsMul t
      let c := xtsBlock f (if enc then t else t2) b
      xtsBlock f (if enc then t2 else t) (p ++ c.drop p.length) ++ c.take p.length
    else xtsBlock f t b ++ xtsBlocks enc f (xtsMul t) (p :: r)

/-- XTS of a message in data units of DUNIT octets; the tweak of unit k is the IV plus k (R535). -/
def xts (enc : Bool) (key iv : List Octet) (dunit : Nat) (m : List Octet) : List Octet :=
  let h := key.length / 2
  let r1 := roundKeys (key.take h)
  let r2 := roundKeys (key.drop h)
  let f := if enc then aesEnc r1 else aesDec r1
  let n0 := numOf iv.reverse
  ((chunks (m.length + 1) dunit m).zipIdx).flatMap fun u =>
    let tw := (octetsOf ((n0 + u.2) % 2 ^ 128) 16).reverse
    xtsBlocks enc f (aesEnc r2 tw) (blocks16 u.1)

/-- The product in GF(2^128) of GCM. -/
def ghMul (x y : Nat) : Nat :=
  ((List.range 128).foldl (fun (a : Nat × Nat) i =>
    (if x.testBit (127 - i) then a.1 ^^^ a.2 else a.1,
     if a.2 % 2 = 1 then (a.2 / 2) ^^^ (0xE1 * 2 ^ 120) else a.2 / 2)) (0, y)).1

/-- Zeros that fill a string to a multiple of 16 octets. -/
def zpad (l : List Octet) : List Octet := l ++ List.replicate ((16 - l.length % 16) % 16) 0

/-- GHASH (SP 800-38D). -/
def ghash (h : Nat) (l : List Octet) : Nat := (blocks16 l).foldl (fun y b => ghMul (y ^^^ numOf b) h) 0

/-- The 64-bit big-endian bit lengths that end a GHASH input. -/
def lens64 (a b : Nat) : List Octet := octetsOf (8 * a) 8 ++ octetsOf (8 * b) 8

/-- The pre-counter block of GCM. -/
def gcmJ0 (h : Nat) (iv : List Octet) : List Octet :=
  if iv.length = 12 then iv ++ [0, 0, 0, 1] else octetsOf (ghash h (zpad iv ++ lens64 0 iv.length)) 16

/-- The GCM tag of a ciphertext. -/
def gcmTag (rk : List (List Octet)) (iv aad c : List Octet) (tl : Nat) : List Octet :=
  let h := numOf (aesEnc rk (List.replicate 16 0))
  let s := octetsOf (ghash h (zpad aad ++ zpad c ++ lens64 aad.length c.length)) 16
  (xorO (aesEnc rk (gcmJ0 h iv)) s).take tl

/-- GCM's counter cipher. -/
def gcmCtr (rk : List (List Octet)) (iv m : List Octet) : List Octet :=
  ctrWith rk inc32 (inc32 (gcmJ0 (numOf (aesEnc rk (List.replicate 16 0))) iv)) (blocks16 m)

/-- The length prefix of CCM's associated data (SP 800-38C). -/
def ccmAad (aad : List Octet) : List Octet :=
  if aad.isEmpty then []
  else zpad ((if aad.length < 65280 then octetsOf aad.length 2 else [0xFF, 0xFE] ++ octetsOf aad.length 4) ++ aad)

/-- The CBC-MAC of CCM. -/
def ccmMac (rk : List (List Octet)) (nonce aad m : List Octet) (tl : Nat) : List Octet :=
  let q := 15 - nonce.length
  let flags := (if aad.isEmpty then 0 else 64) + 8 * ((tl - 2) / 2) + (q - 1)
  let b0 := BitVec.ofNat 8 flags :: nonce ++ octetsOf m.length q
  (blocks16 (b0 ++ ccmAad aad ++ zpad m)).foldl (fun y b => aesEnc rk (xorO y b)) (List.replicate 16 0)

/-- Counter block i of CCM. -/
def ccmCtr (nonce : List Octet) (i : Nat) : List Octet :=
  let q := 15 - nonce.length
  BitVec.ofNat 8 (q - 1) :: nonce ++ octetsOf i q

/-- CCM's counter cipher. -/
def ccmCrypt (rk : List (List Octet)) (nonce m : List Octet) : List Octet := ctrWith rk inc128 (ccmCtr nonce 1) (blocks16 m)

/-- The CCM tag of a message. -/
def ccmTag (rk : List (List Octet)) (nonce aad m : List Octet) (tl : Nat) : List Octet :=
  (xorO (ccmMac rk nonce aad m tl) (aesEnc rk (ccmCtr nonce 0))).take tl

/-- Doubling of a CMAC subkey. -/
def cmacDbl (x : List Octet) : List Octet :=
  let n := numOf x
  octetsOf (if 2 ^ 127 ≤ n then (n * 2 % 2 ^ 128) ^^^ 0x87 else n * 2) 16

/-- CMAC (SP 800-38B). -/
def cmac (rk : List (List Octet)) (m : List Octet) : List Octet :=
  let k1 := cmacDbl (aesEnc rk (List.replicate 16 0))
  let n := (m.length + 15) / 16 - 1
  let head := blocks16 (m.take (16 * n))
  let last := m.drop (16 * n)
  let fin := if last.length = 16 then xorO last k1
    else xorO (last ++ 0x80 :: List.replicate (15 - last.length) 0) (cmacDbl k1)
  (head ++ [fin]).foldl (fun y b => aesEnc rk (xorO y b)) (List.replicate 16 0)

/-- The key encryption key of sheet `sh` at an epoch (R526). -/
def kekOf (root : List Octet) (sh epoch : Nat) : List Octet :=
  let rk := roundKeys root
  let label : List Octet := [0x56, 0x41, 0x52, 0x4E, 0x49, 0x53, 0x48, 0x2D, 0x4B, 0x45, 0x4B]
  let ctx := octetsOf sh 1 ++ octetsOf epoch 3
  [1, 2].flatMap fun i => cmac rk (octetsOf i 4 ++ label ++ [0] ++ ctx ++ octetsOf 256 4)

/-- One step of the wrapping rounds of RFC 3394. -/
def wrapStep (rk : List (List Octet)) (n : Nat) (x : List Octet × List (List Octet)) (t : Nat) : List Octet × List (List Octet) :=
  let i := (t - 1) % n
  let b := aesEnc rk (x.1 ++ x.2.getD i [])
  (xorO (b.take 8) (octetsOf t 8), x.2.set i (b.drop 8))

/-- One step of the unwrapping rounds of RFC 3394. -/
def unwrapStep (rk : List (List Octet)) (n : Nat) (x : List Octet × List (List Octet)) (t : Nat) : List Octet × List (List Octet) :=
  let i := (t - 1) % n
  let b := aesDec rk (xorO x.1 (octetsOf t 8) ++ x.2.getD i [])
  (b.take 8, x.2.set i (b.drop 8))

/-- The alternative initial value of RFC 5649 for a plaintext length. -/
def kwpAiv (n : Nat) : List Octet := [0xA6, 0x59, 0x59, 0xA6] ++ octetsOf n 4

/-- AES-KWP of a plaintext longer than 8 octets (RFC 5649). -/
def kwpWrap (key p : List Octet) : List Octet :=
  let rk := roundKeys key
  let q := p ++ List.replicate ((8 - p.length % 8) % 8) 0
  let r := chunks (q.length + 1) 8 q
  let x := (List.range (6 * r.length)).foldl (fun x t => wrapStep rk r.length x (t + 1)) (kwpAiv p.length, r)
  x.1 ++ x.2.flatten

/-- AES-KWP unwrapping; none where the integrity check fails (RFC 5649). -/
def kwpUnwrap (key c : List Octet) : Option (List Octet) :=
  if c.length % 8 ≠ 0 ∨ c.length < 24 then none else
  let rk := roundKeys key
  let r := (chunks (c.length + 1) 8 c).drop 1
  let n := r.length
  let x := (List.range (6 * n)).foldl (fun x t => unwrapStep rk n x (6 * n - t)) (c.take 8, r)
  let p := x.2.flatten
  let m := numOf (x.1.drop 4)
  if x.1.take 4 = [0xA6, 0x59, 0x59, 0xA6] ∧ 8 * (n - 1) < m ∧ m ≤ 8 * n ∧ (p.drop m).all (· == 0) = true then some (p.take m)
  else none

end Sys2Proof.Machine
end

