-- ==== Sys2Proof/Machine/Varnish.lean ====
section
/-! DEFINITION. The Varnish: key slots and handles (R526-R533), the checks of a job's block (R535, R536), jobs and key
operations run whole (R532, R535-R540), the sealed wheel (R524), inline jobs (R542) and resets (R543). -/

namespace Sys2Proof.Machine

open Sys2Proof

/-- The Varnish block of a tile. -/
def varBlk (t : Nat) : Blk := .var (tileFin t)
/-- The queue of a sheet at a tile's Varnish. -/
def State.varQueue (s : State) (t sh : Nat) : List VarJob := Tab.get (fun _ => []) s.varq (t * 64 + sh)
/-- Replace a queue, and QUEUED with it. -/
def State.setVarQueue (s : State) (t sh : Nat) (q : List VarJob) : State :=
  { s with varq := Tab.set (fun _ => []) s.varq (t * 64 + sh) q }.setFld (varBlk t) (0o100 + sh) 9 14 q.length
/-- Key slot `k` of a tile. -/
def State.keySlot (s : State) (t k : Nat) : KeySlot := Tab.get (fun _ => keyReset) s.keys (t * 4096 + k)
/-- Replace a key slot. -/
def State.setKeySlot (s : State) (t k : Nat) (x : KeySlot) : State :=
  { s with keys := Tab.set (fun _ => keyReset) s.keys (t * 4096 + k) x }
/-- KUSED of a sheet. -/
def State.kused (s : State) (t sh : Nat) : Nat := s.fld (varBlk t) (0o200 + sh) 0 12
/-- Set KUSED. -/
def State.setKused (s : State) (t sh n : Nat) : State := s.setFld (varBlk t) (0o200 + sh) 0 12 n

/-- A key handle (R530). -/
def handleOf (t k gen : Nat) : Word := setField (setField (setField (0 : Word) 0 2 t) 3 14 k) 15 35 gen

/-- The key encryption key of a sheet at its epoch in effect (R526). -/
def State.kek (s : State) (sh : Nat) : List Octet :=
  kekOf ((List.range 32).map Config.rootKey) sh (s.fld .deckle (0o500 + sh) 0 17)

/-- Free a key slot in use: the key is overwritten and GEN rises (R530, R532). -/
def State.freeKey (s : State) (t k : Nat) : State :=
  let x := s.keySlot t k
  if x.st = .free then s else
    let s := s.setKeySlot t k { st := .free, sheet := 0, gen := (x.gen + 1) % 2 ^ 21, usage := 0, key := [] }
    s.setKused t x.sheet (s.kused t x.sheet - 1)

/-- Slots of a tile in use, of a sheet or of all. -/
def State.usedKeys (s : State) (t : Nat) (sh : Option Nat) : List Nat :=
  (s.keys.filter fun e => e.1 / 4096 == t && e.2.st != .free && (sh.isNone || sh == some e.2.sheet)).map fun e => e.1 % 4096

/-- Free the slots of a sheet on every tile (R527, R543). -/
def State.freeSheetKeys (s : State) (sh : Nat) : State :=
  (List.range 8).foldl (fun s t => (s.usedKeys t (some sh)).foldl (fun s k => s.freeKey t k) s) s

/-- The slot a handle names for a sheet on a tile (R530, R532, R537). -/
def State.handleSlot (s : State) (t sh : Nat) (h : Word) : Option (Nat × KeySlot) :=
  let k := field h 3 14
  let x := s.keySlot t k
  if field h 0 2 = t ∧ x.st ≠ .free ∧ x.sheet = sh ∧ x.gen = field h 15 35 then some (k, x) else none

/-- The condition code of a submission; `slot` for an UNWRAP or GENERATE (R533, R537). -/
def State.varCc (s : State) (t sh : Nat) (slot : Bool) : Nat :=
  if s.inReset.contains (varBlk t) || !s.rbit (varBlk t) (0o100 + sh) 0 then 3
  else if 32 ≤ (s.varQueue t sh).length || (slot && s.kused t sh == s.fld (varBlk t) (0o100 + sh) 16 28) then 2
  else if s.rbit (varBlk t) (0o100 + sh) 15 then 1 else 0

/-- Word 0 of an XCIP block (R534). -/
structure CipOpt where
  op     : Nat
  mode   : Nat
  img    : Image
  taglen : Nat
  tile   : Nat
  ivlen  : Nat
deriving DecidableEq, Repr

/-- The fields of word 0. -/
def cipOpt (w : Word) : CipOpt :=
  { op := field w 0 2, mode := field w 3 6, img := if dbit w 7 then .octet else .packed, taglen := field w 8 12,
    tile := field w 13 15, ivlen := field w 16 20 }

/-- OP, IVLEN and TAGLEN lie in the mode's row of R535. -/
def cipRowOk (o : CipOpt) : Bool :=
  match o.mode with
  | 0 => decide (o.op ≤ 1) && o.ivlen == 0 && o.taglen == 0
  | 1 | 2 | 3 => decide (o.op ≤ 1) && o.ivlen == 16 && o.taglen == 0
  | 4 => decide (o.op ≤ 1) && decide (1 ≤ o.ivlen ∧ o.ivlen ≤ 16) && (o.taglen == 4 || o.taglen == 8 || decide (12 ≤ o.taglen ∧ o.taglen ≤ 16))
  | 5 => decide (o.op ≤ 1) && decide (7 ≤ o.ivlen ∧ o.ivlen ≤ 13) && decide (4 ≤ o.taglen ∧ o.taglen ≤ 16) && o.taglen % 2 == 0
  | 6 => (o.op == 2 || o.op == 3) && o.ivlen == 0 && decide (4 ≤ o.taglen ∧ o.taglen ≤ 16)
  | _ => false

/-- A block of an XCIP breaks R536; `m` is its word address, `ws` its 14 words. -/
def cipBad (m : Nat) (ws : Vector Word 14) : Bool :=
  let at_ (i : Nat) := vget ws i 0
  let dw (i : Nat) := ptrAddr (dword (at_ i) (at_ (i + 1)))
  let o := cipOpt (at_ 0)
  let n := (at_ 4).toNat
  let a := (at_ 5).toNat
  let inn := o.img.words (n + a)
  let out := o.img.words (at_ 8).toNat
  let iv := o.img.words o.ivlen
  m % 16 != 0 || field (at_ 0) 21 35 != 0 || decide (6 < o.mode) || !cipRowOk o ||
    (o.mode != 4 && o.mode != 5 && a != 0) || decide (2 ^ 32 ≤ a) ||
    (if o.mode = 3 then !decide (16 ≤ (at_ 9).toNat ∧ (at_ 9).toNat ≤ 2 ^ 24) else at_ 9 != 0) ||
    at_ 12 != 0 || at_ 13 != 0 ||
    overlaps (dw 2) inn (dw 6) out || overlaps (dw 2) inn (dw 10) iv || overlaps (dw 6) out (dw 10) iv

/-- KLEN and USAGE of a key are a pair of R529. -/
def keyPairOk (klen usage : Nat) : Bool :=
  match usage with
  | 1 | 4 => klen == 16 || klen == 24 || klen == 32
  | 2 => klen == 32 || klen == 64
  | _ => false

/-- An XKEY descriptor breaks R536. -/
def xkeyBad (m : Nat) (ws : Vector Word 12) : Bool :=
  let w0 := vget ws 0 0
  let fn := field w0 0 2
  m % 8 != 0 || field w0 17 35 != 0 || vget ws 5 0 != 0 || fn == 0 || decide (3 < fn) ||
    (fn == 2 && !keyPairOk (field w0 7 13) (field w0 14 16))

/-- Accept an XCIP job. -/
def State.varAccept (s : State) (t : Nat) (j : VarJob) : State := s.setVarQueue t j.ctx.sheet (s.varQueue t j.ctx.sheet ++ [j])

/-- Accept an XKEY operation: UNWRAP and GENERATE take a free slot, chosen freely, and mark it LOADING; the handle (R532;
log entry 9). -/
def State.xkeyAccept (s : State) (t block : Nat) (ws : Vector Word 12) (x : Ctx) : Word × State :=
  let fn := field (vget ws 0 0) 0 2
  let j : VarJob := { block := block, words := ws, key := true, slot := none, ctx := x, running := false, result := none }
  if fn = 3 then (0, s.varAccept t j) else
    let fr := (List.range 4096).filter fun k => (s.keySlot t k).st == .free
    let f := s.free 12
    let k := fr.getD (f.1 % fr.length) 0
    let old := f.2.keySlot t k
    let s := (f.2.setKeySlot t k { old with st := .loading, sheet := x.sheet }).setKused t x.sheet (f.2.kused t x.sheet + 1)
    (handleOf t k old.gen, s.varAccept t { j with slot := some k })

/-- The key's USAGE suits a mode (R535). -/
def usageOk (mode usage : Nat) : Bool := match mode with | 3 => usage == 2 | 6 => usage == 4 | _ => usage == 1

/-- The message breaks the length rules of R535: `n` is INLEN. -/
def lengthBad (o : CipOpt) (n dunit : Nat) : Bool :=
  match o.mode with
  | 0 | 1 => o.op == 1 && (n % 16 != 0 || decide (n < 16))
  | 2 => false
  | 3 => decide (n < 16) || (n % dunit != 0 && decide (n % dunit < 16))
  | 4 => decide (2 ^ 36 - 32 < n) || (o.op == 1 && decide (n < o.taglen))
  | 5 =>
    (o.op == 1 && decide (n < o.taglen)) || decide (256 ^ (15 - o.ivlen) ≤ (if o.op = 1 then n - o.taglen else n))
  | _ => o.op == 3 && decide (n < o.taglen)

/-- Octets a job produces; for a padded DECRYPT the padding is known only afterwards, and the most is given (R535). -/
def outOctets (o : CipOpt) (n : Nat) : Nat :=
  match o.mode, o.op with
  | 0, 0 | 1, 0 => n + (16 - n % 16)
  | 4, 0 | 5, 0 => n + o.taglen
  | 4, _ | 5, _ => n - o.taglen
  | 6, 2 => o.taglen
  | 6, _ => 0
  | _, _ => n

/-- What a cipher gives: its output octets, or AUTH or PAD with the octets that its check refuses. -/
inductive CipOut where
  | ok (os : List Octet)
  | auth (os : List Octet)
  | pad (os : List Octet)
deriving DecidableEq, Repr

/-- The cipher of a job over its AAD and message (R535). -/
def cipher (o : CipOpt) (key iv aad m : List Octet) (dunit : Nat) : CipOut :=
  let rk := roundKeys key
  let cut := m.length - o.taglen
  let un (os : List Octet) : CipOut := match unpad7 os with | some x => .ok x | none => .pad os
  match o.mode, o.op with
  | 0, 0 => .ok ((blocks16 (pad7 m)).flatMap (aesEnc rk))
  | 0, _ => un ((blocks16 m).flatMap (aesDec rk))
  | 1, 0 => .ok (cbcEnc rk iv (blocks16 (pad7 m)))
  | 1, _ => un (cbcDec rk iv (blocks16 m))
  | 2, _ => .ok (ctrWith rk inc128 iv (blocks16 m))
  | 3, op => .ok (xts (op == 0) key iv dunit m)
  | 4, 0 => let c := gcmCtr rk iv m; .ok (c ++ gcmTag rk iv aad c o.taglen)
  | 4, _ => let c := m.take cut; let p := gcmCtr rk iv c; if gcmTag rk iv aad c o.taglen = m.drop cut then .ok p else .auth p
  | 5, 0 => .ok (ccmCrypt rk iv m ++ ccmTag rk iv aad m o.taglen)
  | 5, _ =>
    let p := ccmCrypt rk iv (m.take cut)
    if ccmTag rk iv aad p o.taglen = m.drop cut then .ok p else .auth p
  | _, 2 => .ok ((cmac rk m).take o.taglen)
  | _, _ => if (cmac rk (m.take cut)).take o.taglen = m.drop cut then .ok [] else .auth []

/-- Word 14 of a status, or word 6 of a descriptor (R534). -/
def varWord (stat detail : Nat) : Word := setField (setField (setField (0 : Word) 0 0 1) 1 8 stat) 9 35 detail

/-- The end that a failed access gives a job. -/
def varFail (t sh : Nat) (e : UErr) (done : Nat) : U (Nat × Nat) := do
  let s ← get
  let f := s.engineFail true t sh e
  set f.2.2
  pure ((varWord f.1 f.2.1).toNat, done)

/-- Read `n` octets of an image from sheet memory. -/
def varRead (x : Ctx) (im : Image) (va n : Nat) : U (List Octet × Option UErr) := do
  let r ← uStream x 0o10 va (im.words n)
  let o := im.take r.1 n
  -- a nonet that breaks the image stands before the page at which reading stopped (R84)
  pure (o.1, match o.2 with | some k => some (.fmt k) | none => r.2)

/-- Write octets of an image; the octets written before a failure, and the failure. -/
def varWrite (x : Ctx) (im : Image) (va : Nat) (os : List Octet) : U (Nat × Option UErr) := do
  let r ← uSink x 0o11 va (im.toWords os).1
  pure (match r.2 with | none => os.length | some _ => Nat.min os.length (im.octets r.1), r.2)

/-- Run an XCIP job: status word and OUTDONE (R535-R540). -/
def cipRun (t : Nat) (j : VarJob) : U (Nat × Nat) := do
  let s ← get
  let sh := j.ctx.sheet
  let o := cipOpt (vget j.words 0 0)
  let n := blkN j.words 4
  let a := blkN j.words 5
  let fin (stat : Nat) : U (Nat × Nat) := pure ((varWord stat 0).toNat, 0)
  match s.handleSlot t sh (vget j.words 1 0) with
  | none => fin 4
  | some (_, k) =>
    if k.st ≠ .ready ∨ usageOk o.mode k.usage = false then fin 4
    else if lengthBad o n (blkN j.words 9) then fin 5
    else if ¬((o.mode = 0 ∨ o.mode = 1) ∧ o.op = 1) ∧ blkN j.words 8 < outOctets o n then fin 5
    else do
      let iv ← varRead j.ctx o.img (ptrAddr (blkDw j.words 10)) o.ivlen
      match iv.2 with
      | some e => varFail t sh e 0
      | none => do
        let m ← varRead j.ctx o.img (ptrAddr (blkDw j.words 2)) (a + n)
        match m.2 with
        | some e => varFail t sh e 0
        | none =>
          let write (os : List Octet) : U (Nat × Option UErr) := varWrite j.ctx o.img (ptrAddr (blkDw j.words 6)) os
          -- output refused by its check is written as it is produced, and then zeroed (R539)
          let zero (os : List Octet) (stat : Nat) : U (Nat × Nat) := do
            let w ← write os
            let z ← match w.2 with | some e => pure (w.1, some e) | none => write (List.replicate os.length 0)
            match z.2 with
            | some e => varFail t sh e z.1
            | none => fin stat
          match cipher o k.key iv.1 (m.1.take a) (m.1.drop a) (blkN j.words 9) with
          | .auth os => zero os 2
          | .pad os => do
            let s ← get
            let f := s.free 36
            set f.2
            zero (os.take (Nat.min (f.1 % (n + 1)) (blkN j.words 8))) 3
          | .ok os =>
            if blkN j.words 8 < os.length then fin 5
            else do
              let w ← write os
              match w.2 with
              | some e => varFail t sh e w.1
              | none => pure ((varWord 1 0).toNat, os.length)

/-- The checks of an unwrapped blob: key and usage, or the failing check (R529, R532). -/
def blobKey (klenBlob : Nat) (p : List Octet) : Except Nat (List Octet × Nat) :=
  let klen := (oAt p 1).toNat
  let usage := (oAt p 2).toNat
  let key := p.drop 8
  if oAt p 0 ≠ 1 ∨ keyPairOk klen usage = false ∨ (p.drop 3).take 5 ≠ List.replicate 5 0 ∨ key.length ≠ klen ∨
      klen + 16 ≠ klenBlob then .error 2
  else if usage = 2 ∧ key.take (klen / 2) = key.drop (klen / 2) then .error 3
  else .ok (key, usage)

/-- `n` free octets. -/
def freeOctets (s : State) (n : Nat) : List Octet × State :=
  (List.range n).foldl (fun (x : List Octet × State) _ => let f := x.2.free 8; (x.1 ++ [BitVec.ofNat 8 f.1], f.2)) ([], s)

/-- A generated key: free octets, the halves of an XTS key kept unequal (R531). -/
def drawKey (s : State) (klen usage : Nat) : List Octet × State :=
  let r := freeOctets s klen
  let h := klen / 2
  if usage = 2 ∧ r.1.take h = r.1.drop h then ((r.1.take (klen - 1)) ++ [oAt r.1 (klen - 1) ^^^ 1], r.2) else r

/-- Run an XKEY operation up to its end: status word and OUTLEN, with the key held in its LOADING slot (R531, R532). -/
def xkeyRun (t : Nat) (j : VarJob) : U (Nat × Nat) := do
  let s ← get
  let sh := j.ctx.sheet
  let w0 := vget j.words 0 0
  let im : Image := if dbit w0 6 then .octet else .packed
  let blob := ptrAddr (blkDw j.words 2)
  let blen := blkN j.words 4
  let load (key : List Octet) (usage : Nat) : U Unit := modify fun s =>
    let k := j.slot.getD 0
    s.setKeySlot t k { s.keySlot t k with key := key, usage := usage }
  match field w0 0 2 with
  | 1 =>
    if blen ≠ 32 ∧ blen ≠ 40 ∧ blen ≠ 48 ∧ blen ≠ 80 then pure ((varWord 0o012 2).toNat, 0) else do
    let r ← varRead j.ctx im blob blen
    match r.2 with
    | some e => varFail t sh e 0
    | none =>
      match kwpUnwrap (s.kek sh) r.1 with
      | none => pure ((varWord 0o012 1).toNat, 0)
      | some p =>
        match blobKey blen p with
        | .error d => pure ((varWord 0o012 d).toNat, 0)
        | .ok (key, usage) => do load key usage; pure ((varWord 1 0).toNat, 0)
  | 2 =>
    let klen := field w0 7 13
    let usage := field w0 14 16
    if blen < klen + 16 then pure ((varWord 5 0).toNat, 0) else do
    let k := drawKey s klen usage
    set k.2
    let p := [1, BitVec.ofNat 8 klen, BitVec.ofNat 8 usage, 0, 0, 0, 0, 0] ++ k.1
    let w ← varWrite j.ctx im blob (kwpWrap (k.2.kek sh) p)
    match w.2 with
    | some e => varFail t sh e w.1
    | none => do load k.1 usage; pure ((varWord 1 0).toNat, klen + 16)
  | _ =>
    match s.handleSlot t sh (vget j.words 1 0) with
    | none => pure ((varWord 4 0).toNat, 0)
    | some _ => pure ((varWord 1 0).toNat, 0)

/-- The slot that an XCIP job's handle names. -/
def VarJob.slotOf (j : VarJob) : Nat := field (vget j.words 1 0) 3 14

/-- A job waits: it names a slot of its sheet that is LOADING (R532). -/
def State.varWaits (s : State) (t : Nat) (j : VarJob) : Bool :=
  !j.key && match s.handleSlot t j.ctx.sheet (vget j.words 1 0) with | some (_, k) => k.st == .loading | none => false

/-- Sheets whose queue has a job to start at a tile's Varnish (R522-R524, R532). -/
def State.varReady (s : State) (t : Nat) : List Nat :=
  let slotSheet : Option Nat := match Tab.get (fun _ => none) s.varSlot t with
    | none => none
    | some k =>
      let o := 0o20 + k / 4
      let b := 9 * (k % 4)
      if s.rbit (varBlk t) o b then some (s.fld (varBlk t) o (b + 3) (b + 8)) else none
  (List.range 64).filter fun sh =>
    s.rbit (varBlk t) (0o100 + sh) 0 && !s.rbit (varBlk t) (0o100 + sh) 15 &&
      (match (s.varQueue t sh).find? (fun (j : VarJob) => !j.running) with | some j => !s.varWaits t j | none => false) &&
      (!s.rbit (varBlk t) 0 0 || slotSheet == some sh)

/-- Jobs running at a tile's Varnish. -/
def State.varRunning (s : State) (t : Nat) : Nat :=
  ((List.range 64).flatMap fun sh => (s.varQueue t sh).filter (·.running)).length

/-- Replace a job of a queue by place. -/
def State.setVarJob (s : State) (t sh i : Nat) (j : VarJob) : State := s.setVarQueue t sh ((s.varQueue t sh).set i j)

/-- A free AES core takes a job of a queue that round robin picks, and runs it (R523, R532, R537; log entry 9). -/
def State.varJobStart (s : State) (t : Nat) : State :=
  if s.inReset.contains (varBlk t) || decide (8 ≤ s.varRunning t) then s else
  let qs := s.varReady t
  let pick := s.free 36
  match qs[pick.1 % qs.length]? with
  | none => s
  | some sh =>
    match (s.varQueue t sh).findIdx? (fun (j : VarJob) => !j.running) with
    | none => s
    | some i =>
      match (s.varQueue t sh)[i]? with
      | none => s
      | some j =>
        match j.result with
        | some _ => pick.2.setVarJob t sh i { j with running := true }
        | none =>
          match (if j.key then xkeyRun t j else cipRun t j).run pick.2 with
          | some (.ok r, s) => s.setVarJob t sh i { j with running := true, result := some r }
          | _ => s

/-- A job that has run may end: a FREE waits for started jobs of its slot ahead of it, and for a LOADING slot (R532). -/
def State.varMayEnd (s : State) (t : Nat) (q : List VarJob) (i : Nat) (j : VarJob) : Bool :=
  if j.key && j.slot.isNone && j.result == some ((varWord 1 0).toNat, 0) then
    (s.keySlot t j.slotOf).st != .loading &&
      !((q.take i).any fun (k : VarJob) => !k.key && k.running && k.slotOf == j.slotOf)
  else j.running && j.result.isSome

/-- The key slot as an XKEY operation's end leaves it (R532). -/
def State.keyEnd (s : State) (t : Nat) (j : VarJob) (ok : Bool) : State :=
  match j.slot with
  | some k => if ok then s.setKeySlot t k { s.keySlot t k with st := .ready } else s.freeKey t k
  | none =>
    if !ok then s else
      match s.handleSlot t j.ctx.sheet (vget j.words 1 0) with
      | some (k, _) => s.freeKey t k
      | none => s

/-- A Varnish job or key operation ends: effects on its slot, status, counters, its place in the queue (R532, R538, R544). -/
def State.varJobEnd (s : State) (t sh : Nat) : State :=
  let q := s.varQueue t sh
  match q.zipIdx.find? fun x => x.1.running && x.1.result.isSome && s.varMayEnd t q x.2 x.1 with
  | none => s
  | some (j, i) =>
    match j.result with
    | none => s
    | some r =>
      let w := w36 r.1
      let stat := field w 1 8
      let len : Nat × State := if j.key && field (vget j.words 0 0) 0 2 != 2 then s.free 36 else (r.2, s)
      let s? := if j.key then len.2.writeStatus true t sh j.block 7 [w36 len.1] w 6 else s.writeStatus true t sh j.block 15 [w36 r.2] w 14
      match s? with
      | none => s
      | some s =>
        let s := if j.key then s.keyEnd t j (stat == 1) else s
        let s := s.count (varBlk t) 0o300 0 35
        let s := if stat = 2 then s.count (varBlk t) 0o301 0 35 else s
        let s := if j.key then s else s.countOct (varBlk t) 0o302 (8 + t) (blkN j.words 4)
        s.setVarQueue t sh (q.eraseIdx i)

/-- 28 µs into a sealed slot every running job stops; what it has reached is kept for its queue (R524). -/
def State.varPreempt (s : State) (t : Nat) : State :=
  if !s.rbit (varBlk t) 0 0 then s else
  let s := (List.range 64).foldl (fun s sh =>
    if (s.varQueue t sh).isEmpty then s
    else s.setVarQueue t sh ((s.varQueue t sh).map fun (j : VarJob) => { j with running := false })) s
  { s with varSlot := Tab.set (fun _ => none) s.varSlot t none }

/-- A sealed slot begins and the stopped jobs of its sheet continue (R524). -/
def State.varSlotBegin (s : State) (t k : Nat) : State :=
  if !s.rbit (varBlk t) 0 0 then s else
  let s : State := { s with varSlot := Tab.set (fun _ => none) s.varSlot t (some k) }
  let o := 0o20 + k / 4
  let b := 9 * (k % 4)
  if !s.rbit (varBlk t) o b then s else
    let sh := s.fld (varBlk t) o (b + 3) (b + 8)
    s.setVarQueue t sh ((s.varQueue t sh).map fun (j : VarJob) => if j.result.isSome then { j with running := true } else j)

/-- VAR block reset, tile reset: running jobs and queued UNWRAPs and GENERATEs end RESET, and every slot is freed (R543). -/
def State.varBlockReset (s : State) (t : Nat) : State :=
  let s := (List.range 64).foldl (fun s sh =>
    let q := s.varQueue t sh
    if q.isEmpty then s else
    s.setVarQueue t sh (q.map fun (j : VarJob) =>
      if j.running || (j.key && j.slot.isSome) then { j with running := true, slot := none, result := some ((varWord 0o014 0).toNat, 0) }
      else j)) s
  (s.usedKeys t none).foldl (fun s k => s.freeKey t k) s

/-- The block leaves reset: what it lost writes its status (R543). -/
def State.varLeaveReset (s : State) (t : Nat) : State :=
  (List.range 64).foldl (fun s sh =>
    ((s.varQueue t sh).filter (·.running)).foldl (fun s _ => s.varJobEnd t sh) s) s

/-- Sheet reset or checkstop: jobs discarded and slots freed on every tile (R543). -/
def State.varDropSheet (s : State) (sh : Nat) : State :=
  ((List.range 8).foldl (fun s t => if (s.varQueue t sh).isEmpty then s else s.setVarQueue t sh []) s).freeSheetKeys sh

/-- EPOCH of a sheet changes: its slots are freed on every tile, and the jobs that name one end KEY, with the output they have
written left in place (R527, R539, R543). -/
def State.varEpoch (s : State) (sh : Nat) : State :=
  ((List.range 8).foldl (fun s t =>
    let q := s.varQueue t sh
    if q.isEmpty then s else
    s.setVarQueue t sh (q.map fun (j : VarJob) =>
      if j.key then (if j.slot.isSome then { j with slot := none, result := some ((varWord 4 0).toNat, 0) } else j)
      else match j.result with
        | some r => { j with result := some ((varWord 4 0).toNat, r.2) }
        | none => j)) s).freeSheetKeys sh

/-- Module and cold reset: jobs discarded and every slot freed (R543). -/
def State.varDropAll (s : State) : State :=
  let s := (List.range 64).foldl (fun s sh => s.varDropSheet sh) s
  (List.range 8).foldl (fun s t => (s.usedKeys t none).foldl (fun s k => s.freeKey t k) s) s

/-- An inline block breaks R536 or R542; the mode's OP is set by the vat. -/
def cipInlineBad (blk : List Word) (enc : Bool) : Bool :=
  let w0 := setField (setField (blk.getD 0 0) 0 2 (if enc then 0 else 1)) 13 15 0
  let o := cipOpt w0
  field w0 21 35 != 0 || decide (5 < o.mode) || !cipRowOk o ||
    (if o.mode = 3 then !decide (16 ≤ (blk.getD 4 0).toNat ∧ (blk.getD 4 0).toNat ≤ 2 ^ 24) else blk.getD 4 0 != 0) ||
    (blk.drop 5).any (· != 0)

/-- An inline job of the Varnish over a message, with its IV read: the output, or the job status when it is not OK (R542). -/
def State.cipInline (s : State) (t sh : Nat) (blk : List Word) (enc : Bool) (iv m : List Octet) (room : Nat) : Except Nat (List Octet) :=
  if cipInlineBad blk enc then .error 0o013 else
  let o : CipOpt := { cipOpt (blk.getD 0 0) with op := if enc then 0 else 1 }
  let dunit := (blk.getD 4 0).toNat
  match s.handleSlot t sh (blk.getD 1 0) with
  | none => .error 4
  | some (_, k) =>
    if k.st ≠ .ready ∨ usageOk o.mode k.usage = false then .error 4
    else if lengthBad o m.length dunit then .error 5
    else
      match cipher o k.key iv [] m dunit with
      | .auth _ => .error 2
      | .pad _ => .error 3
      | .ok os => if room < os.length then .error 5 else .ok os

end Sys2Proof.Machine
end

