-- ==== Sys2Proof/Machine/Channel.lean ====
section
/-! DEFINITION. The channel subsystem: subchannels and their control blocks (R421-R428), the channel instructions at the
vat (R430-R435), packets (R436-R446), the life of an exchange with its journal (R447-R451), paths, re-drives and
resolution (R452-R457), resets and Easel errors (R458, R459). -/

namespace Sys2Proof.Machine

open Sys2Proof

/-- The interruption of a pending status (R435). -/
def State.ioIrq (s : State) (n : Nat) : State :=
  let irq : Irq := { level := 3, code := 0o300, param := n, info := 0 }
  let c := s.cbF n 4 16 23
  let k := s.core c
  let sh := s.subSheet n
  if k.sheet == some sh && k.active && k.run != .frozen then s.post c irq else s.postService sh irq

/-- Withdraw an interruption of a subchannel that has not been accepted (R435). -/
def State.withdrawIo (s : State) (n : Nat) : State :=
  (s.cores.map (·.1)).foldl (fun s c =>
    let k := s.core c
    let p := k.pend.filter fun i => !(i.code == 0o300 && i.param == n)
    if p.length = k.pend.length then s else s.setCore c { k with pend := p }) s

/-- The captured context of an exchange (R432). -/
def State.subCtx (s : State) (n : Nat) : Ctx :=
  { tile := s.subVat n / 2, sheet := s.subSheet n, dat := dbit (s.cb n 7) 23, prob := dbit (s.cb n 7) 24, org := s.cbF n 7 0 22, asn := s.cbF n 4 24 35 }

/-- The octets of a command that fall in packet `i`, of `total` moved: excess counts for the last packet (R439). -/
def inPacket (ps : List Pkt) (total i : Nat) : Nat :=
  let before := ((ps.take i).map (·.count)).sum
  let here := total - before
  if i + 1 = ps.length then here else Nat.min here ((ps.getD i { idx := 0, count := 0, link := 0, lenok := false, data := 0, pages := [] }).count)

/-- RESID of the packet at PKT (R434, R439): while that packet is still to join the command nothing has moved for it, and the
control block holds its COUNT. -/
def State.residOf (s : State) (n : Nat) : Word :=
  let x := s.xc n
  match x.packets.getLast? with
  | none => s.cb n 5
  | some p =>
    if x.noted then s.cb n 5
    else BitVec.ofInt 36 ((p.count : Int) - inPacket x.packets x.moved (x.packets.length - 1))

/-- Messages of an exchange that no octet of has left are withdrawn (R432, R445); an answer that the module owes as recipient
belongs to no sheet (64) and stays. -/
def State.withdrawMsgs (s : State) (n : Nat) : State :=
  { s with links := s.links.map fun l =>
      (l.1, { l.2 with txq := l.2.txq.filter fun m => !(m.xid == n && m.mtype != 3 && decide (m.sheet < 64)) }) }

/-- The exchange slot of an exchange is free again (R425, R447). -/
def State.freeSlot (s : State) (n : Nat) : State := (s.setJF n 0 0 0 0).setCbF n 6 20 29 0

/-- DETAIL as R449 gives it for a STAT, and ADDR as R434 does: 0 for the others. -/
def Xch.tidy (x : Xch) (stat : Nat) : Xch :=
  { x with
    detail := if [0o003, 0o004, 0o005, 0o006, 0o010, 0o020].contains stat then x.detail else 0
    addr := if [0o004, 0o005, 0o007].contains stat then x.addr else 0 }

/-- An exchange ends (R447): PHASE DONE, the outcome in the control block, the slot freed, the interruption. `held` keeps the
interruption back, and with it the journal entry of a frozen exchange and its slot (R62); a quiet ending makes none (R458). CUR
stays where the exchange has fetched no packet (R436). -/
def State.chanEnd (s : State) (n outc stat : Nat) (susp held : Bool) : State :=
  let x := s.xc n
  let st := s.subSt n
  let s := if st = 1 then s else s.setJF n 0 1 2 3
  let s := (s.setCb n 5 (s.residOf n)).withdrawMsgs n
  let pkt := s.cbF n 0 19 30
  let s := (((s.setCbF n 0 9 10 outc).setCbF n 0 11 18 stat).setCbF n 0 31 31 (b2n susp)).setCbF n 0 6 6 1
  let s := s.setCbF n 0 8 8 (b2n held)
  let s := if x.fetched then s.setCbF n 4 4 15 (if susp then pkt else (pkt + 1) % s.ringSize n) else s
  let s := if st = 1 || held then s else s.freeSlot n
  let s := s.setXc n (x.tidy stat)
  let s := s.setSubSt n (if susp then 3 else 0)
  let v := s.subVat n
  let s : State := { s with vatWait := Tab.set (fun _ => []) s.vatWait v ((Tab.get (fun _ => []) s.vatWait v).filter (· != n)) }
  let s := if outc = 2 then s.count (vatBlk v) 3 0 35 else if outc = 3 then s.count (vatBlk v) 4 0 35 else s
  if held || x.quiet then s else s.ioIrq n

/-- Paths of LPM with PST available, in the order of R452. -/
def State.pathChoice (s : State) (n : Nat) : Option Nat :=
  let last := s.cbF n 7 33 35
  ((List.range 8).map fun i => (last + 1 + i) % 8).find? fun i =>
    dbit (s.cb n 7) (25 + i) && s.pst n i == 1

/-- A felt message of an exchange on a path. -/
def State.chanMsg (s : State) (n p mtype code : Nat) (body : FeltBody) (last : Bool) : State :=
  let l := s.pathLink n p
  s.feltSend l {
    vc := s.vcOf l mtype, sheet := s.subSheet n, mtype := mtype, xid := n, gen := s.subGen n, cseq := s.cseqOf n,
    devaddr := field (s.pathW n p) 18 33, code := code, body := body, poison := false, last := last }

/-- OP of the open command (R438). -/
def Xch.op (x : Xch) : Nat := field x.head 0 5
/-- The open command moves data from the partner to memory. -/
def Xch.isIn (x : Xch) : Bool := x.op == 0o01 || x.op == 0o04
/-- XF of the open command. -/
def Xch.xf (x : Xch) : Nat := field x.head 21 23
/-- The image of the open command (R437). -/
def Xch.image (x : Xch) : Image := match field x.head 19 20 with | 0 => .packed | 1 => .octet | _ => .wide
/-- The command's last packet is not fetched yet (R439). -/
def Xch.more (x : Xch) : Bool := match x.packets.getLast? with | some p => p.link == 2 | none => true

/-- Send data octets of a command in XDATA messages of at most the partner's MAXB (R477, R481). -/
def State.sendData (s : State) (n p : Nat) (os : List Octet) (last : Bool) : State :=
  let m := Nat.max 1 (Nat.min 4096 (s.lnk (s.pathLink n p)).maxb)
  let cs := chunks (os.length + 1) m os
  (cs.zipIdx).foldl (fun s c => s.chanMsg n p 2 0 (.data c.1) (last && c.2 + 1 == cs.length)) s

/-- Send the open command on a path with all its data so far: journal first (R450, R451). TSENT is the time of the command's
first transmission. COUNT of a chained command is a
free value: the manual does not say what XREQ carries while later packets are unread. -/
def State.transmit (s : State) (n p : Nat) : State :=
  let x := s.xc n
  let s := ((s.setJF n 0 1 2 1).setJF n 1 32 34 p).setCbF n 7 33 35 p
  let s := if x.sent then s else s.setJF n 3 0 35 (micros 36 s)
  let cnt : Nat × State := match x.packets with
    | [q] => if q.link = 2 then s.free 28 else (q.count, s)
    | _ => s.free 28
  let s := cnt.2.setXc n { x with sent := true, ready := false, path := some p, moved := 0, err := none,
                                  inb := if x.isIn then [] else x.inb }
  let s := s.chanMsg n p 1 (field x.head 6 13) (.req x.op (field x.head 19 20) cnt.1) false
  if x.isIn then s else s.sendData n p x.out (!x.more)

/-- A prepared command leaves on the exchange's path, or on one chosen under R452; with none available it waits. -/
def State.commandSend (s : State) (n : Nat) : State :=
  let x := s.xc n
  if !x.ready then s else
    match x.path with
    | some p => s.transmit n p
    | none =>
      match s.pathChoice n with
      | some p => s.transmit n p
      | none => s

/-- Translate and read packet `i` of the ring (R436, R443-R445). -/
def readPacket (n i : Nat) : U (List Word) := do
  let s ← get
  let va := ptrAddr (dword (s.cb n 2) (s.cb n 3)) + 8 * i
  let p ← uXlate (s.subCtx n) 1 0o07 va
  uWords va [p] 0 8

/-- The first bad word of a packet (R440). -/
def packetBad (ws : List Word) (begins : Bool) : Option Nat :=
  let w (i : Nat) := ws.getD i 0
  let op := field (w 0) 0 5
  let bad (i : Nat) : Bool :=
    match i with
    | 0 =>
      field (w 0) 24 35 != 0 || field (w 0) 14 15 == 3 || (begins && (field (w 0) 19 20 == 3 || decide (4 < field (w 0) 21 23))) ||
        (begins && !([0o01, 0o02, 0o03, 0o04, 0o11].contains op)) || (!begins && (op == 0o10 || dbit (w 0) 17))
    | 1 => field (w 1) 0 7 != 0
    | 4 | 5 => w i != 0
    | 6 | 7 => begins && field (w 0) 21 23 == 0 && w i != 0
    | _ => false
  (List.range 8).find? bad

/-- Fetch packet `i` of the ring and record it in PKT and RESID (R426, R434). Until its words are read its COUNT is not known:
where the read fails RESID is a free value (log entry 84). -/
def takePacket (n i : Nat) : U (List Word) := do
  modify fun s => (s.setCbF n 0 19 30 i).setXc n { s.xc n with fetched := true, noted := true }
  let ws ← try readPacket n i catch e => do
    modify fun s => (s.free 36).2.setCb n 5 (w36 (s.free 36).1)
    throw e
  modify fun s => s.setCb n 5 (w36 (field (ws.getD 1 0) 8 35))
  pure ws

/-- Fetch the packet at an index, through at most one TIC (R436-R440): the index and words of the packet found. -/
def fetchAt (n i : Nat) (begins : Bool) : U (Nat × List Word) := do
  let ws ← takePacket n i
  if begins && field (ws.getD 0 0) 0 5 == 0o10 then do
    let w1 := ws.getD 1 0
    if field (ws.getD 0 0) 24 35 ≠ 0 then throw (.program 0)
    if field w1 0 7 ≠ 0 ∨ field w1 8 23 ≠ 0 then throw (.program 1)
    let s ← get
    let t := field w1 24 35
    if s.ringSize n ≤ t then throw (.program 1)
    let vs ← takePacket n t
    if field (vs.getD 0 0) 0 5 = 0o10 then throw (.program 1)
    pure (t, vs)
  else pure (i, ws)

/-- The engines that an XF names: Calender, Varnish. -/
def xfUses (xf : Nat) : Bool × Bool := (xf == 1 || xf == 3 || xf == 4, xf == 2 || xf == 3 || xf == 4)

/-- What a fetch ends in: the exchange suspends, or a packet is added to the command with the octets of its data, up to the word
at which a format error stopped them (R442). -/
inductive Fetched where
  | suspend
  | added (data : List Octet) (bad : Option Nat)
deriving DecidableEq, Repr

/-- Fetch, check and translate the next packet of an exchange, and read its data when it goes out (R436-R446). -/
def fetchNext (n : Nat) : U Fetched := do
  let s ← get
  let x := s.xc n
  let begins := x.packets.isEmpty
  let r ← fetchAt n x.next begins
  let w (i : Nat) := r.2.getD i 0
  let s ← get
  if begins && dbit (w 0) 17 && dbit (s.cb n 0) 5 && !x.resume then pure .suspend else do
  match packetBad r.2 begins with
  | some i => throw (.program i)
  | none => do
    let head := if begins then w 0 else x.head
    let y : Xch := { x with head := head }
    let uses := xfUses y.xf
    let t := s.subVat n / 2
    let sh := s.subSheet n
    if begins && ((uses.1 && !s.rbit (calBlk t) (0o100 + sh) 0) || (uses.2 && !s.rbit (varBlk t) (0o100 + sh) 0)) then
      throw (.program 0)
    let cnt := field (w 1) 8 35
    let va := ptrAddr (dword (w 2) (w 3))
    let nw := if y.op = 0o11 then 0 else y.image.words cnt
    let c := s.subCtx n
    let pages ← if y.isIn then uPages c 2 0o06 va nw else uPages c 1 0o07 va nw
    let xpb : List Word ← (if begins && y.xf != 0 then do
        let a := ptrAddr (dword (w 6) (w 7))
        let k := if 3 ≤ y.xf then 16 else 8
        let ps ← uPages c 4 0o07 a k
        uWords a ps 0 k
      else pure x.xpb)
    let data : List Octet × Option Nat ← (if y.isIn || y.op == 0o11 then pure ([], none) else do
        let ws ← uWords va pages 0 nw
        pure (y.image.take ws cnt))
    modify fun s =>
      let pk : Pkt := { idx := r.1, count := cnt, link := field (w 0) 14 15, lenok := dbit (w 0) 16, data := va, pages := pages }
      let z := s.xc n
      let s := if begins then (s.setJF n 2 0 11 r.1).setJF n 1 35 35 (b2n (dbit (w 0) 18)) else s
      s.setXc n { z with
        packets := z.packets ++ [pk], head := head, xpb := xpb, next := (r.1 + 1) % s.ringSize n, resume := false, noted := false
        out := if y.xf = 0 then z.out ++ data.1 else z.out
        inb := if y.isIn || y.xf == 0 then z.inb else z.inb ++ data.1 }
    pure (.added data.1 data.2)

/-- Freeze a subchannel (R62, R444). -/
def State.freezeSub (s : State) (n kind sa : Nat) : State :=
  (s.freeze 2 n (s.subSheet n) kind sa).setCbF n 0 7 7 1

/-- Tell the partner to abandon the open command (R444, R445). -/
def State.abandon (s : State) (n : Nat) : State :=
  match (s.xc n).path with | some p => s.chanMsg n p 6 0 .none false | none => s

/-- A failure of a packet ends the exchange COMPLETE-ERROR; when an octet of the command has left and the rule says so, the
partner is told to abandon it and the exchange ends with its reply (R440-R445). -/
def State.chanFail (s : State) (n : Nat) (e : UErr) : State :=
  let x := s.xc n
  let put (s : State) (detail addr : Nat) : State := s.setXc n { s.xc n with detail := detail, addr := addr }
  let fin (s : State) (stat : Nat) (held mayAbandon : Bool) : State :=
    if mayAbandon && x.left then (s.setXc n { s.xc n with err := some stat }).abandon n
    else s.chanEnd n 1 stat false held
  match e with
  | .xlate code va => fin (put s code va) 0o004 false false
  | .deckle kind sa =>
    let s := s.freezeSub n kind sa
    fin (put s (s.frzIdx 2 n) sa) 0o005 true true
  | .poison sa => fin (put s 0 (sa / 16 * 16)) 0o007 false true
  | .fmt i => fin (put s i 0) 0o006 false (!x.isIn)
  | .program w => fin (put s w 0) 0o003 false false

/-- Apply the transforms of a command as inline jobs of its tile's engines, or their inverses in reverse order, over its octets (R446, R518, R542): the octets, or
the job status that stopped it. A job waits while its engine is in reset or the sheet's queue there is frozen, as a queued one
does (R521, R543), and a failed read of the IV is that job's failure. -/
def transform (n : Nat) (outward : Bool) (x : Xch) (os : List Octet) (room : Nat) : U (Except Nat (List Octet)) := do
  let s ← get
  let t := s.subVat n / 2
  let sh := s.subSheet n
  let blkOf (i : Nat) : List Word := (x.xpb.drop (8 * i)).take 8
  let cal (blk : List Word) (os : List Octet) : U (Except Nat (List Octet)) :=
    if s.inReset.contains (calBlk t) || s.calFrz t sh then uWait else
    pure (calInline blk (!outward) (s.rbit (calBlk t) 0 0) x.image os room)
  let cip (blk : List Word) (os : List Octet) : U (Except Nat (List Octet)) := do
    if s.inReset.contains (varBlk t) || s.rbit (varBlk t) (0o100 + sh) 15 then uWait else
    let o := cipOpt (blk.getD 0 0)
    let iv ← uStream (s.subCtx n) 0o10 (ptrAddr (dword (blk.getD 2 0) (blk.getD 3 0))) (o.img.words o.ivlen)
    let im := o.img.take iv.1 o.ivlen
    let s ← get
    match (match im.2 with | some i => some (UErr.fmt i) | none => iv.2) with
    | some e =>
      let f := s.engineFail true t sh e
      set f.2.2
      pure (.error f.1)
    | none => pure (s.cipInline t sh blk outward im.1 os room)
  let stages : List (List Octet → U (Except Nat (List Octet))) := match x.xf with
    | 1 => [cal (blkOf 0)]
    | 2 => [cip (blkOf 0)]
    | 3 => [cal (blkOf 0), cip (blkOf 1)]
    | 4 => [cip (blkOf 0), cal (blkOf 1)]
    | _ => []
  (if outward then stages else stages.reverse).foldlM (fun (a : Except Nat (List Octet)) f =>
    match a with | .ok os => f os | .error e => pure (.error e)) (.ok os)

/-- Run a unit action of an exchange; a failure ends the exchange; a busy line leaves everything as it was. -/
def State.chanRun (s : State) (n : Nat) (f : U Unit) : State :=
  match f.run s with
  | none => s
  | some (.ok _, s) => s
  | some (.error e, s) => s.chanFail n e

/-- An exchange that may fetch: ACTIVE with a slot, its vat out of reset, no error to report, and packets to fetch (R436). -/
def State.mayFetch (s : State) (n : Nat) : Bool :=
  let x := s.xc n
  s.subSt n == 2 && !s.inReset.contains (vatBlk (s.subVat n)) && x.err.isNone && x.more

/-- The vat fetches the next packet, and sends what is ready to leave (R436, R441, R446, R451). -/
def State.packetFetch (s : State) (n : Nat) : State :=
  if !s.mayFetch n then s else
  s.chanRun n (do
    let f ← fetchNext n
    match f with
    | .suspend => modify fun s => s.chanEnd n 0 0 true false
    | .added data (some i) => do
      let s ← get
      let x := s.xc n
      if x.xf = 0 then
        if x.sent then set (match x.path with | some p => s.sendData n p data false | none => s)
        else set ((s.setXc n { x with ready := true }).commandSend n)
      throw (.fmt i)
    | .added data none => do
      let s ← get
      let x := s.xc n
      if x.isIn then
        if x.sent then pure ()
        else set ((s.setXc n { x with ready := true }).commandSend n)
      else if x.xf = 0 then
        if x.sent then set (match x.path with | some p => s.sendData n p data (!x.more) | none => s)
        else set ((s.setXc n { x with ready := true }).commandSend n)
      else if x.more then pure ()
      else do
        let r ← transform n true x x.inb (2 ^ 28)
        modify fun s => match r with
          | .ok os => (s.setXc n { s.xc n with out := os, ready := true }).commandSend n
          | .error st => (s.setXc n { s.xc n with detail := st }).chanEnd n 1 0o010 false false)

/-- Fetch the packets of the open command that are still to come, without sending their data. -/
def fetchRest (fuel n : Nat) : U Unit :=
  match fuel with
  | 0 => pure ()
  | f + 1 => do
    let s ← get
    if (s.xc n).more then do
      let _ ← fetchNext n
      fetchRest f n
    else pure ()

/-- Fetch packets of a READ or SENSE until they hold `total` octets, or the command has no more. -/
def fetchRoom (fuel n total : Nat) : U Unit :=
  match fuel with
  | 0 => pure ()
  | f + 1 => do
    let s ← get
    let x := s.xc n
    if x.more && decide (((x.packets.map (·.count)).sum) < total) then do
      let _ ← fetchNext n
      fetchRoom f n total
    else pure ()

/-- Write to the packets of a command the words that octets `from_` to `from_ + new` complete, given all octets so far (R439,
R442, R85, R86). -/
def fillPackets (x : Xch) (all : List Octet) (from_ : Nat) (last : Bool) : U Unit :=
  (x.packets.zipIdx).forM fun q => do
    let base := ((x.packets.take q.2).map (·.count)).sum
    let have_ := Nat.min q.1.count (all.length - base)
    let had := Nat.min q.1.count (from_ - base)
    if have_ ≤ had then pure () else do
    let os := (all.drop base).take have_
    let ws := x.image.toWords os
    let lo := x.image.full had
    let hi := if have_ = q.1.count ∨ last then x.image.words have_ else x.image.full have_
    let upto := match ws.2 with | some i => Nat.min i hi | none => hi
    uStore q.1.data q.1.pages lo ((ws.1.take upto).drop lo)
    match ws.2 with
    | some i => if i < hi then throw (.fmt i) else pure ()
    | none => pure ()

/-- Write as poison the lines that octets of a command touch (R445). -/
def poisonPackets (x : Xch) (from_ upto : Nat) : U (Option Nat) :=
  (x.packets.zipIdx).foldlM (fun (a : Option Nat) q => do
    let base := ((x.packets.take q.2).map (·.count)).sum
    let lo := Nat.min q.1.count (from_ - base)
    let hi := Nat.min q.1.count (upto - base)
    if hi ≤ lo then pure a else do
    let i := x.image.full lo
    uPoison q.1.data q.1.pages i (x.image.words hi - i)
    pure (match a with | some v => some v | none => some (areaAt q.1.data q.1.pages i).2)) none

/-- The exchange that a received message names: open on this link, with this GEN and CSEQ. -/
def State.openFor (s : State) (m : FeltHdr) (sts : List Nat) : Bool :=
  let n := m.xid.val
  let x := s.xc n
  s.subV n && sts.contains (s.subSt n) && x.sent && s.subGen n == m.gen.val && s.cseqOf n == m.cseq.val &&
    (match x.path with | some p => s.pathLink n p == (linkNo m.link) | none => false) &&
    !s.inReset.contains (vatBlk (s.subVat n))

/-- Inbound data was poisoned: STAT POISON after the acknowledgement, with ADDR the first line so written (R445). -/
def Xch.noteWrong (x : Xch) (n addr : Nat) (s : State) : State :=
  if x.err.isSome then s else s.setXc n { x with err := some 0o007, addr := addr }

/-- Inbound data (R439, R442, R445, R446, R477). -/
def State.xdataIn (s : State) (m : FeltHdr) (os : List Octet) (last poison : Bool) : State :=
  let n := m.xid.val
  if !s.openFor m [2, 4] || !(s.xc n).isIn || !((s.xc n).err.getD 7 == 7) then s else
  s.chanRun n (do
    let s ← get
    let x0 := s.xc n
    let from_ := x0.inb.length
    let all := x0.inb ++ os
    if x0.xf = 0 then do
      fetchRoom 4096 n all.length
      let s ← get
      let x := s.xc n
      set (s.setXc n { x with inb := all, moved := all.length })
      if poison then do
        let a ← poisonPackets x from_ all.length
        modify fun s => (s.xc n).noteWrong n ((a.getD 0) / 16 * 16) s
      else fillPackets x all from_ last
    else if x0.err.isSome then pure ()
    else do
      set (s.setXc n { x0 with inb := all })
      if poison then do
        fetchRest 4096 n
        let s ← get
        let x := s.xc n
        let a ← poisonPackets x 0 ((x.packets.map (·.count)).sum)
        modify fun s => (s.xc n).noteWrong n ((a.getD 0) / 16 * 16) s
      else if last then do
        fetchRest 4096 n
        let s ← get
        let x := s.xc n
        let r ← transform n false x all ((x.packets.map (·.count)).sum)
        match r with
        | .error st => modify fun s => (s.setXc n { s.xc n with detail := st }).chanEnd n 1 0o010 false false
        | .ok mem => do
          fillPackets x mem 0 true
          modify fun s => s.setXc n { s.xc n with moved := mem.length }
      else pure ())

/-- The next command of an exchange: the journal advances before anything is sent (R447, R450). -/
def State.advance (s : State) (n : Nat) : State :=
  let x := s.xc n
  let s := (s.setJF n 1 20 31 ((s.cseqOf n + 1) % 4096)).setJF n 2 0 11 x.next
  s.setXc n { x with packets := [], out := [], inb := [], moved := 0, sent := false, ready := false, left := false, redrive := 0 }

/-- What is known of the open command when an exchange is resolved (R457). -/
inductive Acted where
  | ok | error (status dstat : Nat) | no | unknown
deriving DecidableEq, Repr

/-- An exchange being halted, cleared or reset ends by what is known of its open command, or by the journal alone when none is
open (R457). RESID of a packet that did not act is its COUNT, a free value where the vat has not read that packet (log entry
84). -/
def State.resolve (s : State) (n : Nat) (a : Acted) : State :=
  let x := s.xc n
  let setPkt (s : State) (i : Nat) : State :=
    let f := match x.packets.find? (·.idx == i) with | some p => (p.count, s) | none => s.free 36
    ((f.2.setCbF n 0 19 30 i).setCb n 5 (w36 f.1)).setXc n { x with packets := [] }
  if !x.sent then
    if s.cseqOf n = 0 then s.chanEnd n 2 x.cause false false
    else (setPkt s (if x.packets.isEmpty then x.next else s.jF n 2 0 11)).chanEnd n 1 x.cause false false
  else
    match a with
    | .unknown => s.chanEnd n 3 x.cause false false
    | .ok =>
      match x.packets.getLast? with
      | some p => if p.link = 0 then s.chanEnd n 0 0 false false else (setPkt s x.next).chanEnd n 1 x.cause false false
      | none => s.chanEnd n 1 x.cause false false
    | .error st ds => (s.setXc n { x with dstat := if ds = 0 then st else ds }).chanEnd n 1 1 false false
    | .no =>
      if s.cseqOf n = 0 then s.chanEnd n 2 x.cause false false
      else (setPkt s (s.jF n 2 0 11)).chanEnd n 1 x.cause false false

/-- An acknowledgement arrives (R439, R445, R451, R478). -/
def State.xackIn (s : State) (m : FeltHdr) (status dstat moved : Nat) : State :=
  let n := m.xid.val
  if !s.openFor m [2, 4, 5] then s else
  let x := s.xc n
  let all := if x.xf = 0 then moved else x.moved
  if s.subSt n ≠ 2 then
    (s.setXc n { x with dstat := dstat, moved := all }).resolve n (if status = 0 then .ok else .error status dstat)
  else match x.err with
  | some st => (s.setXc n { x with dstat := dstat, moved := all }).chanEnd n 1 st false (st == 0o005)
  | none =>
    if status ≠ 0 then
      let s := s.setXc n { x with dstat := if dstat = 0 then status else dstat, moved := if x.xf = 0 then moved else x.moved }
      let ver := match x.path with | some p => s.pathVer n p | none => 0
      let rej := x.op == 0o04 && field x.head 6 13 == 0o376 && ver == 1
      s.chanEnd n 1 (if rej then 0o015 else 1) false false
    else
      s.chanRun n (do
        modify fun s => s.setXc n { s.xc n with
          dstat := dstat, moved := if x.xf = 0 then moved else if x.isIn then x.moved else x.inb.length }
        fetchRest 4096 n
        modify fun s =>
          let x := s.xc n
          let want := (x.packets.map (·.count)).sum
          match x.packets.getLast? with
          | none => s
          | some p =>
            if x.moved ≠ want ∧ p.lenok = false then s.chanEnd n 1 2 false false
            else if p.link = 1 then s.advance n
            else s.chanEnd n 0 0 false false)

/-- Re-drive the open command on another path (R454, R455): the ninth failure of one command ends the exchange. -/
def State.redriveOn (s : State) (n p : Nat) : State :=
  let x := s.xc n
  if 8 ≤ x.redrive then s.chanEnd n 3 0o014 false false else
  let s := s.count (vatBlk (s.subVat n)) 2 0 35
  let s := s.fault (vatBlk (s.subVat n)) 1 (w36 n)
  let s := s.setXc n { x with redrive := x.redrive + 1, redrives := satInc 9 x.redrives, sent := true }
  (s.setSubSt n 2).transmit n p

/-- What R454 does with an exchange whose path has failed, or whose vat restarted, given VER of the path last used. -/
def State.afterFailure (s : State) (n ver : Nat) : State :=
  let x := s.xc n
  if !x.sent then
    match s.pathChoice n with
    | some _ => (s.setXc n { x with path := none }).commandSend n
    | none => if s.phaseOf n = 0 then s.chanEnd n 2 0o013 false false else s.setXc n { x with path := none }
  else if ver = 1 ∧ s.jF n 1 35 35 = 0 then s.chanEnd n 3 0o014 false false
  else
    match s.pathChoice n with
    | some p => s.redriveOn n p
    | none => ((s.setSubSt n 6).setJF n 0 1 2 2).setXc n { x with path := none }

/-- The path of an exchange fails (R453, R454). A command that the partner was told to abandon is not sent again: the exchange
ends with its error, without the partner's reply (log entry 85). -/
def State.pathFail (s : State) (n : Nat) : State :=
  let x := s.xc n
  if s.subSt n ≠ 2 then s else
    match x.path with
    | none => s
    | some p =>
      let v := s.pathVer n p
      let s := s.setPst n p 3
      match x.err with
      | some st => if st = 7 ∧ x.isIn = true then s.afterFailure n v else s.chanEnd n 1 st false (st == 0o005)
      | none => s.afterFailure n v

/-- No acknowledgement arrives within 2^TMO ms (R453). -/
def State.ackTimeout (s : State) (n : Nat) : State :=
  if s.subSt n = 2 ∧ (s.xc n).sent = true ∧ s.subV n = true then s.pathFail n else s

/-- No path of LPM becomes available within 2^TMO ms: a path failure with no path left (R452), which in an exchange that has
sent a command leads to RESOLVING and its own wait (R454). -/
def State.pathWaitTimeout (s : State) (n : Nat) : State :=
  let x := s.xc n
  if (s.pathChoice n).isSome then s
  else if s.subSt n = 6 then s.chanEnd n 3 0o013 false false
  else if s.subSt n = 2 ∧ x.ready = true ∧ x.path.isNone = true then
    if s.phaseOf n = 0 then s.chanEnd n 2 0o013 false false
    else (s.setSubSt n 6).setJF n 0 1 2 2
  else s

/-- Subchannels whose exchange is under way, by number. -/
def State.exchanges (s : State) : List Nat := s.xch.map (·.1)

/-- A link goes down: exchanges with a command open on it take R454; others give up the path (R453). -/
def State.linkLost (s : State) (l : Nat) : State :=
  s.exchanges.foldl (fun s n =>
    let x := s.xc n
    match x.path with
    | some p => if s.subV n && s.pathLink n p == l && s.subSt n == 2 then
        (if x.sent then s.pathFail n else s.setXc n { x with path := none })
      else s
    | none => s) s

/-- A path has become available: commands that wait for one leave, and a resolving exchange re-drives (R452, R454). -/
def State.pathWake (s : State) (n : Nat) : State :=
  if s.subSt n = 6 then
    match s.pathChoice n with
    | some p => if (s.xc n).sent then s.redriveOn n p else (s.setSubSt n 2).commandSend n
    | none => s
  else if s.subSt n = 2 then s.commandSend n else s

/-- Every path word that names a link follows its state (R428): available and VER when up, not available when down. A failed
path of a link that has stayed up stays failed until the link comes up anew. -/
def State.pathWords (s : State) (l : Nat) (up came : Bool) (ver : Nat) : State :=
  (s.validSubs fun _ => true).foldl (fun s n =>
    (List.range 8).foldl (fun s i =>
      if s.pathLink n i = l ∧ s.pst n i ≠ 0 ∧ (came || !up || s.pst n i != 3) = true then
        (s.setPst n i (if up then 1 else 2)).setCbF n (8 + i) 8 9 ver
      else s) s) s

/-- Subchannels that some valid DECKLE_SUBCH gives to a sheet. -/
def State.subsOf (s : State) (sh : Nat) : List Nat := s.validSubs (· == sh)

/-- A waiting subchannel receives the lowest free exchange slot of a vat, and its journal entry is written (R425, R447, R450; log
entry 83). -/
def State.slotGrant (s : State) (v : Nat) : State :=
  if s.inReset.contains (vatBlk v) then s else
  match Tab.get (fun _ => []) s.vatWait v, (List.range 1024).find? fun x => !dbit (s.jw v x 0) 0 with
  | n :: rest, some x =>
    let s : State := { s with vatWait := Tab.set (fun _ => []) s.vatWait v rest }
    let s := (s.setCbF n 6 20 29 x).setSubSt n 2
    let w0 := setField (setField (0 : Word) 0 0 1) 3 18 n
    let s := s.setEasel (v / 2) (jAt v x 0) w0
    let s := s.setEasel (v / 2) (jAt v x 1) (setField (0 : Word) 0 19 (s.subGen n))
    let s := s.setEasel (v / 2) (jAt v x 2) (setField (0 : Word) 0 11 (s.cbF n 4 4 15))
    s.setEasel (v / 2) (jAt v x 3) 0
  | _, _ => s

/-- Accept SSCH (with its request block) or RSCH (R432). -/
def State.startExchange (s : State) (c n : Nat) (rb : Option (List Word)) : State :=
  let s := if s.cbF n 6 34 34 = 1 then s.setCbF n 6 0 19 ((s.subGen n + 1) % 2 ^ 20) else s
  let s := s.setCbF n 6 34 34 0
  let s := match rb with
    | none => s
    | some ws =>
      let w (i : Nat) := ws.getD i 0
      let s := ((s.setCb n 1 (w 3)).setCb n 2 (w 0)).setCb n 3 (w 1)
      let s := (s.setCbF n 4 0 3 (field (w 2) 0 3)).setCbF n 4 4 15 (field (w 2) 4 15)
      ((s.setCbF n 0 5 5 (field (w 2) 16 16)).setCbF n 7 25 32 (field (w 2) 17 24)).setCbF n 6 30 33 (field (w 4) 0 3)
  let x := s.capture c (s.subVat n / 2)
  let s := (s.setCbF n 4 16 23 c).setCbF n 4 24 35 x.asn
  let s := ((s.setCbF n 7 0 22 x.org).setCbF n 7 23 23 (b2n x.dat)).setCbF n 7 24 24 (b2n x.prob)
  let s := (((s.setCbF n 0 9 10 0).setCbF n 0 11 18 0).setCbF n 0 31 31 0).setCb n 5 0
  let s := (s.setSubSt n 1).setXc n { xchReset with next := s.cbF n 4 4 15, resume := rb.isNone, xchFlag := true }
  let v := s.subVat n
  { s with vatWait := Tab.set (fun _ => []) s.vatWait v (Tab.get (fun _ => []) s.vatWait v ++ [n]) }

/-- A request block breaks R431. -/
def requestBad (ws : List Word) : Bool :=
  let w (i : Nat) := ws.getD i 0
  let rlog := field (w 2) 0 3
  field (w 2) 25 35 != 0 || field (w 4) 4 35 != 0 || w 5 != 0 || w 6 != 0 || w 7 != 0 || decide (12 < rlog) ||
    decide (2 ^ rlog ≤ field (w 2) 4 15) || field (w 2) 17 24 == 0 || ptrAddr (dword (w 0) (w 1)) % 8 != 0

/-- A move of the subchannel is not done (R424). -/
def State.moving (s : State) (n : Nat) : Bool := s.moves.any fun x => x.1 == n

/-- SSCH at the vat (R430). -/
def State.sschVat (s : State) (c n : Nat) (rb : List Word) : Nat × State :=
  let lpm := field (rb.getD 2 0) 17 24
  let noPath := (List.range 8).all fun i => !(lpm.testBit (7 - i) && s.pst n i != 0)
  if !dbit (s.cb n 0) 4 || s.subFrz n || noPath then (3, s)
  else if s.subSp n then (2, s)
  else if s.subSt n ≠ 0 ∨ s.moving n = true then (1, s)
  else (0, s.startExchange c n (some rb))

/-- RSCH at the vat (R430). -/
def State.rschVat (s : State) (c n : Nat) : Nat × State :=
  if s.subSt n = 0 ∨ dbit (s.cb n 0) 4 = false ∨ s.subFrz n = true then (3, s)
  else if s.subSp n then (2, s)
  else if s.subSt n ≠ 3 ∨ s.moving n = true then (1, s)
  else (0, s.startExchange c n none)

/-- The interruption response block (R434). -/
def State.irb (s : State) (n : Nat) (clears : Bool) : List Word :=
  let x := s.xc n
  let w0 := setField (setField (setField (0 : Word) 0 1 (s.cbF n 0 9 10)) 2 2 (b2n x.xchFlag)) 3 3 (s.cbF n 0 31 31)
  let w0 := setField (setField (setField w0 4 4 (b2n x.halted)) 5 5 (b2n x.cleared)) 6 6 (b2n clears)
  let w0 := setField (setField (setField w0 8 15 (s.cbF n 0 11 18)) 18 29 (s.cbF n 0 19 30)) 30 32 (s.cbF n 7 33 35)
  [w0, s.cb n 1, s.cb n 5, setField (setField (0 : Word) 0 19 (s.subGen n)) 20 35 x.dstat, w36 x.detail,
   w36 (x.addr / 2 ^ 36 % 2 ^ 18), w36 x.addr, setField (0 : Word) 0 8 x.redrives]

/-- TSCH at the vat: the IRB and the condition code (R430, R434, R435). -/
def State.tschVat (s : State) (n : Nat) : Nat × List Word × State :=
  if s.subSp n && !dbit (s.cb n 0) 8 then (0, s.irb n true, (s.setCbF n 0 6 6 0).withdrawIo n)
  else (2, s.irb n false, s)

/-- Halt or clear the exchange of a subchannel (R447): `code` is the STAT, 0o011 or 0o012, and the message type follows it. -/
def State.stopExchange (s : State) (n code : Nat) (clear : Bool) : State :=
  let x := s.xc n
  let y : Xch := { x with halted := x.halted || !clear, cleared := x.cleared || clear, cause := code }
  match s.subSt n with
  | 1 => (s.setXc n y).chanEnd n 2 code false false
  | 0 | 3 =>
    let z : Xch := { xchReset with halted := !clear, cleared := clear }
    (((s.setXc n z).setSubSt n 0).setCbF n 0 6 6 1).ioIrq n
  | _ =>
    let s := (s.setXc n y).setSubSt n (if clear then 5 else 4)
    match x.path with
    | some p => s.chanMsg n p (if clear then 5 else 4) 0 .none false
    | none => s

/-- HSCH at the vat (R430). -/
def State.hschVat (s : State) (n : Nat) : Nat × State :=
  if s.subFrz n then (3, s) else if s.subSp n then (2, s)
  else if s.subSt n = 4 ∨ s.subSt n = 5 then (1, s) else (0, s.stopExchange n 0o011 false)

/-- CSCH at the vat (R430). -/
def State.cschVat (s : State) (n : Nat) : Nat × State :=
  if s.subFrz n then (3, s) else if s.subSp n then (2, s)
  else if s.subSt n = 5 then (1, s) else (0, s.stopExchange n 0o012 true)

/-- The subchannel record (R433). -/
def State.subRecord (s : State) (n : Nat) : List Word :=
  let w0 := setField (setField (0 : Word) 0 0 (s.cbF n 0 4 4)) 4 7 (s.subSt n)
  let w0 := setField (setField (setField w0 8 8 (b2n (s.subSp n))) 9 9 (b2n (s.subFrz n))) 10 10 (s.cbF n 0 8 8)
  let w0 := setField w0 11 14 (s.subVat n)
  let w1 := setField (setField (0 : Word) 0 19 (s.subGen n)) 20 29 (s.cbF n 6 20 29)
  [w0, w1, s.reg (vatBlk (s.subVat n)) 1, 0, 0, 0, 0, 0] ++ (List.range 8).map fun i => s.pathW n i

/-- A LINK value that a sheet may install: not installed, or the lowest lane of a felt link of a group it owns or shares (R433). -/
def State.linkOk (s : State) (sh l : Nat) : Bool :=
  l == 0o377 || (decide (l < 144) && s.isFelt l && s.startsAt l && s.groupHas l sh)

/-- A subchannel record breaks R433. -/
def State.recordBad (s : State) (sh : Nat) (ws : List Word) : Bool :=
  let w (i : Nat) := ws.getD i 0
  field (w 0) 1 3 != 0 || field (w 0) 15 35 != 0 || field (w 1) 30 35 != 0 || (List.range 5).any (fun i => w (3 + i) != 0) ||
    (List.range 8).any fun i =>
      field (w (8 + i)) 12 17 != 0 || field (w (8 + i)) 34 35 != 0 || !s.linkOk sh (field (w (8 + i)) 0 7)

/-- MSCH at the vat (R430, R433). -/
def State.mschVat (s : State) (n : Nat) (ws : List Word) : Nat × State :=
  if s.subFrz n then (3, s) else if s.subSp n then (2, s) else if s.subSt n ≠ 0 then (1, s) else
  let s := s.setCbF n 0 4 4 (field (ws.getD 0 0) 0 0)
  let one (s : State) (i : Nat) : State :=
    let w := ws.getD (8 + i) 0
    let l := field w 0 7
    let old := s.pathW n i
    let keep := field old 0 7 == l && l != 0o377
    let ver := if l = 0o377 then 0 else if keep then field old 8 9 else s.lver l
    let pst := if l = 0o377 then 0 else if keep then field old 10 11 else if s.linkUp l then 1 else 2
    s.setCb n (8 + i) (setField (setField (setField (setField (0 : Word) 0 7 l) 8 9 ver) 10 11 pst) 18 33 (field w 18 33))
  (0, (List.range 8).foldl one s)

/-- A halt or clear receives no answer in time (R457): the partner is asked for its record, and at the second time, or with a
partner that keeps none, the exchange ends. -/
def State.haltTimeout (s : State) (n : Nat) : State :=
  if s.subSt n ≠ 4 ∧ s.subSt n ≠ 5 then s else
  let x := s.xc n
  let ver := match x.path with | some p => s.pathVer n p | none => 0
  match s.pathChoice n with
  | some p =>
    if x.sent && !x.queried && decide (2 ≤ ver) then
      (s.setXc n { x with queried := true, path := some p }).chanMsg n p 7 0 .none false
    else s.resolve n .unknown
  | none => s.resolve n .unknown

/-- The partner's record of an exchange arrives (R456, R457). -/
def State.recordIn (s : State) (m : FeltHdr) (found : Bool) (lastGen high status : Nat) : State :=
  let n := m.xid.val
  let x := s.xc n
  if !(s.subV n && (s.subSt n == 4 || s.subSt n == 5) && x.queried && s.subGen n == m.gen.val) then s else
  if found && lastGen == s.subGen n && decide (s.cseqOf n ≤ high) then
    s.resolve n (if status = 0 then .ok else .error status 0)
  else s.resolve n .no

/-- An exchange ended by the module as if by CSCH: quietly, with a STAT and DETAIL (R458). -/
def State.clearQuiet (s : State) (n stat detail : Nat) : State :=
  let st := s.subSt n
  let s := s.setCbF n 0 8 8 0
  if st = 0 ∨ st = 3 then s else
  let x := s.xc n
  let y : Xch := { x with quiet := true, cause := stat, detail := detail, queried := false }
  if st = 1 then (s.setXc n y).chanEnd n 2 stat false false else
  let s := (s.setXc n y).setSubSt n 5
  match x.path with
  | some p => s.chanMsg n p 5 0 .none false
  | none => s

/-- Every exchange of a sheet is ended so, and no interruption of it stays pending (R458). -/
def State.clearSheetIo (s : State) (sh stat detail : Nat) : State :=
  (s.subsOf sh).foldl (fun s n => (s.clearQuiet n stat detail).withdrawIo n) s

/-- Release a frozen subchannel: its journal entry and slot are freed, DELIVER makes its held interruption pending, DISCARD drops
it (R62, R67). -/
def State.releaseSub (s : State) (n : Nat) (deliver : Bool) : State :=
  let held := dbit (s.cb n 0) 8
  let s := if s.subSt n = 0 ∧ s.jF n 0 0 0 = 1 ∧ s.jF n 0 3 18 = n then s.freeSlot n else s
  let s := (s.setCbF n 0 7 7 0).setCbF n 0 8 8 0
  if deliver && held && s.subSp n then s.ioIrq n else s

/-- The idle subchannel's control block goes to its new vat and slot (R424). -/
def State.moveSub (s : State) (n : Nat) : State :=
  match s.moves.find? fun x => x.1 == n with
  | none => s
  | some (_, v, k) =>
    if s.subSt n ≠ 0 ∧ s.subSt n ≠ 3 then s else
    let v2 := s.fld .deckle (subAt n) 7 10
    let k2 := s.fld .deckle (subAt n) 23 35
    let s := (List.range 16).foldl (fun s w => s.setEasel (v2 / 2) (cbAt k2 w) (s.easelWord (v / 2) (cbAt k w))) s
    { s with moves := s.moves.filter fun x => x.1 != n }

/-- A vat that leaves reset continues each exchange of its journal (R458). -/
def State.vatRestart (s : State) (v : Nat) : State :=
  if s.inReset.contains (vatBlk v) then s else
  (List.range 1024).foldl (fun s x =>
    let w := s.jw v x 0
    if !dbit w 0 then s else
      let n := field w 3 18
      let k := s.xc n
      if s.subSt n ≠ 2 then s else
      match field w 1 2 with
      | 0 => if k.ready then (s.setXc n { k with path := none }).commandSend n else s
      | _ => if k.sent then
          s.afterFailure n (match k.path with | some p => s.pathVer n p | none => 0)
        else s) s

/-- An exchange of a subchannel ends for an Easel error (R459): resolved under R457 with STAT EASEL. -/
def State.easelEnd (s : State) (n : Nat) : State :=
  match s.subSt n with
  | 0 | 3 => s
  | _ =>
    let x := s.xc n
    let s := s.setXc n { x with cause := 0o016 }
    if s.subSt n = 1 then s.chanEnd n 2 0o016 false false else
    let s := s.setSubSt n 5
    match x.path with
    | some p => s.chanMsg n p 5 0 .none false
    | none => s

/-- An uncorrectable error in a vat's control block or journal (R459); elsewhere it is only returned. -/
def State.easelCtl (s : State) (t e : Nat) : State :=
  if 0o10000000 ≤ e ∧ e < 0o10400000 then
    let slot := (e - 0o10000000) / 16
    match (s.validSubs fun _ => true).find? fun n => let l := s.subLoc n; l.1 / 2 == t && l.2 == slot with
    | none => s
    | some n =>
      let s := s.fault (vatBlk (s.subVat n)) 0 (w36 n)
      let s := (s.easelEnd n).setCbF n 0 4 4 0
      (List.range 8).foldl (fun s i => s.setCb n (8 + i) (w36 (0o377 * 2 ^ 28))) s
  else if 0o10400000 ≤ e ∧ e < 0o10440000 then
    let i := (e - 0o10400000) / 8
    let v := 2 * t + i / 1024
    let w := s.jw v (i % 1024) 0
    if dbit w 0 then
      let n := field w 3 18
      (s.fault (vatBlk v) 0 (w36 n)).easelEnd n
    else s
  else s

end Sys2Proof.Machine
end

