-- ==== Sys2Proof/Machine/Links.lean ====
section
/-! DEFINITION. The felt links as they train, carry flits, sleep, degrade and go down (R467, R472-R485), the PATH notice (R486,
R487), and the module as recipient on group C: inbound windows and exchange records (R489-R492). -/

namespace Sys2Proof.Machine

open Sys2Proof

/-- Number `n` is the first lane of a felt link (R463). -/
def State.isLink (s : State) (n : Nat) : Bool := s.isFelt n && s.startsAt n

/-- The IDENTIFY that the module sends (R481). -/
def State.identifyOut (s : State) (n : Nat) : List Word :=
  let w0 := setField (setField (setField (setField (0 : Word) 0 8 1) 9 11 1) 12 14 7) 18 26 (s.lwidth n)
  let caps := setField (setField (0 : Word) 0 1 3) 2 2 (b2n (laneGroup n == 2))
  [w0, dhi Config.serial, dlo Config.serial, s.session, caps, setField (setField (0 : Word) 0 17 32) 18 35 256,
   setField (setField (0 : Word) 0 17 32) 18 35 64, setField (0 : Word) 0 12 4096]

/-- Send a CTRL flit, which takes its place in the stream (R466, R481). -/
def State.ctrlOut (s : State) (n kind : Nat) (body : List Word) : State :=
  (s.setLnk n { s.lnk n with txFlit := (s.lnk n).txFlit + 1 }).emit (.ctrl n kind body)

/-- A CTRL flit of an up link has been taken from its lane in turn (R466). -/
def State.ctrlIn (s : State) (n : Nat) : State :=
  if s.lstate n == 5 then s.setLnk n { s.lnk n with rxFlit := (s.lnk n).rxFlit + 1 } else s

/-- Entry into DETECT clears LANEF (R467, R479). -/
def State.toDetect (s : State) (n : Nat) : State := (s.setLstate n 1).setFld (linkBlk n) (lstatAt n) 19 26 0

/-- The replay buffer, the messages waiting and the unacknowledged inbound flits are discarded; what is remembered of the
partner stays (R474, R483, R485). -/
def State.linkClear (s : State) (n : Nat) : State :=
  let k := s.lnk n
  s.setLnk n { linkReset with
    rate := k.rate, serial := k.serial, session := k.session, seen := k.seen, changed := k.changed, cameUp := k.cameUp }

/-- An up link goes down for a cause: DETECT, or DISABLED for CONFIG and RESET, or ALIGN for DEGRADE (R467, R485); the
exchanges it served take R454. -/
def State.linkDown (s : State) (n cause : Nat) : State :=
  if !s.linkUp n then s else
  let s := if cause = 6 ∨ cause = 7 then s.setLstate n 0 else if cause = 8 then s.setLstate n 3 else s.toDetect n
  let s := (s.setFld (linkBlk n) (lstatAt n) 15 18 cause).linkClear n
  let f := s.free 36
  (f.2.fault (linkBlk n) 0 (w36 f.1)).linkLost n

/-- A link is held DISABLED: with EN 0, by a commit, or by a reset (R479). -/
def State.linkDisable (s : State) (n cause : Nat) : State :=
  if s.linkUp n then s.linkDown n cause else s.setLstate n 0

/-- A DISABLED link whose EN is 1 and whose group is out of reset enters DETECT (R479). -/
def State.linkRelease (s : State) (n : Nat) : State :=
  if s.isLink n && s.lstate n == 0 && s.rbit (linkBlk n) (0o40 + laneIdx n) 2 && !s.inReset.contains (linkBlk n) then s.toDetect n else s

/-- A write of EN (R479, R495). -/
def State.linkEn (s : State) (n : Nat) (en : Bool) : State :=
  if !s.isLink n then s else
  let s := s.setFld (linkBlk n) (0o40 + laneIdx n) 2 2 (b2n en)
  if en then s.linkRelease n else s.linkDisable n 6

/-- DETECT looks for a partner; training starts at the highest rate allowed (R479, R480). -/
def State.detectPoll (s : State) (n : Nat) (found : Bool) : State :=
  if s.isLink n && s.lstate n == 1 && found then
    let r := s.fld (linkBlk n) (0o40 + laneIdx n) 0 1
    ((s.setLnk n { s.lnk n with rate := if r = 3 then 0 else r }).setLstate n 2).setFld (linkBlk n) (lstatAt n) 4 7 (s.linkWidth n)
  else s

/-- TRAIN, ALIGN or IDENT times out (R479, R480). -/
def State.trainTimeout (s : State) (n : Nat) : State :=
  if !s.isLink n then s else
  match s.lstate n with
  | 2 =>
    let k := s.lnk n
    if s.fld (linkBlk n) (0o40 + laneIdx n) 0 1 = 3 ∧ k.rate < 2 then s.setLnk n { k with rate := k.rate + 1 } else s.toDetect n
  | 3 | 4 => s.toDetect n
  | _ => s

/-- Equalisation or alignment of a felt link completes (R479); IDENTIFY leaves on entry to IDENT (R481). -/
def State.trainDone (s : State) (n : Nat) : State :=
  if !s.isLink n then s else
  match s.lstate n with
  | 2 => (s.setFld (linkBlk n) (lstatAt n) 8 9 (s.lnk n).rate).setLstate n 3
  | 3 => let s := s.setLstate n 4; s.ctrlOut n 1 (s.identifyOut n)
  | _ => s

/-- First word of record table `p`, in the Easel of tile `p` (R491). -/
def recBase (p : Nat) : Nat := p * 2 ^ 22 + 0o11000000

/-- The record table of a partner serial number. -/
def State.recOf (s : State) (serial : DWord) : Option Nat :=
  (List.range 8).find? fun p => match Tab.get (fun _ => none) s.recTabs p with | some x => x.1 == serial | none => false

/-- Assign a record table to a partner that arrives on group C, the lowest free one, and clear it when the partner comes with a
new session; none when eight partners hold them all (R489, R491). -/
def State.recAssign (s : State) (serial : DWord) (session : Word) : Option State :=
  let put (s : State) (p : Nat) (old : Option Word) : State :=
    { s with recTabs := Tab.set (fun _ => none) s.recTabs p (some (serial, session, old)) }
  let clear (s : State) (p : Nat) : State :=
    { s with easel := s.easel.filter fun e => !decide (recBase p ≤ e.1 ∧ e.1 < recBase p + 65536) }
  match s.recOf serial with
  | some p =>
    match Tab.get (fun _ => none) s.recTabs p with
    | some (_, was, _) => some (if was = session then s else put (clear s p) p (some was))
    | none => none
  | none => ((List.range 8).find? fun p => (Tab.get (fun _ => none) s.recTabs p).isNone).map fun p => put (clear s p) p none

/-- An IDENTIFY arrives in IDENT: the highest version common to both ends, or MISMATCH (R481-R483, R489). -/
def State.identify (s : State) (n : Nat) (ws : Vector Word 8) : State :=
  let w (i : Nat) := vget ws i 0
  if !(s.isLink n && s.lstate n == 4 && field (w 0) 0 8 == 1) then s else
  let b := linkBlk n
  let serial := dword (w 1) (w 2)
  let ver := if dbit (w 0) 14 then 3 else if dbit (w 0) 13 then 2 else if dbit (w 0) 12 then 1 else 0
  let s := ((s.setReg b (pidAt n 0) (w 1)).setReg b (pidAt n 1) (w 2)).setReg b (pidAt n 2) (w 3)
  let s := s.setReg b (pidAt n 3) (setField (setField (0 : Word) 0 2 (field (w 4) 0 2)) 3 5 (field (w 0) 12 14))
  let s := (s.setFld b (lstatAt n) 10 11 ver).setFld b (lstatAt n) 12 14 (field (w 0) 9 11)
  let mism (s : State) : State := (s.setLstate n 7).fault b 2 (w36 n)
  if ver = 0 then mism s else
  match (if laneGroup n = 2 then s.recAssign serial (w 3) else some s) with
  | none => mism s
  | some s =>
    let k := s.lnk n
    (s.setLnk n { linkReset with
      rate := k.rate, serial := serial, session := w 3, seen := true,
      changed := k.seen && (k.serial != serial || k.session != w 3), cameUp := true
      txCred := #v[field (w 5) 0 17, field (w 5) 18 35, field (w 6) 0 17, field (w 6) 18 35], maxb := field (w 7) 0 12 }).setLstate n 5

/-- A replay: every buffered flit again, or the link goes down after eight in a row without progress (R472, R474). -/
def State.replay (s : State) (n : Nat) : State :=
  let k := s.lnk n
  if 8 ≤ k.replays then s.linkDown n 2
  else ((s.setLnk n { k with replays := k.replays + 1 }).count (linkBlk n) (lcntAt n 3) 0 35).resend n

/-- A flit that fails the receiver's tests: NAK once, until the expected SEQ arrives (R473). -/
def State.nakFlit (s : State) (n : Nat) : State :=
  let k := s.lnk n
  if k.nakSent then s else (s.setLnk n { k with nakSent := true }).flitOut n 2 0 0 true

/-- A DATA flit with a good CRC: accepted in order within credit, otherwise discarded (R473, R476). -/
def State.dataIn (s : State) (n : Nat) (h : FlitHdr) : State :=
  let k := s.lnk n
  if h.seq.val ≠ k.rxNext then s.nakFlit n
  else if vget k.rxCred h.vc.val 0 = 0 then s.linkDown n 3
  else
    let k : Link := { k with
      rxNext := (k.rxNext + 1) % 1024, nakSent := false, sleepReq := false, unacked := k.unacked + 1,
      rxCred := vset k.rxCred h.vc.val (vget k.rxCred h.vc.val 0 - 1), owed := vset k.owed h.vc.val (vget k.owed h.vc.val 0 + 1) }
    let s := s.setLnk n k
    if 32 ≤ k.unacked then s.flitOut n 2 0 0 false else s

/-- The next flit of an ACTIVE link's stream (R470-R476). -/
def State.flitTake (s : State) (n : Nat) (h : FlitHdr) (crcGood : Bool) : State :=
  if !crcGood then (s.count (linkBlk n) (lcntAt n 2) 0 35).nakFlit n
  else if h.type.val = 0 ∨ 5 < h.type.val then s.linkDown n 4
  else
    let s := s.takeAck n h
    let s := if h.nak && (s.lnk n).inFlight != 0 then s.replay n else s
    if !s.linkUp n then s else
    let s := if h.type.val = 1 then s.dataIn n h else s
    if s.linkUp n then s.feltFlush n else s

/-- Take the flits that have arrived from the lanes in turn (R466): flit j of the stream is the oldest held on the lane that
carries it. -/
def State.flitTurn (s : State) (n fuel : Nat) : State :=
  match fuel with
  | 0 => s
  | f + 1 =>
    let k := s.lnk n
    if s.lstate n != 5 then s else
    match k.rxHeld.find? fun x => x.1 == (stripe (s.lwidth n) k.rxFlit).1 with
    | none => s
    | some x =>
      ((s.setLnk n { k with rxFlit := k.rxFlit + 1, rxHeld := k.rxHeld.erase x }).flitTake n x.2.1 x.2.2).flitTurn n f

/-- A flit arrives on a lane of an ACTIVE link (R466). -/
def State.flitIn (s : State) (n lane : Nat) (h : FlitHdr) (crcGood : Bool) : State :=
  if !(s.isLink n && s.lstate n == 5 && decide (lane < s.lwidth n)) then s
  else
    let k := s.lnk n
    (s.setLnk n { k with rxHeld := k.rxHeld ++ [(lane, h, crcGood)] }).flitTurn n (k.rxHeld.length + 1)

/-- ACK has not advanced for 8 µs (R474). -/
def State.replayTimeout (s : State) (n : Nat) : State :=
  if s.isLink n && s.lstate n == 5 && (s.lnk n).inFlight != 0 then s.replay n else s

/-- A microsecond with unacknowledged flits accepted (R473). -/
def State.ackTimer (s : State) (n : Nat) : State :=
  if s.isLink n && s.lstate n == 5 && (s.lnk n).unacked != 0 then s.flitOut n 2 0 0 false else s

/-- The link may sleep: LPEN, the partner's CSLEEP and version 2.1 (R484). -/
def State.maySleep (s : State) (n : Nat) : Bool :=
  s.isLink n && s.lstate n == 5 && s.rbit (linkBlk n) (0o40 + laneIdx n) 3 && s.rbit (linkBlk n) (pidAt n 3) 0 && s.lver n == 3

/-- This end has no DATA flit to send and none unacknowledged. -/
def State.quietEnd (s : State) (n : Nat) : Bool := (s.lnk n).txq.isEmpty && (s.lnk n).inFlight == 0

/-- SLEEP arrives (R484). -/
def State.sleepIn (s : State) (n : Nat) : State :=
  let s := s.ctrlIn n
  if !s.maySleep n then s
  else if s.quietEnd n then (s.ctrlOut n 3 []).setLstate n 6
  else s.feltFlush n

/-- SLEEP-ACK arrives (R484). -/
def State.sleepAckIn (s : State) (n : Nat) : State :=
  let s := s.ctrlIn n
  if s.maySleep n && (s.lnk n).sleepReq then (s.setLnk n { s.lnk n with sleepReq := false }).setLstate n 6 else s

/-- 20 µs pass with nothing to send (R484). -/
def State.sleepIdle (s : State) (n : Nat) : State :=
  if s.maySleep n && s.quietEnd n then (s.setLnk n { s.lnk n with sleepReq := true }).ctrlOut n 2 [] else s

/-- A flit to send wakes a sleeping link (R484). -/
def State.linkWake (s : State) (n : Nat) : State :=
  if s.isLink n && s.lstate n == 6 then (s.setLstate n 5).feltFlush n else s

/-- The widest aligned block of a link's lanes that holds no failed lane, the lowest such: its first group lane index and
width (R467). -/
def State.laneBlock (s : State) (n : Nat) : Option (Nat × Nat) :=
  let lf := s.fld (linkBlk n) (lstatAt n) 19 26
  let full := s.linkWidth n
  ([8, 4, 2, 1].filter (· ≤ full)).findSome? fun w =>
    ((List.range (full / w)).map fun i => laneIdx n + i * w).findSome? fun a =>
      if (List.range w).all fun i => !lf.testBit (7 - (a + i)) then some (a, w) else none

/-- A lane loses signal or lock for 10 µs (R467, R479, R485). -/
def State.laneLoss (s : State) (n lane : Nat) : State :=
  if !s.isLink n then s else
  match s.lstate n, s.laneBlock n with
  | 5, some (a, w) =>
    if lane < a ∨ a + w ≤ lane then s
    else if w < 2 ∨ s.rbit (linkBlk n) (0o40 + laneIdx n) 4 = false then s.linkDown n 1
    else
      let t := s.setFld (linkBlk n) (lstatAt n) (19 + lane) (19 + lane) 1
      match t.laneBlock n with
      | some (_, w) => (t.linkDown n 8).setFld (linkBlk n) (lstatAt n) 4 7 w
      | none => s.linkDown n 1
  | 7, some (a, w) => if a ≤ lane ∧ lane < a + w then s.toDetect n else s
  | _, _ => s

/-- LEAVE arrives from a version 2.1 partner (R485). -/
def State.partnerLeave (s : State) (n : Nat) : State :=
  if s.isLink n && s.linkUp n && s.lver n == 3 then s.linkDown n 5 else s

/-- The PATH notice of a link's present state at a sheet: one for the same link that is still pending takes the new fields and
MORE (R486, R487, R598). -/
def State.pathNotice (s : State) (n sh : Nat) : State :=
  match s.serviceCore sh with
  | none => s
  | some c =>
    let ev := match s.lstate n with | 5 | 6 => if (s.lnk n).changed then 4 else 1 | 7 => 3 | _ => 2
    let info := (n % 256) * 2 ^ 19 + ev * 2 ^ 16 + s.lver n * 2 ^ 14 + s.lptype n * 2 ^ 11 + s.lwidth n * 2 ^ 7
    let again := (s.core c).pend.any fun i => i.code == 0o200 && field i.info 0 8 == 1 && field i.info 9 16 == n % 256
    s.notice sh 1 (info + b2n again * 2 ^ 6) (2 ^ 35 - 2 ^ 19)

/-- Every path word naming a link follows its state, waiting commands leave, and then the notices are made (R428, R486). -/
def State.pathUpdate (s : State) (n : Nat) : State :=
  if !s.isLink n then s else
  let s := s.pathWords n (s.linkUp n) (s.lnk n).cameUp (s.lver n)
  let s := s.setLnk n { s.lnk n with cameUp := false }
  let s := if s.linkUp n then s.exchanges.foldl (fun s x => s.pathWake x) s else s
  (s.runningSheets.filter fun sh => s.groupHas n sh).foldl (fun s sh => s.pathNotice n sh) s

/-- An answer of the module as recipient (R490). -/
def State.answer (s : State) (m : FeltHdr) (sheet mtype code : Nat) (body : FeltBody) (last : Bool) : State :=
  let n := linkNo m.link
  s.feltSend n {
    vc := s.vcOf n mtype, sheet := sheet, mtype := mtype, xid := m.xid.val, gen := m.gen.val, cseq := m.cseq.val,
    devaddr := 0, code := code, body := body, poison := false, last := last }

/-- The link of a received request is up. -/
def State.reqUp (s : State) (m : FeltHdr) : Bool := s.isLink (linkNo m.link) && s.linkUp (linkNo m.link)

/-- The module acts as recipient on a link (R490). -/
def State.recipient (s : State) (m : FeltHdr) : Bool := laneGroup (linkNo m.link) == 2 && s.lver (linkNo m.link) == 3

/-- What the record of an exchange ID says of a command: act, answer the recorded status, or nothing (R456, R491). A word of 0
is no record. -/
inductive Seen where
  | act | again (status : Nat) | old
deriving DecidableEq, Repr

/-- The key of the record word of a request's exchange, none without a table. -/
def State.recKey (s : State) (m : FeltHdr) : Option Nat :=
  (s.recOf (s.lnk (linkNo m.link)).serial).map fun p => recBase p + m.xid.val

/-- The record word of a request's exchange. -/
def State.recWord (s : State) (m : FeltHdr) : Word :=
  match s.recKey m with | some k => Tab.get easelDefault s.easel k | none => 0

/-- Look a command up in the record of its exchange. -/
def State.seen (s : State) (m : FeltHdr) : Seen :=
  let w := s.recWord m
  let d := (m.gen.val + 2 ^ 20 - field w 0 19) % 2 ^ 20
  if w = 0 then .act
  else if d = 0 then (if m.cseq.val ≤ field w 20 31 then .again (field w 32 35) else .act)
  else if d ≤ 2 ^ 19 then .act else .old

/-- Record a command that was acted on, and answer it. -/
def State.acted (s : State) (m : FeltHdr) (sheet status moved : Nat) : State :=
  let w := setField (setField (setField (0 : Word) 0 19 m.gen.val) 20 31 m.cseq.val) 32 35 status
  let s : State := match s.recKey m with | some k => { s with easel := Tab.set easelDefault s.easel k w } | none => s
  s.answer m sheet 3 status (.ack 0 moved) false

/-- Word `i` of the active copy of inbound window `w` of a group C block (R498). -/
def State.iwin (s : State) (b : Blk) (w i : Nat) : Word := s.reg b (0o1000 + 4 * w + i)

/-- The lines that `k` words from a sheet-absolute address touch, as module-physical addresses of their first words; none
where one of them fails the deckle map. -/
def State.winLines (s : State) (sh sa k : Nat) : Option (List Nat) :=
  if k = 0 then some [] else
  ((List.range ((sa % 16 + k + 15) / 16)).mapM fun i => s.deckleMap sh ((sa / 16 + i) * 16))

/-- The words of a WWRITE written as an observer by a vat of a tile, line by line, or their lines as poison (R261, R491); none
while a line is busy. -/
def State.winPut (s : State) (t : Nat) (ls : List Nat) (j : Nat) (poison : Bool) : List Word → Option State := fun ws =>
  match ls with
  | [] => some s
  | l :: r =>
    let k := 16 - j
    (s.ncWrite (ncIndex t) (l / 16) fun x => if poison then poisonLine else linePutWords x j (ws.take k)).bind fun s => s.winPut t r 0 poison (ws.drop k)

/-- A WWRITE request: the status it answers, the window's sheet, and the state; none while a line is busy (R490, R491). -/
def State.winWrite (s : State) (m : FeltHdr) (devaddr : BitVec 16) (ws : List Word) (poison : Bool) : Option (Nat × Nat × State) :=
  let b := linkBlk (linkNo m.link)
  let t := laneTile (linkNo m.link)
  let w := devaddr.toNat % 16
  let sh := field (s.iwin b w 0) 1 6
  let sig := dbit (ws.getD 1 0) 35
  let off := (ws.getD 0 0).toNat
  let data := ws.drop 2
  if devaddr.toNat / 16 ≠ 0 ∨ ws.length < 2 ∨ dbit (s.iwin b w 0) 0 = false ∨ s.runningSheets.contains sh = false then some (1, 64, s)
  else if off = 0 ∨ (s.iwin b w 2).toNat < off + data.length then some (2, sh, s)
  else
    let base := field (s.iwin b w 1) 2 35 * 16
    match s.winLines sh (base + off) data.length, (if sig then s.deckleMap sh base else some 0) with
    | some ls, some mp0 =>
      (s.winPut t ls ((base + off) % 16) poison data).bind fun s =>
        (if sig then s.ncWrite (ncIndex t) (mp0 / 16) fun x => { x with words := vset x.words (mp0 % 16) (vget x.words (mp0 % 16) 0 + 1) }
         else some s).map fun s => (if poison then 4 else 0, sh, s)
    | _, _ => some (3, sh, s.fault b 1 (w36 w))

/-- WWRITE arrives (R456, R490, R491). -/
def State.wwriteIn (s : State) (m : FeltHdr) (devaddr : BitVec 16) (os : List Octet) (poison : Bool) : State :=
  if !s.reqUp m then s else
  if !s.recipient m then s.answer m 64 3 1 (.ack 0 0) false else
  match s.seen m with
  | .old => s
  | .again st => s.answer m 64 3 st (.ack 0 0) false
  | .act =>
    match s.winWrite m devaddr (unpack os) poison with
    | none => s
    | some (st, sh, s) => s.acted m sh st (if st = 0 ∨ st = 4 then os.length else 0)

/-- A session SENSE arrives: the sender's previous session and the record of the exchange ID (R460, R490, R491). -/
def State.sessionSense (s : State) (m : FeltHdr) : State :=
  if !s.reqUp m then s else
  if !s.recipient m then s.answer m 64 3 1 (.ack 0 0) false else
  match s.seen m with
  | .old => s
  | .again st => s.answer m 64 3 st (.ack 0 0) false
  | .act =>
    let prev := ((s.recOf (s.lnk (linkNo m.link)).serial).bind fun p => Tab.get (fun _ => none) s.recTabs p).bind fun x => x.2.2
    let f := s.free 36
    let w0 : Word := prev.getD (w36 f.1)
    let s := if prev.isSome then s else f.2
    let w1 := setField (s.recWord m) 32 35 0
    (s.answer m 64 2 0 (.data (packOf [w0, w1])) true).acted m 64 0 9

/-- Any other XREQ, or one on a group A or B link, is answered with status 0o01 (R490). -/
def State.xreqReject (s : State) (m : FeltHdr) (code : Nat) : State :=
  if !s.reqUp m then s
  else if !s.recipient m then s.answer m 64 3 1 (.ack 0 0) false
  else if code = 0o100 ∨ code = 0o376 then s
  else match s.seen m with
    | .old => s
    | .again st => s.answer m 64 3 st (.ack 0 0) false
    | .act => s.acted m 64 1 0

/-- ARM makes the shadow of an inbound window active (R492). -/
def State.windowArm (s : State) (t w : Nat) : State :=
  let b := Blk.linkgrp (tileFin t) 2
  (List.range 3).foldl (fun s i => s.setReg b (0o1000 + 4 * w + i) (s.reg b (0o1100 + 4 * w + i))) s

end Sys2Proof.Machine
end

