-- ==== Sys2Proof/Machine/Easel.lean ====
section
/-! DEFINITION. The Easel of a tile: arbitration of its banks, the dual-ported words, retention and scrubbing (R409-R415). -/

namespace Sys2Proof.Machine

open Sys2Proof

/-- The EASEL block of a tile. -/
def easelBlk (t : Nat) : Blk := .easel (tileFin t)

/-- A word of bank 0 that has two ports (R412). -/
def dualPorted (e : Nat) : Bool := e % 32 == 0 && decide (e / 32 < 65536)


/-- The slot after the last granted one that has a request (R411). -/
def nextSlot (last : Nat) (rs : List EaselReq) : Option EaselReq :=
  (List.range 15).findSome? fun i => rs.find? fun r => r.slot.val == (last + 1 + i) % 15

/-- EASEL_CONF of a slot rises (R411). -/
def State.conf (s : State) (t slot : Nat) : State := s.count (easelBlk t) (0o20 + slot) 0 35

/-- A double error is returned to a master (R409, R459): a vat acts on it, a triptych raises UE. -/
def State.easelBad (s : State) (t slot e : Nat) : State :=
  if slot < 8 then s.easelCtl t e
  else if slot = 8 ∨ slot = 9 then s.fault (easelBlk t) 1 (w36 e)
  else s

/-- One access served: a write is applied; a read returns the word, corrected after a single error, or an error (R409). -/
def State.easelServe (s : State) (t slot e : Nat) (write : Option Word) (errors : Nat) : State :=
  match write with
  | some w => s.setEasel t e w
  | none =>
    let w := s.easelWord t e
    if 2 ≤ errors then (s.easelBad t slot e).emit (.easelWord slot 0 false true)
    else (if errors = 1 then s.fault (easelBlk t) 0 (w36 e) else s).emit (.easelWord slot w false false)

/-- A read that meets a write of the same word on the other port: BUSY and undefined data (R413). -/
def State.easelBusy (s : State) (t slot : Nat) : State :=
  let f := s.free 36
  (f.2.conf t slot).emit (.easelWord slot (w36 f.1) true false)

/-- A same-word collision that involves a write (R413). -/
def State.collision (s : State) (t : Nat) : State := s.count (easelBlk t) 1 18 35

/-- The slot of the master that port B serves: the endpoint in tile 0, and the tile triptych in the others (R410, R412). -/
def slotB (t : Nat) : Nat := if t = 0 then 15 else 8

/-- Both ports access one dual-ported word in one cycle (R413). -/
def State.bothPorts (s : State) (t slot e : Nat) (wa wb : Option Word) (errors : Nat) : State :=
  match wa, wb with
  | none, none => (s.easelServe t slot e none errors).easelServe t (slotB t) e none errors
  | some a, none =>
    let s := ((s.setEasel t e a).collision t).easelBusy t (slotB t)
    if t = 0 then (s.setFld (easelBlk t) 1 0 0 1).fault (easelBlk t) 2 (w36 e) else s
  | none, some b => ((s.setEasel t e b).collision t).easelBusy t slot
  | some a, some b =>
    let s := ((s.setEasel t e a).setEasel t e b).collision t
    if t = 0 then s.setFld (easelBlk t) 1 1 1 1 else s

/-- One cycle of a bank: one master of slots 0-14 is granted by rotating priority, the others' counters rise, and port B is
served beside it; an access to a bank in retention wakes it and waits (R411-R414). `errors` are the bit errors of the word
that the granted access, or else port B, reads. -/
def State.easelCycle (s : State) (t b : Nat) (reqs : List EaselReq) (portB : Option EaselPortB) (errors : Nat) : State :=
  let rs := reqs.filter fun r => r.addr.val % 32 == b
  let pb := portB.filter fun p => dualPorted p.addr.val
  let key := t * 32 + b
  let serveB (s : State) (errors : Nat) : State := match pb with
    | some p => s.easelServe t (slotB t) p.addr.val p.write errors
    | none => s
  if s.retained t b then
    serveB { s with easelWait := Tab.set (fun _ => []) s.easelWait key (Tab.get (fun _ => []) s.easelWait key ++ rs) } 0
  else
    match nextSlot (Tab.get (fun _ => 14) s.easelRot key) rs with
    | none => serveB s errors
    | some r =>
      let s : State := { s with easelRot := Tab.set (fun _ => 14) s.easelRot key r.slot.val }
      let s := (rs.filter fun q => q.slot != r.slot).foldl (fun s q => s.conf t q.slot.val) s
      match pb with
      | some p =>
        if p.addr = r.addr then s.bothPorts t r.slot.val r.addr.val r.write p.write errors
        else serveB (s.easelServe t r.slot.val r.addr.val r.write errors) 0
      | none => s.easelServe t r.slot.val r.addr.val r.write errors

/-- The scrub of a word: a single error is corrected and rewritten, a double error is reported (R409). -/
def State.easelScrub (s : State) (t e errors : Nat) : State :=
  if errors = 0 then s else s.fault (easelBlk t) (if errors = 1 then 0 else 1) (w36 e)

/-- A bank wakes: its RET bit clears and the accesses that waited complete (R414). -/
def State.easelWake (s : State) (t b : Nat) : State :=
  let key := t * 32 + b
  let rs := Tab.get (fun _ => []) s.easelWait key
  if rs.isEmpty then s else
  let s : State := { s.setFld (easelBlk t) 0 b b 0 with easelWait := Tab.set (fun _ => []) s.easelWait key [] }
  rs.foldl (fun s r => s.easelServe t r.slot.val r.addr.val r.write 0) s

/-- A write of EASEL_RET; bit 0 is ignored, and accesses that waited for a bank that it takes out of retention complete (R414). -/
def State.easelRet (s : State) (t : Nat) (v : BitVec 32) : State :=
  let s := s.setFld (easelBlk t) 0 1 31 v.toNat
  (List.range 32).foldl (fun s b => if s.retained t b then s else s.easelWake t b) s

end Sys2Proof.Machine
end

