-- ==== Sys2Proof/Machine/Endpoint.lean ====
section
/-! DEFINITION. The host endpoint: configuration space (R547-R549), the console and mailbox registers of PF0 (R550-R555),
the message queues of PF1 (R556-R561), interrupt messages, link power, resets and revoked access (R562-R567). -/

namespace Sys2Proof.Machine

open Sys2Proof

/-- Bits of a configuration register that a write changes (R547, R548; log entry 10). -/
def cfgMask (f r : Nat) : Nat :=
  let pf (a b : Nat) : Nat := if f = 0 then a else b
  match 4 * r with
  | 0x04 => 0x146 | 0x0C => 0xFF | 0x10 => pf 0xFFFF0000 0xFFFC0000 | 0x14 => 0xFFFFFFFF
  | 0x18 => pf 0xFFF80000 0 | 0x1C => pf 0xFFFFFFFF 0 | 0x20 => 0xFFFFC000 | 0x24 => 0xFFFFFFFF | 0x3C => 0xFF
  | 0x44 => 3 | 0x50 => 0x00710000 | 0x54 => 0xFFFFFFFC | 0x58 => 0xFFFFFFFF | 0x5C => 0xFFFF | 0x60 => 0xFFFFFFFF
  | 0x78 => 0x79FF | 0x80 => 0x1C3 | 0x98 => 0x101F | 0xA0 => 0xF | 0xB0 => 0xC0000000
  | 0x108 | 0x10C => 0x03FFF030 | 0x114 => 0xF1C1 | _ => 0

/-- Bits of a configuration register that a write of 1 clears. -/
def cfgClear (r : Nat) : Nat :=
  match 4 * r with
  | 0x04 => 0xF9000000 | 0x78 => 0x000F0000 | 0x104 => 0x03FFF030 | 0x110 => 0xF1C1 | _ => 0

/-- Bus Master Enable of a function. -/
def State.bme (s : State) (f : Nat) : Bool := (s.cfg f 1).getLsbD 2
/-- The function is in D3hot (R548). -/
def State.d3hot (s : State) (f : Nat) : Bool := (s.cfg f 0x11).toNat % 4 == 3
/-- The function is served: the endpoint is ready, or PF0 while the image is staged (R567, R649). -/
def State.fnUp (s : State) (f : Nat) : Bool := !s.endpt.perst && (s.endpt.ready || (f == 0 && s.staging.isSome))
/-- The function answers memory requests: served, in D0, Memory Space Enable 1 (R548, R567). -/
def State.memOk (s : State) (f : Nat) : Bool := s.fnUp f && !s.d3hot f && (s.cfg f 1).getLsbD 1
/-- The function may issue requests (R548, R559). -/
def State.mayMaster (s : State) (f : Nat) : Bool := s.fnUp f && !s.d3hot f && s.bme f
/-- A mailbox word is served: every one, and while the image is staged those of R649. -/
def State.wordServed (s : State) (i : Nat) : Bool := s.endpt.ready || decide (i ≤ 2) || decide (1024 ≤ i)

/-- A configuration register as a read returns it: pending MSI vectors and the port's width are live (R545, R562). -/
def State.cfgRead (s : State) (f r : Nat) : BitVec 32 :=
  match 4 * r with
  | 0x64 => s.endpt.msi.foldl (fun (w : BitVec 32) x => if x.1 = f then w ||| BitVec.ofNat 32 (2 ^ (x.2 % 32)) else w) 0
  | 0x7C => if s.bFld (.linkgrp 0 1) 0 0 1 = 2 then (s.cfg f r &&& ~~~(0x3F0#32)) ||| 0x100#32 else s.cfg f r
  | _ => s.cfg f r

/-- An uncorrectable error is logged through AER, and raises the ENDPT source UNCOR unless it is advisory (R554, R555, R622). -/
def State.aer (s : State) (f bit : Nat) (advisory : Bool) : State :=
  let s := s.setCfg f 0x41 (s.cfg f 0x41 ||| BitVec.ofNat 32 (2 ^ bit))
  if advisory then s.setCfg f 0x44 (s.cfg f 0x44 ||| 0x2000#32) else s.fault .endpt 0 (w36 (s.cfg f 0x41).toNat)

/-- The link leaves a low-power state for traffic (R563). -/
def State.hostTraffic (s : State) : State := { s with endpt := { s.endpt with linkState := 0 } }

/-- A function's tag epoch flips (R565); EPOCH of PF0 shows it. -/
def State.flipEpoch (s : State) (f : Nat) : State :=
  { s with endpt := { s.endpt with epoch := vset s.endpt.epoch f (!vget s.endpt.epoch f false) } }

/-- Base of queue q's page in BAR0 of PF1 (R558). -/
def pageAt (q : Nat) : Nat := 0x1000 * q
/-- A register of a queue's page. -/
def State.pf1 (s : State) (q o : Nat) : Nat := (s.bar 1 (pageAt q + o)).toNat
/-- Store a register of a queue's page. -/
def State.setPf1 (s : State) (q o v : Nat) : State := s.setBar 1 (pageAt q + o) (BitVec.ofNat 32 v)
/-- A sheet-side count of a queue: 0 HTAIL, 1 HHEAD, 2 STAIL, 3 SHEAD (R560). -/
def State.sq (s : State) (q k : Nat) : Nat := s.fld .endpt (0o10000 + 8 * q + k) 20 35
/-- Store a sheet-side count. -/
def State.setSq (s : State) (q k v : Nat) : State := s.setFld .endpt (0o10000 + 8 * q + k) 20 35 (v % 65536)
/-- Slots of each of its rings. -/
def State.qSlots (s : State) (q : Nat) : Nat := 2 ^ s.fld .endpt (0o1000 + 2 * q) 7 10
/-- Sheet-absolute word address of its H2S ring. -/
def State.qBase (s : State) (q : Nat) : Nat := s.fld .endpt (0o1000 + 2 * q + 1) 2 35 * 16
/-- HEN. -/
def State.qHen (s : State) (q : Nat) : Bool := s.pf1 q 0x1C / 2 % 2 == 1
/-- The queue moves messages (R559). -/
def State.qMoves (s : State) (q : Nat) : Bool :=
  s.qBound q && s.qHen q && s.mayMaster 1 && !s.isFrozen 5 q && s.pf1 q 0x1C / 8 % 2 == 0
/-- Host address of the host ring of a queue. -/
def State.qHost (s : State) (q : Nat) : Nat := s.pf1 q 4 * 2 ^ 32 + s.pf1 q 0
/-- An H2S message waits and the sheet ring has room. -/
def State.h2sReady (s : State) (q : Nat) : Bool :=
  s.qMoves q && s.pf1 q 0xC != s.pf1 q 0x10 && decide ((s.sq q 0 + 65536 - s.sq q 1) % 65536 < s.qSlots q)
/-- Word `k` of the sheet-side registers as an IN reads it (R560). -/
def State.sqWord (s : State) (q k : Nat) : Word :=
  let w := if k < 5 then s.reg .endpt (0o10000 + 8 * q + k) else 0
  if k = 4 then setField (setField w 1 1 (b2n (s.qHen q && s.bme 1))) 2 2 (b2n (s.isFrozen 5 q)) else w

/-- Requests of a function are outstanding: for PF1, an H2S slot is being read (R559, R566). -/
def State.outstanding (s : State) (f : Nat) : Bool := f == 1 && (List.range 64).any fun q => s.h2sReady q

/-- Bus Master Enable is cleared (R565, R566). -/
def State.bmeClear (s : State) (f : Nat) : State :=
  if !s.bme f then s else
  let s := if s.outstanding f then s.setBar 0 0x20 (s.bar 0 0x20 ||| 0x10#32) else s
  (s.setCfg f 1 (s.cfg f 1 &&& ~~~4#32)).flipEpoch f

/-- A function-level reset (R565, R566): the function's registers return to their Reset values. SVBUSY and what MSTAT shows of
the module stay. -/
def State.flr (s : State) (f : Nat) : State :=
  let sv := s.bar 0 0x20 &&& 8#32
  let e := s.endpt
  let s : State := { s with
    pcicfg := s.pcicfg.filter fun x => x.1 / 1024 != f
    bar0 := s.bar0.filter fun x => x.1 / 2 ^ 18 != f
    endpt := { e with msi := e.msi.filter fun x => x.1 != f, half := e.half.filter fun x => x.1 / 2 ^ 18 != f } }
  let s := s.flipEpoch f
  if f = 0 then { s.setBar 0 0x20 sv with taken := none, conVer := 1 } else s

/-- Hot reset, link down or PERST_N: both functions as FLR (R566). -/
def State.bothFlr (s : State) : State :=
  let s := (s.flr 0).flr 1
  { s with endpt := { s.endpt with linkState := 0, heldAcc := [], svArm := none } }

/-- A hot reset or link down (R566, R622). -/
def State.hotReset (s : State) : State :=
  let f := s.free 36
  f.2.bothFlr.fault .endpt 1 (w36 f.1)

/-- PERST_N asserts (R566). -/
def State.perstOn (s : State) : State :=
  let s := s.bothFlr
  { s with endpt := { s.endpt with perst := true, ready := false }, pins := { s.pins with perstN := false } }

/-- PERST_N deasserts: configuration requests get Request Retry Status until the endpoint is ready, which it is once the gesso
sequence has trained it (R567; log entry 11). -/
def State.perstOff (s : State) : State :=
  { s with endpt := { s.endpt with perst := false, ready := s.phase == .ready }, pins := { s.pins with perstN := true } }

/-- A configuration write with byte enables (R547). -/
def State.cfgWrite (s : State) (f r : Nat) (v : BitVec 32) (be : BitVec 4) : State :=
  let lanes := (List.range 4).foldl (fun m i => if be.getLsbD i then m + 255 * 256 ^ i else m) 0
  let old := s.cfg f r
  let m := BitVec.ofNat 32 (cfgMask f r &&& lanes)
  let c := BitVec.ofNat 32 (cfgClear r &&& lanes)
  let new := (old &&& ~~~m &&& ~~~(c &&& v)) ||| (v &&& m)
  -- a write of an unsupported power state is discarded
  let new := if r = 0x11 ∧ (new.toNat % 4 = 1 ∨ new.toNat % 4 = 2) then old else new
  if r = 0x1E ∧ be.getLsbD 1 = true ∧ v.getLsbD 15 = true then s.flr f
  else if r = 1 ∧ s.bme f = true ∧ new.getLsbD 2 = false then (s.bmeClear f).setCfg f r new
  else s.setCfg f r new

/-- A configuration request (R547, R567, R649). -/
def State.configRequest (s : State) (f r : Nat) (write : Option (BitVec 32)) (be : BitVec 4) : State :=
  if s.endpt.perst then s else
  let s := s.hostTraffic
  if !s.endpt.ready && s.staging.isNone then s.emit .configRetry else
  match write with
  | some v => (s.cfgWrite f r v be).emit .configDone
  | none => s.emit (.configReply (s.cfgRead f r))

/-- A firmware command is in progress (R552). -/
def State.cmdRuns (s : State) : Bool := s.taken.isSome || !s.longOps.isEmpty

/-- A write of the console ring's base or size; ignored with CFGERR while packets wait or a command runs (R552). -/
def State.ringWrite (s : State) (f : State → State) : State :=
  if s.bar 0 0xC != s.bar 0 0x10 || s.cmdRuns then s.setBar 0 0x20 (s.bar 0 0x20 ||| 0x40#32) else f s

/-- A paired live field: the lower half is held, the upper write takes both (R589). -/
def State.pairWrite (s : State) (f lo : Nat) (upper : Bool) (v : BitVec 32) : State :=
  let key := f * 2 ^ 18 + lo
  let set (x : Option (BitVec 32)) (s : State) : State :=
    { s with endpt := { s.endpt with half := Tab.set (fun _ => none) s.endpt.half key x } }
  if upper then
    let h := (Tab.get (fun _ => none) s.endpt.half key).getD (s.bar f lo)
    set none ((s.setBar f lo h).setBar f (lo + 4) v)
  else set (some (v &&& 0xFFFFF000#32)) s

/-- CRTAIL: packets are posted (R551, R552). -/
def State.crtail (s : State) (tail : BitVec 16) : State :=
  if s.memOk 0 then s.hostTraffic.setBar 0 0xC (tail.setWidth 32) else s

/-- HTAIL of a queue: H2S messages are posted (R558, R559). -/
def State.htail (s : State) (q : Nat) (tail : BitVec 16) : State :=
  if s.memOk 1 then s.hostTraffic.setPf1 q 0xC tail.toNat else s

/-- A host write of a PF1 page register (R558). -/
def State.pf1Write (s : State) (off : Nat) (v : BitVec 32) : State :=
  let q := off / 0x1000
  match off % 0x1000 with
  | 0 => s.pairWrite 1 (pageAt q) false v
  | 4 => s.pairWrite 1 (pageAt q) true v
  | 0xC => s.setPf1 q 0xC (v.toNat % 65536)
  | 0x18 => s.setPf1 q 0x18 (v.toNat % 65536)
  | 0x1C =>
    let old := s.pf1 q 0x1C
    let err := if v.getLsbD 3 then 0 else old / 8 % 2
    s.setPf1 q 0x1C (b2n (v.getLsbD 1) * 2 + err * 8)
  | _ => s

/-- A host write of a PF0 register other than SVRST (R551). -/
def State.pf0Write (s : State) (off : Nat) (v : BitVec 32) : State :=
  match off with
  | 0x00 => s.ringWrite fun s => s.pairWrite 0 0 false v
  | 0x04 => s.ringWrite fun s => s.pairWrite 0 0 true v
  | 0x08 => s.ringWrite fun s => s.setBar 0 8 (v &&& 0xF#32)
  | 0x0C => s.setBar 0 0xC (v &&& 0xFFFF#32)
  | 0x20 => s.setBar 0 0x20 (s.bar 0 0x20 &&& ~~~(v &&& 0x70#32))
  | 0x24 => s.setBar 0 0x24 (s.bar 0 0x24 &&& ~~~(v &&& 0xF#32))
  | 0x28 => s.setBar 0 0x28 (v &&& 0xF#32)
  | _ => s

/-- The host form of a device word: 64 bits, bits 63:36 zero (R11, R554). -/
def hostForm (w : Word) : BitVec 64 := w.setWidth 64

/-- The number that octets spell, least significant first. -/
def numLe (os : List Octet) : Nat := os.foldr (fun o n => n * 256 + o.toNat) 0

/-- A read of `n` mailbox units over port B, in ascending order; `busy`: port A writes the first unit's word in that cycle;
`bad`: a word has an uncorrectable error (R413, R554, R555). -/
def State.bar2Units (s : State) (i n : Nat) (busy bad : Bool) : State :=
  let one (x : State × List (BitVec 64)) (k : Nat) : State × List (BitVec 64) :=
    let s := x.1
    let e := 32 * ((i + k) % 65536)
    if k = 0 && busy then
      let f := s.free 36
      let s := ((f.2.conf 0 15).collision 0).setFld (easelBlk 0) 1 0 0 1
      (s.fault (easelBlk 0) 2 (w36 e), x.2 ++ [hostForm (w36 f.1)])
    else (s, x.2 ++ [hostForm (s.easelWord 0 e)])
  let r := (List.range n).foldl one (s, [])
  r.1.emit (.bar2Reply r.2 bad)

/-- A write of mailbox octets over port B: each unit whose byte enables hold octets 0-4 is written, and a part of one is
discarded (R554). -/
def State.bar2Store (s : State) (off : Nat) (os : List Octet) (en : List Bool) : State :=
  let unit (s : State) (u : Nat) : State :=
    let oct (j : Nat) : Option Octet :=
      let p := 8 * u + j
      if p < off ∨ off + os.length ≤ p then none
      else if en.getD (p - off) false then some (os.getD (p - off) 0) else none
    let have_ := (List.range 8).filter fun j => (oct j).isSome
    if have_.isEmpty then s
    else if (List.range 5).all fun j => (oct j).isSome then
      s.setMail u (w36 (numLe ((List.range 5).map fun j => (oct j).getD 0)))
    else (s.setBar 0 0x20 (s.bar 0 0x20 ||| 0x20#32)).aer 0 20 true
  (List.range ((off % 8 + os.length + 7) / 8)).foldl (fun s k => if off / 8 + k < 65536 then unit s (off / 8 + k) else s) s

/-- Hold a host access while the Easel of tile 0 is in reset (R555). -/
def State.holdHost (s : State) (a : HostAcc) : State := { s with endpt := { s.endpt with heldAcc := s.endpt.heldAcc ++ [a] } }

/-- A host read of mailbox words (R554, R555). -/
def State.bar2Read (s : State) (i n : Nat) (busy bad : Bool) : State :=
  let s := s.hostTraffic
  if !s.memOk 0 || !(List.range n).all fun k => s.wordServed ((i + k) % 65536) then s.emit .hostUnsupported
  else if s.inReset.contains (easelBlk 0) then s.holdHost { off := 8 * i, count := n, write := none, since := s.clock.toNat }
  else s.bar2Units i n busy bad

/-- A host write of mailbox octets (R554, R555). -/
def State.bar2Write (s : State) (off : Nat) (os : List Octet) (en : List Bool) (ep : Bool) : State :=
  let s := s.hostTraffic
  if !s.memOk 0 || !(List.range ((off % 8 + os.length + 7) / 8)).all fun k => s.wordServed (off / 8 + k) then s
  else if ep then s.aer 0 12 false
  else if s.inReset.contains (easelBlk 0) then s.holdHost { off := off, count := 0, write := some (os, en), since := s.clock.toNat }
  else s.bar2Store off os en

/-- The Easel of tile 0 leaves reset: held host accesses are served, those that waited 65,536 cycles having ended (R555). -/
def State.hostRelease (s : State) : State :=
  let as := s.endpt.heldAcc
  let s : State := { s with endpt := { s.endpt with heldAcc := [] } }
  as.foldl (fun s a =>
    let late := decide (a.since + 65536 ≤ s.clock.toNat)
    match a.write with
    | none => if late then s.emit .completerAbort else s.bar2Units (a.off / 8) a.count false false
    | some (os, en) => if late then s else s.bar2Store a.off os en) s

/-- A program's OUT of STAIL (R560). -/
def State.stail (s : State) (q : Nat) (tail : BitVec 16) : State := s.queueOut q 2 (w36 tail.toNat)

/-- The deckle check of one line of a queue's ring: its module-physical address, or the queue is frozen (R62, R556). -/
def State.qLine (s : State) (q sa kind : Nat) : Except State Nat :=
  match s.deckleMap (s.qSheet q) sa with
  | some mp => .ok mp
  | none => .error (s.freeze 5 q (s.qSheet q) kind sa)

/-- The notice that a queue has a message (R560, R598). -/
def State.queueNotice (s : State) (q : Nat) : State := s.notice (s.qSheet q) 2 (q * 2 ^ 21) (2 ^ 36 - 2 ^ 21)

/-- A host slot is copied into the sheet ring (R557, R559, R564); nothing while its line is busy. -/
def State.h2sMove (s : State) (q : Nat) (os : List Octet) (ep : Bool) : State :=
  if !s.h2sReady q then s else
  let c := s.sq q 0
  match s.qLine q (s.qBase q + 16 * (c % s.qSlots q)) 0o15 with
  | .error s => s
  | .ok mp =>
    let ws := unpack ((os ++ List.replicate 72 0).take 72)
    let x : Line := if ep then poisonLine else { words := Vector.ofFn fun (i : Fin 16) => ws.getD i.val 0, poison := false }
    match s.ncWrite (ncIndex 0) (mp / 16) fun _ => x with
    | none => s
    | some s =>
      let empty := s.sq q 0 == s.sq q 1
      let s := (s.setSq q 0 (c + 1)).setPf1 q 0x10 ((s.pf1 q 0x10 + 1) % 65536)
      let s := if ep then s.setPf1 q 0x1C (s.pf1 q 0x1C % 8 + 8) else s
      if empty && s.rbit .endpt (0o10000 + 8 * q + 4) 0 then s.queueNotice q else s

/-- A sheet line is copied into the host ring, and vector q is sent (R557, R559, R564). -/
def State.s2hMove (s : State) (q : Nat) : State :=
  if !s.qMoves q || s.sq q 2 == s.sq q 3 || !decide ((s.pf1 q 0x14 + 65536 - s.pf1 q 0x18) % 65536 < s.qSlots q) then s else
  let c := s.sq q 3
  match s.qLine q (s.qBase q + 16 * (s.qSlots q + c % s.qSlots q)) 0o14 with
  | .error s => s
  | .ok mp =>
    match s.ncRead (ncIndex 0) (mp / 16) with
    | none => s
    | some (x, s) =>
      let h := s.pf1 q 0x14
      let s := s.hostTraffic.emit (.hostWrite (s.qHost q + 128 * (s.qSlots q + h % s.qSlots q))
        (packOf x.words.toList ++ List.replicate 56 0) x.poison)
      ((s.setPf1 q 0x14 ((h + 1) % 65536)).setSq q 3 (c + 1)).msiDue 1 q

/-- A host read of a queue times out (R559). -/
def State.readTimeout (s : State) (q : Nat) : State :=
  if s.h2sReady q then (s.setPf1 q 0x1C (s.pf1 q 0x1C % 8 + 8)).aer 1 14 false else s

/-- A held interrupt message is sent, unmasked and with Bus Master Enable 1: MSI-X by its vector, MSI by the vector modulo the
count granted (R562). The MSI-X table lies in BAR4, which no command reaches; its entries count as unmasked (log entry 12). -/
def State.msiSend (s : State) (f v : Nat) : State :=
  if !(s.endpt.msi.contains (f, v) && s.mayMaster f) then s else
  let gone : State := { s with endpt := { s.endpt with msi := s.endpt.msi.filter (· != (f, v)) } }
  if (s.cfg f 0x2C).getLsbD 31 then
    if (s.cfg f 0x2C).getLsbD 30 then s else gone.hostTraffic.emit (.msi f v)
  else if (s.cfg f 0x14).getLsbD 16 then
    let n := v % 2 ^ Nat.min 5 ((s.cfg f 0x14).toNat / 2 ^ 20 % 8)
    if (s.cfg f 0x18).getLsbD n then s else gone.hostTraffic.emit (.msi f n)
  else gone

/-- The endpoint enters L1 when ASPM L1 is enabled (R563). -/
def State.aspmL1 (s : State) : State :=
  if s.endpt.ready && !s.endpt.perst && (s.cfg 0 0x20).getLsbD 1 then { s with endpt := { s.endpt with linkState := 2 } } else s

/-- The endpoint enters L0s when ASPM L0s is enabled (R563). -/
def State.aspmL0s (s : State) : State :=
  if s.endpt.ready && !s.endpt.perst && (s.cfg 0 0x20).getLsbD 0 && s.endpt.linkState == 0 then
    { s with endpt := { s.endpt with linkState := 1 } } else s

end Sys2Proof.Machine
end

