-- ==== Sys2Proof/Machine/Power.lean ====
section
/-! DEFINITION. Large steps and the Load Forecast Interface (R363, R630-R632), CK_CORE steps and the clock stretcher (R635,
R636), cold cores and L2 retention (R638). -/

namespace Sys2Proof.Machine

open Sys2Proof

/-- The quire power block. -/
def qpwrBlk (q : Nat) : Blk := .qpwr (quireFin q)

/-- A large step asked for, and not yet begun (R630). -/
def State.stepOpen (s : State) (k : StepKind) : Bool :=
  s.steps.any (·.1 == k) || match s.granted with | some g => g.1 == k | none => false

/-- Ask for a large step: it waits for its grant; one that already waits is not asked for twice (R630). -/
def State.askStep (s : State) (k : StepKind) (couching : Bool) : State :=
  if s.stepOpen k then s else { s with steps := s.steps ++ [(k, couching)] }

/-- The next step to grant: couching wakes first, then the order in which they were asked for (R630). -/
def nextStep (ss : List (StepKind × Bool)) : Option (StepKind × Bool) := (ss.find? (·.2)).orElse fun _ => ss.head?

/-- The LFI grants the next large step, one at a time (R630). -/
def State.grantStep (s : State) : State :=
  match s.granted, nextStep s.steps with
  | none, some x => { s with steps := s.steps.erase x, granted := some (x.1, false) }
  | _, _ => s

/-- The reserve of a tile is free (R363, R630). -/
def State.reserveFree (s : State) (t : Nat) : Bool :=
  let r := Tab.get (fun _ => 0) s.reserve t
  r == 0 || (r != 1 && decide (r ≤ s.clock.toNat))

/-- A couching wake in a tile: on the tile's reserve at once where it is free, otherwise as a large step, granted at once where
no other is (R363, R630). -/
def State.couchWake (s : State) (c : Nat) : State :=
  let t := tileOf c
  if s.reserveFree t then { s with reserve := Tab.set (fun _ => 0) s.reserve t 1 }
  else (s.askStep (.coreWake c) true).grantStep

/-- The CK_CORE step that a quire is to run at: STEP, or the lowest while a THERM floor applies (R635, R639). -/
def State.stepTarget (s : State) (q : Nat) : Nat := if s.forced.contains q then 3 else s.fld (qpwrBlk q) 0 0 1

/-- A step takes effect, with its set-point (R635). -/
def State.stepNow (s : State) (q n : Nat) : State :=
  (s.setFld (qpwrBlk q) 1 0 1 n).setFld (qpwrBlk q) 1 2 12 (Config.setPoint q n)

/-- Bring a quire to the step it is to run at: a step up waits for its large step, a step down changes the divider first
(R635). Nothing while a change is in progress or while no triptych carries out the quire's duties (R372). -/
def State.chase (s : State) (q : Nat) : State :=
  if !s.acts (.quire (quireFin q)) || (Tab.get (fun _ => none) s.stepGoing q).isSome then s else
  let n := s.stepTarget q
  let a := s.fld (qpwrBlk q) 1 0 1
  if n = a then s else
  let s : State := { s with stepGoing := Tab.set (fun _ => none) s.stepGoing q (some n) }
  if n < a then s.askStep (.stepUp q n) false else s.stepNow q n

/-- A write of STEP: held while a change is in progress (R635). -/
def State.stepWrite (s : State) (q n : Nat) : State :=
  if (Tab.get (fun _ => none) s.stepGoing q).isSome then { s with stepHeld := Tab.set (fun _ => none) s.stepHeld q (some n) }
  else (s.setFld (qpwrBlk q) 0 0 1 n).chase q

/-- A step change ends: a step up takes effect, and a held write of STEP acts (R635). -/
def State.stepDone (s : State) (q : Nat) : State :=
  match Tab.get (fun _ => none) s.stepGoing q with
  | none => s
  | some n =>
    if s.stepOpen (.stepUp q n) then s else
    let s := s.stepNow q (if s.forced.contains q then 3 else n)
    let s : State := { s with stepGoing := Tab.set (fun _ => none) s.stepGoing q none }
    match Tab.get (fun _ => none) s.stepHeld q with
    | none => s.chase q
    | some h => ({ s with stepHeld := Tab.set (fun _ => none) s.stepHeld q none } : State).stepWrite q h

/-- The clock stretcher engages (R636, R622). -/
def State.stretch (s : State) (q : Nat) : State :=
  if s.stretched.contains q then s else
  let s : State := { s with stretched := s.stretched ++ [q] }
  let s := s.count (qpwrBlk q) 2 0 35
  s.fault (qpwrBlk q) 0 (s.reg (qpwrBlk q) 2)

/-- Every edge of CK_CORE is restored (R636). -/
def State.stretchEnd (s : State) (q : Nat) : State := { s with stretched := s.stretched.filter (· != q) }

/-- The L1D of a core writes its dirty lines to L2, and its L1s are invalidated (R310). -/
def State.l1Flush (s : State) (c : Nat) : State :=
  let s : State := { s with
    qlines := s.qlines.map fun e =>
      (e.1, if e.1 / 2 ^ 34 == quireOf c then (e.2.dropL1 c true).dropL1 c false else e.2) }
  (s.clearArray (l1Of c true)).clearArray (l1Of c false)

/-- The L2 of a quire enters retention once every core of the quire is cold and RETEN is 1, a duty of the quire's triptych (R372, R638). -/
def State.retain (s : State) (q : Nat) : State :=
  if s.acts (.quire (quireFin q)) && (List.range 6).all (fun i => (s.core (6 * q + i)).cold) && s.rbit (qpwrBlk q) 0 9 then s.setFld (qpwrBlk q) 1 14 14 1 else s

/-- A core goes cold with its store buffer drained (R282, R310, R638). -/
def State.coreCold (s : State) (c : Nat) : State :=
  ((s.l1Flush c).setCore c { s.core c with cold := true }).retain (quireOf c)

/-- A core in WAIT for 1 ms while PGW is 1 goes cold, a duty of the quire's triptych (R372, R638). -/
def State.powerGate (s : State) (c : Nat) : State :=
  let k := s.core c
  if !(s.acts (.quire (quireFin (quireOf c))) && k.active && k.run == .wait && !k.cold && s.rbit (qpwrBlk (quireOf c)) 0 8) then s else
  match s.drainEvent c with
  | none => s
  | some s => s.coreCold c

/-- A cold core is to wake: a large step (R630, R638). -/
def State.wakeCold (s : State) (c : Nat) : State := if (s.core c).cold then s.askStep (.coreWake c) false else s

/-- A retained L2 is to wake for a coherence request: a large step (R630, R638). -/
def State.wakeL2 (s : State) (q : Nat) : State := if s.retentive q then s.askStep (.quireWake q) false else s

/-- A retained L2 has finished waking (R638). -/
def State.l2Awake (s : State) (q : Nat) : State :=
  if s.stepOpen (.quireWake q) then s else s.setFld (qpwrBlk q) 1 14 14 0

/-- The granted step begins, a published frame having included it (R630): a core or a stack goes on; an L2, a regulator and an
engine end their ramp by a command of their own or change nothing but time. -/
def State.beginStep (s : State) : State :=
  match s.granted with
  | some (k, true) =>
    let s : State := { s with granted := none }
    match k with
    | .coreWake c => s.setCore c { s.core c with cold := false }
    | .unthrottle m => s.setFld (.memc (Fin.ofNat 16 m)) 0 2 2 0
    | _ => s
  | _ => s

/-- The power monitor's readings, which come every 1 ms (R650, R665): the manual gives no way to compute them, so each is a free value
(log entry 13). -/
def State.powerSample (s : State) : State :=
  let f := s.free 24
  let iin := f.1 / 4096 % 2048
  let s := f.2.setReg .pwr 1 (setField (setField (setField (0 : Word) 0 11 f.1) 12 22 iin) 23 23 (f.1 / 2 ^ 23))
  if s.fld .pwr 2 0 10 < iin then s.setFld .pwr 2 0 10 iin else s

/-- The 16 bits of a frame (R632). -/
def frameOf (amps urg : Nat) (seq : Bool) : BitVec 16 :=
  let n := 0xA000 + amps * 16 + urg * 4 + b2n seq * 2
  let ones := ((List.range 16).filter fun i => n.testBit i).length
  BitVec.ofNat 16 (n + (ones + 1) % 2)

/-- LF_CLK runs and frames are published: EN 1, PWROK high, the root PLL locked, and the gesso sequence of a cold reset at its
step 4 or past it (R631, R647). -/
def State.frames (s : State) : Bool :=
  s.rbit .lfi 0 0 && s.pins.pwrok && s.rbit .clk 0 0 &&
    match s.phase with | .off => false | .gesso k cold => !cold || decide (4 ≤ k) | _ => true

/-- The current that a forecast may give (R629): above ICAP, and up to 1,300 A, for at most 1 ms, and not within 9 ms of the last time;
otherwise ICAP is its limit. -/
def State.capped (s : State) (amps : Nat) : Nat × State :=
  let cap := s.fld .pwr 0 7 17
  let now := s.clock.toNat
  if amps ≤ cap then (amps, if s.surge.1.isSome then { s with surge := (none, some now) } else s)
  else match s.surge with
    | (some a, _) => if now ≤ a + 650000 then (Nat.min amps 1300, s) else (cap, { s with surge := (none, some now) })
    | (none, some e) => if e + 5850000 ≤ now then (Nat.min amps 1300, { s with surge := (some now, none) }) else (cap, s)
    | (none, none) => (Nat.min amps 1300, { s with surge := (some now, none) })

/-- A frame is published (R630, R632): AMPS of the forecast, URG against the frame before, the sequence bit and parity. A granted
step is in it, and a taken reserve is free again 2 µs later. -/
def State.frame (s : State) (amps : Nat) (shedding : Bool) : State :=
  if !s.frames then s else
  let r := s.capped amps
  let s := r.2
  let a := Nat.min 0xFF ((r.1 + 4) / 8)
  let was := s.fld .lfi 1 0 7
  let urg := if shedding then 3 else if was < a then 1 else if a < was then 2 else 0
  let s := s.emit (.frame (frameOf a urg s.frameSeq))
  let s : State := { s with
    frameSeq := !s.frameSeq
    granted := s.granted.map fun g => (g.1, true)
    reserve := (List.range 8).foldl (fun r t =>
      if Tab.get (fun _ => 0) r t = 1 then Tab.set (fun _ => 0) r t (s.clock.toNat + 1300)
      else if s.reserveFree t then Tab.set (fun _ => 0) r t 0 else r) s.reserve }
  (s.setFld .lfi 1 0 7 a).setFld .lfi 1 8 9 urg

end Sys2Proof.Machine
end

