-- ==== Sys2Proof/Machine/Retry.lean ====
section
/-! DEFINITION. Retry, shedding, couching and core lost (R350-R370), the sheet checkstop (R344), and the triptychs with the reset
shadows they cast (R371-R382, R618). -/

namespace Sys2Proof.Machine

open Sys2Proof

/-- Work that has to wait joins what waits. -/
def State.addWait (s : State) (w : Wait) : State := { s with waits := s.waits.filter (· != w) ++ [w] }

/-- HAVE bit of a quire (R47). -/
def State.setHave (s : State) (q : Nat) (b : Bool) : State := s.setFld .ident 3 q q (b2n b)

/-- The core that is a quire's designated spare (R27). -/
def State.spareCore (s : State) (q : Nat) : Nat := 6 * q + Tab.get (fun _ => 5) s.spareOf q

/-- A sheet owns a quire whole: every core of it that is neither failed nor the designated spare belongs to the sheet (R50). -/
def State.ownsQuire (s : State) (sh q : Nat) : Bool :=
  let cs := (List.range 6).map fun i => 6 * q + i
  (cs.any fun c => (s.core c).sheet == some sh) &&
    cs.all fun c => (s.core c).sheet == some sh ||
      ((s.core c).sheet.isNone && (c == s.spareCore q || (s.core c).cstate == .failed))

/-- The quires whose spare a shed core may take, in the order of R360: its own, and then others of its tile. -/
def State.spareQuires (s : State) (c sh : Nat) : List Nat × List Nat :=
  let q := quireOf c
  let conf := s.rbit .deckle (0o100 + sh) 2
  let others := ((List.range 4).map fun i => 4 * tileOf c + i).filter fun p =>
    p != q && !(List.range 64).any fun n => n != sh && s.ownsQuire n p
  (if conf && !s.ownsQuire sh q then [] else [q],
    others.filter (fun p => s.ownsQuire sh p) ++ (if conf then [] else others.filter fun p => !s.ownsQuire sh p))

/-- A spare that a couching gives back goes to its quire as the designated spare (R366). -/
def State.spareBack (s : State) (p : Nat) : State :=
  if (s.core p).cstate != .couching then s else
  let q := quireOf p
  let s := s.setCore p { s.core p with cstate := .spare, cold := true }
  let s : State := { s with
    spareOf := Tab.set (fun _ => 5) s.spareOf q (p % 6)
    steps := s.steps.filter fun x => x.1 != .coreWake p }
  s.setHave q true

/-- A couching ends with COUCH LOST under a sheet checkstop (R366). -/
def State.couchLost (s : State) (c : Nat) : State :=
  match (s.core c).couch with
  | none => s
  | some k =>
    let s := (s.setFld (retryBlk c) 0 0 2 5).setCore c { s.core c with couch := none }
    match k.spare with
    | some p => s.spareBack p
    | none => s

/-- A frozen master is released (R67, R68): FROZEN falls, and its record is cleared, or kept with VALID 0. -/
def State.thaw (s : State) (f : Frozen) (keep : Bool) : State :=
  let s : State := { s with frozen := s.frozen.erase f }
  let s := s.setFld .deckle (0o100 + f.sheet) 9 26 (s.fld .deckle (0o100 + f.sheet) 9 26 - 1)
  match f.recIdx with
  | none => s
  | some i =>
    if keep then s.setFld .deckle (0o4000 + 4 * i) 0 0 0
    else (List.range 4).foldl (fun s j => s.setReg .deckle (0o4000 + 4 * i + j) 0) s

/-- A sheet checkstops (R344): its cores stop with their state kept, its couchings are lost, its exchanges and engine jobs end
(R458, R520, R543), its frozen subchannels are released in DISCARD mode (R458), and firmware reports it (R597). -/
def State.checkstop (s : State) (sh subject : Nat) (detail : Word) : State :=
  if (s.sheet sh).checkstop then s else
  let s := s.setSheet sh { s.sheet sh with running := false, checkstop := true }
  let s := (List.range 192).foldl (fun s c => if (s.core c).sheet == some sh then s.couchLost c else s) s
  let s := (s.frozen.filter fun f => f.type == 2 && f.sheet == sh).foldl (fun s f => (s.thaw f true).releaseSub f.ident false) s
  let s := ((s.clearSheetIo sh 0o017 0).calDropSheet sh).varDropSheet sh
  (s.logEvent 1 sh subject detail).emit (.checkstop sh subject)

/-- A checkstop for which the manual names no dead agent and no recorded cause: both are free values. -/
def State.checkstopFree (s : State) (sh : Nat) : State :=
  let a := s.free 22
  let b := a.2.free 36
  b.2.checkstop sh a.1 (w36 b.1)

/-- Quire agents are dead: every sheet with one of them in its quire set checkstops, and each of them is named (R343, R344). -/
def State.quiresDead (s : State) (qs : List Nat) (cause : Nat) : State :=
  ((List.range 64).filter fun n => s.validSheet n && !(s.sheet n).checkstop).foldl (fun s n =>
    match qs.filter fun q => s.rbit .deckle (0o400 + n) q with
    | [] => s
    | q :: r => r.foldl (fun s q => (s.logEvent 1 n q (w36 cause)).emit (.checkstop n q)) (s.checkstop n q (w36 cause))) s

/-- A quire agent is dead (R343, R344). -/
def State.quireDead (s : State) (q cause : Nat) : State := s.quiresDead [q] cause

/-- A home slice is dead: every sheet whose SLICES names it checkstops (R343, R344). -/
def State.homeDead (s : State) (h cause : Nat) : State :=
  ((List.range 64).filter fun n => s.validSheet n && s.rbit .deckle (0o300 + n) h).foldl
    (fun s n => s.checkstop n (2 ^ 21 + h) (w36 cause)) s

/-- Translate a supervisor-state D-space store of core `c` (R369). -/
def State.supXlate (s : State) (c va : Nat) : Option (Option Xl × State) :=
  let b := (s.core c).cur
  let sup := s.setCurBank c { b with psw := setField b.psw 0 0 0 }
  (sup.tryXlate c 2 2 va).map fun r => (r.1, r.2.setCurBank c { r.2.curBank c with psw := b.psw })

/-- A save area of the free list: its address, and where it stands. -/
structure Area where
  addr : Nat
  at_  : Xl

/-- Take `n` areas from a free list, with every check of a spill (R255, R369): the areas and the rest of the list. -/
def State.areas (s : State) (c : Nat) : Nat → DWord → Option (Option (List Area × DWord) × State)
  | 0, p => some (some ([], p), s)
  | n + 1, p =>
    let a := ptrAddr p
    if a = 0 ∨ a % 32 ≠ 0 then some (none, s) else
    match s.supXlate c a with
    | none => none
    | some (none, s) => some (none, s)
    | some (some x, s) =>
      match s.getDwAt c (x.mp + 2) with
      | none => none
      | some (none, s) => some (none, s)
      | some (some link, s) =>
        (s.areas c n link).map fun r => (r.1.map fun y => ({ addr := a, at_ := x } :: y.1, y.2), r.2)

/-- The dump of a lost core (R369): two areas for each busy bank from 7 down. The sheet-absolute address of the highest bank's
lower area, none inside when a check fails and nothing is written; none while a line is busy. -/
def State.dump (s : State) (c : Nat) : Option (Option Nat × State) :=
  let k := s.core c
  let busy := (List.range 8).reverse.filter fun l => (k.bank l).busy
  match s.areas c (2 * busy.length) (k.ctlReg 0) with
  | none => none
  | some (none, _) => some (none, s)
  | some (some (as, rest), s) =>
    let link (i : Nat) : DWord := match as[i]? with | some x => ptrTo x.addr | none => rest
    let put (i : Nat) (ds : List (Nat × DWord)) (s : State) : Option State :=
      match as[i]? with | some x => s.putArea c x.at_ ds | none => some s
    let one (s? : Option State) (x : Nat × Nat) : Option State :=
      let b := k.bank x.1
      let i := 2 * x.2
      (s?.bind (put i ([(0, dword (saHeader true true x.1) 0), (2, link (i + 3))] ++ halfDws b true))).bind
        (put (i + 1) ([(0, dword (saHeader false true x.1) 0), (2, link i)] ++ halfDws b false ++ [(20, b.psw), (22, b.slim)]))
    (busy.zipIdx.foldl one (some s)).map fun s => (as[1]?.map (·.at_.sa), s)

/-- The machine checks for dirty lines that a core lost, at the service core (R291, R294). -/
def State.lostChecks (s : State) (sh c : Nat) (ls : List Nat) : State :=
  ls.foldl (fun s l => match s.sheetAbs l with
    | some (_, sa) => s.postService sh { level := 7, code := 0o702, param := 0o001 * 512 + c, info := w36 (sa / 16) }
    | none => s) s

/-- Core lost (R368, R370): carried stores, the dump, LOST and FAILED, then 0o701. None while a line is busy. -/
def State.coreLost (s : State) (c reason : Nat) : Option State :=
  let k := s.core c
  let sh := k.sheet.getD 64
  (s.drainEvent c).bind fun s =>
    (if reason = 2 then some (none, s) else s.dump c).map fun r =>
      let s := r.2
      let lost := match k.couch with | some x => x.lostLines | none => []
      let s := s.setFld (retryBlk c) 0 0 2 5
      let s := s.setCore c { s.core c with cstate := .failed, couch := none, sheet := none, outs := [] }
      let s := s.lostChecks sh c lost
      let s := s.postService sh { level := 7, code := 0o701, param := reason * 512 + c, info := w36 ((r.1.getD 0) / 32) }
      s.logEvent 2 (sh % 64) c (w36 reason)

/-- A core is lost as soon as no line in the way of its stores and its dump is busy (R368). -/
def State.lose (s : State) (c reason : Nat) : State :=
  if (s.core c).couch.isNone then s else (s.coreLost c reason).getD (s.addWait (.lost c reason))

/-- The spare of a quire is claimed for a shed core, and its wake starts (R360, R48). -/
def State.claimSpare (s : State) (c q : Nat) (k : Couch) : State :=
  let p := s.spareCore q
  let s := (s.setHave q false).setCore p { s.core p with cstate := .couching }
  let s := s.setCore c { s.core c with couch := some { k with spare := some p, woke := false, transferred := false } }
  s.couchWake p

/-- Choose a spare for a shed core, or find none and lose the core (R360, R361). The quire's triptych chooses within the quire, the
tile's across the tile (R372); where no supervisor carries the duty now the choice waits (R377). -/
def State.chooseSpare (s : State) (c : Nat) : State :=
  match (s.core c).couch with
  | none => s
  | some k =>
    if k.spare.isSome || !s.served (quireOf c) then s else
    if k.cause = 6 then s.lose c 2 else
    let free (q : Nat) : Bool := s.rbit .ident 3 q && (s.core (s.spareCore q)).cstate == .spare
    let qs := s.spareQuires c ((s.core c).sheet.getD 64)
    match qs.1.find? free with
    | some q => s.claimSpare c q k
    | none =>
      if !s.acts (.tile (tileFin (tileOf c))) then s else
      match qs.2.find? free with
      | some q => s.claimSpare c q k
      | none => s.lose c 1

/-- Insert a shed core, with the clock of its SHED, among those after it in order. -/
def insertShed (x : Nat × Nat) : List (Nat × Nat) → List (Nat × Nat)
  | [] => [x]
  | y :: r => if x.1 ≤ y.1 then x :: y :: r else y :: insertShed x r

/-- The choices of spares that waited for a supervisor are made, in the order of the SHED cycles and within one in ascending core
number (R361, R377). -/
def State.choicesGo (s : State) : State :=
  let ws := (s.cores.filterMap fun e => e.2.couch.bind fun k => if k.spare.isNone then some (k.shedAt, e.1) else none).foldr insertShed []
  ws.foldl (fun s x => s.chooseSpare x.2) s

/-- A dirty L1D line is lost: the L2 poisons its copy, which is now the home copy (R291). -/
def State.lineLost (s : State) (c l : Nat) : State :=
  let q := quireOf c
  let s := s.setQline q l { s.qline q l with data := poisonLine, dirty := true, l1dirty := none, perm := none }
  match s.sheetAbs l with
  | some (_, sa) => s.fault (coreBlk c) 2 (w36 (sa / 16))
  | none => s

/-- Shed a core in service (R358-R361, R380): its lines that are lost, its dirty lines to L2, SHED with its open OUTs asked for, and the
search for a spare, which a core of no sheet does not need. -/
def State.shed (s : State) (c cause : Nat) (lines : List Nat) : State :=
  if !(s.core c).active then s else
  let sh := (s.core c).sheet.getD 64
  let s := lines.foldl (fun s l => s.lineLost c l) s
  let s := s.l1Flush c
  let s := s.askOuts c
  let s := ((s.setFld (retryBlk c) 0 0 2 1).setFld (retryBlk c) 0 5 10 cause).setReg (retryBlk c) 2 (w36 (micros 36 s))
  let k : Couch := { cause := cause, shedAt := s.clock.toNat, spare := none, woke := false, transferred := false, lostLines := lines }
  let s := s.setCore c { s.core c with cstate := .failed, cold := true, couch := some k }
  let s := s.fault (retryBlk c) 1 (w36 cause)
  if sh = 64 then s.couchLost c else if s.acting (.quire (quireFin (quireOf c))) = 3 then s.checkstopFree sh else s.chooseSpare c

/-- The lines of an L1D set for which core `c` has write permission (R292). -/
def State.permLines (s : State) (c set : Nat) : List Nat :=
  (s.qlines.filter fun e => e.1 / 2 ^ 34 == quireOf c && e.2.perm == some c && e.1 % 256 == set).map fun e => e.1 % 2 ^ 34

/-- A parity error in a line of an L1I, or of an L1D where it is not dirty: the copy is dropped, and the next access fetches it again
(R290). -/
def State.l1Parity (s : State) (c l : Nat) : State :=
  let q := quireOf c
  s.setQline q l (((s.qline q l).dropL1 c true).dropL1 c false)

/-- Instruction retry (R354, R355): the committed stores drain, and the core goes on from its checkpoint, which is the state it
has; at ATTEMPTS = 3 it sheds. While a line is busy the retry waits for it. -/
def State.retryCore (s : State) (c cause : Nat) : State :=
  let b := retryBlk c
  let n := s.fld b 0 3 4
  if n = 3 then s.shed c cause [] else
  match s.drainEvent c with
  | none => s.addWait (.recover c cause 0)
  | some s =>
    let s := ((s.setFld b 0 3 4 (n + 1)).setFld b 0 5 10 cause).setReg b 2 (w36 (micros 36 s))
    (s.count b 1 0 35).fault b 0 (w36 cause)

/-- The recovery unit acts on a cause (R356): cause 0o04 names the line that was read with an error, cause 0o05 a line of the set. -/
def State.recover (s : State) (c cause l : Nat) : State :=
  if !(s.core c).active || match (s.core c).sheet with | some sh => (s.sheet sh).checkstop | none => false then s else
  match cause with
  | 1 | 2 | 3 | 0o13 => s.retryCore c cause
  | 4 => if (s.qline (quireOf c) l).l1dirty = some c then s.shed c 4 [l] else s.l1Parity c l
  | 5 => s.shed c 5 (s.permLines c (l % 256))
  | 6 => s.shed c 6 []
  | 7 =>
    let s := s.setFld (retryBlk c) 0 5 10 7
    match (s.core c).sheet with | some sh => s.checkstopFree sh | none => s
  | 0o10 | 0o11 | 0o12 => ((s.drainEvent c).map fun s => s.coreStop c cause).getD (s.addWait (.recover c cause 0))
  | _ => s

/-- After 4,096 retire groups without error ATTEMPTS returns to 0 (R355). -/
def State.attemptsClear (s : State) (c : Nat) : State :=
  if (s.core c).active then s.setFld (retryBlk c) 0 3 4 0 else s

/-- COUCH of a core (R358): FENCING is entered within 40 ns, 26 CK_SUP cycles, of SHED. -/
def State.couchState (s : State) (c : Nat) : Nat :=
  let st := s.fld (retryBlk c) 0 0 2
  match st, (s.core c).couch with
  | 1, some k => if k.shedAt + 26 ≤ s.clock.toNat then 2 else 1
  | _, _ => st

/-- A later event of a couching finds the web port of the shed core FENCING (R358). -/
def State.fencing (s : State) (c : Nat) : State := if s.fld (retryBlk c) 0 0 2 = 1 then s.setFld (retryBlk c) 0 0 2 2 else s

/-- Every transaction of a shed core is performed or complete (R358): not while an OUT has not reached its end point or an IN waits for
its data. -/
def State.couchFenced (s : State) (c : Nat) : State :=
  let k := s.core c
  match k.couch with
  | none => s
  | some _ =>
    let s := s.fencing c
    if s.couchState c ≠ 2 ∨ k.outs ≠ [] ∨ (match k.run with | .devIn _ _ => true | _ => false) = true then s
    else s.setFld (retryBlk c) 0 0 2 3

/-- The shed core that a spare is couched for. -/
def State.couchedFor (s : State) (p : Nat) : Option Nat :=
  (s.cores.find? fun e => match e.2.couch with | some k => k.spare == some p | none => false).map (·.1)

/-- A spare ends its wake and self-test, or fails it and the search goes on (R350, R362); nothing while its large step has not
begun (R630) or no supervisor acts (R377). -/
def State.wakeDone (s : State) (p : Nat) (pass : Bool) : State :=
  match s.couchedFor p with
  | none => s
  | some c =>
    match (s.core c).couch with
    | none => s
    | some k =>
      if k.woke || s.stepOpen (.coreWake p) || !s.served (quireOf c) then s
      else if pass then
        ((s.setCore c { s.core c with couch := some { k with woke := true } }).setCore p { s.core p with cold := false }).wakeL2 (quireOf p)
      else
        let s := s.setCore c { s.core c with couch := some { k with spare := none } }
        (s.setCore p { s.core p with cstate := .failed, cold := true }).chooseSpare c

/-- The checkpoint transfer into the spare ends (R364). -/
def State.transferDone (s : State) (p : Nat) : State :=
  match s.couchedFor p with
  | none => s
  | some c =>
    match (s.core c).couch with
    | some k => if k.woke && s.served (quireOf c) then s.setCore c { s.core c with couch := some { k with transferred := true } } else s
    | none => s

/-- The run state in which a spare takes up a checkpoint: an access that had not been made is made again (R351, R367). -/
def Run.resumed : Run → Run
  | .devIn _ _ | .held _ _ _ _ => .running
  | r => r

/-- The freeze of a master passes to another identity (R367). -/
def State.moveFreeze (s : State) (c p : Nat) : State :=
  match s.frozen.find? fun f => f.type == 1 && f.ident == c with
  | none => s
  | some f =>
    let s : State := { s with frozen := s.frozen.map fun g => if g.type == 1 && g.ident == c then { g with ident := p } else g }
    match f.recIdx with
    | some i => s.setFld .deckle (0o4000 + 4 * i) 18 35 p
    | none => s

/-- The CORE registers that a checkpoint holds, every L and RW field of the block, FMASK and FINJ among them (R351); DRAINING starts
clear. -/
def State.copyCoreRegs (s : State) (c p : Nat) : State :=
  let s := [0o200, 0o201, 0o202, 0o203, 0o204, 0o205, 0o206, 0o207, 0o211, 0o220, 0o777701, 0o777704].foldl
    (fun s o => s.setReg (coreBlk p) o (s.reg (coreBlk c) o)) s
  s.setFld (coreBlk p) 0o220 2 2 0

/-- The spare takes the place of the shed core (R279, R364-R367, R318): RELEASED, the checkpoint, the carried stores issued before its
first instruction, the sheet, the freeze, the quire set, and the notices. None while a line of a carried store is busy. OUTs of the
shed core that are still open end there (R281). -/
def State.takePlace (s : State) (c p : Nat) (lost : List Nat) : Option State :=
  let k := s.core c
  let sh := k.sheet.getD 64
  let s := (s.setFld (retryBlk c) 0 0 2 4).setFld (retryBlk p) 0 0 4 0
  let n : Core := { k with
    cstate := .active, pausing := false
    run := (if k.pausing then Run.stopped (k.run == .wait) else k.run.resumed), cold := false, couch := none, tlb := [], walk := [], outs := [] }
  let s := s.setCore p n
  let s := s.setCore c { k with couch := none, sheet := none, pend := [], stores := [], gather := none }
  let s := ((s.copyCoreRegs c p).moveFreeze c p).setFld .deckle (0o400 + sh) (quireOf p) (quireOf p) 1
  (s.drainAll p).map fun s =>
    ((s.logEvent 5 sh (c * 256 + p) 0).lostChecks sh c lost).addWait (.notice c p false)

/-- The release condition of SUBST_MODE holds, and the spare is released once no line of a carried store is busy (R279, R364, R365). -/
def State.spareRelease (s : State) (p : Nat) : State :=
  match s.couchedFor p with
  | none => s
  | some c =>
    match (s.core c).couch with
    | none => s
    | some k =>
      let overlap := s.rbit .deckle (0o100 + (s.core c).sheet.getD 0) 3
      let s := s.fencing c
      let st := s.couchState c
      if k.transferred && s.served (quireOf c) && (st == 3 || (st == 2 && overlap)) then
        (s.takePlace c p k.lostLines).getD (s.addWait (.release p))
      else s

/-- A sheet has a couching in progress (R367). -/
def State.couches (s : State) (sh : Nat) : Bool := s.cores.any fun e => e.2.sheet == some sh && e.2.couch.isSome

/-- The instances that a block's reset shadow covers (R618). -/
def State.shadowOf (s : State) (b : Blk) : List Blk :=
  let quires (h : Nat) : List Nat := positions 32 fun q =>
    (List.range 64).any fun n => s.validSheet n && s.rbit .deckle (0o300 + n) h && s.rbit .deckle (0o400 + n) q
  let slices (q : Nat) : List Nat := positions 32 fun h =>
    (List.range 64).any fun n => s.validSheet n && s.rbit .deckle (0o300 + n) h && s.rbit .deckle (0o400 + n) q
  match b with
  | .qtrip q => (List.range 6).map fun i => retryBlk (6 * q.val + i)
  | .home h => (quires h.val).map fun q => .quire (quireFin q)
  | .quire q => (slices q.val).map fun h => dirBlk h
  | .stack m => [.memc m]
  | .pwr => (List.range 32).map qpwrBlk
  | .web t p =>
    let far := (t.val + 1 + p.val) % 8
    ((List.range 4).map fun i => Blk.home (Fin.ofNat 32 (4 * t.val + i))) ++ [.web (tileFin far) (Fin.ofNat 7 (6 - p.val))]
  | .endpt => [.easel 0]
  | .easel t => [.vat (Fin.ofNat 16 (2 * t.val)), .vat (Fin.ofNat 16 (2 * t.val + 1))]
  | .ttrip t => (List.range 4).map fun i => .qtrip (quireFin (4 * t.val + i))
  | .mtrip => (List.range 8).map fun t => .ttrip (tileFin t)
  | _ => []

/-- A block enters a reset: it casts its shadow (R618). -/
def State.castShadow (s : State) (b : Blk) : State :=
  let new := ((s.shadowOf b).map fun n => (b, n)).filter fun x => !s.shadows.contains x
  { s with shadows := s.shadows ++ new }

/-- Level of a triptych as the event log gives it, the console's levels 1 quire and 2 tile with 3 for the module, and its number
(R581, R597). -/
def tripSubject : Trip → Nat
  | .quire q => 256 + q.val
  | .tile t => 512 + t.val
  | .module => 768

/-- Set MODE; a change of MTHALT is cause 3 of ISTAT (R551). -/
def State.setTmode (s : State) (t : Trip) (m : Nat) : State :=
  let was := s.mtHalt
  let s := s.setFld (tripBlk t) 0 0 2 m
  if t == .module && was != s.mtHalt then s.istat 3 else s

/-- A commit or revert that was not stamped is discarded at a halt of the module triptych; its slot ends later (R381). -/
def State.dropUnstamped (s : State) : State :=
  match s.commit with
  | some c => if c.stamped then s else { s with commit := none }.setFld .wmark 4 0 2 0
  | none => s

/-- A triptych enters HALTED (R376, R381). -/
def State.tripHalt (s : State) (t : Trip) : State :=
  let was := s.tmode t
  let s := s.setTmode t 3
  let s : State := { s with carried := s.carried.filter (· != t), restarted := s.restarted.filter (· != t) }
  let s := (s.fault (tripBlk t) 2 (w36 was)).logEvent 4 0 (tripSubject t) (w36 was)
  if t == .module then s.dropUnstamped else s

/-- Number of a triptych in the tables of panel memory. -/
def tripNo : Trip → Nat
  | .quire q => q.val
  | .tile t => 32 + t.val
  | .module => 40

/-- Words of panel memory of a triptych: 256 KiW, 1 MiW or 4 MiW (R371). -/
def panelWords : Trip → Nat
  | .quire _ => 2 ^ 18
  | .tile _ => 2 ^ 20
  | .module => 2 ^ 22

/-- What a word of panel memory holds that nothing has changed since it was loaded: that of the Dunul image (R371, R379). -/
def panelDefault (k : Nat) : Word := Config.dunulWord (k / 2 ^ 22 / 3 * 2 ^ 22 + k % 2 ^ 22)

/-- Key of word `w` of panel `p` of a triptych. -/
def panelKey (t : Trip) (p w : Nat) : Nat := (3 * tripNo t + p) * 2 ^ 22 + w

/-- The entries of a panel that differ from the image, by word. -/
def State.panelMem (s : State) (t : Trip) (p : Nat) : Tab Word :=
  (s.panels.filter fun e => e.1 / 2 ^ 22 == 3 * tripNo t + p).map fun e => (e.1 % 2 ^ 22, e.2)

/-- All three panels of a triptych hold the image (R379, R382). -/
def State.loadPanels (s : State) (t : Trip) : State :=
  { s with panels := s.panels.filter fun e => e.1 / 2 ^ 22 / 3 != tripNo t }

/-- The bit-wise majority of three panels' outputs (R371). -/
def voted (a b c : Word) : Word := (a &&& b) ||| (b &&& c) ||| (a &&& c)

/-- A loopback pattern reads back wrong (R375). -/
def loopFails (x : PanelTest) : Bool :=
  vget x.loop 0 0 != 0o525252525252#36 || vget x.loop 1 0 != 0o252525252525#36

/-- A wire fault of panel `p`: WIRE is set, and the triptych goes to DUPLEX with the panel fenced (R375). -/
def State.wireFault (s : State) (t : Trip) (p : Nat) : State :=
  ((s.setFld (tripBlk t) 0 (6 + p) (6 + p) 1).setTmode t 2).fault (tripBlk t) 1 (w36 p)

/-- One panel of a TRIPLEX triptych is outvoted: it is fenced and tested, and reloaded unless its wires are at fault or this is its third
time in 24 h (R373-R375). -/
def State.panelFence (s : State) (t : Trip) (p : Nat) (test : PanelTest) : State :=
  let b := tripBlk t
  let now := s.clock.toNat
  let s := (s.count b 0 18 26).setFld b 0 (3 + p) (3 + p) 1
  let s : State := { s with outvotes := s.outvotes ++ [(t, p, now)] }
  let times := (s.outvotes.filter fun x => x.1 == t && x.2.1 == p && decide (now < x.2.2 + 86400 * 650000000)).length
  let s := s.fault b 0 (w36 p)
  if test.pass && loopFails test then s.wireFault t p
  else s.setTmode t (if 3 ≤ times then 2 else 1)

/-- The outputs of the panels in a CK_SUP cycle: those in use that differ from the voted output are outvoted (R371, R373-R376). -/
def State.panelOutvote (s : State) (t : Trip) (a b c : Word) (test : PanelTest) : State :=
  let blk := tripBlk t
  let live := [(0, a), (1, b), (2, c)].filter fun x => !s.rbit blk 0 (3 + x.1)
  match s.tmode t with
  | 0 =>
    match live.filter fun x => x.2 != voted a b c with
    | [] => s
    | [x] => s.panelFence t x.1 test
    | xs => (xs.foldl (fun s x => (s.count blk 0 18 26).fault blk 0 (w36 x.1)) s).tripHalt t
  | 1 | 2 =>
    match live with
    | x :: xs => if xs.all fun y => y.2 == x.2 then s else s.tripHalt t
    | [] => s
  | _ => s

/-- A fenced panel's reload ends (R374, R375): its memory is copied from the two good panels, and a word in which they differ halts the
triptych; a panel that passes its tests joins the vote, one with a wire fault stays fenced in DUPLEX, and any other is reloaded again.
`upset` is a word of a panel that has changed by itself. -/
def State.panelReload (s : State) (t : Trip) (upset : Option (Nat × Nat × Word)) (test : PanelTest) : State :=
  if s.tmode t ≠ 1 then s else
  let b := tripBlk t
  let s : State := match upset with
    | some (p, w, v) => if w < panelWords t then { s with panels := Tab.set panelDefault s.panels (panelKey t p w) v } else s
    | none => s
  match (List.range 3).filter fun p => !s.rbit b 0 (3 + p), (List.range 3).filter fun p => s.rbit b 0 (3 + p) with
  | [x, y], [p] =>
    if s.panelMem t x != s.panelMem t y then s.tripHalt t else
    let s : State := { s with panels := ((s.panelMem t x).foldl (fun m e => Tab.set panelDefault m (panelKey t p e.1) e.2)
      (s.panels.filter fun e => e.1 / 2 ^ 22 != 3 * tripNo t + p)) }
    let s := s.count b 0 27 35
    if !test.pass then s
    else if loopFails test then s.wireFault t p
    else (s.setFld b 0 3 5 0).setTmode t 0
  | _, _ => s

/-- Duties that waited for a supervisor go on: choices of spares, set-points and CK_CORE steps, and retention (R372, R377). -/
def State.dutiesGo (s : State) : State := (List.range 32).foldl (fun s q => (s.chase q).retain q) s.choicesGo

/-- The parent takes over the duties of a halted triptych; what waited for a supervisor goes on (R377). -/
def State.takeover (s : State) (t : Trip) : State :=
  if s.acting t = 0 ∨ s.acting t = 3 ∨ s.carried.contains t then s else
  ({ s with carried := s.carried ++ [t] } : State).dutiesGo

/-- All three panels are being reloaded (R373, R379). -/
def State.tripReload (s : State) (t : Trip) : State := ((s.loadPanels t).setTmode t 4).castShadow (tripBlk t)

/-- The parent restarts a halted child, once (R379). -/
def State.tripRestart (s : State) (t : Trip) : State :=
  if s.tmode t ≠ 3 ∨ t = .module ∨ s.acting t = 3 ∨ s.restarted.contains t then s
  else { s with restarted := s.restarted ++ [t] }.tripReload t

/-- A long command on a triptych ends (R581, R585). -/
def State.tripOps (s : State) (t : Trip) (reply : Nat) : State :=
  (s.longOps.filter fun o => o.op == 0x33 && o.target == tripSubject t).foldl (fun s o => s.slotDone o.slot reply) s

/-- The restarted child passes its self-test and takes its duties back, or stays halted; a restart by fault reaction that fails is a
halt (R379, R613). -/
def State.restartDone (s : State) (t : Trip) (pass : Bool) : State :=
  if s.tmode t ≠ 4 ∨ t = .module then s
  else if pass then
    let s := ((s.setFld (tripBlk t) 0 3 8 0).setTmode t 0).tripOps t 0
    ({ s with
      carried := s.carried.filter (· != t), restarted := s.restarted.filter (· != t)
      outvotes := s.outvotes.filter fun x => x.1 != t } : State).dutiesGo
  else if s.restarted.contains t then (s.setTmode t 3).tripOps t 0xF
  else
    let s := s.tripHalt t
    { s with restarted := s.restarted ++ [t] }.tripOps t 0xF

/-- A supervisor-only reset begins (R382, R553, R594): from HALTED, from a halt made at this instant, or, for a fault reaction,
without one. Its MTRIP_STAT takes its Reset values (R15, R640). Ignored while one is in progress. -/
def State.superReset (s : State) (byReaction : Bool) : State :=
  if s.tmode .module = 4 then s else
  let s := if s.tmode .module = 3 then s else if byReaction then s.dropUnstamped else s.tripHalt .module
  -- MSTAT shows the halt until the reset has ended (R665)
  let s : State := if s.tmode .module = 3 then { s with restarted := s.restarted.filter (· != .module) ++ [.module] } else s
  let s : State := { s with nonce := none }
  ((s.setBar 0 0x20 (s.bar 0 0x20 ||| 8#32)).setReg .mtrip 0 (setField 0 0 2 (s.tmode .module))).tripReload .module

/-- The supervisor-only reset ends (R382): SVBUSY clears. Where the image verifies and the panels pass their tests the module triptych
resumes its duties: the replies that waited are given, choices of spares go on, and the slot of a discarded commit ends (R381, R595);
otherwise it is HALTED (R373). -/
def State.superDone (s : State) (pass : Bool) : State :=
  if s.tmode .module ≠ 4 then s else
  let s := s.setBar 0 0x20 (s.bar 0 0x20 &&& ~~~8#32)
  if !pass then s.tripHalt .module else
  let s := s.setTmode .module 0
  let s : State := { s with
    outvotes := s.outvotes.filter fun x => x.1 != .module, restarted := s.restarted.filter (· != .module) }
  let s := (s.longOps.filterMap fun o => o.reply.map fun r => (o.slot, r)).foldl (fun s x => s.slotDone x.1 x.2) s
  let s := s.dutiesGo
  if s.commit.isSome then s else
  (s.longOps.filter fun o => o.op == 0x22 || o.op == 0x23).foldl (fun s o => s.slotDone o.slot 0xD) s

/-- A key byte written to SVRST (R553): 0xA5, then 0x5A within 1 ms with no other write between. -/
def State.svKey (s : State) (v : Octet) : State :=
  let now := s.clock.toNat
  let armed := match s.endpt.svArm with | some a => decide (now ≤ a + 650000) | none => false
  let arm (x : Option Nat) : State := { s with endpt := { s.endpt with svArm := x } }
  if v = 0xA5 then arm (some now)
  else if v = 0x5A ∧ armed = true then
    let s := arm none
    if s.bar 0 0x20 &&& 8#32 = 8#32 then s else s.superReset false
  else arm none

/-- A host write of a BAR0 register (R551, R558, R649). -/
def State.bar0Write (s : State) (f off : Nat) (v : BitVec 32) : State :=
  if !s.memOk f then s else
  let s := s.hostTraffic
  if !s.endpt.ready && off != 0x20 && off != 0x24 then s
  else if f = 0 then
    if off = 0x30 then s.svKey (v.setWidth 8) else s.pf0Write off v
  else s.pf1Write off v

end Sys2Proof.Machine
end

