-- ==== Sys2Proof/Machine/Operands.lean ====
section
/-! DEFINITION. The decoder of the core (R128-R160) over the nonets a command carries, the operands it forms (R143-R152),
and reading and writing an operand (R163, R212). -/

namespace Sys2Proof.Machine

open Sys2Proof

/-- The role of an operand in a template (R142). -/
inductive Role where
  | s | d | x | m | r | t
deriving DecidableEq, Repr

/-- The kind of an operand (R142). -/
inductive Kind where
  | i | i2 | f | p
deriving DecidableEq, Repr

/-- Where an operand's width comes from: the width prefix, a fixed width, the destination width of MOVZ and MOVX (R142). -/
inductive WSel where
  | op | fix (w : Wid) | ext
deriving DecidableEq, Repr

/-- One operand of a template. -/
structure TOp where
  role : Role
  kind : Kind
  wsel : WSel
deriving DecidableEq, Repr

/-- A row of R142: page and opcode, operands, the width prefixes accepted, the other prefixes accepted, privileged (R141). -/
structure Tmpl where
  esc    : Bool
  code   : Nat
  ops    : List TOp
  widths : List Wid
  pre    : List Nat
  priv   : Bool
deriving DecidableEq, Repr

/-- A row of the primary page. -/
def prim (code : Nat) (ops : List TOp) (widths : List Wid) (pre : List Nat) : Tmpl := ⟨false, code, ops, widths, pre, false⟩
/-- A privileged row of the secondary page. -/
def secd (code : Nat) (ops : List TOp) : Tmpl := ⟨true, code, ops, [], [], true⟩
/-- An operand of the operation width. -/
def ow (r : Role) (k : Kind) : TOp := ⟨r, k, .op⟩
/-- An operand of a fixed width. -/
def fw (r : Role) (k : Kind) (w : Wid) : TOp := ⟨r, k, .fix w⟩
/-- A memory operand, which counts words. -/
def opM : TOp := fw .m .i .wW
/-- A branch target. -/
def opT : TOp := fw .t .i .wW
/-- ACQ. -/
def pACQ : Nat := 0o750
/-- REL. -/
def pREL : Nat := 0o751
/-- ATOM. -/
def pATOM : Nat := 0o754
/-- RUN, RUN.EQ, RUN.NE and RUN.NUL. -/
def pRUN : Nat := 0o740
/-- Widths N H D by prefix. -/
def wAll : List Wid := [.wN, .wH, .wD]
/-- Width D by prefix. -/
def wWD : List Wid := [.wD]

/-- Why decoding ends: the nonets are not an instruction of the row, or a decode check with its program-check code, POS,
CHECK and the number of nonets fetched before it is reported (R155, R156). -/
inductive DecStop where
  | notThis
  | check (code pos chk need : Nat)
deriving DecidableEq, Repr

/-- What a specifier and its extension name: a register, an immediate, a memory mode with its displacement, index or
address field, a target (R144, R154). -/
inductive Form where
  | reg (n : Nat)
  | imm (v : Nat)
  | mem (mode reg ext : Nat)
  | tgt (kind low ext : Nat)
deriving DecidableEq, Repr

/-- A decoded operand with the position of its specifier. -/
structure DOp where
  role : Role
  kind : Kind
  wid  : Wid
  pos  : Nat
  form : Form
deriving DecidableEq, Repr

/-- The operand has a memory mode. -/
def DOp.isMem (o : DOp) : Bool := match o.form with | .mem _ _ _ => true | _ => false

/-- A decoded instruction: operation width, repeat prefix, ACQ, REL, ATOM, operands, length in nonets. -/
structure Dec where
  wid  : Wid
  rep  : Option Nat
  acq  : Bool
  rel  : Bool
  atom : Bool
  ops  : List DOp
  len  : Nat
deriving DecidableEq, Repr

/-- The class of a prefix (R131). -/
def preClass (n : Nat) : Nat := (n - 0o740) / 4

/-- A reserved prefix code point (R131). -/
def preReserved (n : Nat) : Bool := n == 0o747 || n == 0o752 || n == 0o753 || decide (0o755 ≤ n)

/-- Step 1 over the prefix nonets from position `p`, with the prefixes already seen (R155). -/
def decPre (seen : List Nat) (p : Nat) : List Nonet → Except DecStop (List Nat)
  | [] => .ok seen
  | x :: r =>
    let n := x.toNat
    if n < 0o740 ∨ 0o757 < n then .error .notThis
    else if preReserved n then .error (.check 1 p 0o01 (p + 1))
    else if seen.any fun m => preClass m == preClass n then .error (.check 6 p 0o02 (p + 1))
    else decPre (seen ++ [n]) (p + 1) r

/-- The width that a width prefix names. -/
def preWid (n : Nat) : Wid := if n = 0o744 then .wD else if n = 0o745 then .wH else .wN

/-- A row accepts a prefix (R133). -/
def Tmpl.accepts (t : Tmpl) (n : Nat) : Bool := if preClass n = 1 then t.widths.contains (preWid n) else t.pre.contains n

/-- The operation width that the prefixes give (R132). -/
def widOf (ps : List Nat) : Wid := match ps.find? fun n => preClass n == 1 with | some n => preWid n | none => .wW

/-- The width of an operand. -/
def WSel.wid (w : Wid) : WSel → Wid
  | .op => w
  | .fix v => v
  | .ext => match w with | .wW => .wD | _ => .wW

/-- The number of nonets of an immediate (R144). -/
def Wid.nonets : Wid → Nat
  | .wN => 1 | .wH => 2 | .wW => 4 | .wD => 8

/-- Take `n` extension nonets from position `p`, most significant first (R130, R155 step 5). -/
def takeExt (p acc : Nat) : Nat → List Nonet → Except DecStop (Nat × Nat × List Nonet)
  | 0, l => .ok (acc, p, l)
  | n + 1, l =>
    if 15 ≤ p then .error (.check 6 15 0o13 15) else
    match l with
    | [] => .error .notThis
    | x :: r => takeExt (p + 1) (acc * 512 + x.toNat) n r

/-- A role and a kind allow a mode (R142, R144, R145, R149). -/
def modeOk (r : Role) (k : Kind) (mode : Nat) : Bool :=
  decide (mode ≤ 0o14) &&
    (match r with
     | .s => true
     | .d | .x => mode == 0 || decide (3 ≤ mode)
     | .m => decide (3 ≤ mode) && mode != 0o10 && mode != 0o11
     | .r => mode == 0
     | .t => false) &&
    !(k == .p && (mode == 1 || mode == 2)) && !(k == .f && mode == 1)

/-- REG names a register that the mode and kind allow (R144, R145). -/
def regOk (k : Kind) (mode reg : Nat) : Bool :=
  if mode = 0 then if k = .p then decide (0o20 ≤ reg ∧ reg ≤ 0o27) else decide (reg ≤ 0o17)
  else if 3 ≤ mode ∧ mode ≤ 0o11 then decide (0o20 ≤ reg ∧ reg ≤ 0o27)
  else if mode = 0o12 ∨ mode = 0o13 then decide (reg ≤ 0o17)
  else true

/-- The extension nonets of a mode (R144). -/
def extLen (mode : Nat) (w : Wid) : Nat :=
  match mode with
  | 2 => w.nonets
  | 4 => 1
  | 5 => 2
  | 6 => 4
  | 7 => 1
  | 0o13 => 2
  | 0o14 => 4
  | _ => 0

/-- Decode one operand whose specifier is at position `p` (R155 step 5). -/
def decOp (t : TOp) (w : Wid) (p : Nat) (l : List Nonet) : Except DecStop (DOp × Nat × List Nonet) :=
  match takeExt p 0 1 l with
  | .error e => .error e
  | .ok (n, p1, l) =>
    let bad (chk pos : Nat) : Except DecStop (DOp × Nat × List Nonet) := .error (.check 6 pos chk (pos + 1))
    if t.role = .t then
      let kind := n / 64
      let low := n % 64
      if 5 ≤ kind then bad 0o07 p
      else if (if kind < 3 then low else if kind = 3 then low / 8 else low / 4) ≠ 0 then bad 0o12 p
      else
        let len := match kind with | 0 => 1 | 1 => 2 | 2 => 4 | 3 => 0 | _ => 4
        match takeExt p1 0 len l with
        | .error e => .error e
        | .ok (v, p2, l) => .ok ({ role := .t, kind := t.kind, wid := w, pos := p, form := .tgt kind low v }, p2, l)
    else
      let mode := n / 32
      let reg := n % 32
      if !modeOk t.role t.kind mode then bad 0o07 p
      else if !regOk t.kind mode reg then bad 0o10 p
      else if mode = 0 ∧ (t.kind = .i2 ∨ (t.kind = .i ∧ w = .wD)) ∧ reg % 2 = 1 then bad 0o11 p
      else if (mode = 2 ∨ mode = 0o14) ∧ reg ≠ 0 then bad 0o12 p
      else
        match takeExt p1 0 (extLen mode w) l with
        | .error e => .error e
        | .ok (v, p2, l) =>
          if mode = 7 ∧ v / 16 % 8 ≠ 0 then bad 0o12 p1
          else
            let form := match mode with
              | 0 => Form.reg (if t.kind = .p then reg - 0o20 else reg)
              | 1 => .imm (wrapTo w.bits (signedOf 5 reg))
              | 2 => .imm v
              | _ => .mem mode (if mode ≤ 0o11 then reg - 0o20 else reg) v
            .ok ({ role := t.role, kind := t.kind, wid := w, pos := p, form := form }, p2, l)

/-- Decode the operands in template order. -/
def decOps (w : Wid) : List TOp → Nat → List Nonet → Except DecStop (List DOp × Nat × List Nonet)
  | [], p, l => .ok ([], p, l)
  | t :: r, p, l =>
    match decOp t (t.wsel.wid w) p l with
    | .error e => .error e
    | .ok (o, p, l) =>
      match decOps w r p l with
      | .error e => .error e
      | .ok (os, p, l) => .ok (o :: os, p, l)

/-- The opcodes that R138 and R140 assign: primary code points, and secondary ones after the escape. -/
def opcodeAssigned (esc : Bool) (n : Nat) : Bool :=
  let rows : List (Nat × Nat) :=
    if esc then [(0o010, 0o011), (0o020, 0o026), (0o030, 0o035), (0o040, 0o045), (0o050, 0o053), (0o060, 0o065), (0o070, 0o075)]
    else [(0o010, 0o014), (0o020, 0o025), (0o040, 0o055), (0o060, 0o066), (0o070, 0o075), (0o100, 0o106), (0o110, 0o124),
      (0o200, 0o216), (0o220, 0o222), (0o230, 0o236), (0o240, 0o244), (0o260, 0o263), (0o300, 0o324), (0o330, 0o341),
      (0o350, 0o354), (0o360, 0o363), (0o370, 0o374), (0o777, 0o777)]
  rows.any fun r => decide (r.1 ≤ n ∧ n ≤ r.2)

/-- Step 2 over the opcode nonets from position `p`: the row's own opcode passes, one that is not assigned fails, and any other
belongs to another row (R138-R140, R155). -/
def decOpc (t : Tmpl) (p : Nat) : List Nonet → Except DecStop Unit
  | [] => .error .notThis
  | x :: r =>
    if 0o740 ≤ x.toNat ∧ x.toNat ≤ 0o757 then .error .notThis
    else if !opcodeAssigned false x.toNat then .error (.check 1 p 0o03 (p + 1))
    else if x.toNat = 0o777 then
      match r with
      | [] => .error .notThis
      | y :: r =>
        if !opcodeAssigned true y.toNat then .error (.check 1 (p + 1) 0o04 (p + 2))
        else if t.esc && t.code == y.toNat && r.isEmpty then .ok () else .error .notThis
    else if !t.esc && t.code == x.toNat && r.isEmpty then .ok () else .error .notThis

/-- The position of a prefix, by test. -/
def prePos (ps : List Nat) (f : Nat → Bool) : Nat := (ps.takeWhile fun n => !f n).length

/-- Step 6 (R155): the first failing check and its position. -/
def decLast (t : Tmpl) (w : Wid) (ps : List Nat) (os : List DOp) : Option (Nat × Nat) :=
  let mem (rs : List Role) := os.any fun o => o.isMem && rs.contains o.role
  if ps.contains pACQ && !mem [.s, .x] then some (0o14, prePos ps (· == pACQ))
  else if ps.contains pREL && !mem [.d, .x] then some (0o14, prePos ps (· == pREL))
  else if ps.contains pATOM &&
      !((os.filter DOp.isMem).length == 1 && mem [.x] && (w == .wW || w == .wD)) then some (0o15, prePos ps (· == pATOM))
  else if !t.esc && t.code == 0o244 && ps.any fun n => preClass n == 0 then
    match os with
    | [o] => match o.form with
      | .reg n => if n = 12 then some (0o16, o.pos) else none
      | _ => some (0o16, o.pos)
    | _ => none
  else none

/-- Decode an instruction of a row (R155): its prefixes, its opcode, its operands. -/
def decodeInsn (t : Tmpl) (prob : Bool) (pre opc ops : List Nonet) : Except DecStop Dec :=
  match decPre [] 0 pre with
  | .error e => .error e
  | .ok ps =>
  match decOpc t ps.length opc with
  | .error e => .error e
  | .ok () =>
    let p0 := ps.length + (if t.esc then 2 else 1)
    if t.priv && prob then .error (.check 2 (p0 - 1) 0o05 p0)
    else if ps.any fun n => !t.accepts n then .error (.check 6 (prePos ps fun n => !t.accepts n) 0o06 p0)
    else
      let w := widOf ps
      match decOps w t.ops p0 ops with
      | .error e => .error e
      | .ok (os, len, rest) =>
        match decLast t w ps os with
        | some (chk, pos) => if rest.isEmpty then .error (.check 6 pos chk len) else .error .notThis
        | none =>
          if !rest.isEmpty then .error .notThis
          else .ok { wid := w, rep := ps.find? fun n => preClass n == 0, acq := ps.contains pACQ, rel := ps.contains pREL,
                     atom := ps.contains pATOM, ops := os, len := len }

/-- CORE_DECINFO of a decode check (R159): OPC and SEC are zero when decode did not reach the opcode. -/
def decInfo (opc : List Nonet) (code pos chk : Nat) : Word :=
  let w := setField (setField (setField (0 : Word) 0 8 code) 9 12 pos) 13 17 chk
  let o := (opc.headD 0).toNat
  if chk ≤ 2 then w
  else setField (setField w 18 26 o) 27 35 (if o = 0o777 then (opc.getD 1 0).toNat else 0)

/-- Fetch the lines in which the first `need` nonets at an instruction address stand, each nonet's page being translated in fetch
order; a poisoned line is consumed (R119, R156, R293). -/
def fetchCheck (c ia need : Nat) : M Unit :=
  ((List.range need).filter fun k => k == 0 || (ia + k) % 64 == 0).forM fun k => do
    let x ← xlateM c false 3 ((ia + k) % 2 ^ 38 / 4)
    let s ← get
    let r ← orStall (s.fetchLine c (x.mp / 16))
    set r.2
    if r.1.poison then trap (.poison 2 x.sa)

/-- A formed operand: its register or immediate value as it stood, or its D-space address and nonet index (R150). -/
structure Formed where
  op   : DOp
  val  : Nat
  addr : Nat
  nidx : Nat
deriving DecidableEq, Repr

/-- A register operand's bits (R163, R212). -/
def readReg (k : Core) (kd : Kind) (w : Wid) (n : Nat) : Nat :=
  let b := k.cur
  match kd with
  | .p => (vget b.p n 0).toNat
  | .f => if w = .wD then (vget k.f n 0).toNat else (vget k.f n 0).toNat / 2 ^ 36
  | .i2 => (dword (vget b.g n 0) (vget b.g (n + 1) 0)).toNat
  | .i => match w with
    | .wD => (dword (vget b.g n 0) (vget b.g (n + 1) 0)).toNat
    | _ => (vget b.g n 0).toNat % 2 ^ w.bits

/-- Write a register operand: N and H keep the register's other bits; an F36 result clears bits 36-71 (R163, R212). -/
def writeReg (k : Core) (kd : Kind) (w : Wid) (n v : Nat) : Core :=
  let b := k.cur
  let pair : Core := k.setCur { b with g := vset (vset b.g n (w36 (v / 2 ^ 36))) (n + 1) (w36 v) }
  match kd with
  | .p => k.setCur { b with p := vset b.p n (BitVec.ofNat 72 v) }
  | .f => { k with f := vset k.f n (if w = .wD then BitVec.ofNat 72 v else BitVec.ofNat 72 (v * 2 ^ 36)) }
  | .i2 => pair
  | .i => match w with
    | .wD => pair
    | _ =>
      let old := (vget b.g n 0).toNat
      k.setCur { b with g := vset b.g n (w36 (old - old % 2 ^ w.bits + v % 2 ^ w.bits)) }

/-- An operand of this width counts nonets (R147). -/
def Wid.byNonet : Wid → Bool
  | .wN | .wH => true
  | _ => false

/-- One step of a width, in nonets or words (R149). -/
def Wid.step : Wid → Nat
  | .wN => 1 | .wH => 2 | .wW => 1 | .wD => 2

/-- NIDX of a pointer (R90). -/
def ptrNidx (p : DWord) : Nat := field p 16 17

/-- A pointer with its ADDR replaced, modulo 2^54 (R91). -/
def ptrSetAddr (p : DWord) (a : Nat) : DWord := setField p 18 71 (a % 2 ^ 54)

/-- Address and nonet index of a long-form base plus a signed count in the unit of the width (R147). -/
def longAddr (p : DWord) (w : Wid) (d : Int) : Nat × Nat :=
  if w.byNonet then
    let a := wrapTo 56 ((ptrAddr p * 4 + ptrNidx p : Nat) + d)
    (a / 4, a % 4)
  else (wrapTo 54 ((ptrAddr p : Int) + d), 0)

/-- Address and nonet index of a short-form base plus a signed count (R92, R147, R151). -/
def shortAddr (sf g : Nat) (w : Wid) (d : Int) : Nat × Nat :=
  if w.byNonet then
    let a := wrapTo 38 ((g * 4 : Nat) + d)
    (sf * 2 ^ 36 + a / 4, a % 4)
  else (sf * 2 ^ 36 + wrapTo 36 ((g : Int) + d), 0)

/-- A pointer moved by a number of steps of a width; TAG is kept, and NIDX too where words are counted (R149, R181). -/
def ptrStep (p : DWord) (w : Wid) (n : Int) : DWord :=
  let a := longAddr p w (n * w.step)
  if w.byNonet then setField (ptrSetAddr p a.1) 16 17 a.2 else ptrSetAddr p a.1

/-- Form one operand in a core: its value or address, and the core with the pointer update of modes 0o10 and 0o11 made
(R144-R150). -/
def formOp (sf ia : Nat) (k : Core) (o : DOp) : Formed × Core :=
  let b := k.cur
  let P (n : Nat) := vget b.p n 0
  let G (n : Nat) := (vget b.g n 0).toNat
  let at_ (a : Nat × Nat) : Formed := { op := o, val := 0, addr := a.1, nidx := a.2 }
  match o.form with
  | .reg n => ({ op := o, val := readReg k o.kind o.wid n, addr := 0, nidx := 0 }, k)
  | .imm v => ({ op := o, val := v, addr := 0, nidx := 0 }, k)
  | .tgt kind low v =>
    let t := match kind with
      | 0 => (wrapTo 38 ((ia : Int) + signedOf 9 v))
      | 1 => (wrapTo 38 ((ia : Int) + signedOf 18 v))
      | 2 => (wrapTo 38 ((ia : Int) + signedOf 36 v))
      | 3 => field (P low) 36 71 * 4 + ptrNidx (P low)
      | _ => v * 4 + low
    ({ op := o, val := t, addr := 0, nidx := 0 }, k)
  | .mem mode n v =>
    match mode with
    | 3 => (at_ (longAddr (P n) o.wid 0), k)
    | 4 => (at_ (longAddr (P n) o.wid (signedOf 9 v)), k)
    | 5 => (at_ (longAddr (P n) o.wid (signedOf 18 v)), k)
    | 6 => (at_ (longAddr (P n) o.wid (signedOf 36 v)), k)
    | 7 => (at_ (longAddr (P n) o.wid (signedOf 36 (G (v % 16)) * (2 ^ (v / 128) : Nat))), k)
    | 0o10 => (at_ (longAddr (P n) o.wid 0), k.setCur { b with p := vset b.p n (ptrStep (P n) o.wid 1) })
    | 0o11 =>
      let p := ptrStep (P n) o.wid (-1)
      (at_ (longAddr p o.wid 0), k.setCur { b with p := vset b.p n p })
    | 0o12 => (at_ (shortAddr sf (G n) o.wid 0), k)
    | 0o13 => (at_ (shortAddr sf (G n) o.wid (signedOf 18 v)), k)
    | _ => (at_ (shortAddr sf v o.wid 0), k)

/-- Form the operands in template order (R150). -/
def formOps (sf ia : Nat) (k : Core) : List DOp → List Formed × Core
  | [] => ([], k)
  | o :: r =>
    let a := formOp sf ia k o
    let b := formOps sf ia a.2 r
    (a.1 :: b.1, b.2)

/-- CORE_SFBASE of a core (R123). -/
def State.sfBase (s : State) (c : Nat) : Nat := s.fld (coreBlk c) 0o203 0 17

/-- Form the operands of an instruction of core `c`, whose PSW names the next instruction. -/
def formM (c : Nat) (os : List DOp) : M (List Formed) := do
  let s ← get
  let k := s.core c
  let r := formOps (s.sfBase c) (pswIa k.psw) k os
  set (s.setCore c r.2)
  pure r.1

/-- An access of a width breaks the alignment of R77. -/
def misaligned (w : Wid) (addr nidx : Nat) : Bool :=
  match w with
  | .wH => nidx % 2 == 1
  | .wD => addr % 2 == 1
  | _ => false

/-- A memory operand ready for access: a formed operand and its translation. -/
structure Rdy where
  f  : Formed
  xl : Option Xl
deriving DecidableEq, Repr

/-- Translate an operand for what its role does to memory: a source is read, a destination written, an x operand both
(R78, R117, R164); an interlocked access is one ATOM access (R188). Of an x operand whose page fails both its read and its write
the read is reported, KIND 1 (log entry 81, DESIGN CHOICE). -/
def readyOp (c : Nat) (ilock : Bool) (f : Formed) : M Rdy := do
  if !f.op.isMem || f.op.role == .m then pure { f := f, xl := none } else do
    if misaligned f.op.wid f.addr f.nidx then pcheck 6
    let x ← match f.op.role with
      | .s => xlateM c true 1 f.addr
      | .d => xlateM c true 2 f.addr
      | _ =>
        if ilock then xlateM c true 4 f.addr
        else do
          let _ ← xlateM c true 1 f.addr
          xlateM c true 2 f.addr
    pure { f := f, xl := some x }

/-- Make operands ready in template order (R118). -/
def readyOps (c : Nat) (ilock : Bool) (fs : List Formed) : M (List Rdy) := fs.mapM (readyOp c ilock)

/-- The value of an operand. -/
def readOp (c : Nat) (acq : Bool) (r : Rdy) : M Nat :=
  match r.xl with
  | some x => load c x r.f.nidx r.f.op.wid acq
  | none => pure r.f.val

/-- The register an operand names. -/
def DOp.regNo (o : DOp) : Nat := match o.form with | .reg n => n | _ => 0

/-- Write an operand. -/
def writeOp (c : Nat) (rel : Bool) (r : Rdy) (v : Nat) : M Unit :=
  match r.xl with
  | some x => store c x r.f.nidx r.f.op.wid v rel
  | none => modify fun s => s.setCore c (writeReg (s.core c) r.f.op.kind r.f.op.wid r.f.op.regNo v)

/-- An operand by its place in the template. -/
def opAt (rs : List Rdy) (i : Nat) : Rdy :=
  rs.getD i { f := { op := { role := .s, kind := .i, wid := .wW, pos := 0, form := .imm 0 }, val := 0, addr := 0, nidx := 0 }, xl := none }

/-- The flags of core `c`. -/
def State.flags (s : State) (c : Nat) : Flg := pswFlags (s.core c).psw

/-- Replace the PSW of a core. -/
def Core.setPsw (k : Core) (p : DWord) : Core := k.setCur { k.cur with psw := p }

/-- Set the flags of core `c`. -/
def setFlags (c : Nat) (f : Flg) : M Unit :=
  modify fun s => s.setCore c ((s.core c).setPsw (pswSetFlags (s.core c).psw f))

/-- Set the instruction address of core `c`. -/
def setIa (c a : Nat) : M Unit :=
  modify fun s => s.setCore c ((s.core c).setPsw (pswSetIa (s.core c).psw a))

end Sys2Proof.Machine
end

