-- ==== Sys2Proof/Machine/Insn.lean ====
section
/-! DEFINITION. One instruction of a core from its decode to its end (R154-R159, R165, R184): the fetch of the nonets it
reports or retires, the next instruction address, its own effect, or the stop that undoes it. -/

namespace Sys2Proof.Machine

open Sys2Proof

/-- An instruction of core `p` has run: a COUCH notice that waited for it is due (R367). -/
def State.ran (s : State) (p : Nat) : State :=
  { s with waits := s.waits.map fun w =>
      match w with
      | .notice c p' _ => if p' = p then .notice c p true else w
      | _ => w }

/-- Run an instruction's effect in core `c`: a stop undoes it, unless the stop keeps a state (R165, R184). One that waits, or whose
stop has to wait, is not begun, and what it keeps stands. -/
def State.attempt (s : State) (c : Nat) (m : M Unit) : State :=
  match m.run s with
  | .ok (_, s') => if s.waits.isEmpty then s' else s'.ran c
  | .error e =>
    match e.trap with
    | .stall => e.keep.getD s
    | t =>
      match (e.keep.getD (s.undone c e.met)).takeTrap c t with
      | none => s
      | some s' => if s.waits.isEmpty then s' else s'.ran c

/-- Decode the nonets of a command as an instruction of a row, and run `body` with the PSW naming the next instruction; none when
the nonets are not that instruction (R155, R159). -/
def State.insnD (s : State) (t : Tmpl) (n : Insn) (body : Dec → M Unit) : Option State :=
  let c := n.core.val
  let psw := (s.core c).psw
  let ia := pswIa psw
  match decodeInsn t (pswProb psw) n.pre n.opc n.ops with
  | .error .notThis => none
  | .error (.check code pos chk need) =>
    some (s.attempt c (do fetchCheck c ia need; trap (.check code [(0o207, decInfo n.opc code pos chk)])))
  | .ok d =>
    some (s.attempt c (do
      fetchCheck c ia d.len
      setIa c (ia + d.len)
      body d))

/-- An instruction whose operands are formed before its effect (R150). -/
def State.insn (s : State) (t : Tmpl) (n : Insn) (body : Dec → List Formed → M Unit) : Option State :=
  s.insnD t n fun d => do
    let fs ← formM n.core.val d.ops
    body d fs

/-- IN (R142, R193); its access is checked by address, not by privilege (R141). -/
def tIn : Tmpl := { secd 0o010 [ow .d .i, ow .s .i] with priv := false }
/-- OUT (R142, R193). -/
def tOut : Tmpl := { secd 0o011 [ow .s .i, ow .s .i] with priv := false }

/-- An instruction that was in progress has ended: a PAUSE that waited for it stops the core (R205). -/
def State.paused (s : State) (c : Nat) : State :=
  let k := s.core c
  if !k.pausing then s else
  match k.run with
  | .running => s.setCore c { k with run := .stopped false, pausing := false }
  | .wait => s.setCore c { k with run := .stopped true, pausing := false }
  | _ => s

/-- PAUSE of a core (R205): it stops at its next instruction boundary, keeping its WAIT; one in the middle of an IN, OUT or
channel instruction stops when that ends. -/
def State.pauseCore (s : State) (c : Nat) : State :=
  let k := s.core c
  match k.run with
  | .running => s.setCore c { k with run := .stopped false }
  | .wait => s.setCore c { k with run := .stopped true }
  | .devIn _ _ | .held _ _ _ _ => s.setCore c { k with pausing := true }
  | .stopped _ | .frozen => s

/-- RESUME of a stopped core (R205): it goes on at its PSW, or back to WAIT. -/
def State.resumeCore (s : State) (c : Nat) : State :=
  let k := s.core c
  match k.run with
  | .stopped w => s.setCore c { k with run := if w then .wait else .running }
  | _ => s.setCore c { k with pausing := false }

/-- The data of an IN to a device window are there: the core goes on and the instruction ends with them (R276). -/
def State.inDone (s : State) (c : Nat) (n : Insn) (v : Word) : State :=
  let s := s.setCore c { s.core c with run := .running }
  ((s.insn tIn n fun _ fs => do
    let rs ← readyOps c false fs
    let _ ← readOp c false (opAt rs 1)
    writeOp c false (opAt rs 0) v.toNat).getD s).paused c

end Sys2Proof.Machine
end

