-- ==== Sys2Proof/Machine/Rootports.lean ====
section
/-! DEFINITION. The root ports: configuration requests (R569), inbound requests (R570), containment and its release (R571,
R572), link enabling and training (R568, R573), and device-window completions (R276). -/

namespace Sys2Proof.Machine

open Sys2Proof

/-- LSTATE of a root port. -/
def State.rpState (s : State) (t i : Nat) : Nat := s.fld (rpBlk t i) 1 0 2
/-- Set LSTATE. -/
def State.setRpState (s : State) (t i v : Nat) : State := s.setFld (rpBlk t i) 1 0 2 v

/-- The port's inbound side accepts requests: a root port that is up and not contained. -/
def State.rpUp (s : State) (t i : Nat) : Bool := s.isRootPort t i && s.rpState t i == 3 && !s.contained t i

/-- A write of ROOTP_CFGA: the fields, and with GO one configuration request (R569, R571). -/
def State.rpConfig (s : State) (t i : Nat) (v : Word) : State :=
  let b := rpBlk t i
  let s := s.setReg b 3 (v &&& maskOf 1 31)
  if !dbit v 0 || s.rbit b 4 0 then s
  else if s.contained t i then s.setFld b 4 1 3 5
  else
    let s := s.setFld b 4 0 0 1
    s.emit (.rootConfig t i (field v 5 12 != s.fld b 0 12 19) (v &&& maskOf 1 31) (s.reg b 5))

/-- The data of an IN come for a core that is shed, and are discarded (R281, R359). -/
def State.inDropped (s : State) (c : Nat) : State := s.setCore c { s.core c with run := .running }

/-- The end of every outstanding access of the cores to windows of a port: zero-length reads count as returned, and INs get all
ones (R571). -/
def State.rpRelease (s : State) (t i : Nat) : State :=
  (s.cores.map (·.1)).foldl (fun s c =>
    let k := s.core c
    let sh := k.sheet.getD 64
    let mine (o : DevOut) : Bool := match s.window sh o.window with | .rootp t' i' _ => t' == t && i' == i | _ => false
    let left := k.outs.filter fun o => !mine o
    let s := if left.length = k.outs.length then s else s.setCore c { k with outs := left }
    match (s.core c).run with
    | .devIn n p =>
      if p ≠ 2 * t + i then s
      else if (s.core c).active then s.inDone c n (BitVec.allOnes 36) else s.inDropped c
    | _ => s) s

/-- A root port enters containment (R571). Causes 0o3 and 0o5 contain only under CNF and CTO. `hdr` is the logged header, zero
for none. -/
def State.rpContain (s : State) (t i cause : Nat) (hdr : List Word) : State :=
  let b := rpBlk t i
  if !s.isRootPort t i || s.contained t i || !decide (1 ≤ cause ∧ cause ≤ 5) || (cause == 3 && !s.rbit b 0 10) ||
      (cause == 5 && !s.rbit b 0 11) then s else
  let s := ((s.setFld b 2 0 0 1).setFld b 2 1 4 cause).setRpState t i 4
  let s := if hdr.all (· == 0) then s else (hdr.zipIdx).foldl (fun s x => s.setReg b (0o10 + x.2) x.1) s
  let s := if s.rbit b 4 0 then (s.setFld b 4 0 0 0).setFld b 4 1 3 5 else s
  (s.fault b 0 (w36 cause)).rpRelease t i

/-- A configuration completion arrives (R569, R571): STAT 0o7 is a timeout. -/
def State.rpConfigDone (s : State) (t i stat : Nat) (data : BitVec 32) : State :=
  let b := rpBlk t i
  if !s.rbit b 4 0 then s else
  let s := (s.setFld b 4 0 0 0).setFld b 4 1 3 stat
  let s := if stat = 0 ∧ s.rbit b 3 31 = false then s.setFld b 5 4 35 data.toNat else s
  if stat = 7 then s.rpContain t i 5 [] else s

/-- REL (R572): held until the link has been disabled for 100 ms. -/
def State.rpRel (s : State) (t i : Nat) : State :=
  if s.contained t i && !s.relHeld.contains (2 * t + i) then { s with relHeld := s.relHeld ++ [2 * t + i] } else s

/-- The port acts on REL: CONT clears and the link trains again (R572). -/
def State.rpRelAct (s : State) (t i : Nat) : State :=
  if !(s.contained t i && s.relHeld.contains (2 * t + i)) then s else
  let s : State := { s with relHeld := s.relHeld.filter (· != 2 * t + i) }
  ((s.setFld (rpBlk t i) 2 0 0 0).setFld (rpBlk t i) 2 1 4 0).setRpState t i (if s.rbit (rpBlk t i) 0 0 then 1 else 0)

/-- A write of LEN (R568, R573): enabling starts detection, disabling takes the link down on request. -/
def State.rpEnable (s : State) (t i : Nat) (en : Bool) : State :=
  let s := s.setFld (rpBlk t i) 0 0 0 (b2n en)
  if !s.isRootPort t i || s.contained t i then s
  else if en then (if s.rpState t i = 0 then s.setRpState t i 1 else s)
  else s.setRpState t i 0

/-- The port's link finds an adapter (R573). -/
def State.rpDetect (s : State) (t i : Nat) (found : Bool) : State :=
  if s.isRootPort t i && !s.contained t i && s.rpState t i == 1 && found then s.setRpState t i 2 else s

/-- Training of a port's link times out: it detects again. -/
def State.rpTimeout (s : State) (t i : Nat) : State :=
  if s.isRootPort t i && s.rpState t i == 2 then s.setRpState t i 1 else s

/-- The port's link is trained (R568, R573). -/
def State.rpTrain (s : State) (t i : Nat) : State :=
  if !s.isRootPort t i || s.contained t i then s else
  match s.rpState t i with
  | 2 =>
    let w := if i = 0 ∧ s.bFld (rpBlk t 0) 0 1 1 = 1 then 16 else 8
    let f := s.free 5
    let g := f.2.free 1
    -- the adapter decides width and mode within what the port allows: free values no wider or faster than it
    let speed := 6 - s.fld (rpBlk t i) 0 8 9
    let s := (g.2.setFld (rpBlk t i) 1 3 7 (Nat.min w (2 ^ (f.1 % 5)))).setFld (rpBlk t i) 1 8 10 (1 + f.1 % speed)
    -- Flit Mode is always used at 64.0 GT/s (R545)
    (s.setFld (rpBlk t i) 1 11 11 (if f.1 % speed = 5 then 1 else g.1)).setRpState t i 3
  | _ => s

/-- ARM makes a window's shadow active (R570). -/
def State.rpArm (s : State) (t i w : Nat) : State :=
  let b := rpBlk t i
  let s := s.setReg b (0o200 + 4 * w) (s.reg b (0o300 + 4 * w) &&& ~~~maskOf 2 2)
  (List.range 3).foldl (fun s k => s.setReg b (0o201 + 4 * w + k) (s.reg b (0o301 + 4 * w + k))) s

/-- An active window of a port: valid, image, first octet, octets, sheet-absolute word address. -/
def State.rpWin (s : State) (t i w : Nat) : Bool × Nat × Nat × Nat × Nat :=
  let b := rpBlk t i
  let at_ := 0o200 + 4 * w
  (s.rbit b at_ 0, s.fld b at_ 1 1, (s.fld b (at_ + 1) 20 35 * 2 ^ 36 + (s.reg b (at_ + 2)).toNat) * 4096,
   s.fld b at_ 12 35 * 4096, s.fld b (at_ + 3) 2 35 * 16)

/-- The first device bit of octet `o` of a window, counted from the first bit of word BASE x 16, and its nonet's or octet's width
in the image (R82, R570). -/
def octBit (img o : Nat) : Nat := if img = 0 then 8 * o else 9 * o + 1

/-- Bits `at_`.. of eight in a line of 576 bits, as an octet. -/
def lineOctet (n at_ : Nat) : Octet := BitVec.ofNat 8 (n / 2 ^ (568 - at_))

/-- An inbound request that passes every check reads or writes octet by octet of its lines: the bits each octet takes, with the
line they lie in (R570). An octet of the packed image may straddle two words of one line or two lines. -/
def rpOctets (mps : Nat → Option Nat) (img off n : Nat) : List (List (Nat × Nat)) :=
  (List.range n).map fun j =>
    (List.range 8).map fun k =>
      let bit := octBit img (off + j) + k
      let w := bit / 36
      (((mps w).getD 0) / 16, (((mps w).getD 0) % 16) * 36 + bit % 36)

/-- Bit `p` of a line, device numbering over its 576 bits. -/
def lineBit (x : Line) (p : Nat) : Bool := dbit (vget x.words (p / 36) 0) (p % 36)

/-- A line with bits replaced; one written whole loses its poison (R293). -/
def linePutBits (x : Line) (bs : List (Nat × Bool)) : Line :=
  { poison := x.poison && !(List.range 576).all fun p => bs.any fun b => b.1 == p
    words := bs.foldl (fun (v : Vector Word 16) b =>
      vset v (b.1 / 36) (setField (vget v (b.1 / 36) 0) (b.1 % 36) (b.1 % 36) (b2n b.2))) x.words }

/-- Read lines for a unit of tile `t`; none while one is busy. -/
def State.readLines (s : State) (t : Nat) : List Nat → Option (List (Nat × Line) × State)
  | [] => some ([], s)
  | l :: r => (s.ncRead (ncIndex t) l).bind fun x => (x.2.readLines t r).map fun y => ((l, x.1) :: y.1, y.2)

/-- Change lines for a unit of tile `t`; none while one is busy. -/
def State.updLines (s : State) (t : Nat) (f : Nat → Line → Line) : List Nat → Option State
  | [] => some s
  | l :: r => (s.ncWrite (ncIndex t) l (f l)).bind fun s => s.updLines t f r

/-- An inbound request of a function that passes the window step: the deckle check of every line it touches, then the transfer
(R62, R564, R570). -/
def State.rpAccess (s : State) (t i fn img base off : Nat) (r : InboundReq) : State :=
  let sh := s.fld (rpBlk t i) 0 2 7
  let n := match r.write with | some os => os.length | none => r.len
  let w0 := octBit img off / 36
  let w1 := (octBit img (off + n - 1) + 7) / 36
  let ident := t * 2 ^ 14 + i * 2 ^ 13 + fn
  if s.isFrozen 4 ident then (if r.write.isNone then s.emit (.rootAbort t i) else s) else
  let mps (w : Nat) : Option Nat := s.deckleMap sh (base + w)
  match ((List.range (w1 + 1 - w0)).map (w0 + ·)).find? fun w => (mps w).isNone with
  | some w =>
    let s := s.freeze 4 ident sh (if r.write.isNone then 0o12 else 0o13) (base + w)
    if r.write.isNone then s.emit (.rootAbort t i) else s
  | none =>
    let os := rpOctets mps img off n
    let lines := (os.flatMap fun bs => bs.map (·.1)).dedup
    match r.write with
    | none =>
      match s.readLines t lines with
      | none => s
      | some (ls, s) =>
        let at_ (p : Nat × Nat) : Bool := match ls.find? fun x => x.1 == p.1 with | some x => lineBit x.2 p.2 | none => false
        let bad := img == 1 && os.any fun bs => match bs with | b :: _ => at_ (b.1, b.2 - 1) | [] => false
        if bad then (s.setFld (rpBlk t i) 1 14 14 1).emit (.rootAbort t i)
        else
          let out := os.map fun bs => BitVec.ofNat 8 (bs.foldl (fun n b => 2 * n + b2n (at_ b)) 0)
          s.emit (.rootCompletion t i out (ls.any fun x => x.2.poison))
    | some vs =>
      let puts := (os.zip vs).flatMap fun x =>
        let head := if img = 1 then (match x.1 with | b :: _ => [(b.1, b.2 - 1, false)] | [] => []) else []
        head ++ (x.1.zipIdx).map fun b => (b.1.1, b.1.2, x.2.getLsbD (7 - b.2))
      let put (l : Nat) (x : Line) : Line :=
        if r.ep then poisonLine else linePutBits x (puts.filterMap fun p => if p.1 = l then some (p.2.1, p.2.2) else none)
      (s.updLines t put lines).getD s

/-- An inbound request at a root port (R570). -/
def State.rpInbound (s : State) (t i : Nat) (r : InboundReq) : State :=
  let b := rpBlk t i
  if !s.rpUp t i then s else
  let n := match r.write with | some os => os.length | none => r.len
  let refuse (s : State) : State :=
    let s := s.setFld b 1 13 13 1
    if r.write.isNone then s.emit (.rootUnsupported t i) else s
  match (List.range 64).find? fun k => s.rbit b (0o100 + k) 0 && s.fld b (0o100 + k) 20 35 == r.rid.toNat with
  | none => refuse s
  | some fn =>
    match (List.range 16).find? fun w =>
        let x := s.rpWin t i w
        x.1 && decide (x.2.2.1 ≤ r.addr.toNat ∧ r.addr.toNat + n ≤ x.2.2.1 + x.2.2.2.1) with
    | none => refuse s
    | some w =>
      let x := s.rpWin t i w
      if n = 0 then (if r.write.isNone then s.emit (.rootCompletion t i [] false) else s)
      else s.rpAccess t i fn x.2.1 x.2.2.2.2 (r.addr.toNat - x.2.2.1) r

/-- The completion of a zero-length read returns, and the oldest OUT that waits for one reaches its end point (R276). -/
def State.zeroReadDone (s : State) (c : Nat) : State :=
  let k := s.core c
  match k.outs.find? (·.asked) with
  | some o => s.setCore c { k with outs := k.outs.erase o }
  | none => s

/-- The data of an IN to a device window return; with EP the IN returns all ones and EPIN is set (R276,
R564). Data for a core that is shed are discarded: its spare makes the access again (R281, R359). -/
def State.devInDone (s : State) (c : Nat) (v : Word) (ep : Bool) : State :=
  match (s.core c).run with
  | .devIn n p =>
    if !(s.core c).active then s.inDropped c
    else if ep then (s.setFld (rpBlk (p / 2) (p % 2)) 1 12 12 1).inDone c n (BitVec.allOnes 36) else s.inDone c n v
  | _ => s

end Sys2Proof.Machine
end

