-- ==== Sys2Proof/Machine/Sheets.lean ====
section
/-! DEFINITION. A sheet as a whole: its resources, class and confidentiality (R33, R50-R52, R76), the lines that a reset or a commit
takes out of the caches (R282, R283, R310, R319), starting a sheet (R600) and the sheet, quire and tile resets (R640). -/

namespace Sys2Proof.Machine

open Sys2Proof

/-- The web port of tile `a` toward tile `b`, as the state lists it (R29). -/
def webPort (a b : Nat) : Nat := a * 7 + (b + 7 - a) % 8

/-- Tiles `a` and `b` are connected directly (R29, R32). -/
def State.webUp (s : State) (a b : Nat) : Bool := !s.webDown.contains (webPort a b) && !s.webDown.contains (webPort b a)

/-- The relay tile of a pair: the lowest whose ports to both ends are up (R32). -/
def State.relay (s : State) (a b : Nat) : Option Nat :=
  (List.range 8).find? fun r => r != a && r != b && s.webUp r a && s.webUp r b

/-- Traffic passes between two tiles (R32, R33). -/
def State.tilePath (s : State) (a b : Nat) : Bool := a == b || s.webUp a b || (s.relay a b).isSome

/-- The regions of a sheet (R106). -/
def State.regionsOf (s : State) (sh : Nat) : List Nat :=
  (List.range 1024).filterMap fun n =>
    let e := s.reg .deckle (0o100000 + 0o2000 * sh + n)
    if dbit e 0 then some (field e 26 35) else none

/-- The tiles of a sheet's resources (R33, R50). -/
def State.sheetTiles (s : State) (sh : Nat) : List Nat :=
  let regs := s.regionsOf sh
  let subch := blkDigits .deckle * 2 ^ 18 + 0o300000
  (List.range 8).filter fun t =>
    (s.cores.any fun e => tileOf e.1 == t && e.2.sheet == some sh) ||
    ((List.range 4).any fun i => s.rbit .deckle (0o300 + sh) (4 * t + i)) ||
    (regs.any fun r => r / 64 / 2 == t) ||
    (s.regs.any fun e => decide (subch ≤ e.1 ∧ e.1 < subch + 0o200000) && dbit e.2 0 && field e.2 1 6 == sh && field e.2 7 10 / 2 == t) ||
    ((List.range 3).any fun g => s.sheetGroup (.linkgrp (tileFin t) (Fin.ofNat 3 g)) sh) ||
    s.rbit (.cal (tileFin t)) (0o100 + sh) 0 || s.rbit (.var (tileFin t)) (0o100 + sh) 0 ||
    ((List.range 2).any fun i => s.isRootPort t i && s.fld (rpBlk t i) 0 2 7 == sh) ||
    ((List.range 64).any fun w => match s.window sh w with | .rootp t' _ _ => t' == t | _ => false) ||
    (t == 0 && (List.range 64).any fun q => s.qBound q && s.qSheet q == sh)

/-- A port fails, and the ports of both ends are fenced (R32). -/
def State.webFence (s : State) (t p : Nat) : State :=
  let u := (t + 1 + p) % 8
  let a := webPort t u
  if s.webDown.contains a then s else
  let s : State := { s with webDown := s.webDown ++ [a, webPort u t] }
  (s.fault (.web (tileFin t) (Fin.ofNat 7 p)) 0 (w36 u)).fault (.web (tileFin u) (Fin.ofNat 7 (6 - p))) 0 (w36 t)

/-- The pairs of tiles that have lost their path, their own or through a relay, since only `down` was fenced: source NORELAY, and every
valid sheet with resources in both tiles checkstops (R33). -/
def State.webCheck (s : State) (down : List Nat) : State :=
  let was : State := { s with webDown := down }
  -- the port that fails may also have carried the relay of another pair
  let pairs := (List.range 8).flatMap fun x => ((List.range 8).filter fun y => decide (x < y)).map fun y => (x, y)
  (pairs.filter fun x => was.tilePath x.1 x.2 && !s.tilePath x.1 x.2).foldl (fun s x =>
    let wx := Blk.web (tileFin x.1) (Fin.ofNat 7 (webPort x.1 x.2 % 7))
    let wy := Blk.web (tileFin x.2) (Fin.ofNat 7 (webPort x.2 x.1 % 7))
    let s := (s.fault wx 1 (w36 x.2)).fault wy 1 (w36 x.1)
    (List.range 64).foldl (fun s n =>
      if s.validSheet n && !(s.sheet n).checkstop && (s.sheetTiles n).contains x.1 && (s.sheetTiles n).contains x.2
      then s.checkstopFree n else s) s) s

/-- A port fails: both ends are fenced, and sheets that it leaves without a path checkstop (R32, R33). -/
def State.webFail (s : State) (t p : Nat) : State := (s.webFence t p).webCheck s.webDown

/-- The cores of a sheet that count for its class: those in its service (R52). -/
def State.classCores (s : State) (sh : Nat) : List Nat :=
  (List.range 192).filter fun c => (s.core c).sheet == some sh && (s.core c).active

/-- The span class of a sheet: true for M, active cores in more than one tile (R52). -/
def State.spanOf (s : State) (sh : Nat) : Bool :=
  match (s.classCores sh).map tileOf with
  | [] => false
  | t :: ts => ts.any (· != t)

/-- The conditions of R76 on a sheet. -/
def State.confOf (s : State) (sh : Nat) : Bool :=
  let cores := (List.range 192).filter fun c => (s.core c).sheet == some sh
  let whole := cores.all fun c => s.ownsQuire sh (quireOf c)
  let slices := (List.range 32).all fun h => !s.rbit .deckle (0o300 + sh) h ||
    (List.range 64).all fun n => n == sh || !s.validSheet n || !s.rbit .deckle (0o300 + n) h
  let groups := (List.range 24).all fun i =>
    let b := Blk.linkgrp (tileFin (i / 3)) (Fin.ofNat 3 (i % 3))
    !s.sheetGroup b sh || s.fld b 0 2 3 == 0 || s.fld b 0 2 3 == 1
  let engines := (List.range 8).all fun t =>
    (!s.rbit (.cal (tileFin t)) (0o100 + sh) 0 || s.rbit (.cal (tileFin t)) 0 0) &&
    (!s.rbit (.var (tileFin t)) (0o100 + sh) 0 || s.rbit (.var (tileFin t)) 0 0)
  s.validSheet sh && whole && slices && groups && engines && s.rbit .wmark 4 3

/-- CONFID of every sheet, kept only while all conditions hold; a commit sets it (R76). -/
def State.confidAll (s : State) (commit : Bool) : State :=
  (List.range 64).foldl (fun s n =>
    let now := s.confOf n && (commit || s.rbit .deckle (0o100 + n) 2)
    if s.rbit .deckle (0o100 + n) 2 == now then s else s.setFld .deckle (0o100 + n) 2 2 (b2n now)) s

/-- Core `c` is assigned to sheet `sh` (R50). -/
def assigns (a : Assign) (c sh : Nat) : Bool := a.cores.any fun x => x.1.val == c && x.2.val == sh

/-- A core comes into a sheet with nothing buffered and its registers at reset, stopped at the start address where the sheet runs (R49,
R50, R115, R600; log entry 4). -/
def State.joinSheet (s : State) (c sh : Nat) : State :=
  let k : Core := { coreReset with sheet := some sh, cstate := .active, cold := false }
  let k := match (s.sheet sh).running, (s.sheet sh).start with
    | true, some w => k.setBank 0 { k.bank 0 with psw := setField (k.bank 0).psw 36 71 w.toNat }
    | _, _ => k
  s.setCore c k

/-- The cores assigned to a sheet that are in service and in no sheet come into it (R49, R50, R115; log entry 4). -/
def State.placeCores (s : State) (sh : Nat) : State :=
  (List.range 192).foldl (fun s c =>
    let k := s.core c
    if k.active && k.sheet.isNone && assigns s.assign c sh then s.joinSheet c sh else s) s

/-- The quire set of a sheet as it starts: the quires of its active cores, and those of the set before whose L2 still holds a line of
the sheet (R318). -/
def State.setQuires (s : State) (sh : Nat) : State :=
  let act := (s.classCores sh).map quireOf
  let rs := s.regionsOf sh
  (List.range 32).foldl (fun s q =>
    let was := s.rbit .deckle (0o400 + sh) q
    let holds := was && s.qlines.any fun e => e.1 / 2 ^ 34 == q && rs.contains (e.1 % 2 ^ 34 / 2 ^ 24) && e.2.st != .i
    let now := act.contains q || holds
    if was == now then s else s.setFld .deckle (0o400 + sh) q q (b2n now)) s

/-- The windows that the watermark binds for a sheet (R41; log entry 4). -/
def State.bindWindows (s : State) (sh : Nat) : State :=
  (List.range 64).foldl (fun s w =>
    let b : Window := match s.assign.windows.find? fun x => x.1.val == sh && x.2.1.val == w with
      | some x => x.2.2
      | none => .unbound
    { s with windows := Tab.set (fun _ => .unbound) s.windows (sh * 64 + w) b }) s

/-- CORE_MODEL of every core of a sheet copies its SUBST_MODE and its class (R284). -/
def State.modelCopy (s : State) (sh : Nat) : State :=
  let w := setField (setField (0 : Word) 34 34 (s.fld .deckle (0o100 + sh) 3 3)) 35 35 (s.fld .deckle (0o100 + sh) 1 1)
  (List.range 192).foldl (fun s c => if (s.core c).sheet == some sh then s.setReg (coreBlk c) 0o211 w else s) s

/-- A module region becomes valid in a sheet: firmware writes zero to it unless the sheet owned it last (R408). -/
def State.claimRegion (s : State) (sh r : Nat) : State :=
  if Tab.get (fun _ => 64) s.lastOwner r = sh then s else
  { s with
    lastOwner := Tab.set (fun _ => 64) s.lastOwner r sh
    poisoned := s.poisoned.filter (· != r), dram := s.dram.filter fun e => e.1 / 2 ^ 24 != r }

/-- A sheet takes the regions that its deckle map names (R106, R408). -/
def State.claimRegions (s : State) (sh : Nat) : State := (s.regionsOf sh).foldl (fun s r => s.claimRegion sh r) s

/-- Build a valid sheet without starting it (R52, R318, R647). -/
def State.buildSheet (s : State) (sh : Nat) : State :=
  let s := (((s.placeCores sh).claimRegions sh).bindWindows sh).setQuires sh
  (s.setFld .deckle (0o100 + sh) 1 1 (b2n (s.spanOf sh))).modelCopy sh

/-- Start a sheet at a start address (R600): the bank-0 PSW of every active core, and the service core runs; a core that waits for a
sheet restart becomes active again (R67, R357). -/
def State.startSheet (s : State) (sh : Nat) (w : Word) : State :=
  let psw := setField (bankReset 0).psw 36 71 w.toNat
  let s := (List.range 192).foldl (fun s c =>
    let k := s.core c
    if k.sheet == some sh && (k.active || k.cstate == .stopped) && k.run != .frozen then
      let k := k.setBank 0 { k.bank 0 with psw := psw, busy := true }
      s.setCore c { k with level := 0, gesso := false, spills := 0, cstate := .active, run := .stopped false, discard := false }
    else s) s
  let s := s.setSheet sh { running := true, checkstop := false, start := some w }
  let s := s.setQuires sh
  match s.serviceCore sh with
  | some c => s.setCore c { s.core c with run := .running }
  | none => s

/-- A line is lost (R283, R310): every copy of it is gone or poisoned, and it is named in the reset record; a controller that can be
reached poisons it at once (R400). KIND 1 a committed store, 2 a cached line. -/
def State.loseLine (s : State) (sh l kind level : Nat) : State :=
  let s : State := { s with
    qlines := s.qlines.map fun e => if e.1 % 2 ^ 34 == l then (e.1, { e.2 with data := poisonLine }) else e
    l3 := s.l3.filter fun e => e.1 % 2 ^ 34 != l }
  let m := stackOf l
  (s.nameLine sh l kind level).deferredPoison m

/-- A home slice of tile `t` reaches the controller of a line: it is not in reset, and traffic passes to its tile (R282, R400). -/
def State.memPath (s : State) (t l : Nat) : Bool :=
  s.tilePath t (stackOf l / 2) && !s.inReset.contains (memcOf l) && !(s.mc (stackOf l)).defer.contains (l / 2 ^ 24)

/-- A line held at tile `t` can be written back (R282, R310). -/
def State.homePath (s : State) (t l : Nat) : Bool :=
  match s.homeOf l with
  | some h => s.tilePath t (h / 4) && s.memPath (h / 4) l
  | none => false

/-- Every copy of a line takes a new value, whatever transaction is under way on it: the owner's, and the home's where no quire owns
it. For what a reset drains while the path works (R282, R310). -/
def State.forceLine (s : State) (l : Nat) (f : Line → Line) : State :=
  let h := s.homeNo l
  let own := s.qlines.find? fun e => e.1 % 2 ^ 34 == l && e.2.st.owns
  let d := f (match own, s.l3Line h l with | some e, _ => e.2.data | none, some x => x.data | none, none => s.dramLine l)
  let s : State := { s with
    qlines := s.qlines.map fun e =>
      if e.1 % 2 ^ 34 == l && (e.2.st.readable || e.2.st.owns) then (e.1, { e.2 with data := d, dirty := e.2.dirty || e.2.st.owns }) else e }
  if own.isSome then s else s.homeWrite h l d

/-- A line's value goes to memory, and with `drop` every copy leaves the caches, whatever transaction is under way on it. -/
def State.forceOut (s : State) (l : Nat) (keep drop : Bool) : State :=
  let h := s.homeNo l
  let own := s.qlines.find? fun e => e.1 % 2 ^ 34 == l && e.2.st.owns
  let s := match own, s.l3Line h l with
    | some e, _ => if keep then s.memWrite l e.2.data else s
    | none, some x => if keep && x.dirty then s.memWrite l x.data else s
    | none, none => s
  if drop then
    { s.setL3 h l none with
      qlines := s.qlines.filter fun e => e.1 % 2 ^ 34 != l, dir := s.dir.filter fun e => e.1 % 2 ^ 34 != l }
  else
    ({ s with
      qlines := s.qlines.map fun e => if e.1 % 2 ^ 34 == l then (e.1, { e.2 with dirty := false, st := if e.2.st = .m then .e else e.2.st }) else e } :
      State).setL3 h l ((s.l3Line h l).map fun x => { x with dirty := false })

/-- A committed store or retired cache instruction has its effect at a reset although its line is busy (R279, R282). -/
def State.forceStore (s : State) (t : Store) : State :=
  let l := t.addr / 16
  match t.kind with
  | .data => s.forceLine l fun x => linePutDw x (t.addr % 16 / 2) t.mask t.value
  | .czero => s.forceLine l fun _ => zeroLine
  | .cwb => s.forceOut l true false
  | .cwbi => s.forceOut l true true
  | .cinv => s.forceOut l false true

/-- The gather buffer, committed stores and retired cache instructions of a core at a reset: drained where the path works, otherwise
lost (R277, R279, R282, R283). -/
def State.resetStores (s : State) (c level : Nat) : State :=
  let sh := (s.core c).sheet.getD 64
  let s := s.gatherEmit c
  let s := (s.core c).stores.foldl (fun s t =>
    let drop (s : State) : State := s.setCore c { s.core c with stores := (s.core c).stores.drop 1 }
    if s.homePath (tileOf c) (t.addr / 16) then (s.drainOne c).getD (drop (s.forceStore t))
    else drop (s.loseLine sh (t.addr / 16) 1 level)) s
  s.setCore c { s.core c with outs := [] }

/-- A core's contents at their Reset values: it keeps its sheet and its place in it, stopped (R240, R640). -/
def State.clearCore (s : State) (c : Nat) : State :=
  let k := s.core c
  let st := if k.cstate == .stopped then .active else k.cstate
  s.setCore c { coreReset with sheet := k.sheet, cstate := st, cold := k.cold }

/-- The live registers of a block take their Reset values; staged and boot fields keep what is in effect, and the fault registers stay
(R15, R604). -/
def State.resetRegs (s : State) (b : Blk) (keep : Nat → Bool) : State :=
  let base := regKey b 0 / 2 ^ 18
  { s with regs := s.regs.filterMap fun e =>
      let o := e.1 % 2 ^ 18
      if e.1 / 2 ^ 18 != base || decide (0o777700 ≤ o) || keep o then some e else
        let fs := regFields b o
        let m := regMask fs fun f => f.cls == .l
        let v := (e.2 &&& ~~~m) ||| (regReset fs &&& m)
        if v = regDefault e.1 then none else some (e.1, v) }

/-- Reset of every register of a block. -/
def State.resetAll (s : State) (b : Blk) : State := s.resetRegs b fun _ => false

/-- Release every L2 lock of a quire (R310). -/
def State.releaseLocks (s : State) (q : Nat) : State := { s with locks := s.locks.filter fun e => e.1 / 2 ^ 18 != q }

/-- Every line of a quire's L2 at a quire or tile reset: M and O lines are written to the home where the path works, otherwise lost,
and all are invalidated (R310). -/
def State.flushQuire (s : State) (q level : Nat) : State :=
  let s := s.setFld (.qpwr (quireFin q)) 1 14 14 0
  let ls := (s.qlines.filter fun e => e.1 / 2 ^ 34 == q && e.2.st != .i).map fun e => e.1 % 2 ^ 34
  let s := ls.foldl (fun s l =>
    let x := s.qline q l
    let path := s.homePath (q / 4) l
    match (if path then s.evict q l else none) with
    | some s => s
    | none =>
      let s := s.setQline q l qlineReset
      if !(x.st.owns && x.isDirty) then s
      else if path then s.homeWrite (s.homeNo l) l x.data
      else s.loseLine ((s.regionOwner (l / 2 ^ 24)).getD 64) l 2 level) s
  let s := s.clearArray (.l2 (quireFin q))
  { s with
    qlines := s.qlines.filter fun e => e.1 / 2 ^ 34 != q
    openReqs := s.openReqs.filter fun x => x.who != q
    heldEn := s.heldEn.filter fun x => match x.1 with
      | .l1i c | .l1d c => quireOf c.val != q
      | .l2 p => p.val != q }

/-- A quire's triptych is back in TRIPLEX with its own duties (R373, R640). -/
def State.freshTrip (s : State) (t : Trip) : State :=
  { s with
    carried := s.carried.filter (· != t), restarted := s.restarted.filter (· != t)
    outvotes := s.outvotes.filter fun x => x.1 != t }.loadPanels t |>.resetAll (tripBlk t)

/-- The blocks of a quire, its cores with their stores and caches, at a reset of `level` (R282, R310, R640). -/
def State.resetQuire (s : State) (q level : Nat) : State :=
  let cs := (List.range 6).map fun i => 6 * q + i
  let s := cs.foldl (fun s c => (s.resetStores c level).l1Flush c) s
  let s := (s.flushQuire q level).releaseLocks q
  let s := cs.foldl (fun s c =>
    let s := if (s.core c).couch.isSome then s.couchLost c else s
    (((s.clearCore c).resetAll (coreBlk c)).resetAll (retryBlk c)).castShadow (coreBlk c)) s
  let f := quireFin q
  let s := ((s.resetAll (.l2 f)).resetAll (.qpwr f)).freshTrip (.quire f)
  let s : State := { s with
    stepHeld := Tab.set (fun _ => none) s.stepHeld q none, stepGoing := Tab.set (fun _ => none) s.stepGoing q none
    stretched := s.stretched.filter (· != q), forced := s.forced.filter (· != q) }
  (s.castShadow (.quire f)).castShadow (.qtrip f)

/-- Quire reset (R640): its agent is dead for the sheets it serves (R343). -/
def State.quireReset (s : State) (q : Nat) : State :=
  let f := s.free 36
  (f.2.resetQuire q 5).quireDead q f.1

/-- Lines of some regions are written to memory where the path works, otherwise lost, and leave every cache with their directory
entries (R310, R319, R344). -/
def State.flushRegions (s : State) (sh : Nat) (rs : List Nat) (level : Nat) : State :=
  let mine (k : Nat) : Bool := rs.contains (k % 2 ^ 34 / 2 ^ 24)
  let s := (s.l3.filter fun e => mine e.1).foldl (fun s e =>
    match e.2 with
    | some x =>
      let l := e.1 % 2 ^ 34
      let s := s.setL3 (e.1 / 2 ^ 34) l none
      if !x.dirty then s
      else if s.memPath (e.1 / 2 ^ 34 / 4) l then s.memWrite l x.data else s.loseLine sh l 2 level
    | none => s) s
  let s := (s.dir.filter fun e => mine e.1).foldl (fun s e =>
    match e.2.txn.bind (·.got) with
    | some (d, true) =>
      let l := e.1 % 2 ^ 34
      if s.memPath (e.1 / 2 ^ 34 / 4) l then s.memWrite l d else s.loseLine sh l 2 level
    | _ => s) s
  let s := (s.qlines.filter fun e => mine e.1).foldl (fun s e =>
    let l := e.1 % 2 ^ 34
    let q := e.1 / 2 ^ 34
    let s := s.setQline q l qlineReset
    if !(e.2.st.owns && e.2.isDirty) then s
    else if s.homePath (q / 4) l then s.memWrite l e.2.data else s.loseLine sh l 2 level) s
  { s with
    dir := s.dir.filter fun e => !mine e.1
    arrays := s.arrays.filter fun e => !mine e.1
    openReqs := s.openReqs.filter fun x => !mine x.line
    order64 := s.order64.filter fun x => !mine x.2.2
    homes := s.homes.filterMap fun e =>
      let h : Home := { e.2 with
        waiting := e.2.waiting.filter (fun x => !mine x.1), arrivals := e.2.arrivals.filter (fun x => !mine x.1), resv := e.2.resv.filter fun x => !mine x.line }
      if h = homeReset then none else some (e.1, h) }

/-- A frozen master is released in DISCARD mode (R67). -/
def State.discardMaster (s : State) (f : Frozen) (keep : Bool) : State :=
  let s := s.thaw f keep
  match f.type with
  | 1 =>
    let k := s.core f.ident
    s.setCore f.ident { coreReset with sheet := k.sheet, cstate := .stopped, discard := true }
  | 2 => s.releaseSub f.ident false
  | 4 => s.emit (.functionReset (f.ident / 2 ^ 14 % 8) (f.ident / 2 ^ 13 % 2) (f.ident % 2 ^ 13))
  | 3 =>
    let t := f.ident / 2 ^ 14 % 8
    let q := f.ident % 64
    if f.ident / 2 ^ 17 % 2 = 0 then s.setCalQueue t q []
    else
      let s := (s.varQueue t q).foldl (fun (s : State) (j : VarJob) => match j.slot with | some k => s.freeKey t k | none => s) s
      s.setVarQueue t q []
  | 5 =>
    let s := (List.range 4).foldl (fun s k => s.setSq f.ident k 0) s
    [0xC, 0x10, 0x14, 0x18].foldl (fun s o => s.setPf1 f.ident o 0) s
  | _ => s

/-- Sheet reset (R640): its stores, lines, locks, exchanges, jobs, key slots and frozen masters (R68, R282, R310, R458, R520, R543),
and its cores at their Reset values. -/
def State.sheetReset (s : State) (sh : Nat) : State :=
  let cs := (List.range 192).filter fun c => (s.core c).sheet == some sh
  let s := cs.foldl (fun s c => if (s.core c).couch.isSome then s.couchLost c else s) s
  let s := cs.foldl (fun s c => (s.resetStores c 3).l1Flush c) s
  let s := s.flushRegions sh (s.regionsOf sh) 3
  let s := (List.range 32).foldl (fun s q => if s.ownsQuire sh q then s.releaseLocks q else s) s
  let s := (s.frozen.filter fun f => f.sheet == sh).foldl (fun s f => s.discardMaster f true) s
  let s := ((s.clearSheetIo sh 0o020 1).calDropSheet sh).varDropSheet sh
  let s := cs.foldl (fun s c => if (s.core c).cstate == .failed then s else ((s.clearCore c).resetAll (coreBlk c)).resetAll (retryBlk c)) s
  (s.modelCopy sh).setSheet sh { s.sheet sh with running := false, checkstop := false }

/-- The links of a group, by number. -/
def groupLinks (t g : Nat) : List Nat := (List.range (if g = 2 then 2 else 8)).map fun i => 18 * t + 8 * g + i

/-- The links of a group go down with DCAUSE RESET in a reset of their block (R479, R485). -/
def State.resetLinks (s : State) (t g : Nat) : State :=
  let b := Blk.linkgrp (tileFin t) (Fin.ofNat 3 g)
  let ns := (groupLinks t g).filter fun n => s.isLink n
  let up := ns.filter fun n => s.linkUp n
  let s := (ns.foldl (fun s n => s.linkDisable n 7) s).resetAll b
  up.foldl (fun s n => s.setFld b (lstatAt n) 15 18 7) s

/-- The links of a group train again once the reset has ended (R479, R485). -/
def State.releaseLinks (s : State) (t g : Nat) : State := (groupLinks t g).foldl (fun s n => s.linkRelease n) s

/-- A root port is reset: its link is down, the accesses of cores to its windows end, and its registers take their Reset values. -/
def State.resetRootp (s : State) (t i : Nat) : State :=
  let s := (s.rpRelease t i).resetAll (rpBlk t i)
  { s with relHeld := s.relHeld.filter (· != 2 * t + i) }

/-- The registers of a vat at a reset of it: its counters at their Reset values, its session number kept, since its exchanges go on
(R458, R460; log entry 48). -/
def State.vatReset (s : State) (v : Nat) : State := s.resetRegs (vatBlk v) (· == 1)

/-- Tile reset (R640): every quire of the tile, its slices, engines, vats, links, root ports and triptych; its sheets checkstop. -/
def State.tileReset (s : State) (t : Nat) : State :=
  let sheets := (List.range 64).filter fun n => s.validSheet n && (s.sheetTiles n).contains t
  let s := (List.range 4).foldl (fun s i => s.resetQuire (4 * t + i) 4) s
  -- L3: dirty lines of the tile's slices go to memory
  let s := (s.l3.filter fun e => e.1 / 2 ^ 34 / 4 == t).foldl (fun s e =>
    match e.2 with
    | some x =>
      let l := e.1 % 2 ^ 34
      let s := s.setL3 (e.1 / 2 ^ 34) l none
      if !x.dirty then s
      else if s.memPath t l then s.memWrite l x.data else s.loseLine ((s.regionOwner (l / 2 ^ 24)).getD 64) l 2 4
    | none => s) s
  let f := tileFin t
  let s := (List.range 4).foldl (fun s i =>
    let h : HomeId := Fin.ofNat 32 (4 * t + i)
    ((s.resetAll (.home h)).resetAll (.dir h)).castShadow (.home h)) s
  let s := (List.range 2).foldl (fun s i =>
    let m : McId := Fin.ofNat 16 (2 * t + i)
    let st := s.fld (.memc m) 0 0 1
    let s := ((s.resetAll (.memc m)).setFld (.memc m) 0 0 1 st).castShadow (.stack m)
    (s.setFld (.stack m) 0 6 14 0).vatReset (2 * t + i)) s
  let s := (((s.calBlockReset t).resetRegs (.cal f) fun o => decide (0o100 ≤ o ∧ o < 0o200)).calLeaveReset t)
  let s := (((s.varBlockReset t).resetRegs (.var f) fun o => decide (0o100 ≤ o ∧ o < 0o200)).varLeaveReset t)
  let s := (s.resetAll (.easel f)).castShadow (.easel f)
  let s := (List.range 3).foldl (fun s g => (s.resetLinks t g).releaseLinks t g) s
  let s := (List.range 2).foldl (fun s i => s.resetRootp t i) s
  let s := if t = 0 then (s.bothFlr.resetAll .endpt).castShadow .endpt else s
  let s := (List.range 2).foldl (fun s i => s.vatRestart (2 * t + i)) s
  let s := (List.range 7).foldl (fun s p => s.castShadow (.web f (Fin.ofNat 7 p))) s
  let s := (s.freshTrip (.tile f)).castShadow (.ttrip f)
  sheets.foldl (fun s n => if (s.sheet n).checkstop then s else s.checkstopFree n) s

end Sys2Proof.Machine
end

