-- ==== Sys2Proof/Machine/Reset.lean ====
section
/-! DEFINITION. Resets of a block (R613), fault reactions carried out (R613, R615), injections and reset shadows (R618-R621), the module
and the cold reset (R625, R640-R642), the gesso sequence (R646-R649) and the thermal actions (R639). -/

namespace Sys2Proof.Machine

open Sys2Proof

/-- A block is held in reset, its shadow cast (R613, R618). -/
def State.enterReset (s : State) (b : Blk) : State :=
  let s := s.castShadow b
  if s.inReset.contains b then s else { s with inReset := s.inReset ++ [b] }

/-- A supervisor above a quire or tile triptych can restart it (R379). -/
def State.parentUp (s : State) (t : Trip) : Bool :=
  match t with
  | .quire q => !s.tripOut (tripAbove q) || !s.tripOut .module
  | .tile _ => !s.tripOut .module
  | .module => false

/-- Reaction code 3 on a quire or tile triptych: its parent restarts it and carries its duties (R613). -/
def State.childReact (s : State) (t : Trip) : State :=
  if s.tmode t = 4 || !s.parentUp t then s else
  let s : State := if s.tmode t = 3 then { s with restarted := s.restarted ++ [t] } else s
  ({ s with carried := s.carried.filter (· != t) ++ [t] } : State).tripReload t

/-- The quires that a thermal floor holds in a tile are freed, and go to the step firmware asked for (R635, R639). -/
def State.dropFloor (s : State) (t : Nat) : State :=
  let s := s.setFld .therm 1 (18 + t) (18 + t) 0
  (List.range 4).foldl (fun s i =>
    let q := 4 * t + i
    let s : State := { s with forced := s.forced.filter (· != q) }
    (s.setFld (qpwrBlk q) 1 13 13 0).chase q) s

/-- Reaction code 3: the block resets, and is held for 1,024 CK_SUP cycles where its chapter gives no length (R613). -/
def State.blockReset (s : State) (b : Blk) : State :=
  match b with
  | .core c | .retry c => s.recover c.val 0o13 0
  | .qtrip q => s.childReact (.quire q)
  | .ttrip t => s.childReact (.tile t)
  | .mtrip => s.superReset true
  | .home h | .dir h => let f := s.free 36; ((f.2.homeDead h.val f.1).resetAll b).enterReset b
  | .quire q => let f := s.free 36; (f.2.quireDead q.val f.1).enterReset b
  | .l2 q =>
    let f := s.free 36
    let s := ((f.2.quireDead q.val f.1).resetAll b).releaseLocks q.val
    ({ s with heldEn := s.heldEn.filter fun x => x.1 != .l2 q } : State).enterReset b
  | .qpwr q =>
    let s := s.resetAll b
    ({ s with
      stepHeld := Tab.set (fun _ => none) s.stepHeld q.val none
      stepGoing := Tab.set (fun _ => none) s.stepGoing q.val none
      stretched := s.stretched.filter (· != q.val) } : State).enterReset b
  | .memc _ =>
    let st := s.fld b 0 0 1
    ((s.resetAll b).setFld b 0 0 1 (if st = 2 then 2 else 0)).enterReset b
  | .cal t => ((s.calBlockReset t.val).resetRegs b fun o => decide (0o100 ≤ o ∧ o < 0o200)).enterReset b
  | .var t => ((s.varBlockReset t.val).resetRegs b fun o => decide (0o100 ≤ o ∧ o < 0o200)).enterReset b
  | .linkgrp t g => (s.resetLinks t.val g.val).enterReset b
  | .rootp t i => (s.resetRootp t.val i.val).enterReset b
  | .endpt => (s.bothFlr.resetAll b).enterReset b
  | .therm => let s := (List.range 8).foldl (fun s t => s.dropFloor t) ({ s with warned := [] } : State)
              (s.resetAll b).enterReset b
  | .rst => (s.resetRegs b fun o => o == 3 || decide (0o10000 ≤ o)).enterReset b
  | .vat v => (s.vatReset v.val).enterReset b
  | .stack _ => (s.setFld b 0 6 14 0).enterReset b
  | .wmark => s.enterReset b
  | .easel _ | .web _ _ | .clk | .deckle | .pwr | .lfi | .ident => (s.resetAll b).enterReset b

/-- A block leaves reset: the jobs an engine lost report, links train again, a vat continues its exchanges, a controller serves again, and
host accesses that were held at the Easel are answered (R43, R458, R479, R520, R543, R555). -/
def State.leaveReset (s : State) (b : Blk) : State :=
  if !s.inReset.contains b then s else
  let s : State := { s with inReset := s.inReset.filter (· != b) }
  match b with
  | .cal t => s.calLeaveReset t.val
  | .var t => s.varLeaveReset t.val
  | .linkgrp t g => s.releaseLinks t.val g.val
  | .vat v => s.vatRestart v.val
  -- the clock tree restarts with its reference and locks (log entry 48)
  | .clk => s.setReg .clk 0 (setField (0 : Word) 0 1 3)
  | .memc m => if s.fld b 0 0 1 = 2 then s else (s.setFld b 0 0 1 1).deferredPoison m.val
  | .easel t => if t.val = 0 then s.hostRelease else s
  | _ => s

/-- The cores in service that hold an instruction at a block, with its place among the accesses held (R43, R44, R429, R505). -/
def State.heldAt (s : State) (b : Blk) : List (Nat × Nat × Instr) :=
  s.cores.filterMap fun e => match e.2.run with
    | .held i b' _ order => if b' = b && e.2.active then some (order, e.1, i) else none
    | _ => none

/-- Level of the reset with which each triptych's shadow lasts: it is still reloading. -/
def State.shadowHeld (s : State) (b : Blk) : Bool :=
  s.inReset.contains b || match b with
    | .qtrip q => s.tmode (.quire q) == 4
    | .ttrip t => s.tmode (.tile t) == 4
    | .mtrip => s.tmode .module == 4
    | _ => match s.phase with | .hold _ | .tripped | .off => true | _ => false

/-- An armed injection fires (R620, R621): it waits while its source is shadowed. -/
def State.injFire (s : State) (b : Blk) : State :=
  if !s.rbit b 0o777704 5 then s else
  let src := s.fld b 0o777704 0 4
  if s.shadowed b src then
    if s.injWait.contains b then s else { s with injWait := s.injWait ++ [b] }
  else
    let w := s.reg b 0o777704
    let s : State := { s with injWait := s.injWait.filter (· != b) }
    (s.setFld b 0o777704 5 5 0).fault b src w (some (field w 6 8))

/-- A write of FINJ (R608, R620): one that names an undefined source or the reserved code 6 is ignored. -/
def State.finjWrite (s : State) (b : Blk) (v : Word) : State :=
  if (faultSources b).length ≤ field v 0 4 ∨ field v 6 8 = 6 then s else
  let s : State := { s with injWait := s.injWait.filter (· != b) }
  s.setReg b 0o777704 (setField v 9 17 0)

/-- The shadow of a block's reset ends 64 cycles after the reset, and the injections that waited for it fire (R618, R620). -/
def State.shadowEnd (s : State) (b : Blk) : State :=
  if s.shadowHeld b then s else
  let s : State := { s with shadows := s.shadows.filter fun x => x.1 != b }
  s.injWait.foldl (fun s x => if s.shadowed x (s.fld x 0o777704 0 4) then s else s.injFire x) s

/-- The data of a line of an L2 or L3 array when bits of its nine codewords are in error: as corrected, or poisoned where a codeword
cannot be corrected (R289, R293). -/
def arrayRead (l : Nat) (x : Line) (flips : List Nat) : Option Line :=
  let cs := (List.range 9).map fun k =>
    flips.foldl (fun r j => if j / 80 = k then cwFlip r (j % 80) else r) (storedCw l x k)
  match lineDecode l cs with
  | .ok y _ => some y
  | .poison false => if x.poison then some x else none
  | _ => none

/-- A codeword error in a line that the L2 of a quire holds: corrected in place, or the line is poisoned (R293). -/
def State.l2Error (s : State) (q l : Nat) (flips : List Nat) : State :=
  let x := s.qline q l
  if x.st = .i then s else
  match arrayRead l x.data flips with
  | some d => (s.setQline q l { x with data := d }).fault (.l2 (quireFin q)) 0 (w36 (l2SetOf l))
  | none => (s.setQline q l { x with data := poisonLine }).fault (.l2 (quireFin q)) 1 (w36 l)

/-- A codeword error in a line of an L3 slice (R293). -/
def State.l3Error (s : State) (h l : Nat) (flips : List Nat) : State :=
  match s.l3Line h l with
  | none => s
  | some x =>
    match arrayRead l x.data flips with
    | some d => (s.setL3 h l (some { x with data := d })).fault (.home (Fin.ofNat 32 h)) 0 (w36 l)
    | none => (s.setL3 h l (some { x with data := poisonLine })).fault (.home (Fin.ofNat 32 h)) 1 (w36 l)

/-- A source records a real event (R612). A parity error in an L1 line drops it, or, where its core has it dirty, sheds the core (R290,
R291); an error in an L2 or L3 line is corrected or poisons it (R293); an agent that the event shows dead checkstops its sheets
(R343). -/
def State.faultEvent (s : State) (b : Blk) (src : Nat) (info : Word) (l : Nat) (flips : List Nat) : State :=
  if (faultSources b).length ≤ src then s else
  match b, src with
  | .core c, 1 | .core c, 2 =>
    if (s.qline (quireOf c.val) l).l1dirty = some c.val then s.recover c.val 4 l
    else (s.l1Parity c.val l).fault b 1 (w36 (l % 256))
  | .l2 q, 0 | .l2 q, 1 => s.l2Error q.val l flips
  | .home h, 0 | .home h, 1 => s.l3Error h.val l flips
  | _, _ =>
  let s := s.fault b src info
  match b, src with
  | .l2 q, 2 => s.quireDead q.val 2
  | .dir h, 2 => s.homeDead h.val 2
  | .quire _, 0 => s.homeDead (info.toNat % 32) 0
  | .quire _, 1 => s.homeDead (info.toNat % 32) 1
  | .dir _, 3 => if info.toNat < 32 then s.quireDead info.toNat 3 else s
  | _, _ => s

/-- Sources of a block that record in one cycle, in ascending number, so that FFIRST takes the lowest (R610). -/
def State.faultEvents (s : State) (b : Blk) (es : List (Nat × Word)) (l : Nat) (flips : List Nat) : State :=
  (List.range 18).foldl (fun s i => match es.find? fun e => e.1 == i with
    | some e => s.faultEvent b i e.2 l flips
    | none => s) s

/-- An injection fires in the cycle in which its source records a real fault (R610, R621): REAL and INJ are both set, in FFIRST too where
it held no event, FINFO has the real fault's detail, and the reaction is the real fault's, once. -/
def State.injMeets (s : State) (b : Blk) (info : Word) (l : Nat) (flips : List Nat) : State :=
  let src := s.fld b 0o777704 0 4
  let first := !s.rbit b 0o777706 0
  let s0 := s
  let s := s.faultEvent b src info l flips
  if s0.rbit b 0o777704 5 = false ∨ s0.shadowed b src = true then s else
  if s.rbit b 0o777700 src = false then s.injFire b else
  let s : State := { s with injWait := s.injWait.filter (· != b) }
  let s := (s.setFld b 0o777704 5 5 0).setFld b 0o777700 (18 + src) (18 + src) 1
  if first && s.fld b 0o777706 3 7 == src then s.setFld b 0o777706 1 1 1 else s

/-- Blocks in the VAUX domain, which a module reset leaves alone (R623, R640); the WMARK fields keep their values by R601. -/
def vauxBlk : Blk → Bool
  | .mtrip | .rst | .clk | .wmark => true
  | _ => false

/-- A register at a module reset: live fields take their Reset values outside the VAUX domain, the fault latches and what a stack
remembers of its spare die (R15, R404, R604, R640). -/
def moduleReg (k : Nat) (v : Word) : Option (Nat × Word) :=
  match regAtKey k with
  | none => some (k, v)
  | some (b, o) =>
    let v := match b with | .stack _ => if o = 0 then setField v 6 14 0 else v | _ => v
    let kept := vauxBlk b || decide (0o777700 ≤ o) || match b with | .stack _ => true | .memc _ => o == 0 && field v 0 1 == 2 | _ => false
    if kept then some (k, v) else
      let fs := regFields b o
      let m := regMask fs fun f => f.cls == .l
      let w := (v &&& ~~~m) ||| (regReset fs &&& m)
      if w = regDefault k then none else some (k, w)

/-- A register holds a boot field. -/
def hasBoot (k : Nat) : Bool :=
  match regAtKey k with
  | some (b, o) => (regFields b o).any fun f => f.cls == .b
  | none => false

/-- The blocks outside the VAUX domain whose reset casts a shadow (R618). -/
def shadowBlks : List Blk :=
  (List.range 32).flatMap (fun q => [Blk.qtrip (quireFin q), Blk.quire (quireFin q), Blk.home (Fin.ofNat 32 q)]) ++
  (List.range 16).map (fun m => stackBlk m) ++
  (List.range 8).flatMap (fun t => [Blk.easel (tileFin t), Blk.ttrip (tileFin t)] ++
    (List.range 7).map fun p => Blk.web (tileFin t) (Fin.ofNat 7 p)) ++ [Blk.pwr, Blk.endpt]

/-- Every part of the module that a module reset covers (R640, R641): cores, stores, caches, links, engines and the endpoint; memory, the
Easel, the VAUX domain and boot fields stay. -/
def State.resetModule (s : State) : State :=
  let s := if s.tripOut .module then
      (((s.setTmode .module 0).setFld .mtrip 0 3 8 0).setBar 0 0x20 (s.bar 0 0x20 &&& ~~~8#32)) else s
  let shade : List (Blk × Blk) := shadowBlks.flatMap fun b => (s.shadowOf b).map fun n => (b, n)
  let s := (s.frozen.filter fun f => f.type == 2).foldl (fun s f => s.releaseSub f.ident false) s
  let up := (List.range 144).filter fun n => s.linkUp n
  let s := up.foldl (fun s n => let f := s.free 36; f.2.fault (linkBlk n) 0 (w36 f.1)) s
  let s := s.calDropAll.varDropAll.bothFlr
  let s : State := { s with
    clock := 0, cores := [], qlines := [], dir := [], l3 := [], homes := [], locks := [], heldEn := [], arrays := [], openReqs := [], waits := [], order64 := [], l2Wait := []
    sheets := s.sheets.filterMap fun e =>
      match e.2.start with
      | some w => some (e.1, ({ Sys2Proof.Machine.sheetReset with start := some w } : Sheet))
      | none => none
    frozen := [], easelRot := [], easelWait := []
    regs := s.regs.filterMap fun e => moduleReg e.1 e.2
    bEff := s.regs.filter fun e => hasBoot e.1
    memctl := s.memctl.filterMap fun e =>
      let k : MemCtl := { memctlReset with
        spared := e.2.spared, fused := e.2.fused, ptrs := e.2.ptrs, defer := e.2.defer }
      if k = memctlReset then none else some (e.1, k)
    links := s.links.filterMap fun e =>
      let k : Link := { linkReset with
        serial := e.2.serial, session := e.2.session, seen := e.2.seen, changed := e.2.changed }
      if k = linkReset then none else some (e.1, k)
    octRem := [], calSlot := [], varSlot := [], relHeld := [], nonce := none, portHeld := [], heldFw := [], commit := none, webDown := []
    inReset := [], shadows := shade, panels := s.panels.filter fun e => e.1 / 2 ^ 22 / 3 == tripNo .module
    outvotes := s.outvotes.filterMap fun x => if x.1 = .module then some (x.1, x.2.1, 0) else none
    restarted := [], carried := [], steps := [], granted := none, reserve := [], warned := [], stepHeld := [], stepGoing := []
    stretched := [], forced := [], rstArm := none, staging := none, stageHdr := [], surge := (none, none) }
  let s : State := { s with endpt := { s.endpt with ready := false } }
  (up.foldl (fun s n => s.setFld (linkBlk n) (lstatAt n) 15 18 7) s).setFld .wmark 4 0 2 0

/-- A module reset starts (R640-R642): one that comes while a reset is held is absorbed, and one during the gesso sequence starts it
again. -/
def State.moduleReset (s : State) (cause : Nat) (b : Option Blk) (why : List Nat) : State :=
  let hold : State → State := fun s => { s with holdFor := s.holdFor ++ why.filter fun x => !s.holdFor.contains x }
  match s.phase with
  | .off | .tripped => s
  | .hold _ => hold s
  | .gesso _ _ | .ready =>
    let cold := match s.phase with | .gesso _ c => c | _ => false
    let s := s.resetModule
    let w := setField (setField (0 : Word) 0 3 2) 4 8 cause
    let w := match b with | some b => setField w 9 26 (blkDigits b) | none => w
    let s : State := s.setReg .rst 0 w
    let s : State := { s with phase := .hold cold, holdFor := [] }
    hold s

/-- CAUSE of a module reset by a reaction of code 4 (R652): a clock fault has its own. -/
def State.reactCause (s : State) (b : Blk) : Nat :=
  if b = .clk ∧ (s.rbit .clk 0o777700 0 || s.rbit .clk 0o777700 1) = true then 5 else 3

/-- Firmware hears of a reaction (R613): now, or once some triptych carries out the duty of the block's supervisor (R372, R377). -/
def State.hears (s : State) (b : Blk) : State :=
  if s.acts (supervisor b) then s.faultLog b
  else if s.reacts.contains (b, 1) then s else { s with reacts := s.reacts ++ [(b, 1)] }

/-- One reaction of a block (R613). -/
def State.reactOn (s : State) (b : Blk) (code : Nat) : State :=
  let s := s.hears b
  match code with
  | 1 => s
  | 2 => s.serviceTrap b
  | 3 => s.blockReset b
  | _ => s.moduleReset (s.reactCause b) (some b) (if s.reactCause b = 5 then [1] else [])

/-- The blocks that react, in order, each with the reaction of highest rank (R615). -/
def worst (rs : List (Blk × Nat)) : List (Blk × Nat) :=
  (rs.map (·.1)).eraseDups.map fun b => (b, (rs.filter fun r => r.1 == b).foldl (fun m r => Nat.max m r.2) 0)

/-- A reaction that can be carried out now: all but a notice to firmware whose supervisor is out. -/
def State.reactDue (s : State) (r : Blk × Nat) : Bool := r.2 != 1 || s.acts (supervisor r.1)

/-- Carry out the reactions taken, and those that follow from them, in rounds: every source reacts once until it is cleared (R612),
so that they end well within the rounds given; none that is due is ever left. -/
def State.settleN : Nat → State → State
  | 0, s => { s with reacts := s.reacts.filter fun x => !s.reactDue x }
  | n + 1, s =>
    match s.reacts.filter s.reactDue with
    | [] => s
    | r :: rs =>
      State.settleN n ((worst (r :: rs)).foldl (fun t x => t.reactOn x.1 x.2) { s with reacts := s.reacts.filter fun x => !s.reactDue x })

/-- What a command leaves once the reactions it caused have been carried out (R613). -/
def State.settle (s : State) : State := s.settleN 4096

/-- What a stack keeps through a cold reset: the spare die in service or a migration that starts again from zero, and the spare rows of
the fuse row (R402, R404). -/
def State.coldStack (s : State) (old : State) (m : Nat) : State :=
  let b := stackBlk m
  let sp := old.fld b 0 0 1
  let rows := (old.mc m).fused
  let s := if rows.isEmpty then s else
    (s.setMc m { memctlReset with spared := rows, fused := rows }).setFld b 0 18 31
      ((Config.stackRows m + (rows.map (·.2)).foldl (· + ·) 0) % 2 ^ 14)
  let s := if sp = field (regDefault (regKey b 0)) 0 1 then s else (s.setFld b 0 0 1 sp).setFld b 0 2 5 (old.fld b 0 2 5)
  if sp = 1 then (s.setFld b 1 1 1 1).setFld b 1 6 9 (old.fld b 1 6 9) else s

/-- A cold reset (R625, R640): everything, with memory and the Easel; the boot flash, the fuse rows, and with VAUX present the Easel banks
in retention are kept (R415). The clock starts again here, at the fall of PWROK, and not at its rise (R204; log entry 87, DESIGN
CHOICE). -/
def State.coldReset (s : State) (vaux : Bool) : State :=
  let banks := if vaux then (List.range 256).filter fun k => s.retained (k / 32) (k % 32) else []
  -- control blocks start again, and no exchange is in the journal (R458)
  let keep := s.easel.filter fun e =>
    banks.contains (e.1 / 2 ^ 22 * 32 + e.1 % 32) && !decide (0o10000000 ≤ e.1 % 2 ^ 22 ∧ e.1 % 2 ^ 22 < 0o10440000)
  let n : State := { State.reset with
    pending := s.pending, records := s.records, session := s.session, sent := s.sent, freeCtr := s.freeCtr
    easel := keep, keptBanks := banks, smbAddr := if vaux then s.smbAddr else none, jtagIr := if vaux then s.jtagIr else 0x01
    pins := { pwrok := false, modResetN := s.pins.modResetN, perstN := s.pins.perstN, thermtripN := true }
    phase := .off }
  let n : State := { n with endpt := { n.endpt with perst := s.endpt.perst } }
  (List.range 16).foldl (fun n m => n.coldStack s m) n

/-- PWROK falls (R625): a cold reset; every core stops and the module waits for PWROK. -/
def State.pwrokFall (s : State) : State := if s.pins.pwrok then s.coldReset true else s

/-- VAUX is lost (R625): a cold reset. -/
def State.vauxLoss (s : State) : State := s.coldReset false

/-- PWROK rises (R640, R646, R647, R652): BOOTSRC is sampled and the gesso sequence starts. -/
def State.pwrokRise (s : State) (src : Nat) : State :=
  if s.pins.pwrok then s else
  let s := (s.setReg .rst 0 (setField (setField (0 : Word) 0 3 1) 4 8 1)).setReg .rst 2 (setField (0 : Word) 0 1 src)
  { s with phase := .gesso 1 true, pins := { s.pins with pwrok := true } }

/-- MOD_RESET_N is low for 1 µs (R641). -/
def State.modResetLow (s : State) : State :=
  ({ s with pins := { s.pins with modResetN := false } } : State).moduleReset 2 none []

/-- VIN lies outside ±5% for 1 µs (R641): source VIN, and a module reset that holds until VIN is valid. -/
def State.vinFault (s : State) (mv : Nat) : State := (s.moduleReset 6 none [2]).fault .pwr 0 (w36 mv)

/-- REFCLK is lost: holdover, and source REFLOSS (R637). -/
def State.refLoss (s : State) : State := ((s.setFld .clk 0 1 1 0).setFld .clk 0 2 2 1).fault .clk 1 0

/-- The root PLL loses lock: source UNLOCK (R637). -/
def State.pllLoss (s : State) : State := (s.setFld .clk 0 0 0 0).fault .clk 0 0

/-- The JTAG instruction register holds an instruction that does not take the pins (R668). -/
def State.jtagFree (s : State) : Bool := !(decide (3 ≤ s.jtagIr.toNat) && decide (s.jtagIr.toNat ≤ 7))

/-- The hold of a reset ends: MOD_RESET_N is high, clock and VIN are back, and no scan has the pins (R641, R648, R668). -/
def State.holdEnd (s : State) : State :=
  match s.phase with
  | .hold cold =>
    if !s.jtagFree then s else
    let s := if s.holdFor.contains 1 then s.setReg .clk 0 (setField (0 : Word) 0 1 3) else s
    { s with phase := .gesso 1 cold, holdFor := [], pins := { s.pins with modResetN := true } }
  | _ => s

/-- A write of KEY of RST_MOD (R642). -/
def State.rstKey (s : State) (v : Nonet) : State :=
  let now := s.clock.toNat
  let armed := match s.rstArm with | some a => decide (now ≤ a + 650000) | none => false
  if v = 0o525 then { s with rstArm := some now }
  else if v = 0o252 ∧ armed = true then ({ s with rstArm := none } : State).moduleReset 4 none []
  else { s with rstArm := none }

/-- The bits of a register that a test of its fields selects, with the value of another word there. -/
def mergeBits (fs : List Fld) (p : Fld → Bool) (old new : Word) : Word :=
  let m := regMask fs p
  (old &&& ~~~m) ||| (new &&& m)

/-- Load staged fields with their shadows, and at a cold reset boot fields, from a watermark image (R20, R596). A
valid subchannel that the image puts at another vat or slot has a move to make (R424). -/
def State.loadImage (s : State) (img : Tab Word) (cold : Bool) : State :=
  let old := s
  let ks := (s.regs.map (·.1)) ++ (img.map (·.1))
  let s := ks.foldl (fun s k => match regAtKey k with
    | some (b, o) =>
      s.setReg b o (mergeBits (regFields b o) (fun f => f.cls == .s || (cold && f.cls == .b)) (s.reg b o) (Tab.get regDefault img k))
    | none => s) s
  let new := (s.validSubs fun _ => true).filterMap fun n =>
    let was := old.reg .deckle (subAt n)
    let now := s.reg .deckle (subAt n)
    if dbit was 0 && (field was 7 10 != field now 7 10 || field was 23 35 != field now 23 35) && !old.moving n
    then some (n, field was 7 10, field was 23 35) else none
  { s with moves := s.moves ++ new, shadow := img, bEff := if cold then s.regs.filter fun e => hasBoot e.1 else s.bEff }

/-- The current watermark record: the highest sequence number (R591). -/
def currentRec (rs : List WmRec) : Option WmRec :=
  rs.foldl (fun b r => match b with
    | none => some r
    | some x => if x.seq < r.seq then some r else some x) none

/-- The pentimento: the next highest. -/
def pentimento (rs : List WmRec) : Option WmRec :=
  match currentRec rs with
  | none => none
  | some c => currentRec (rs.filter fun r => r.seq != c.seq)

/-- Offsets of the registers of a block that hold staged or boot fields, ascending. -/
def imageOffsets (b : Blk) : List Nat :=
  (List.range 0o777710).filter fun o => (regFields b o).any fun f => f.cls == .s || f.cls == .b

/-- The blocks at an IO-space block address, a scope-0 address once for each core (R36, R39). -/
def blksAt (d : Nat) : List Blk :=
  if d / 2 ^ 15 = 0 then (List.range 192).filterMap fun c => blkOfDigits d c else (blkOfDigits d 0).toList

/-- The watermark image in its order: an address word and a value word for each staged or boot register, with an address once per
physical core at scope 0. -/
def imageWords (img : Tab Word) : List Word :=
  (List.range (2 ^ 18)).flatMap fun d =>
    match (blksAt d) with
    | [] => []
    | b :: bs => (imageOffsets b).flatMap fun o => (b :: bs).flatMap fun x =>
        [w36 (d * 2 ^ 18 + o),
         mergeBits (regFields x o) (fun f => f.cls == .s || f.cls == .b) 0 (Tab.get regDefault img (regKey x o))]

/-- The watermark CRC: CRC-32C over the packed image (R509). -/
def imageCrc (img : Tab Word) : Nat := crc32c (packOf (imageWords img))

/-- The WMARK registers and the records they show (R601, R602). -/
def State.showRecords (s : State) : State :=
  let c := currentRec s.records
  let p := pentimento s.records
  let s := s.setFld .wmark 0 4 35 ((c.map (·.version)).getD 0)
  let s := s.setFld .wmark 1 4 35 (match c with | some r => r.crc | none => imageCrc [])
  let s := s.setFld .wmark 2 4 35 ((p.map (·.version)).getD 0)
  let s := s.setFld .wmark 3 4 35 ((p.map (·.crc)).getD 0)
  (s.setFld .wmark 4 3 3 (b2n ((c.map (·.auth)).getD false))).setFld .wmark 4 4 4 (b2n ((p.map (·.auth)).getD false))

/-- The mailbox header words that firmware keeps (R583). -/
def State.mailHeader (s : State) : State :=
  let s := (s.setMail 0 1).setMail 1 (w36 (s.fld .wmark 0 4 35))
  let s := (s.setMail 2 (w36 (s.fld .wmark 1 4 35))).setMail 3 (w36 (s.fld .wmark 2 4 35))
  (s.setMail 4 (w36 (s.fld .wmark 3 4 35))).setMail 5 (w36 (256 * s.conVer))

/-- Staging begins, or begins again (R649). -/
def State.stage (s : State) (status : Nat) : State :=
  { ((s.setMail 0 0).setMail 2 (w36 (status * 2 ^ 34))) with staging := some 0 }

/-- Every long command that a module reset ended gets its reply (R669). -/
def State.endLong (s : State) : State :=
  s.longOps.foldl (fun s o =>
    let x := s.slotStat o.slot
    if let some r := o.reply then s.slotDone o.slot r else
    let stamped := (o.op == 0x22 || o.op == 0x23) && decide (2 ^ 17 ≤ x.2.2.2)
    let s := if stamped then s.setPartial o.slot 3 (w36 (s.fld .wmark 0 4 35)) else s
    s.slotDone o.slot (if stamped then 0 else 0xD)) s

/-- Training of the stacks, and memory and the Easel written with zero (R405, R415); in the module-reset form the stacks recalibrate
(R648). -/
def State.gessoMemory (s : State) (cold : Bool) (fails : List (Nat × Nat)) : State :=
  let s := (List.range 16).foldl (fun s m => if s.fld (mcBlk m) 0 0 1 = 2 then s else s.setFld (mcBlk m) 0 0 1 1) s
  if !cold then s else
  let s := fails.foldl (fun s x =>
    let s := if s.fld (stackBlk x.1) 0 0 1 = 0
      then (s.setFld (stackBlk x.1) 0 0 1 2).setFld (stackBlk x.1) 0 2 5 (x.2 / 2)
      else s.setFld (mcBlk x.1) 0 0 1 2
    s.fault (mcBlk x.1) 3 (w36 x.2)) s
  { s with
    dram := [], poisoned := [], keptBanks := []
    easel := s.easel.filter fun e => s.keptBanks.contains (e.1 / 2 ^ 22 * 32 + e.1 % 32) }

/-- The spare map and the sheets are built, and links begin training (R27, R48, R647). The spare of a quire is core 5, or the core
that firmware designates; sheets that the fenced web ports leave without a path checkstop (R33); every other core that is not failed is in service, cold until a sheet has it (log entry 4). -/
def State.gessoBuild (s : State) (spares : List (Nat × Nat)) : State :=
  let spareOf := spares.foldr (fun x t => Tab.set (fun _ => 5) t x.1 x.2) []
  let s := (List.range 192).foldl (fun s c =>
    if (s.core c).cstate == .failed then s else s.setCore c { coreReset with cstate := .active }) { s with spareOf := spareOf }
  let s := (List.range 32).foldl (fun s q =>
    let c := s.spareCore q
    if (s.core c).cstate == .failed then s.setHave q false
    else (s.setHave q true).setCore c { coreReset with cstate := .spare }) s
  let s := (List.range 64).foldl (fun s n => if s.validSheet n then s.buildSheet n else s) s
  let s := (s.confidAll true).webCheck []
  (List.range 8).foldl (fun s t => (List.range 3).foldl (fun s g => s.releaseLinks t g) s) s

/-- The module triptych accepts a Dunul image: MAGIC "DNUL", FORMAT 1, LEN at most 8 MiB less the header, SIGNKEY the fused key and SIG
valid (R645). -/
def dunulOk (h : DunulHdr) : Bool :=
  h.magic == 0x444E554C && h.format == 1 && decide (h.len.toNat + 0x200 ≤ 2 ^ 23) && h.keyMatches && h.sigValid

/-- A step of the gesso sequence ends (R646-R648). -/
def State.gessoEnd (s : State) (copyA copyB : DunulHdr) (fails : List (Nat × Nat)) (failed : List Nat)
    (ports spares : List (Nat × Nat)) : State :=
  match s.phase with
  | .gesso k cold =>
    let go (s : State) : State := { s with phase := .gesso (k + 1) cold }
    let boot := s.fld .rst 2 0 1
    match k with
    | 1 =>
      let s := if cold then s.setReg .clk 0 (setField (0 : Word) 0 1 3)
               else (List.range 64).foldl (fun s n => s.clearSheetIo n 0o020 2) s
      let s := go s.powerSample
      if cold && s.fld .rst 2 2 3 == 0 && boot == 1 then s.stage 0 else s
    | 2 =>
      if !cold || s.fld .rst 2 2 3 != 0 then go s
      else if s.staging.isSome || s.tripOut .module then s
      else if dunulOk copyA then go (s.setFld .rst 2 2 3 1)
      else if dunulOk copyB then go (s.setFld .rst 2 2 3 2)
      else if boot = 0 then s.stage 0
      else s.tripHalt .module
    | 3 =>
      let r := currentRec s.records
      let s := s.loadImage ((r.map (·.image)).getD []) cold
      let s : State := { s with assign := (r.map (·.assign)).getD assignReset }
      let s : State := if cold then ({ s with session := s.session + 1 } : State).showRecords else s
      go ((List.range 16).foldl (fun s v => s.setReg (vatBlk v) 1 s.session) s)
    | 4 => go s
    | 5 => go (s.gessoMemory cold fails)
    | 6 => go (ports.foldl (fun s x => s.webFence x.1 x.2) (failed.foldl (fun s c => s.setCore c { coreReset with cstate := .failed }) s))
    | 7 => go (s.gessoBuild spares)
    | _ =>
      if s.endpt.perst then s else
      let s := s.endLong.mailHeader
      { s with phase := .ready, endpt := { s.endpt with ready := true } }
  | _ => s

/-- Firmware takes a chunk of a staged image, of which the first begins with the header, and verifies the image after the last (R645,
R649). -/
def State.stagingChunk (s : State) (keyMatches sigValid : Bool) : State :=
  match s.staging with
  | none => s
  | some n =>
    let w := s.mail 1
    let len := field w 20 35
    if field w 4 19 ≠ n % 65536 ∨ len = 0 ∨ 0xFC00 < len then s else
    let seq := (n % 65536) * 2 ^ 16
    let s : State := if n = 0 then { s with stageHdr := (packOf ((List.range 4).map fun i => s.mail (1024 + i))).take 12 } else s
    let num (i : Nat) : BitVec 32 := BitVec.ofNat 32 (numOf ((s.stageHdr.drop (4 * i)).take 4))
    let h : DunulHdr := { magic := num 0, format := num 1, len := num 2, keyMatches := keyMatches, sigValid := sigValid }
    if dbit w 0 = false then
      ({ s.setMail 2 (w36 (2 ^ 34 + seq)) with staging := some (n + 1) } : State).istat 1
    else if dunulOk h then
      let s := (s.setMail 2 (w36 (2 * 2 ^ 34 + seq))).istat 1
      { s.setFld .rst 2 2 3 3 with staging := none, phase := .gesso 3 true }
    else
      let s := (s.setMail 2 (w36 (3 * 2 ^ 34 + seq))).istat 1
      { s with staging := some 0 }

/-- Thermal trip (R639): THERMTRIP_N is latched, every core stops, and the module holds itself in reset until PWROK falls. -/
def State.thermTrip (s : State) : State :=
  { s.resetModule with phase := .tripped, pins := { s.pins with thermtripN := false } }

/-- The hottest value of a list of sensor readings, with its sensor. -/
def hottest (xs : List (Nat × Nat)) : Nat × Nat := xs.foldl (fun b x => if b.2 < x.2 then x else b) (xs.headD (0, 0))

/-- The 1 ms readings: the power monitor's, and THERM's of its sensors, of which tile t has 8, k 0-3 quires, 4 home slices, 5-6
stacks, 7 engines; and the actions of R639 (R653, R665). -/
def State.thermSample (s : State) (temps : Vector (Fin 512) 64) : State :=
  match s.phase with
  | .off | .hold _ | .tripped => s
  | _ =>
    let at_ (t k : Nat) : Nat := (vget temps (8 * t + k) 0).val
    let all := (List.range 8).flatMap fun t => (List.range 8).map fun k => (16 * t + k, at_ t k)
    let top := hottest all
    let s := (s.powerSample.setFld .therm 1 0 8 top.2).setFld .therm 1 9 17 top.1
    let tile (s : State) (t : Nat) : State :=
      let h := hottest ((List.range 8).map fun k => (16 * t + k, at_ t k))
      let warn := s.fld .therm 0 0 8
      -- warning
      let was := s.warned.contains t
      let now := decide (warn ≤ h.2) || (was && decide (warn < h.2 + 3))
      let s : State := if now = was then s
        else if now then ({ s with warned := s.warned ++ [t] } : State).fault .therm 0 (w36 h.1)
        else { s with warned := s.warned.filter (· != t) }
      let s := if !now then s else
        let hq := hottest ((List.range 4).map fun k => (4 * t + k, at_ t k))
        let st := s.fld (qpwrBlk hq.1) 0 0 1
        if st < 3 then s.stepWrite hq.1 (st + 1) else s
      -- floor
      let stackHot := (s.mc (2 * t)).hot || (s.mc (2 * t + 1)).hot
      let had := s.rbit .therm 1 (18 + t)
      let floor := decide (95 ≤ h.2) || stackHot || (had && decide (92 < h.2))
      if floor && !had then
        (List.range 4).foldl (fun s i =>
          let q := 4 * t + i
          let s : State := { s with forced := s.forced ++ [q] }
          ((s.setFld (qpwrBlk q) 1 13 13 1).stepNow q 3)) (s.setFld .therm 1 (18 + t) (18 + t) 1)
      else if had && !floor then s.dropFloor t else s
    let s := (List.range 8).foldl tile s
    if 105 ≤ top.2 then (s.fault .therm 1 (w36 top.1)).thermTrip else s

end Sys2Proof.Machine
end

