-- ==== Sys2Proof/Machine/Service.lean ====
section
/-! DEFINITION. Work that goes on over more than one command because a line it needs can be busy: the console's memory-service commands
(R582, R585) and an L3 slice that is emptied (R304, R314). -/

namespace Sys2Proof.Machine

open Sys2Proof

/-- The image that a memory-service command names, in the order of R82 (log entry 14). -/
def imageOf (n : Nat) : Image := match n with | 0 => .packed | 1 => .octet | _ => .wide

/-- Every word of a range lies in a region of the sheet (R60, R582). -/
def State.inSheet (s : State) (sh sa n : Nat) : Bool :=
  n == 0 || (List.range ((sa % 2 ^ 28 + n - 1) / 2 ^ 28 + 1)).all fun i => (s.deckleMap sh (sa / 2 ^ 28 * 2 ^ 28 + i * 2 ^ 28)).isSome

/-- A memory-service command ends: the words read so far go to the host buffer, up to the first that its image has no form for, and
PROGRESS counts the words done (R84, R582, R585). -/
def State.svcEnd (s : State) (j : SvcJob) (reply : Nat) : State :=
  if j.write then (s.slotProgress j.slot j.done).slotDone j.slot reply else
  let o := (imageOf j.image).ofWords j.got
  let s := if o.1.isEmpty || !s.mayMaster 0 then s else s.emit (.hostWrite j.buffer o.1 false)
  match o.2 with
  | some i => (s.slotProgress j.slot i).slotDone j.slot 0xF
  | none => (s.slotProgress j.slot j.done).slotDone j.slot reply

/-- A memory-service command goes on, as non-caching requests of tile 0, to its end or to the first poisoned line; at a line that is
busy, or while the module triptych is out, it waits (R381, R582). A read ends when the host can no longer be written (R566). -/
def State.svcGo : Nat → State → SvcJob → State
  | 0, s, j => s.svcEnd j j.reply
  | fuel + 1, s, j =>
    if s.moduleOut then s.addWait (.svc j)
    else if !j.write && !s.mayMaster 0 then s.svcEnd j 0xA
    else if (if j.write then j.put.isEmpty else j.left == 0) then s.svcEnd j j.reply else
    match s.deckleMap j.sheet j.addr with
    | none => s.svcEnd j 8
    | some mp =>
      let n := Nat.min (if j.write then j.put.length else j.left) (16 - mp % 16)
      let wait : State := (s.slotProgress j.slot j.done).addWait (.svc j)
      let next (got : List Word) : SvcJob := { j with
        addr := j.addr + n, left := j.left - n, put := j.put.drop n, got := j.got ++ got, done := j.done + n }
      if j.write then
        match s.ncWrite (ncIndex 0) (mp / 16) fun x => linePutWords x (mp % 16) (j.put.take n) with
        | none => wait
        | some s => State.svcGo fuel s (next [])
      else
        match s.ncRead (ncIndex 0) (mp / 16) with
        | none => wait
        | some (x, s) =>
          if x.poison then s.svcEnd j 0xC
          else
            let j := next ((List.range n).map fun i => vget x.words (mp % 16 + i) 0)
            if ((imageOf j.image).ofWords j.got).2.isSome then s.svcEnd j j.reply else State.svcGo fuel s j

/-- A memory-service command goes on. -/
def State.svcRun (s : State) (j : SvcJob) : State := State.svcGo (j.left + j.put.length + 1) s j

/-- OP_ABORT finds a memory-service command of a slot that waits (R585). -/
def State.svcOf (s : State) (k : Nat) : Option SvcJob :=
  s.waits.findSome? fun w => match w with | .svc j => if j.slot = k then some j else none | _ => none

/-- The lines of a slice being emptied whose controller takes them are written back and dropped; DRAINING is 1 while any is left
(R304, R314). -/
def State.l3Empty (s : State) (h : Nat) : State :=
  let s := (s.l3.filter fun e => e.1 / 2 ^ 34 == h).foldl (fun s e =>
    match e.2 with
    | some x =>
      let l := e.1 % 2 ^ 34
      if !x.dirty then s.setL3 h l none
      else if s.memPath (h / 4) l then (s.setL3 h l none).memWrite l x.data
      else s
    | none => s) s
  let left := s.l3.any fun e => e.1 / 2 ^ 34 == h
  let s := s.setFld (.home (Fin.ofNat 32 h)) 0 1 1 (b2n left)
  if left then s.addWait (.slice h) else s

/-- Work that waited is tried again. -/
def State.tryWait (s : State) (w : Wait) : State :=
  match w with
  | .recover c cause l => s.recover c cause l
  | .lost c reason => s.lose c reason
  | .release p => s.spareRelease p
  | .notice c p ran => if ran then s.notice ((s.core p).sheet.getD 64) 3 (c * 2 ^ 19 + p * 2 ^ 11) 0 else s.addWait w
  | .svc j => s.svcRun j
  | .slice h => s.l3Empty h

/-- Everything that waited is tried again, oldest first. -/
def State.waitsGo (s : State) : State := s.waits.foldl State.tryWait { s with waits := [] }

end Sys2Proof.Machine
end

