-- ==== Sys2Proof/Machine/Run.lean ====
section
/-! DEFINITION. How a command ends: the reactions its faults caused are carried out, and the next state is answered. -/

namespace Sys2Proof.Machine

open Sys2Proof

/-- A sheet that SHEET_START may start (R344, R405, R600): valid, not running or checkstopped, with a service core and no
region in a stack that failed training. -/
def State.mayStart (s : State) (sh : Nat) : Bool :=
  s.validSheet sh && !(s.sheet sh).running && !(s.sheet sh).checkstop && (s.serviceCore sh).isSome &&
    (s.regionsOf sh).all fun r => s.fld (mcBlk (stackOf (r * 2 ^ 24))) 0 0 1 != 2

/-- SHEET_RESET acts (R581, R640): with RESTART the sheet starts again from its start record. -/
def State.sheetResetOp (s : State) (sh : Nat) (restart : Bool) (slot : Nat) : State :=
  let start := (s.sheet sh).start
  let s := s.sheetReset sh
  match restart, start with
  | true, some w => if s.mayStart sh then (s.startSheet sh w).slotDone slot 0 else s.slotDone slot 7
  | _, _ => s.slotDone slot 0

/-- Sheet resets that waited for a couching of their sheet to end (R367). The target is the sheet, plus 64 for RESTART. -/
def State.waitedResets (s : State) : State :=
  (s.longOps.filter fun o => o.op == 0x13).foldl (fun s o =>
    if s.couches (o.target % 64) then s else s.sheetResetOp (o.target % 64) (decide (64 ≤ o.target)) o.slot) s

/-- What follows a command's own effect: what waited is tried again, sheet resets that waited for a couching act where the module
triptych runs, and every fault reaction that the command caused is carried out (R367, R381, R613, R615). -/
def State.follow (s : State) : State :=
  let s := s.waitsGo
  (if s.mtUp then s.waitedResets else s).settle

/-- The next state of a command whose effect is given. -/
def ends (s : State) : Host.Outcome State Fault Refusal := .next s.follow

/-- The module is not off, held in reset or tripped, so that its agents exchange messages and take commands. -/
def State.alive (s : State) : Bool :=
  match s.phase with
  | .gesso _ _ | .ready => true
  | .off | .hold _ | .tripped => false

/-- An effect that the module has only while it is out of reset. -/
def State.whenAlive (s : State) (f : State → State) : State := if s.alive then f s else s

end Sys2Proof.Machine
end

