-- ==== Sys2Proof/Machine/Protocol.lean ====
section
/-! DEFINITION. The coherence protocol message by message: the home tables R333-R336 with their queues, allocation and
reservations (R326-R328, R338-R340), the quire tables R330-R332, timeouts and protocol errors (R343), and the disabling of
caches (R302-R305, R342). A core's own access runs its whole transaction at once where nothing is in its way
(`State.quireRead`); these rows are the messages as they arrive one by one. -/

namespace Sys2Proof.Machine

open Sys2Proof

/-- Send a coherence message. -/
def State.web (s : State) (msg : String) (src dst l : Nat) (data : Option Line) (n : Nat) : State :=
  s.emit (.web msg src dst l data n)

/-- The name of a request message (R323). -/
def ReqKind.name : ReqKind → String
  | .getS => "GetS" | .getM => "GetM" | .getZ => "GetZ" | .putM => "PutM" | .putE => "PutE"
  | .mClean => "MClean" | .mFlush => "MFlush" | .mPurge => "MPurge" | .readNC => "ReadNC"
  | .writeNC _ _ => "WriteNC" | .atomNC _ _ _ _ => "AtomNC" | .victim => "Victim"

/-- The result of an interlocked operation on a value of `w` bits; none where the operation writes nothing (R170, R187). -/
def atomValue (op : AtomOp) (w x y : Nat) : Option Nat :=
  let bit (f : Bool → Bool) : Option Nat :=
    match aluBit f w x y (flgOf 0) with | .ok r => some r.1 | .error _ => none
  match op with
  | .xchg => some y
  | .add => some (aluAdd w x y 0).1
  | .sub => some (aluSub w x y 0).1
  | .inc => some (aluAdd w x 1 0).1
  | .dec => some (aluSub w x 1 0).1
  | .and => some (x &&& y)
  | .or => some (x ||| y)
  | .xor => some (x ^^^ y)
  | .bset => bit fun _ => true
  | .bclr => bit fun _ => false
  | .bflip => bit fun b => !b
  | .min => some (aluMin true false w x y)
  | .max => some (aluMin true true w x y)
  | .minu => some (aluMin false false w x y)
  | .maxu => some (aluMin false true w x y)
  | .cas e => if x = e.toNat % 2 ^ w then some y else none

/-- What a WriteNC or AtomNC makes of a line, and the old value it answers with (R323, R335); a write of every word clears
poison (R293). -/
def ncApply (k : ReqKind) (x : Line) : Line × DWord :=
  match k with
  | .writeNC mask ws =>
    ({ words := Vector.ofFn fun i : Fin 16 => if mask.getLsbD (15 - i.val) then ws[i] else x.words[i]
       poison := x.poison && mask != BitVec.allOnes 16 }, 0)
  | .atomNC op dbl i v =>
    if dbl then
      let old := lineDw x (i / 2)
      (match atomValue op 72 old.toNat v.toNat with
       | some n => linePutDw x (i / 2) (BitVec.allOnes 72) (BitVec.ofNat 72 n)
       | none => x, old)
    else
      let old := vget x.words i 0
      (match atomValue op 36 old.toNat (v.toNat % 2 ^ 36) with
       | some n => { x with words := vset x.words i (w36 n) }
       | none => x, BitVec.ofNat 72 old.toNat)
  | _ => (x, 0)

/-- Send Inv to a list of quires for a collector; a transaction that does so with BC = 1 is counted (R331, R338, R349). -/
def State.sendInv (s : State) (h l : Nat) (bc : Bool) (qs : List Nat) (collector : Nat) : State :=
  let s := if bc && !qs.isEmpty then s.count (dirBlk h) 3 0 35 else s
  qs.foldl (fun s q => s.web "Inv" h q l none collector) s

/-- The collector index of an Inv whose InvAcks the home collects. -/
def homeCollects : Nat := 64

/-- Send Recall to an owner. -/
def State.sendRecall (s : State) (h l : Nat) (o : Option Nat) : State :=
  match o with | some o => s.web "Recall" h o l none 0 | none => s

/-- Make a line busy with a transaction (R322). -/
def State.busy (s : State) (h l : Nat) (t : Txn) : State := s.putDir h l { s.dirE h l with txn := some t }

/-- A transaction in a busy state. -/
def txnOf (b : BState) (rq : HReq) (acks : List Nat) (needD fwd : Bool) : Txn :=
  { busy := b, req := rq, acks := acks, needD := needD, got := none, fwd := fwd }

/-- Free a line's entry, which keeps what queues behind it (R326, R335). -/
def State.freeEntry (s : State) (h l : Nat) : State :=
  s.putDir h l { dirReset with queue := (s.dirE h l).queue }

/-- A B_S or B_C transaction for which everything has arrived completes (R335); none while it must wait for the memory
controller. -/
def State.complete (s : State) (h l : Nat) (e : DirEntry) (t : Txn) : Option State :=
  let r := t.req.who
  let idle (s : State) (e : DirEntry) : State := s.putDir h l { e with txn := none }
  let drop (s : State) : State := (s.setL3 h l none).freeEntry h l
  let l3dirty := match s.l3Line h l with | some x => x.dirty | none => false
  let l3out (s : State) : State := match s.l3Line h l with | some x => if x.dirty then s.memWrite l x.data else s | none => s
  match t.req.kind with
  | .readNC =>
    match t.got with
    | some g => some ((idle s e).web "DataNC" h r l (some g.1) 0)
    | none => none
  | .mClean =>
    match t.got with
    | some g =>
      (s.cleanLine h l g.1 g.2).map fun s =>
        let e' := match e.st, e.owner with
          | .dO, some o => { ({ e with owner := none, st := .ds }).share o with st := .ds }
          | _, _ => e
        (idle s e').web "Cmp" h r l none 0
    | none => none
  | .getZ => some ((s.busy h l { t with busy := .bd, fwd := false }).web "GrantM" h r l none 0)
  | .writeNC _ _ | .atomNC _ _ _ _ =>
    let src := match t.got with | some g => some (g.1, s) | none => s.homeData h l
    match src with
    | none => none
    | some (x, s) =>
      if !s.canWrite h l then none else
      let y := ncApply t.req.kind x
      some (((s.homeWrite h l y.1).freeEntry h l).web "CmpNC" h r l none y.2.toNat)
  | .mFlush =>
    match t.got with
    | some (d, true) => if !s.memUp l then none else some ((drop (s.memWrite l d)).web "Cmp" h r l none 0)
    | _ => if l3dirty && !s.memUp l then none else some ((drop (l3out s)).web "Cmp" h r l none 0)
  | .mPurge => some ((drop s).web "Cmp" h r l none 0)
  | .victim =>
    match t.got with
    | some (d, true) => if !s.canWrite h l then none else some ((s.homeWrite h l d).freeEntry h l)
    | _ => some (s.freeEntry h l)
  | .getS | .getM | .putM | .putE => none

/-- The module is not off, held in reset or tripped, and neither the home of a line nor the sheet that owns it has stopped: the
line's messages are still exchanged (R43, R344). -/
def State.lineLive (s : State) (h l : Nat) : Bool :=
  s.alive && !s.inReset.contains (.home (Fin.ofNat 32 h)) && !s.inReset.contains (dirBlk h) &&
    (match s.regionOwner (l / 2 ^ 24) with | some sh => !(s.sheet sh).checkstop | none => true)

/-- Complete the transaction of a line where nothing is missing; an abandoned one stays busy (R344). -/
def State.tryComplete (s : State) (h l : Nat) : State :=
  let e := s.dirE h l
  if !s.lineLive h l then s else
  match e.txn with
  | some t => if t.busy != .bd && t.acks.isEmpty && !t.needD then (s.complete h l e t).getD s else s
  | none => s

/-- A home runs a request for a line that is not busy, which has or needs no entry or has a way (R333, R334); none while it
waits for the memory controller. -/
def State.homeRun (s : State) (h l : Nat) (rq : HReq) : Option State :=
  let e := s.dirE h l
  let r := rq.who
  let sh := s.shOf l e (some r)
  let all := s.shOf l e none
  let owned := e.owner == some r
  let snoop (s : State) (clean : Nat) : State :=
    (s.web "Snp" h (e.owner.getD 0) l none clean).busy h l (txnOf .bs rq [] true false)
  let collect (s : State) (qs : List Nat) (asks : Bool) : State :=
    let s := s.sendInv h l e.bc qs homeCollects
    let s := if asks then s.sendRecall h l e.owner else s
    (s.busy h l (txnOf .bc rq qs asks false)).tryComplete h l
  match rq.kind with
  | .getS =>
    match e.st with
    | .di => (s.homeData h l).map fun d => (d.2.web "DataE" h r l (some d.1) 0).busy h l (txnOf .bd rq [] false false)
    | .ds => (s.homeData h l).map fun d => (d.2.web "DataS" h r l (some d.1) 0).busy h l (txnOf .bd rq [] false false)
    | .dO | .dx => some ((s.web "FwdGetS" h (e.owner.getD 0) l none r).busy h l (txnOf .bd rq [] false true))
  | .getM =>
    match e.st with
    | .di => (s.homeData h l).map fun d => (d.2.web "DataM" h r l (some d.1) 0).busy h l (txnOf .bd rq [] false false)
    | .ds => (s.homeData h l).map fun d =>
        ((d.2.web "DataM" h r l (some d.1) sh.length).sendInv h l e.bc sh r).busy h l (txnOf .bd rq [] false false)
    | .dO =>
      let s := if owned then s.web "GrantM" h r l none sh.length else s.web "FwdGetM" h (e.owner.getD 0) l none (64 * r + sh.length)
      some ((s.sendInv h l e.bc sh r).busy h l (txnOf .bd rq [] false (!owned)))
    | .dx => some ((s.web "FwdGetM" h (e.owner.getD 0) l none (64 * r)).busy h l (txnOf .bd rq [] false true))
  | .getZ =>
    match e.st with
    | .di => some ((s.web "GrantM" h r l none 0).busy h l (txnOf .bd rq [] false false))
    | .ds => some (collect s sh false)
    | .dO => some (collect s sh (!owned))
    | .dx => some (collect s [] true)
  | .readNC =>
    match e.st with
    | .di | .ds => ((s.useDir h l).homeData h l).map fun d => d.2.web "DataNC" h r l (some d.1) 0
    | .dO | .dx => some (snoop s 0)
  | .writeNC _ _ | .atomNC _ _ _ _ =>
    match e.st with
    | .di => (s.homeData h l).bind fun d =>
        if !d.2.canWrite h l then none else
        let y := ncApply rq.kind d.1
        some ((d.2.homeWrite h l y.1).web "CmpNC" h r l none y.2.toNat)
    | .ds => some (collect s sh false)
    | .dO => some (collect s sh true)
    | .dx => some (collect s [] true)
  | .mClean =>
    match e.st with
    | .di | .ds => (s.l3Clean h l).map fun s => s.web "Cmp" h r l none 0
    | .dO | .dx => some (snoop s 1)
  | .mFlush | .mPurge =>
    match e.st with
    | .di => s.complete h l e (txnOf .bc rq [] false false)
    | .ds => some (collect s all false)
    | .dO => some (collect s all true)
    | .dx => some (collect s [] true)
  | .putM =>
    let x := rq.data.getD zeroLine
    if !owned then some (s.web "StaleAck" h r l none 0)
    else if !s.canWrite h l then none else
      let s := s.homeWrite h l x
      let s := if e.st == .dx then s.freeEntry h l else s.putDir h l { e with owner := none, st := .ds }
      some (s.web "PutAck" h r l none 0)
  | .putE =>
    if !owned then some (s.web "StaleAck" h r l none 0) else
      let s := if e.st == .dx then s.freeEntry h l else s.putDir h l { e with owner := none, st := .ds }
      some (s.web "PutAck" h r l none 0)
  | .victim => some s

/-- A request that takes an entry where its line has none (R333). -/
def ReqKind.allocates : ReqKind → Bool
  | .getS | .getM | .getZ => true
  | _ => false

/-- Queue entries in use at a home (R328, R347). -/
def State.queued (s : State) (h : Nat) : Nat :=
  ((s.dir.filter fun x => x.1 / 2 ^ 34 == h).map fun x => x.2.queue.length).foldl (· + ·) 0

/-- Victims of the set of a line whose transactions are not done. -/
def State.victimsOut (s : State) (h l : Nat) : Nat :=
  ((s.dirSetEntries h l).filter fun x => match x.2.txn with | some t => t.req.kind == .victim | none => false).length

/-- The home gives up a victim entry for a request that waits for a way (R339). -/
def State.startVictim (s : State) (h : Nat) (v : Nat × DirEntry) : State :=
  let lv := v.1 % 2 ^ 34
  let e := v.2
  let sh := s.shOf lv e none
  let rq : HReq := { kind := .victim, who := 0, cnt := 0, data := none }
  let s := (s.count (dirBlk h) 5 0 35).sendInv h lv e.bc sh homeCollects
  let s := s.sendRecall h lv e.owner
  (s.busy h lv (txnOf .bc rq sh e.owner.isSome false)).tryComplete h lv

/-- A request waits at its home for a way or for the memory controller (R339, R389). -/
def State.homeWait (s : State) (h l : Nat) (rq : HReq) : State :=
  s.setHome h { s.home h with waiting := (s.home h).waiting ++ [(l, rq)] }

/-- A reservation waits at a home for a queue entry (R340). -/
def State.reservedQueue (s : State) (h : Nat) : Bool := (s.home h).resv.any fun x => (s.dirE h x.line).txn.isSome

/-- A request starts on a line that runs nothing: at once where it needs no way or has one, otherwise it waits while a victim is
given up for it; none where it must be retried (R339, R340). `first` is true for a request that has waited or holds a
reservation. -/
def State.homeStart (s : State) (h l : Nat) (rq : HReq) (first : Bool) : Option State :=
  let run (s : State) : State := (s.homeRun h l rq).getD (s.homeWait h l rq)
  if !(rq.kind.allocates && (s.dirE h l).st == .di) then some (run s)
  else if !first && s.reservedSet h l then none
  else
    let es := s.dirSetEntries h l
    if es.length < 16 then some (run s) else
    let waits := ((s.home h).waiting.filter fun w => dirSetOf w.1 == dirSetOf l).length
    if waits < s.victimsOut h l then some (s.homeWait h l rq) else
    match pickVictim es with
    | none => none
    | some v =>
      let s := s.startVictim h v
      if (s.dirSetEntries h l).length < 16 then some (run s) else some (s.homeWait h l rq)

/-- A home takes a request: it starts, joins the line's queue, or waits; none where it must be retried (R326, R328, R339,
R340). -/
def State.homeTake (s : State) (h l : Nat) (rq : HReq) (first : Bool) : Option State :=
  let e := s.dirE h l
  if !e.idle then
    if s.queued h < 256 ∧ (first = true ∨ s.reservedQueue h = false) then some (s.putDir h l { e with queue := e.queue ++ [rq] }) else none
  else if !first && (s.home h).waiting.any (·.1 == l) then some (s.homeWait h l rq)
  else s.homeStart h l rq first

/-- Serve a line's queue while the line is free: the head first (R326). A head that needs a way in a full or reserved set waits
behind the reservations (R340). -/
def State.serveLine (h l : Nat) : Nat → State → State
  | 0, s => s
  | n + 1, s =>
    let e := s.dirE h l
    if !s.lineLive h l then s else
    match e.txn, e.queue with
    | none, rq :: rest =>
      let s := s.putDir h l { e with queue := rest }
      let needs := rq.kind.allocates && e.st == .di
      if needs && (s.reservedSet h l || decide (16 ≤ (s.dirSetEntries h l).length)) then
        s.setHome h { s.home h with resv := (s.home h).resv ++ [{ own := false, who := rq.who, line := l, req := rq }] }
      else State.serveLine h l n ((s.homeRun h l rq).getD (s.homeWait h l rq))
    | _, _ => s

/-- Serve what waits at a home: requests for a way or for memory, then reservations in order (R339, R340). What waits for a line
whose sheet has checkstopped stays (R344). -/
def State.serveHome (s : State) (h : Nat) : State :=
  let ws := (s.home h).waiting
  let s := s.setHome h { s.home h with waiting := [] }
  let s := ws.foldl (fun s w =>
    (if s.lineLive h w.1 then s.homeTake h w.1 w.2 true else none).getD (s.homeWait h w.1 w.2)) s
  let rs := (s.home h).resv
  let s := s.setHome h { s.home h with resv := [] }
  rs.foldl (fun s x =>
    let back (s : State) : State := s.setHome h { s.home h with resv := (s.home h).resv ++ [x] }
    let blocked := if (s.dirE h x.line).txn.isSome then s.reservedQueue h else s.reservedSet h x.line
    if blocked || !s.lineLive h x.line then back s else (s.homeTake h x.line x.req true).getD (back s)) s

/-- After a transaction: complete what can, then serve the line and the home; the way of a victim goes to the request that waits
for it before anything queued for the victim's line (R335). -/
def State.homeAfter (s : State) (h l : Nat) : State :=
  let victim : Bool := match (s.dirE h l).txn with | some t => t.req.kind == .victim | none => false
  let s := s.tryComplete h l
  let s := if victim then s.serveHome h else s
  (s.serveLine h l ((s.dirE h l).queue.length + 1)).serveHome h

/-- Every home goes on with what waited for a memory controller (R389, R400, R402). -/
def State.homesGo (s : State) : State :=
  let ks := (s.dir.filter fun x => x.2.txn.isSome).map (·.1)
  let s := ks.foldl (fun s k =>
    let h := k / 2 ^ 34
    let l := k % 2 ^ 34
    (s.tryComplete h l).serveLine h l ((s.dirE h l).queue.length + 1)) s
  (s.homes.map (·.1)).foldl (fun s h => s.serveHome h) s

/-- Freeze a master of a sheet (R61, R62): a core once its older stores have drained as far as they can; a subchannel, whose
exchange ends; an engine queue, whose running job ends with status DECKLE; a requester function or a PF1 queue. -/
def State.freezeMaster (s : State) (m : MasterId) (sh kind addr : Nat) : State :=
  let i := m.ident.val
  match m.type.val with
  | 1 =>
    let s := s.drainSome i
    (s.setCore i { s.core i with run := .frozen }).freeze 1 i sh kind addr
  | 2 => if s.subSt i = 2 then s.chanFail i (.deckle kind addr) else s.freezeSub i kind addr
  | 3 =>
    let t := i / 2 ^ 14 % 8
    let varnish := decide (2 ^ 17 ≤ i)
    let f := s.engineFail varnish t sh (.deckle kind addr)
    if varnish then
      f.2.2.setVarQueue t sh ((f.2.2.varQueue t sh).map fun j =>
        if j.running then { j with result := some (f.1, f.2.1) } else j)
    else
      f.2.2.setCalQueue t sh ((f.2.2.calQueue t sh).map fun j =>
        if j.running then { j with result := some (vset (j.result.getD (Vector.replicate 4 0)) 0 (calWord12 f.1 false false 1 f.2.1)) } else j)
  | k => s.freeze k i sh kind addr

/-- A request that fails the deckle check at the home freezes the master that asked and records HDECK; a speculative access or a
prefetch is discarded without a freeze or a record (R56-R59, R61). -/
def State.homeDeckle (s : State) (h l : Nat) (a : Ask) : State :=
  if a.spec then s else
  let s := s.freezeMaster a.master a.sheet.val 0o17 (16 * l)
  s.fault (.home (Fin.ofNat 32 h)) 2 (w36 (s.frzIdx a.master.type.val a.master.ident.val))

/-- The state of a quire's line once its agent has sent a request (R321, R330, R332). -/
def qIssue (x : QLine) (k : ReqKind) (cnt : Nat) : QLine :=
  let opened (st : QState) : QLine := { x with st := st, req := some k, count := cnt, retried := false, acks := 0, expect := none }
  match k, x.st with
  | .getS, .i => opened .isD
  | .getM, .i | .getZ, .i => opened .imAD
  | .getM, .s | .getZ, .s => opened .smAD
  | .getM, .o | .getZ, .o => opened .omAD
  | .putM, .m | .putM, .o => { opened .miA with dirty := x.dirty || x.st == .m, l1dirty := none }
  | .putE, .e => opened .eiA
  | _, _ => x

/-- A quire's copy has not yet asked, so that the arriving request is its first (R321). -/
def QLine.asked (x : QLine) : Bool := x.req.isSome

/-- A maintenance request of a quire (R332). -/
def ReqKind.maint : ReqKind → Bool
  | .mClean | .mFlush | .mPurge => true
  | _ => false

/-- A non-caching request (R316). -/
def ReqKind.nonCaching : ReqKind → Bool
  | .readNC | .writeNC _ _ | .atomNC _ _ _ _ => true
  | _ => false

/-- Change the first open request that satisfies a test; none where there is none. -/
def State.onOpen (s : State) (p : OpenReq → Bool) (f : OpenReq → Option OpenReq) : Option State :=
  match s.openReqs.find? p with
  | none => none
  | some x => some { s with openReqs := match f x with
      | some y => s.openReqs.replace x y
      | none => s.openReqs.erase x }

/-- The requester has sent the request that arrives (R328): a reissue, whose count has risen, finds it open already. -/
def State.issued (s : State) (r l : Nat) (k : ReqKind) (cnt : Nat) : State :=
  if k.maint || k.nonCaching then
    match (if cnt = 0 then none else
        s.onOpen (fun x => x.who == r && x.line == l && x.kind == k && x.count == cnt && !x.retried) fun x => some x) with
    | some s => s
    | none => { s with openReqs := s.openReqs ++ [{ who := r, line := l, kind := k, count := cnt, retried := false }] }
  else
    let x := s.qline r l
    if x.asked then s.setQline r l { x with count := cnt, retried := false } else s.setQline r l (qIssue x k cnt)

/-- One request of a cycle in its turn: taken, reserved, or answered with Retry (R328, R340). -/
def State.homeOne (s : State) (h l : Nat) (rq : HReq) : State :=
  let r := rq.who
  let accepted (s : State) : State := { s with order64 := s.order64.erase (r, h, l) }
  match s.homeTake h l rq false with
  | some s => (accepted s).homeAfter h l
  | none =>
    if rq.cnt = 64 ∧ ((s.home h).resv.any fun x => x.own && x.who == r) = false then
      (accepted (s.setHome h { s.home h with
        resv := (s.home h).resv ++ [{ own := true, who := r, line := l, req := rq }] })).serveHome h
    else (s.count (dirBlk h) 4 0 35).web "Retry" h r l none rq.cnt

/-- Requests for one line that have reached the home in one CK_WEB cycle, in the order of their indexes from the rotation pointer up;
the pointer moves one past the first, also where it is the only one (R327; log entry 88). -/
def State.homeCycle (s : State) (h l : Nat) : State :=
  let k := s.home h
  let rs := (k.arrivals.filter (·.1 == l)).map (·.2)
  let turn := (List.range 40).flatMap fun i => rs.filter fun q => q.who == (k.ptr + i) % 40
  let s := s.setHome h { k with
    arrivals := k.arrivals.filter (·.1 != l), ptr := match turn with | q :: _ => (q.who + 1) % 40 | [] => k.ptr }
  turn.foldl (fun s q => s.homeOne h l q) s

/-- A request arrives at a home (R56, R326-R328, R333, R340): its sheet tag must own the line's region; while others for the same
line are still to arrive in the cycle it waits for its turn. -/
def State.homeReq (s : State) (h r l : Nat) (k : ReqKind) (cnt : Nat) (data : Option Line) (a : Ask) : State :=
  if !s.lineLive h l then s else
  let s :=
    if s.regionOwner (l / 2 ^ 24) != some a.sheet.val then s.homeDeckle h l a else
    let s := s.issued r l k cnt
    s.setHome h { s.home h with arrivals := (s.home h).arrivals ++ [(l, { kind := k, who := r, cnt := cnt, data := data })] }
  if a.more then s else s.homeCycle h l

/-- A message that no table row admits: the receiving block records the sender, which is dead (R343). -/
def State.badAtHome (s : State) (h q : Nat) : State := (s.fault (dirBlk h) 3 (w36 q)).quireDead q 3

/-- A message from the home that no table row admits at a quire (R343). -/
def State.badFromHome (s : State) (q l : Nat) : State :=
  let h := s.homeNo l
  (s.fault (.quire (quireFin q)) 1 (w36 h)).homeDead h 1

/-- A message that no table row admits at a quire, whose sender the message does not name: an owner, sharer or home. Which
agent sent it is a free value. -/
def State.badFromPeer (s : State) (q l : Nat) : State :=
  let f := s.free 6
  if f.1 < 32 then (f.2.fault (.quire (quireFin q)) 1 (w36 f.1)).quireDead f.1 1 else f.2.badFromHome q l

/-- Done arrives (R336). -/
def State.homeDone (s : State) (h q l : Nat) (f : FinalState) : State :=
  if !s.lineLive h l then s else
  let e := s.dirE h l
  match e.txn with
  | some t =>
    if t.busy != .bd || t.req.who != q then s.badAtHome h q else
    let e := { e with txn := none }
    let e := match f with
      | .s => let e' := e.share q
              if t.fwd then { e' with st := .dO } else { e' with st := .ds }
      | .e => { e with st := .dx, owner := some q, sharers := [], bc := false }
      | .m => { e with st := .dx, owner := some q, sharers := [], bc := false }
    (s.putDir h l e).homeAfter h l
  | none => s.badAtHome h q

/-- SData arrives (R334, R335). -/
def State.homeSData (s : State) (h q l : Nat) (x : Line) (dirty : Bool) : State :=
  if !s.lineLive h l then s else
  let e := s.dirE h l
  match e.txn with
  | some t =>
    if t.busy != .bs || !t.needD || e.owner != some q then s.badAtHome h q else
    (s.busy h l { t with needD := false, got := some (x, dirty) }).homeAfter h l
  | none => s.badAtHome h q

/-- RData arrives (R334, R335). -/
def State.homeRData (s : State) (h q l : Nat) (x : Line) (dirty : Bool) : State :=
  if !s.lineLive h l then s else
  let e := s.dirE h l
  match e.txn with
  | some t =>
    if t.busy != .bc || !t.needD || e.owner != some q then s.badAtHome h q else
    (s.busy h l { t with needD := false, got := some (x, dirty) }).homeAfter h l
  | none => s.badAtHome h q

/-- An InvAck arrives at the home (R334, R335). -/
def State.homeAck (s : State) (h q l : Nat) : State :=
  if !s.lineLive h l then s else
  match (s.dirE h l).txn with
  | some t =>
    if t.busy != .bc || !t.acks.contains q then s.badAtHome h q else
    (s.busy h l { t with acks := t.acks.erase q }).homeAfter h l
  | none => s.badAtHome h q

/-- A home transaction has stayed busy for T cycles: the quires whose replies are missing are dead (R343). -/
def State.homeTimedOut (s : State) (h l : Nat) : State :=
  if !s.lineLive h l then s else
  let e := s.dirE h l
  match e.txn with
  | none => s
  | some t =>
    let silent := (if t.busy == .bd then [t.req.who] else t.acks ++ (if t.needD then e.owner.toList else [])).filter (· < 32)
    (s.fault (dirBlk h) 1 (w36 l)).quiresDead silent 1

/-- A quire has waited 2T cycles for a reply: the home is dead (R343). -/
def State.quireTimedOut (s : State) (q l : Nat) : State :=
  if !s.alive then s else
  if !((s.qline q l).asked || s.openReqs.any fun x => x.who == q && x.line == l) then s else
  let h := s.homeNo l
  (s.fault (.quire (quireFin q)) 0 (w36 h)).homeDead h 0

/-- A quire agent takes messages: not while its block or its L2 is in reset, or the module is (R43, R343). -/
def State.quireLive (s : State) (q l : Nat) : Bool :=
  s.alive && !s.inReset.contains (.quire (quireFin q)) && !s.inReset.contains (.l2 (quireFin q)) &&
    (match s.regionOwner (l / 2 ^ 24) with | some sh => !(s.sheet sh).checkstop | none => true)

/-- A line of an L2 that is draining, or of a victim: PutM or PutE goes to its home, or an S copy is dropped (R330, R342). -/
def State.putBack (s : State) (q l : Nat) : State :=
  let x := s.qline q l
  match x.st with
  | .m | .o => (s.qput q l (qIssue x .putM 0)).web "PutM" q (s.homeNo l) l (some x.data) 0
  | .e => (s.qput q l (qIssue x .putE 0)).web "PutE" q (s.homeNo l) l none 0
  | .s => s.qput q l { x with st := .i }
  | _ => s

/-- A fill of an L2 that is draining has come to an end: the line is treated like the others (R302, R304, R342). -/
def State.drainFill (s : State) (q l : Nat) : State :=
  let x := s.qline q l
  if s.rbit (.l2 (quireFin q)) 0 1 && !x.asked then
    (if x.st == .i then s else s.setArray (.l2 (quireFin q)) l (some x.data)).putBack q l
  else s

/-- Room for a fill: with no way free for it a quire gives up an unlocked line, PutM or PutE going to its home (R286, R299,
R330). -/
def State.fillRoom (s : State) (q l : Nat) : State :=
  if (s.wayFor q l).isSome then s else
    let can := (s.l2Set q l).filter fun x => x.1 != l && (s.lockWay q x.1).isNone && (x.2.st == .m || x.2.st == .o || x.2.st == .e || x.2.st == .s) && !x.2.asked
    match can[Config.victimPick s.freeCtr % can.length]? with
    | none => s
    | some (v, _) => ({ s with freeCtr := s.freeCtr + 1 } : State).putBack q v

/-- A fill ends the open request of a line. -/
def QLine.filled (x : QLine) (st : QState) (d : Line) (dirty : Bool) : QLine :=
  { x with st := st, data := d, dirty := dirty, acks := 0, expect := none, req := none, count := 0, retried := false }

/-- Done goes to the home. -/
def State.sendDone (s : State) (q l f : Nat) : State := s.web "Done" q (s.homeNo l) l none f

/-- DataS or DataE arrives (R330). -/
def State.qDataS (s : State) (q l : Nat) (d : Line) (ex : Bool) : State :=
  if !s.quireLive q l then s else
  let x := s.qline q l
  if x.st != .isD then s.badFromPeer q l else
  (((s.fillRoom q l).qput q l (x.filled (if ex then .e else .s) d false)).sendDone q l (if ex then 1 else 0)).drainFill q l

/-- The line has its data or grant and `n`: it is in M once every InvAck is in (R321, R330). -/
def State.qOwn (s : State) (q l : Nat) (x : QLine) (d : Line) (n : Nat) : State :=
  let s := s.fillRoom q l
  if x.acks = n then ((s.qput q l (x.filled .m d true)).sendDone q l 2).drainFill q l
  else s.qput q l { x with st := .imA, data := d, dirty := true, expect := some n }

/-- DataM arrives (R330). -/
def State.qDataM (s : State) (q l : Nat) (d : Line) (n : Nat) : State :=
  if !s.quireLive q l then s else
  let x := s.qline q l
  match x.st with
  | .imAD | .smAD => s.qOwn q l x d n
  | _ => s.badFromPeer q l

/-- GrantM arrives (R330). -/
def State.qGrantM (s : State) (q l n : Nat) : State :=
  if !s.quireLive q l then s else
  let x := s.qline q l
  match x.st with
  | .imAD | .smAD => s.qOwn q l x zeroLine x.acks
  | .omAD => s.qOwn q l x (if x.req = some .getZ then zeroLine else x.data) n
  | _ => s.badFromHome q l

/-- An InvAck arrives at a quire (R330). -/
def State.qInvAck (s : State) (q l : Nat) : State :=
  if !s.quireLive q l then s else
  let x := s.qline q l
  match x.st with
  | .imAD | .smAD | .omAD => s.setQline q l { x with acks := x.acks + 1 }
  | .imA =>
    if x.expect = some (x.acks + 1) then ((s.qput q l (x.filled .m x.data true)).sendDone q l 2).drainFill q l
    else s.setQline q l { x with acks := x.acks + 1 }
  | _ => s.badFromPeer q l

/-- PutAck arrives (R330). -/
def State.qPutAck (s : State) (q l : Nat) : State :=
  if !s.quireLive q l then s else
  let x := s.qline q l
  match x.st with
  | .miA | .eiA => s.qput q l (x.filled .i zeroLine false)
  | _ => s.badFromHome q l

/-- StaleAck arrives (R330, R341). -/
def State.qStaleAck (s : State) (q l : Nat) : State :=
  if !s.quireLive q l then s else
  let x := s.qline q l
  match x.st with
  | .iiA => s.qput q l (x.filled .i zeroLine false)
  | _ => s.badFromHome q l

/-- Retry arrives with the count of the request it answers: the requester keeps the request (R328). -/
def State.qRetry (s : State) (r l cnt : Nat) : State :=
  if !s.alive then s else
  let x := s.qline r l
  if x.asked && x.count == cnt && !x.retried then s.setQline r l { x with retried := true }
  else
    match s.onOpen (fun y => y.who == r && y.line == l && y.count == cnt && !y.retried) fun y => some { y with retried := true } with
    | some s => s
    | none => if r < 32 then s.badFromHome r l else s

/-- A request goes out again with its count raised, to at most 64; one at 64 waits for those of its requester that reached 64
before it at the same home (R328, R340). -/
def State.reissue (s : State) (r l : Nat) : State :=
  if !s.alive then s else
  let x := s.qline r l
  let h := s.homeNo l
  let me := (r, h, l)
  let go (k : ReqKind) (cnt : Nat) (data : Option Line) (put : Nat → Bool → State → State) : State :=
    let n := Nat.min 64 (cnt + 1)
    let s : State := if n = 64 && !s.order64.contains me then { s with order64 := s.order64 ++ [me] } else s
    let first := s.order64.find? fun y => y.1 == r && y.2.1 == h
    if n = 64 ∧ first ≠ some me then put n true s else (put n false s).web k.name r h l data n
  match x.req with
  | some k =>
    if !x.retried then s else
    go k x.count (if k == .putM then some x.data else none) fun n b s => s.setQline r l { x with count := n, retried := b }
  | none =>
    let mine (y : OpenReq) : Bool := y.who == r && y.line == l && y.retried
    match s.openReqs.find? mine with
    | none => s
    | some y => go y.kind y.count none fun n b s => (s.onOpen mine fun y => some { y with count := n, retried := b }).getD s

/-- A forwarded message meets a quire: it waits while the quire's L2 is in retention, whose wake it asks for (R331, R638). -/
def State.forwarded (s : State) (q l : Nat) (i : Instr) (f : State → State) : State :=
  if !s.quireLive q l then s
  else if s.retentive q then ({ s with l2Wait := s.l2Wait ++ [(q, i)] } : State).wakeL2 q
  else f s

/-- FwdGetS (R331). -/
def State.qFwdS (s : State) (q l r : Nat) : State :=
  match qFwdGetS (s.qline q l) with
  | some (x, d) => (s.qput q l x).web "DataS" q r l (some d) 0
  | none => s.badFromHome q l

/-- FwdGetM (R331). -/
def State.qFwdM (s : State) (q l r n : Nat) : State :=
  match qFwdGetM (s.qline q l) with
  | some (x, d) => (s.qput q l x).web "DataM" q r l (some d) n
  | none => s.badFromHome q l

/-- Inv (R331): the InvAck goes to the collector that the Inv names. -/
def State.qInvMsg (s : State) (q l : Nat) (c : Collector) : State :=
  match qInv (s.qline q l) with
  | some x =>
    let dst := match c with | .quire r => r.val | .home => s.homeNo l
    (s.qput q l x).web "InvAck" q dst l none (match c with | .quire _ => 0 | .home => homeCollects)
  | none => s.badFromHome q l

/-- Recall (R331). -/
def State.qRecallMsg (s : State) (q l : Nat) : State :=
  match qRecall (s.qline q l) with
  | some (x, d, dirty) => (s.qput q l x).web "RData" q (s.homeNo l) l (some d) (b2n dirty)
  | none => s.badFromHome q l

/-- Snp (R331). -/
def State.qSnpMsg (s : State) (q l : Nat) (clean : Bool) : State :=
  match qSnp clean (s.qline q l) with
  | some (x, d, dirty) => (s.qput q l x).web "SData" q (s.homeNo l) l (some d) (b2n dirty)
  | none => s.badFromHome q l

/-- A non-caching requester receives the answer to its oldest open request of a kind for a line (R316). -/
def State.ncAnswer (s : State) (r l : Nat) (kind : ReqKind → Bool) : State :=
  if !s.alive then s else (s.onOpen (fun y => y.who == r && y.line == l && kind y.kind) fun _ => none).getD s

/-- Cmp arrives at the quire that issued a maintenance request: its loads and stores to the line go on (R332). -/
def State.qCmp (s : State) (q l : Nat) : State :=
  if !s.quireLive q l then s else
  (s.onOpen (fun y => y.who == q && y.line == l && y.kind.maint) fun _ => none).getD (s.badFromHome q l)

/-- The residency limit of a dirty L1D line expires: the line is written back and stays, not dirty; with a parity error it is
lost and the core sheds (R291, R295). -/
def State.residency (s : State) (c l : Nat) (bad : Bool) : State :=
  let q := quireOf c
  let x := s.qline q l
  if s.fld (coreBlk c) 0o220 6 9 = 0 ∨ x.l1dirty ≠ some c then s
  else if bad then s.recover c 4 l
  else s.setQline q l { x with l1dirty := none }

/-- A cache is enabled by its own bit. -/
def State.cacheOn (s : State) (x : CacheSel) : Bool :=
  match x with
  | .l1i c => s.rbit (.core c) 0o220 0
  | .l1d c => s.rbit (.core c) 0o220 1
  | .l2 q => s.rbit (.l2 q) 0 0

/-- The DRAINING bit that matches a cache (R302, R311, R312). -/
def State.draining (s : State) (x : CacheSel) : Bool :=
  match x with
  | .l1i c | .l1d c => s.rbit (.core c) 0o220 2
  | .l2 q => s.rbit (.l2 q) 0 1

/-- An L1 is disabled: what it holds stays in its array, its dirty lines having gone to L2 (R302, R304). -/
def State.l1Off (s : State) (c : Nat) (d : Bool) : State :=
  let ls := (s.qlines.filter fun x => x.1 / 2 ^ 34 == quireOf c && x.2.inL1 d (c % 6)).map fun x => x.1 % 2 ^ 34
  ls.foldl (fun s l => (s.l1Drop c d l).setArray (l1Of c d) l (some (s.qline (quireOf c) l).data)) s

/-- The L2 of a quire disables every L1 and starts to withdraw from the directory: its locks are released, and its lines stay in the
array as they are put back or dropped (R302, R304, R342). -/
def State.drainL2 (s : State) (q : Nat) : State :=
  let s := (List.range 6).foldl (fun s i => (s.l1Off (6 * q + i) false).l1Off (6 * q + i) true) s
  let ls := (s.qlines.filter fun x => x.1 / 2 ^ 34 == q).map fun x => x.1 % 2 ^ 34
  ls.foldl (fun s l => s.drainFill q l) (s.releaseLocks q)

/-- Write 0 to the enable bit of a cache: the disable starts (R302). A cache that is off stays as it is. -/
def State.cacheOff (s : State) (x : CacheSel) : State :=
  if !s.cacheOn x then s else
  match x with
  | .l1i c => ((s.l1Off c.val false).setFld (.core c) 0o220 0 0 0).setFld (.core c) 0o220 2 2 1
  | .l1d c => ((s.l1Off c.val true).setFld (.core c) 0o220 1 1 0).setFld (.core c) 0o220 2 2 1
  | .l2 q => (s.setFld (.l2 q) 0 0 1 1).drainL2 q.val

/-- Set the enable bit of a cache. What an L2 kept in its array over a disable is then held as S copies of which no directory
knows (R304); an L1's array is looked up as it is. -/
def State.cacheBit (s : State) (x : CacheSel) : State :=
  match x with
  | .l1i c => s.setFld (.core c) 0o220 0 0 1
  | .l1d c => s.setFld (.core c) 0o220 1 1 1
  | .l2 q =>
    if s.cacheOn x then s else
    let kept := s.arrays.filter fun e => e.1 / 2 ^ 34 == cacheNo x
    let s := kept.foldl (fun s e => match e.2 with
      | some d => if (s.qline q.val (e.1 % 2 ^ 34)).st == .i then s.qput q.val (e.1 % 2 ^ 34) (qlineIn .s d false) else s
      | none => s) s
    (s.clearArray x).setFld (.l2 q) 0 0 0 1

/-- The caches that share the DRAINING bit of one (R302, R311, R312). -/
def drainPeers : CacheSel → List CacheSel
  | .l1i c | .l1d c => [.l1i c, .l1d c]
  | .l2 q => [.l2 q]

/-- The register that holds a cache's enable bit, and the bit (R311, R312). -/
def enableAt : CacheSel → Blk × Nat × Nat
  | .l1i c => (.core c, 0o220, 0)
  | .l1d c => (.core c, 0o220, 1)
  | .l2 q => (.l2 q, 0, 0)

/-- A write of the register of an enable bit takes effect: its other fields, the disables of bits written 0 and the enables of
bits written 1 (R302, R305). -/
def State.enableApply (s : State) (x : CacheSel) (v : Word) : State :=
  (drainPeers x).foldl (fun s y =>
    let b := enableAt y
    if dbit v b.2.2 then s.cacheBit y else s.cacheOff y)
    (match x with
     | .l1i c | .l1d c => s.setFld (.core c) 0o220 6 9 (field v 6 9)
     | .l2 _ => s)

/-- A write of the register of an enable bit: held whole while DRAINING is 1 where it sets a bit that is 0 (R305; log entry 89). -/
def State.enableWrite (s : State) (x : CacheSel) (v : Word) : State :=
  let sets := (drainPeers x).any fun y => dbit v (enableAt y).2.2 && !s.cacheOn y
  if s.draining x && sets then { s with heldEn := s.heldEn ++ [(x, v)] } else s.enableApply x v

/-- Write 1 to the enable bit of a cache (R305). -/
def State.cacheEnable (s : State) (x : CacheSel) : State :=
  let b := enableAt x
  s.enableWrite x (setField (s.reg b.1 b.2.1) b.2.2 b.2.2 1)

/-- A disable completes: an L2's once its agent owns no line and nothing is in flight; DRAINING clears and held writes are applied,
oldest first, one that meets a new drain staying held (R302, R305, R342). -/
def State.drained (s : State) (x : CacheSel) : State :=
  if !s.draining x then s else
  let busy : Bool := match x with
    | .l2 q => s.qlines.any fun y => y.1 / 2 ^ 34 == q.val && y.2.st != .i
    | _ => false
  if busy then s else
  let s := match x with
    | .l1i c | .l1d c => s.setFld (.core c) 0o220 2 2 0
    | .l2 q => s.setFld (.l2 q) 0 1 1 0
  let go := s.heldEn.filter fun y => (drainPeers x).contains y.1
  let s : State := { s with heldEn := s.heldEn.filter fun y => !(drainPeers x).contains y.1 }
  go.foldl (fun s y => s.enableWrite y.1 y.2) s

/-! The rows. -/

/-- RESIDENCY_CLEAN (R295, R291). -/
def execResidencyClean (c : CoreId) (line : LineAddr) (parityError : Bool) (s : State) : Host.Outcome State Fault Refusal :=
  ends (s.residency c.val line.val parityError)

/-- CACHE_DISABLE (R302, R342). -/
def execCacheDisable (x : CacheSel) (s : State) : Host.Outcome State Fault Refusal := ends (s.cacheOff x)

/-- CACHE_ENABLE (R303-R305). -/
def execCacheEnable (x : CacheSel) (s : State) : Host.Outcome State Fault Refusal := ends (s.cacheEnable x)

/-- CACHE_DRAIN_DONE (R302, R305). -/
def execCacheDrainDone (x : CacheSel) (s : State) : Host.Outcome State Fault Refusal := ends (s.drained x)

/-- GETS (R333). -/
def execGets (h : HomeId) (q : QuireId) (line : LineAddr) (count : Fin 65) (ask : Ask) (s : State) :
    Host.Outcome State Fault Refusal := ends (s.homeReq h.val q.val line.val .getS count.val none ask)

/-- GETM (R333). -/
def execGetm (h : HomeId) (q : QuireId) (line : LineAddr) (count : Fin 65) (ask : Ask) (s : State) :
    Host.Outcome State Fault Refusal := ends (s.homeReq h.val q.val line.val .getM count.val none ask)

/-- GETZ (R333). -/
def execGetz (h : HomeId) (q : QuireId) (line : LineAddr) (count : Fin 65) (ask : Ask) (s : State) :
    Host.Outcome State Fault Refusal := ends (s.homeReq h.val q.val line.val .getZ count.val none ask)

/-- PUTM (R334, R341). -/
def execPutm (h : HomeId) (q : QuireId) (line : LineAddr) (data : Line) (ask : Ask) (s : State) :
    Host.Outcome State Fault Refusal :=
  ends (s.homeReq h.val q.val line.val .putM (s.qline q.val line.val).count (some data) ask)

/-- PUTE (R334). -/
def execPute (h : HomeId) (q : QuireId) (line : LineAddr) (ask : Ask) (s : State) : Host.Outcome State Fault Refusal :=
  ends (s.homeReq h.val q.val line.val .putE (s.qline q.val line.val).count none ask)

/-- MCLEAN (R332, R333). -/
def execMclean (h : HomeId) (q : QuireId) (line : LineAddr) (count : Fin 65) (ask : Ask) (s : State) :
    Host.Outcome State Fault Refusal := ends (s.homeReq h.val q.val line.val .mClean count.val none ask)

/-- MFLUSH (R332, R333). -/
def execMflush (h : HomeId) (q : QuireId) (line : LineAddr) (count : Fin 65) (ask : Ask) (s : State) :
    Host.Outcome State Fault Refusal := ends (s.homeReq h.val q.val line.val .mFlush count.val none ask)

/-- MPURGE (R332, R333). -/
def execMpurge (h : HomeId) (q : QuireId) (line : LineAddr) (count : Fin 65) (ask : Ask) (s : State) :
    Host.Outcome State Fault Refusal := ends (s.homeReq h.val q.val line.val .mPurge count.val none ask)

/-- READNC (R333). -/
def execReadnc (h : HomeId) (r : ReqIdx) (line : LineAddr) (count : Fin 65) (ask : Ask) (s : State) :
    Host.Outcome State Fault Refusal :=
  ends (s.homeReq h.val r.val line.val .readNC count.val none ask)

/-- WRITENC (R325, R333). -/
def execWritenc (h : HomeId) (r : ReqIdx) (line : LineAddr) (count : Fin 65) (mask : BitVec 16) (words : Vector Word 16)
    (ask : Ask) (s : State) : Host.Outcome State Fault Refusal :=
  ends (s.homeReq h.val r.val line.val (.writeNC mask words) count.val none ask)

/-- ATOMNC (R187, R325, R333). -/
def execAtomnc (h : HomeId) (r : ReqIdx) (line : LineAddr) (count : Fin 65) (op : AtomOp) (dbl : Bool) (word : Fin 16)
    (operand : DWord) (ask : Ask) (s : State) : Host.Outcome State Fault Refusal :=
  ends (s.homeReq h.val r.val line.val (.atomNC op dbl word.val operand) count.val none ask)

/-- DONE (R336). -/
def execDone (h : HomeId) (q : QuireId) (line : LineAddr) (final : FinalState) (s : State) : Host.Outcome State Fault Refusal :=
  ends (s.homeDone h.val q.val line.val final)

/-- SDATA (R335). -/
def execSdata (h : HomeId) (q : QuireId) (line : LineAddr) (data : Line) (dirty : Bool) (s : State) :
    Host.Outcome State Fault Refusal := ends (s.homeSData h.val q.val line.val data dirty)

/-- RDATA (R335). -/
def execRdata (h : HomeId) (q : QuireId) (line : LineAddr) (data : Line) (dirty : Bool) (s : State) :
    Host.Outcome State Fault Refusal := ends (s.homeRData h.val q.val line.val data dirty)

/-- HOME_INVACK (R335). -/
def execHomeInvack (h : HomeId) (q : QuireId) (line : LineAddr) (s : State) : Host.Outcome State Fault Refusal :=
  ends (s.homeAck h.val q.val line.val)

/-- DATAS (R330). -/
def execDatas (q : QuireId) (line : LineAddr) (data : Line) (exclusive : Bool) (s : State) : Host.Outcome State Fault Refusal :=
  ends (s.qDataS q.val line.val data exclusive)

/-- DATAM (R330). -/
def execDatam (q : QuireId) (line : LineAddr) (data : Line) (n : Fin 33) (s : State) : Host.Outcome State Fault Refusal :=
  ends (s.qDataM q.val line.val data n.val)

/-- GRANTM (R330). -/
def execGrantm (q : QuireId) (line : LineAddr) (n : Fin 33) (s : State) : Host.Outcome State Fault Refusal :=
  ends (s.qGrantM q.val line.val n.val)

/-- INVACK (R330). -/
def execInvack (q : QuireId) (line : LineAddr) (s : State) : Host.Outcome State Fault Refusal := ends (s.qInvAck q.val line.val)

/-- PUTACK (R330). -/
def execPutack (q : QuireId) (line : LineAddr) (s : State) : Host.Outcome State Fault Refusal := ends (s.qPutAck q.val line.val)

/-- STALEACK (R341). -/
def execStaleack (q : QuireId) (line : LineAddr) (s : State) : Host.Outcome State Fault Refusal := ends (s.qStaleAck q.val line.val)

/-- RETRY (R328). -/
def execRetry (r : ReqIdx) (line : LineAddr) (count : Fin 65) (s : State) : Host.Outcome State Fault Refusal :=
  ends (s.qRetry r.val line.val count.val)

/-- REQUEST_REISSUE (R328, R340). -/
def execRequestReissue (r : ReqIdx) (line : LineAddr) (s : State) : Host.Outcome State Fault Refusal :=
  ends (s.reissue r.val line.val)

/-- FWDGETS (R331). -/
def execFwdgets (q : QuireId) (line : LineAddr) (requester : QuireId) (s : State) : Host.Outcome State Fault Refusal :=
  ends (s.forwarded q.val line.val (.fwdgets q line requester) fun s => s.qFwdS q.val line.val requester.val)

/-- FWDGETM (R331). -/
def execFwdgetm (q : QuireId) (line : LineAddr) (requester : QuireId) (n : Fin 33) (s : State) : Host.Outcome State Fault Refusal :=
  ends (s.forwarded q.val line.val (.fwdgetm q line requester n) fun s => s.qFwdM q.val line.val requester.val n.val)

/-- INV (R331, R342). -/
def execInv (q : QuireId) (line : LineAddr) (collector : Collector) (s : State) : Host.Outcome State Fault Refusal :=
  ends (s.forwarded q.val line.val (.inv q line collector) fun s => s.qInvMsg q.val line.val collector)

/-- RECALL (R331). -/
def execRecall (q : QuireId) (line : LineAddr) (s : State) : Host.Outcome State Fault Refusal :=
  ends (s.forwarded q.val line.val (.recall q line) fun s => s.qRecallMsg q.val line.val)

/-- SNP (R331). -/
def execSnp (q : QuireId) (line : LineAddr) (clean : Bool) (s : State) : Host.Outcome State Fault Refusal :=
  ends (s.forwarded q.val line.val (.snp q line clean) fun s => s.qSnpMsg q.val line.val clean)

/-- DATANC (R316). -/
def execDatanc (r : ReqIdx) (line : LineAddr) (_data : Line) (s : State) : Host.Outcome State Fault Refusal :=
  ends (s.ncAnswer r.val line.val fun k => k == .readNC)

/-- CMPNC (R316). -/
def execCmpnc (r : ReqIdx) (line : LineAddr) (_old : DWord) (s : State) : Host.Outcome State Fault Refusal :=
  ends (s.ncAnswer r.val line.val fun k => k.nonCaching && k != .readNC)

/-- QUIRE_CMP (R332). -/
def execQuireCmp (q : QuireId) (line : LineAddr) (s : State) : Host.Outcome State Fault Refusal := ends (s.qCmp q.val line.val)

/-- HOME_TIMEOUT (R343, R344). -/
def execHomeTimeout (h : HomeId) (line : LineAddr) (s : State) : Host.Outcome State Fault Refusal :=
  ends (s.homeTimedOut h.val line.val)

/-- QUIRE_TIMEOUT (R343, R344). -/
def execQuireTimeout (q : QuireId) (line : LineAddr) (s : State) : Host.Outcome State Fault Refusal :=
  ends (s.quireTimedOut q.val line.val)

/-- One message that waited for an L2 to wake (R638). -/
def State.l2Serve (s : State) (i : Instr) : State :=
  match i with
  | .fwdgets q l r => s.qFwdS q.val l.val r.val
  | .fwdgetm q l r n => s.qFwdM q.val l.val r.val n.val
  | .inv q l c => s.qInvMsg q.val l.val c
  | .recall q l => s.qRecallMsg q.val l.val
  | .snp q l c => s.qSnpMsg q.val l.val c
  | _ => s

/-- L2_RETENTION_WAKE (R638): the messages that waited are served in order. -/
def execL2RetentionWake (q : QuireId) (s : State) : Host.Outcome State Fault Refusal :=
  let s := s.l2Awake q.val
  if s.retentive q.val then ends s else
  let ws := s.l2Wait.filter fun w => w.1 == q.val
  let s : State := { s with l2Wait := s.l2Wait.filter fun w => w.1 != q.val }
  ends (ws.foldl (fun s w => s.l2Serve w.2) s)

/-- WEB_PORT_FAIL (R32, R33). -/
def execWebPortFail (t : TileId) (p : Fin 7) (s : State) : Host.Outcome State Fault Refusal :=
  ends (s.whenAlive fun s => s.webFail t.val p.val)

end Sys2Proof.Machine
end

