-- ==== Sys2Proof/Machine/Pins.lean ====
section
/-! DEFINITION. The SMBus target (R662, R665) and the test access port (R667, R668). -/

namespace Sys2Proof.Machine

open Sys2Proof

/-- The SMBus address strap is sampled once after VAUX becomes valid (R662). -/
def State.strapSample (s : State) (a : Nat) : State := if s.smbAddr.isSome then s else { s with smbAddr := some a }

/-- The target answers a read: it has no address before the strap is sampled (R662, R665). -/
def State.smb (s : State) (os : List Octet) : State := if s.smbAddr.isSome then s.emit (.smbus os) else s

/-- A word value, low octet first (R665). -/
def smbWord (n : Nat) : List Octet := [BitVec.ofNat 8 n, BitVec.ofNat 8 (n / 256)]

/-- TEMP, VIN and IIN have readings: PWROK is high and step 1 of the gesso sequence has ended (R665). -/
def State.readings (s : State) : Bool :=
  s.pins.pwrok && (match s.phase with | .gesso n _ => decide (1 < n) | .ready | .tripped => true | .off | .hold _ => false)

/-- IDENT block (R45, R46, R665). -/
def smbIdentOctets : List Octet :=
  [0x0C, 0x38, BitVec.ofNat 8 Config.stepping.toNat] ++
    (List.range 9).map fun i => BitVec.ofNat 8 (Config.serial.toNat / 2 ^ (64 - 8 * i))

/-- The STATUS octet (R665). -/
def State.smbStatusOctet (s : State) : Octet :=
  let ready := match s.phase with | .ready => true | _ => false
  let floor := (List.range 8).any fun t => s.rbit .therm 1 (18 + t)
  BitVec.ofNat 8 (b2n s.pins.pwrok + 2 * b2n ready + 4 * b2n s.errN + 8 * b2n s.mtHalt +
    16 * b2n ((s.bar 0 0x20).getLsbD 3) + 32 * b2n (!s.pins.thermtripN) + 64 * b2n floor)

/-- A field of PWR_STAT as a word read: 0xFFFF where there is no reading yet (R665). -/
def State.smbReading (s : State) (lo hi : Nat) : State := s.smb (smbWord (if s.readings then s.fld .pwr 1 lo hi else 0xFFFF))

/-- SMBADDR_SAMPLE (R662). -/
def execSmbaddrSample (addr : Fin 8) (s : State) : Host.Outcome State Fault Refusal := ends (s.strapSample addr.val)
/-- SMBUS_IDENT (R665). -/
def execSmbusIdent (s : State) : Host.Outcome State Fault Refusal := ends (s.smb smbIdentOctets)
/-- SMBUS_STATUS (R665). -/
def execSmbusStatus (s : State) : Host.Outcome State Fault Refusal := ends (s.smb [s.smbStatusOctet])
/-- SMBUS_TEMP (R665). -/
def execSmbusTemp (s : State) : Host.Outcome State Fault Refusal :=
  ends (s.smb (smbWord (if s.readings then s.fld .therm 1 0 8 else 0xFFFF)))
/-- SMBUS_VIN (R665). -/
def execSmbusVin (s : State) : Host.Outcome State Fault Refusal := ends (s.smbReading 0 11)
/-- SMBUS_IIN (R665). -/
def execSmbusIin (s : State) : Host.Outcome State Fault Refusal := ends (s.smbReading 12 22)
/-- SMBUS_LASTRST (R652, R665). -/
def execSmbusLastrst (s : State) : Host.Outcome State Fault Refusal :=
  ends (s.smb (smbWord (s.fld .rst 0 0 3 + 16 * s.fld .rst 0 4 8)))

/-- A test instruction is loaded (R667). -/
def State.jtagLoad (s : State) (code : Nat) : State := { s with jtagIr := BitVec.ofNat 8 code }

/-- An instruction that takes the pins while MOD_RESET_N is low, and acts as BYPASS while it is high (R668). The contents of
the boundary register that it drives or captures have no layout in the manual. -/
def State.jtagPins (s : State) (code : Nat) : State :=
  let s := s.jtagLoad code
  if s.pins.modResetN then s.emit (.jtag 0 1) else s

/-- BYPASS: one bit, captured as 0 (R667). -/
def execBypass (s : State) : Host.Outcome State Fault Refusal := ends ((s.jtagLoad 0xFF).emit (.jtag 0 1))
/-- IDCODE (R667). -/
def execIdcode (s : State) : Host.Outcome State Fault Refusal :=
  ends ((s.jtagLoad 0x01).emit (.jtag (Config.stepping.toNat % 16 * 2 ^ 28 + 0xC383E7) 32))
/-- SAMPLE/PRELOAD (R667). -/
def execSamplePreload (s : State) : Host.Outcome State Fault Refusal := ends (s.jtagLoad 0x02)
/-- EXTEST (R668). -/
def execExtest (s : State) : Host.Outcome State Fault Refusal := ends (s.jtagPins 0x03)
/-- EXTEST_PULSE (R668). -/
def execExtestPulse (s : State) : Host.Outcome State Fault Refusal := ends (s.jtagPins 0x04)
/-- EXTEST_TRAIN (R668). -/
def execExtestTrain (s : State) : Host.Outcome State Fault Refusal := ends (s.jtagPins 0x05)
/-- HIGHZ (R668). -/
def execHighz (s : State) : Host.Outcome State Fault Refusal := ends (s.jtagPins 0x06)
/-- CLAMP (R668). -/
def execClamp (s : State) : Host.Outcome State Fault Refusal := ends (s.jtagPins 0x07)

end Sys2Proof.Machine
end

