-- ==== Sys2Proof/Machine/Port.lean ====
section
/-! DEFINITION. The register port of a block (R16-R23, R40, R44): what a read returns, with the fields that show state held
elsewhere, and what a write does under the access codes and classes and who makes it (R23, R588, R611). -/

namespace Sys2Proof.Machine

open Sys2Proof

/-- Entries of a list that satisfy a test, as a number. -/
def countIf {α : Type} (p : α → Bool) (l : List α) : Nat := (l.filter p).length

/-- The digit of a core in QTRIP_CSTATE (R386). -/
def CState.digit : CState → Nat
  | .off => 0 | .active => 1 | .spare => 2 | .couching => 3 | .failed => 4 | .stopped => 5

/-- CORE_BANKS (R259): the bank of level L is busy, the gesso bank for the console only, the level and the spills. -/
def State.coreBanks (s : State) (c : Nat) (console : Bool) : Word :=
  let k := s.core c
  let w := (List.range 8).foldl (fun w l => setField w l l (b2n (k.bank l).busy)) (0 : Word)
  setField (setField (setField w 8 8 (b2n (console && k.gesso))) 9 11 k.level) 18 35 k.spills

/-- A register as a read returns it (R17, R21): write-only fields read as zero, and fields that show other state are computed. -/
def State.portView (s : State) (console : Bool) (b : Blk) (o : Nat) : Word × State :=
  let fs := regFields b o
  let w := s.reg b o &&& ~~~(regMask fs fun f => f.acc == .wo)
  let locks (q : Nat) (p : LockSlot → Bool) : Nat := countIf (fun x => x.1 / 2 ^ 18 == q && p x.2) s.locks
  match b with
  | .core c =>
    if o = 0o210 then (s.coreBanks c.val console, s)
    else if o = 0o220 then
      match (s.core c.val).sheet with
      | some sh => (setField w 10 10 (b2n (s.rbit .deckle (0o200 + sh) 0)), s)
      | none => (w, s)
    else (w, s)
  | .retry c => (if o = 0 then setField w 0 2 (s.couchState c.val) else w, s)
  | .l2 q =>
    if o = 1 then
      (setField (setField (0 : Word) 0 17 (locks q.val fun x => x != .none)) 18 35
        (locks q.val fun x => match x with | .vacant _ => true | _ => false), s)
    else (w, s)
  | .qtrip q =>
    if o = 0 then (setField w 9 10 (s.acting (.quire q)), s)
    else if o = 1 then
      ((List.range 6).foldl (fun w i => setField w (3 * i) (3 * i + 2) (s.core (6 * q.val + i)).cstate.digit) (0 : Word), s)
    else (w, s)
  | .ttrip t => (if o = 0 then setField w 9 10 (s.acting (.tile t)) else w, s)
  | .mtrip => (if o = 0 then setField w 9 10 (s.acting .module) else w, s)
  | .dir h =>
    let k := s.home h.val
    let mine := s.dir.filter fun x => x.1 / 2 ^ 34 == h.val
    let held (r : Nat) : Bool := k.resv.any fun x => x.own && x.who == r
    if o = 0 then
      (setField (setField (setField (0 : Word) 0 18 mine.length) 19 27 ((mine.map fun x => x.2.queue.length).foldl (· + ·) 0)) 28 35
        k.ptr, s)
    else if o = 1 then ((List.range 32).foldl (fun w q => setField w q q (b2n (held q))) (0 : Word), s)
    else if o = 2 then ((List.range 8).foldl (fun w t => setField w t t (b2n (held (32 + t)))) (0 : Word), s)
    else (w, s)
  | .memc m => (if o = 0 then setField w 4 4 (b2n (s.mustPoison m.val)) else w, s)
  | .vat v =>
    if o = 0 then
      (setField (setField (0 : Word) 0 10 (countIf (fun x => dbit (s.jw v.val x 0) 0) (List.range 1024))) 11 24
        (Tab.get (fun _ => []) s.vatWait v.val).length, s)
    else if o = 1 then (s.session, s)
    else (w, s)
  | .endpt => (if 0o10000 ≤ o ∧ o < 0o11000 then s.sqWord ((o - 0o10000) / 8) (o % 8) else w, s)
  | .deckle => (if o = 0o4400 then setField w 0 6 (countIf (fun i => s.rbit .deckle (0o4000 + 4 * i) 0) (List.range 64)) else w, s)
  | .lfi =>
    if o = 1 then
      let w := (List.range 8).foldl (fun w t => setField w (10 + t) (10 + t) (b2n (!s.reserveFree t))) w
      (setField w 18 26 s.steps.length, s)
    else (w, s)
  | _ => (w, s)

/-- A read at the register port: RC fields are cleared by it (R17, R40). -/
def State.portRead (s : State) (console : Bool) (b : Blk) (o : Nat) : Word × State :=
  let r := s.portView console b o
  let m := regMask (regFields b o) fun f => f.acc == .rc
  (r.1, if m = 0 then r.2 else r.2.setReg b o (r.2.reg b o &&& ~~~m))

/-- The shadow of a register's S-class fields (R20). -/
def State.shadowReg (s : State) (b : Blk) (o : Nat) : Word := Tab.get regDefault s.shadow (regKey b o)

/-- Put staged values into the shadow of a register (R20). -/
def State.stageReg (s : State) (b : Blk) (o : Nat) (v : Word) : State :=
  let m := regMask (regFields b o) fun f => f.cls == .s
  if m = 0 then s else { s with shadow := Tab.set regDefault s.shadow (regKey b o) ((s.shadowReg b o &&& ~~~m) ||| (v &&& m)) }

/-- The fault registers that only the console path writes (R611). -/
def consoleOnly (o : Nat) : Bool := o == 0o777701 || o == 0o777704

/-- What a write sets by itself: live RW fields, W1C bits, staged fields in the shadow and boot fields for the next module
reset, the last two from the console path only (R17, R20, R23, R588). -/
def State.portFields (s : State) (console : Bool) (b : Blk) (o : Nat) (v : Word) : State :=
  let fs := regFields b o
  let set := regMask fs fun f => f.acc == .rw && (f.cls == .l || (console && f.cls == .b))
  let clr := regMask fs fun f => f.acc == .w1c
  let old := s.reg b o
  let new := ((old &&& ~~~set) ||| (v &&& set)) &&& ~~~(clr &&& v)
  let s := if new = old then s else s.setReg b o new
  if console then s.stageReg b o v else s

/-- Number of the lane at an index of a group (R26, R463). -/
def laneNo (t : TileId) (g : Fin 3) (i : Nat) : Nat := linkNo { tile := t, group := g, lane := Fin.ofNat 8 i }

/-- What a write makes a block do beside setting its fields, given the state before it; `old` is the register before (R17). -/
def State.portAct (s : State) (b : Blk) (o : Nat) (old v : Word) : State :=
  match b with
  | .qpwr q => if o = 0 then (s.stepWrite q.val (field v 0 1)).retain q.val else s
  | .stack m => if o = 1 ∧ dbit v 0 = true then s.migrate m.val (field v 6 9) else s
  | .easel t => if o = 0 then s.easelRet t.val (BitVec.ofNat 32 (field v 0 31)) else s
  | .linkgrp t g =>
    if 0o40 ≤ o ∧ o < 0o50 then
      if dbit old 2 = dbit v 2 then s else s.linkEn (laneNo t g (o - 0o40)) (dbit v 2)
    else if g.val = 2 ∧ 0o1100 ≤ o ∧ o < 0o1200 ∧ o % 4 = 3 ∧ dbit v 0 = true then s.windowArm t.val ((o - 0o1100) / 4)
    else s
  | .rootp t i =>
    if o = 0 then (if dbit old 0 = dbit v 0 then s else s.rpEnable t.val i.val (dbit v 0))
    else if o = 2 then (if dbit v 5 then s.rpRel t.val i.val else s)
    else if o = 3 then s.rpConfig t.val i.val v
    else if 0o300 ≤ o ∧ o < 0o400 ∧ o % 4 = 0 ∧ dbit v 2 = true then s.rpArm t.val i.val ((o - 0o300) / 4)
    else s
  | .rst => if o = 1 then s.rstKey (BitVec.ofNat 9 (field v 27 35)) else s
  | _ => s

/-- A write at the register port, by the program or by the console path (R17, R20, R23, R44, R588, R611). -/
def State.portWrite (s : State) (console : Bool) (b : Blk) (o : Nat) (v : Word) : State :=
  if consoleOnly o && !console then s
  else if o = 0o777704 then s.finjWrite b v
  else
    let old := s.reg b o
    match b with
    | .core c =>
      if o = 0o220 then s.enableWrite (.l1i c) v else s.portFields console b o v
    | .l2 q => if o = 0 then s.enableWrite (.l2 q) v else s.portFields console b o v
    | .qpwr _ =>
      let keep := maskOf 0 1
      (s.portFields console b o (if o = 0 then (v &&& ~~~keep) ||| (old &&& keep) else v)).portAct b o old v
    | .easel _ => if o = 0 then s.portAct b o old v else s.portFields console b o v
    | .rootp _ _ => if o = 3 then s.portAct b o old v else (s.portFields console b o v).portAct b o old v
    | _ => (s.portFields console b o v).portAct b o old v

/-- A block that the program of a sheet reaches by IN, and by OUT where it is not read only (R37, R569). -/
def State.programReach (s : State) (c sh : Nat) (b : Blk) (write : Bool) : Bool :=
  let alone (h : Nat) : Bool :=
    s.rbit .deckle (0o300 + sh) h &&
      (List.range 64).all fun n => n == sh || !(s.validSheet n && s.rbit .deckle (0o300 + n) h)
  match b with
  | .core k | .retry k => k.val == c
  | .quire q | .l2 q => s.ownsQuire sh q.val
  | .home h | .dir h => alone h.val
  | .linkgrp _ _ => s.fld b 0 2 3 == 0 && s.fld b 0 4 9 == sh
  | .rootp t i => s.isRootPort t.val i.val && s.fld b 0 2 7 == sh
  | .wmark | .ident => !write
  | _ => false

/-- A register access of the console path: held while its block is in reset (R590). -/
def State.consoleHeld (s : State) (b : Blk) (i : HeldReg) (f : State → State) : State :=
  if s.inReset.contains b then { s with portHeld := s.portHeld ++ [(i, s.clock.toNat, s.heldSeq)], heldSeq := s.heldSeq + 1 } else f s

end Sys2Proof.Machine
end

