-- ==== Sys2Proof/Machine/Console.lean ====
section
/-! DEFINITION. The console commands other than watermark commits (R574-R590, R598, R600, R670-R672): taking a packet, the
reply, the token slots of long commands, and each opcode. -/

namespace Sys2Proof.Machine

open Sys2Proof

/-- The `k` octets of a number, least significant first. -/
def octetsLe (n : Nat) : Nat → List Octet
  | 0 => []
  | k + 1 => BitVec.ofNat 8 n :: octetsLe (n / 256) k

/-- Device words as reply data: eight octets each (R11, R575). -/
def replyWords (ws : List Word) : List Octet := ws.flatMap fun w => octetsLe w.toNat 8

/-- Host address of the packet with a count in the command ring (R551). -/
def State.ringAt (s : State) (i : Nat) : Nat :=
  (s.bar 0 4).toNat * 2 ^ 32 + (s.bar 0 0).toNat + 256 * (i % 2 ^ (s.bar 0 8).toNat)

/-- The reply to the packet in hand (R574, R576): data first, DONE last; it is lost while the function may not write. -/
def State.reply (s : State) (tag : BitVec 16) (code token : Nat) (data : List Octet) : State :=
  let i := match s.taken with | some t => t.index | none => ((s.bar 0 0x10).toNat + 65535) % 65536
  let at_ := s.ringAt i
  let s : State := { s with taken := none }
  if !s.mayMaster 0 then s else
  let s := if data.isEmpty then s else s.emit (.hostWrite (at_ + 0x90) data false)
  let s := s.emit (.hostWrite (at_ + 0x80) (octetsLe code 4 ++ octetsLe token 4 ++ octetsLe data.length 4) false)
  (s.emit (.hostWrite (at_ + 0x8C) (octetsLe (1 + tag.toNat * 65536) 4) false)).istat 0

/-- Firmware interprets console commands: the module is READY and the module triptych carries out its functions (R381, R552,
R647). -/
def State.consoleUp (s : State) : Bool := (match s.phase with | .ready => true | _ => false) && s.mtUp

/-- A console command (R577-R580, R594): one that is not the packet in hand is not carried out; its version, its parameters and
its signature are checked, in that order, and a signed command consumes the nonce (log entry 59). -/
def State.conCmd (s : State) (h : ConHdr) (op ver : Nat) (bad : State → Bool) (f : State → Bool → State) : State :=
  let mine := match s.taken with | some t => t.opcode == op | none => true
  if !s.consoleUp || !mine then s else
  let signed := h.sig != .none
  let authed := h.sig == .valid && s.nonce.isSome
  let s : State := if signed then { s with nonce := none } else s
  if s.conVer < ver then s.reply h.tag 3 0 []
  else if bad s then s.reply h.tag 4 0 []
  else if signed && !authed then s.reply h.tag 5 0 []
  else f s authed

/-- A short command's answer: a code and reply data. -/
def State.conAns (s : State) (h : ConHdr) (code : Nat) (data : List Octet) : State := s.reply h.tag code 0 data

/-- A running long command holds a sheet: a reset that waits, a memory-service transfer, or a Calender job (R577). -/
def State.sheetHeld (s : State) (sh : Nat) : Bool :=
  s.longOps.any fun o => (o.op == 0x13 || decide (0x70 ≤ o.op ∧ o.op ≤ 0x73)) && o.target % 64 == sh

/-- A running commit or revert holds the watermark (R577, R595). -/
def State.wmHeld (s : State) : Bool := s.commit.isSome || s.longOps.any fun o => o.op == 0x22 || o.op == 0x23

/-- The lowest free token slot (R583). -/
def State.tokenSlot (s : State) : Option Nat := (List.range 256).find? fun k => (s.slotStat k).2.1 == 0

/-- A long command takes a slot, is answered PENDING, and runs (R577, R583, R586). -/
def State.conLong (s : State) (h : ConHdr) (op target : Nat) (run : State → Nat → State) : State :=
  match s.tokenSlot with
  | none => s.reply h.tag 0xE 0 []
  | some k =>
    let seq := ((s.slotStat k).1 + 1) % 256
    let s1 := s.setSlot k seq 1 0 0
    let s1 : State := { s1 with longOps := s1.longOps ++ [{ slot := k, op := op, target := target, reply := none }] }
    run (s1.reply h.tag 1 (seq * 256 + k) []) k

/-- CONFID of a sheet (R76). -/
def State.confid (s : State) (sh : Nat) : Bool := s.rbit .deckle (0o100 + sh) 2

/-- A DECKLE register belongs to a sheet (R588). -/
def State.deckleOf (s : State) (sh o : Nat) : Bool :=
  (decide (0o100 ≤ o ∧ o < 0o600) && o % 64 == sh) ||
  (decide (0o10000 ≤ o ∧ o < 0o20000) && o / 64 % 64 == sh) ||
  (decide (0o100000 ≤ o ∧ o < 0o300000) && (o - 0o100000) / 1024 == sh) ||
  (decide (0o300000 ≤ o ∧ o < 0o500000) && s.subV (o - 0o300000) && s.subSheet (o - 0o300000) == sh) ||
  (decide (0o4000 ≤ o ∧ o < 0o4400) && s.reg .deckle (o / 4 * 4) != 0 && s.fld .deckle (o / 4 * 4) 4 9 == sh)

/-- A register belongs to a sheet's cores or blocks (R588). -/
def State.regOf (s : State) (sh : Nat) (b : Blk) (o : Nat) : Bool :=
  match b with
  | .core c | .retry c => (s.core c.val).sheet == some sh
  | .quire q | .l2 q | .qtrip q | .qpwr q => s.rbit .deckle (0o400 + sh) q.val
  | .home h | .dir h => s.rbit .deckle (0o300 + sh) h.val
  | .memc m | .stack m => (s.regionsOf sh).any fun r => stackOf (r * 2 ^ 24) == m.val
  | .vat v => (s.subsOf sh).any fun n => s.subVat n == v.val
  | .cal t => s.rbit (.cal t) (0o100 + sh) 0
  | .var t => s.rbit (.var t) (0o100 + sh) 0
  | .linkgrp t g => s.groupHas (laneNo t g 0) sh
  | .rootp t i => s.isRootPort t.val i.val && s.fld b 0 2 7 == sh
  | .deckle => s.deckleOf sh o
  | _ => false

/-- A register access needs SIGNED: it reaches a sheet with CONFID 1 (R588). -/
def State.regConf (s : State) (b : Blk) (o n : Nat) : Bool :=
  (List.range 64).any fun sh => s.confid sh && (List.range n).any fun i => s.regOf sh b (o + i)

/-- The block and offset that a console address names, with the core for scope 0 (R36, R575, R672). -/
def conAddr (a : HostWord) (core : Nat) : Option (Blk × Nat) :=
  if 2 ^ 36 ≤ a.toNat then none else
  match blkOfDigits (a.toNat / 2 ^ 18) core with
  | some b => if a.toNat / 2 ^ 33 = 0 ∧ 192 ≤ core then none else some (b, a.toNat % 2 ^ 18)
  | none => none

/-- A host word that carries a device word (R575). -/
def devWord (a : HostWord) : Word := a.setWidth 36
def wordBad (a : HostWord) : Bool := decide (2 ^ 36 ≤ a.toNat)

/-- The command-set version of an opcode, its parameter octets (none where they depend on COUNT), or none where the opcode is
undefined (R581). -/
def opInfo (op : Nat) : Option (Nat × Option Nat) :=
  match op with
  | 0x01 | 0x03 | 0x20 | 0x21 | 0x22 | 0x23 | 0x24 => some (1, some 0)
  | 0x02 | 0x04 | 0x10 | 0x12 | 0x30 | 0x31 | 0x32 => some (1, some 4)
  | 0x05 => some (2, some 4)
  | 0x13 | 0x15 | 0x33 | 0x40 => some (1, some 8)
  | 0x11 | 0x14 | 0x50 | 0x51 | 0x62 => some (1, some 12)
  | 0x34 | 0x41 | 0x60 | 0x72 => some (1, some 16)
  | 0x42 => some (1, some 20)
  | 0x61 => some (1, none)
  | 0x70 | 0x71 => some (1, some 28)
  | 0x73 => some (2, some 100)
  | 0x74 => some (2, some 12)
  | _ => none

/-- A 32-bit field of a packet. -/
def packetU32 (os : List Octet) (o : Nat) : Nat := numLe ((os.drop o).take 4)

/-- Firmware takes the next packet (R552, R576, R578, R580). -/
def State.takePacket (s : State) (os : List Octet) (ep : Bool) : State :=
  let head := (s.bar 0 0x10).toNat
  if !s.consoleUp || !s.mayMaster 0 || s.taken.isSome || head = (s.bar 0 0xC).toNat then s else
  let s := s.setBar 0 0x10 (BitVec.ofNat 32 ((head + 1) % 65536))
  let w0 := packetU32 os 0
  let tag : BitVec 16 := BitVec.ofNat 16 (w0 / 65536)
  let op := w0 % 256
  let s : State := { s with taken := some { opcode := op, tag := tag.toNat, index := head } }
  if ep then s.reply tag 0xB 0 [] else
  let signed := packetU32 os 4 % 2 = 1
  let fail (s : State) (code : Nat) : State :=
    let s : State := if signed then { s with nonce := none } else s
    s.reply tag code 0 []
  let plen := packetU32 os 8
  match opInfo op with
  | none => fail s 2
  | some (ver, len) =>
    let want := len.getD (16 + 8 * packetU32 os 0x18)
    if s.conVer < ver then fail s 3
    else if w0 / 256 % 256 ≠ 0 ∨ packetU32 os 4 / 2 ≠ 0 ∨ packetU32 os 12 ≠ 0 ∨ plen ≠ want ∨ 0x70 < plen then fail s 4
    else s

/-- MSTAT as it reads (R551). -/
def State.mstatBits (s : State) : Nat :=
  let ready := match s.phase with | .ready => true | _ => false
  b2n ready + 2 * b2n s.mtHalt + 4 * b2n s.errN + (s.bar 0 0x20).toNat / 8 % 16 * 8

/-- Registers read through the console, in order (R581). -/
def State.readRegs (s : State) (b : Blk) : List Nat → List Word × State
  | [] => ([], s)
  | o :: os => let r := s.portRead true b o; let t := r.2.readRegs b os; (r.1 :: t.1, t.2)

/-- IDENTIFY (R670). -/
def State.conIdentify (s : State) (h : ConHdr) : State :=
  s.conCmd h 0x01 1 (fun _ => false) fun s _ =>
    let ws := [s.reg .ident 0, s.reg .ident 1, s.reg .ident 2, w36 (Config.dunulRelease.toNat % 2 ^ 24), 3, w36 (256 * s.conVer)]
    s.conAns h 0 (replyWords ws)

/-- SET_VERSION (R579, R580). -/
def State.conVersion (s : State) (h : ConHdr) (v : Nat) : State :=
  s.conCmd h 0x02 1 (fun _ => false) fun s _ =>
    if v ≠ 0x100 ∧ v ≠ 0x200 then s.conAns h 3 []
    else if !s.longOps.isEmpty then s.conAns h 6 []
    else let s : State := { s with conVer := v / 256 }
         (s.setMail 5 (w36 v)).conAns h 0 []

/-- MODULE_STATUS (R581). -/
def State.conStatus (s : State) (h : ConHdr) : State :=
  s.conCmd h 0x03 1 (fun _ => false) fun s _ =>
    let ws := (s.portView true .mtrip 0).1 :: ((List.range 8).map fun t => (s.portView true (.ttrip (tileFin t)) 0).1)
    s.conAns h 0 (replyWords (ws ++ [w36 s.mstatBits]))

/-- OP_RELEASE (R586). -/
def State.opRelease (s : State) (h : ConHdr) (token : Nat) : State :=
  s.conCmd h 0x04 1 (fun _ => decide (65536 ≤ token)) fun s _ =>
    let k := token % 256
    let x := s.slotStat k
    if x.2.1 = 0 ∨ x.1 ≠ token / 256 then s.conAns h 7 []
    else if x.2.1 = 1 then s.conAns h 6 []
    else (s.setSlot k x.1 0 0 0).conAns h 0 []

/-- OP_ABORT (R585): a memory-service transfer that waits for a line, or a Calender job of the console; what is done stands. -/
def State.opAbort (s : State) (h : ConHdr) (token : Nat) : State :=
  s.conCmd h 0x05 2 (fun _ => decide (65536 ≤ token)) fun s _ =>
    let k := token % 256
    let x := s.slotStat k
    if x.1 ≠ token / 256 then s.conAns h 7 [] else
    match s.svcOf k, s.longOps.find? fun o => o.slot == k && o.op == 0x73 with
    | some j, _ =>
      let s : State := { s with waits := s.waits.filter (· != .svc j) }
      (s.conAns h 0 []).svcEnd j 0xD
    | none, some o =>
      let sh := o.target % 64
      let t := o.target / 64
      let s := s.setCalQueue t sh ((s.calQueue t sh).filter fun j => j.console != some k)
      (s.conAns h 0 []).slotDone k 0xD
    | none, none => s.conAns h 7 []

/-- SHEET_QUERY (R581): the run state reads 1 while the sheet runs (DESIGN CHOICE, log entry 14), and a service core that does
not exist is a free value. A query touches no resource (R577; log entry 14). -/
def State.sheetQuery (s : State) (h : ConHdr) (sh : Nat) : State :=
  s.conCmd h 0x10 1 (fun _ => decide (64 ≤ sh)) fun s _ =>
    let core := match s.serviceCore sh with | some c => (w36 c, s) | none => let f := s.free 36; (w36 f.1, f.2)
    core.2.conAns h 0 (replyWords
      [(s.portView true .deckle (0o100 + sh)).1, w36 (b2n (s.sheet sh).running), core.1, ((s.sheet sh).start).getD 0])

/-- SHEET_START (R600). -/
def State.sheetStartOp (s : State) (h : ConHdr) (sh : Nat) (w : HostWord) : State :=
  s.conCmd h 0x11 1 (fun _ => decide (64 ≤ sh) || wordBad w) fun s _ =>
    if s.sheetHeld sh then s.conAns h 6 [] else
    s.conLong h 0x11 sh fun s k =>
      if s.mayStart sh then (s.startSheet sh (devWord w)).slotDone k 0 else s.slotDone k 7

/-- SHEET_STOP (R581). -/
def State.sheetStopOp (s : State) (h : ConHdr) (sh : Nat) : State :=
  s.conCmd h 0x12 1 (fun _ => decide (64 ≤ sh)) fun s _ =>
    if s.sheetHeld sh then s.conAns h 6 [] else
    s.conLong h 0x12 sh fun s k =>
      if !(s.sheet sh).running then s.slotDone k 7 else
      let s := (List.range 192).foldl (fun s c =>
        if (s.core c).sheet == some sh && (s.core c).active then s.pauseCore c else s) s
      (s.setSheet sh { s.sheet sh with running := false }).slotDone k 0

/-- SHEET_RESET (R367, R581, R640). -/
def State.sheetResetCmd (s : State) (h : ConHdr) (sh flags : Nat) : State :=
  s.conCmd h 0x13 1 (fun _ => decide (64 ≤ sh) || decide (2 ≤ flags)) fun s _ =>
    if s.sheetHeld sh then s.conAns h 6 [] else
    s.conLong h 0x13 (sh + 64 * flags) fun s k =>
      if !s.validSheet sh || (flags == 1 && (s.sheet sh).start.isNone) then s.slotDone k 7
      else if s.couches sh then s
      else s.sheetResetOp sh (flags == 1) k

/-- MASTER_RELEASE in DELIVER mode (R67): none while the core's entry must wait. -/
def State.deliver (s : State) (f : Frozen) : Option State :=
  let idx := f.recIdx.getD 0o777777
  let s := s.thaw f false
  match f.type with
  | 1 =>
    let s := s.setCore f.ident { s.core f.ident with run := .running }
    s.enterOrStop f.ident 5 5 0 (w36 idx)
  | 2 => some (s.releaseSub f.ident true)
  | _ => some s

/-- MASTER_RELEASE (R66, R67, R69); not yet carried out while a line of a core's entry is busy. -/
def State.masterRelease (s0 : State) (h : ConHdr) (type ident mode : Nat) : State :=
  s0.conCmd h 0x14 1 (fun _ => type == 0 || decide (5 < type) || decide (2 ^ 18 ≤ ident) || decide (1 < mode)) fun s _ =>
    match s.frozen.find? fun f => f.type == type && f.ident == ident with
    | none => s.conAns h 7 []
    | some f =>
      if s.sheetHeld f.sheet then s.conAns h 6 []
      else if mode = 1 then (s.discardMaster f false).conAns h 0 []
      else match s.deliver f with
        | some s => s.conAns h 0 []
        | none => s0

/-- A HOST notice of a sheet is pending (R598). -/
def State.hostPending (s : State) (sh : Nat) : Bool :=
  s.cores.any fun e => e.2.sheet == some sh && e.2.pend.any fun i => i.level == 2 && i.code == 0o200 && field i.info 0 8 == 5

/-- SHEET_NOTICE (R598). -/
def State.sheetNoticeOp (s : State) (h : ConHdr) (sh v : Nat) : State :=
  s.conCmd h 0x15 1 (fun _ => decide (64 ≤ sh) || decide (2 ^ 27 ≤ v)) fun s _ =>
    if !s.validSheet sh then s.conAns h 7 []
    else if s.sheetHeld sh || s.hostPending sh then s.conAns h 6 []
    else (s.notice sh 5 v 0).conAns h 0 []

/-- WM_QUERY (R602). -/
def State.wmQueryOp (s : State) (h : ConHdr) : State :=
  s.conCmd h 0x20 1 (fun _ => false) fun s _ => s.conAns h 0 (replyWords ((List.range 5).map fun o => s.reg .wmark o))

/-- AUTH_NONCE (R594): the nonce is 48 octets that nothing constrains. -/
def State.nonceOp (s : State) (h : ConHdr) : State :=
  s.conCmd h 0x21 1 (fun _ => false) fun s _ =>
    let f := freeOctets s 48
    let s : State := { f.2 with nonce := some (numOf f.1) }
    s.conAns h 0 f.1

/-- Registers of a block are read and answered (R581). -/
def State.regReadGo (s : State) (h : ConHdr) (b : Blk) (os : List Nat) : State :=
  let r := s.readRegs b os
  r.2.conAns h 0 (replyWords r.1)

/-- Registers of a block are written in order, and the command is answered (R581, R590). -/
def State.regWriteGo (s : State) (h : ConHdr) (b : Blk) (vs : List (Nat × Word)) : State :=
  (vs.foldl (fun s x => s.portWrite true b x.1 x.2) s).conAns h 0 []

/-- Shadow values of S-class fields, other fields as REG_READ, answered (R581). -/
def State.shadowGo (s : State) (h : ConHdr) (b : Blk) (os : List Nat) : State :=
  let r := s.readRegs b os
  let ws := (os.zip r.1).map fun x => mergeBits (regFields b x.1) (fun f => f.cls == .s) x.2 (s.shadowReg b x.1)
  r.2.conAns h 0 (replyWords ws)

/-- A console command that reads registers: held while the block is in reset (R590). -/
def State.conRead (s : State) (h : ConHdr) (b : Blk) (os : List Nat) : State :=
  s.consoleHeld b (.read h b os) fun s => s.regReadGo h b os

/-- A console command that writes registers: held while the block is in reset (R590). -/
def State.conWrite (s : State) (h : ConHdr) (b : Blk) (vs : List (Nat × Word)) : State :=
  s.consoleHeld b (.write h b vs) fun s => s.regWriteGo h b vs

/-- CORE_QUERY (R581). -/
def State.coreQueryOp (s : State) (h : ConHdr) (c : Nat) : State :=
  s.conCmd h 0x30 1 (fun _ => decide (192 ≤ c)) fun s _ =>
    s.conAns h 0 (replyWords [w36 (s.core c).cstate.digit, (s.portView true (retryBlk c) 0).1])

/-- CORE_RESTART (R357, R581): the core resumes from its checkpoint, running or in WAIT; the trap that stopped it had not retired,
so the gesso bank is free there (R351). -/
def State.coreRestartOp (s : State) (h : ConHdr) (c : Nat) : State :=
  s.conCmd h 0x31 1 (fun _ => decide (192 ≤ c)) fun s _ =>
    let k := s.core c
    let up := match k.sheet with | some sh => (s.sheet sh).running && !(s.sheet sh).checkstop | none => false
    if k.cstate != .stopped || k.discard || !up then s.conAns h 7 []
    else if (match k.sheet with | some sh => s.sheetHeld sh | none => false) then s.conAns h 6 []
    else
      let run := match k.run with | .stopped true => Run.wait | _ => Run.running
      (s.setCore c { k with cstate := .active, run := run, gesso := false }).conAns h 0 []

/-- CORE_RETEST (R359, R581): a core that passes becomes its quire's spare where the quire has none, and is otherwise off. -/
def State.coreRetestOp (s : State) (h : ConHdr) (c : Nat) (pass : Bool) : State :=
  s.conCmd h 0x32 1 (fun _ => decide (192 ≤ c)) fun s _ =>
    let k := s.core c
    if k.cstate != .failed || k.couch.isSome then s.conAns h 7 [] else
    s.conLong h 0x32 c fun s n =>
      if !pass then s.slotDone n 0xF else
      let q := quireOf c
      let has := (List.range 6).any fun i => let x := (s.core (6 * q + i)).cstate; x == .spare || x == .couching
      let s := (s.resetAll (retryBlk c)).resetAll (coreBlk c)
      if has then (s.setCore c coreReset).slotDone n 0 else
      let s := s.setCore c { coreReset with cstate := .spare }
      let s : State := { s with spareOf := Tab.set (fun _ => 5) s.spareOf q (c % 6) }
      (s.setHave q true).slotDone n 0

/-- SUPERVISOR_RESTART (R379, R581). -/
def State.superRestartOp (s : State) (h : ConHdr) (level n : Nat) : State :=
  s.conCmd h 0x33 1 (fun _ => !((level == 1 && decide (n < 32)) || (level == 2 && decide (n < 8)))) fun s _ =>
    let t : Trip := if level = 1 then .quire (quireFin n) else .tile (tileFin n)
    if s.longOps.any fun o => o.op == 0x33 && o.target == tripSubject t then s.conAns h 6 []
    else if s.tmode t ≠ 3 then s.conAns h 7 []
    else s.conLong h 0x33 (tripSubject t) fun s _ => s.tripReload t

/-- The control registers that exist (R245). -/
def ctlNumbers : List Nat := [0, 1, 2, 3, 4, 0o11, 0o12, 0o13, 0o14, 0o15, 0o16, 0o17]

/-- A register of a core's checkpoint (R671): none where R206 or R207 refuses the selector. -/
def State.ckptReg (s : State) (c kind : Nat) (w : Word) : Option DWord :=
  let k := s.core c
  let low (x : Word) : DWord := dword 0 x
  match kind with
  | 0 =>
    let bank := field w 27 30
    let r := field w 31 35
    if 8 < bank then none else
    let b := k.bank bank
    if r < 16 then some (low (vget b.g r 0))
    else if r < 24 then some (vget b.p (r - 16) 0)
    else if r = 24 then some b.psw
    else if r = 25 then some b.slim
    else none
  | 1 => if ctlNumbers.contains (field w 30 35) then some (k.ctlReg (field w 30 35)) else none
  | 2 => some (vget k.f (field w 32 35) 0)
  | 3 => some (low k.fpc)
  | _ => some (low (s.portView true (coreBlk c) (field w 18 35)).1)

/-- CKPT_READ (R588, R671). -/
def State.ckptReadOp (s : State) (h : ConHdr) (c kind : Nat) (sel : HostWord) : State :=
  s.conCmd h 0x34 1 (fun s => decide (192 ≤ c) || decide (4 < kind) || wordBad sel || (s.ckptReg c kind (devWord sel)).isNone) fun s authed =>
    let k := s.core c
    if !authed && (match k.sheet with | some sh => s.confid sh | none => false) then s.conAns h 5 []
    else if k.cstate != .failed then s.conAns h 7 []
    else let d := (s.ckptReg c kind (devWord sel)).getD 0
         s.conAns h 0 (replyWords [dhi d, dlo d])

/-- The blocks of a scope, with tile where it has one, in ascending address, a scope-0 block once for each core (R672). -/
def scanBlks (scope tile : Nat) : List Blk :=
  match scope with
  | 0 => (List.range 192).flatMap fun c => [coreBlk c, retryBlk c]
  | 3 => (List.range 512).filterMap fun i => blkOfDigits (0o300000 + i) 0
  | _ => (List.range 4096).filterMap fun i => blkOfDigits (scope * 0o100000 + tile * 0o10000 + i) 0

/-- FAULT_SCAN (R672): results fill the words of the slot while there is room. -/
def State.faultScanOp (s : State) (h : ConHdr) (scope tile : Nat) : State :=
  s.conCmd h 0x40 1 (fun _ => decide (3 < scope) || decide (7 < tile)) fun s _ =>
    s.conLong h 0x40 0 fun s k =>
      let hits := (scanBlks scope tile).filter fun b => s.reg b 0o777700 != 0
      let ws := hits.flatMap fun b =>
        w36 (blkDigits b * 2 ^ 18 + 0o777700) :: (if scope = 0 then [w36 (blkCoreNo b)] else [])
      let s := s.setPartial k 1 (w36 hits.length)
      let s := ((ws.take 61).zipIdx).foldl (fun s x => s.setPartial k (3 + x.2) x.1) s
      (s.slotProgress k hits.length).slotDone k 0

/-- FAULT_INJECT (R608, R620). -/
def State.faultInjectOp (s : State) (h : ConHdr) (a : HostWord) (core src : Nat) : State :=
  s.conCmd h 0x41 1 (fun _ => (conAddr a core).isNone || decide (17 < src)) fun s _ =>
    match conAddr a core with
    | some (b, _) => s.conWrite h b [(0o777704, setField (setField (setField (0 : Word) 0 4 src) 5 5 1) 6 8 7)]
    | none => s

/-- FAULT_CLEAR (R605, R611). -/
def State.faultClearOp (s : State) (h : ConHdr) (a : HostWord) (core : Nat) (mask : HostWord) : State :=
  s.conCmd h 0x42 1 (fun _ => (conAddr a core).isNone || wordBad mask) fun s _ =>
    match conAddr a core with
    | some (b, _) => s.conWrite h b [(0o777700, devWord mask)]
    | none => s

/-- A link that a console command names does not exist: tile, group and lane index out of range (R26, R463). -/
def linkBad (t g i : Nat) : Bool := decide (7 < t) || decide (2 < g) || decide ((if g = 2 then 2 else 8) ≤ i)

/-- LINK_QUERY (R581, R496-R498). -/
def State.linkQueryOp (s : State) (h : ConHdr) (t g i : Nat) : State :=
  s.conCmd h 0x50 1 (fun _ => linkBad t g i) fun s _ =>
    let n := laneNo (tileFin t) (Fin.ofNat 3 g) i
    s.conRead h (linkBlk n) ((lstatAt n) :: ((List.range 4).map (pidAt n)) ++ (List.range 4).map (lcntAt n))

/-- LINK_RESET (R479, R581): EN is written 0 and then 1. -/
def State.linkResetOp (s : State) (h : ConHdr) (t g i : Nat) : State :=
  s.conCmd h 0x51 1 (fun _ => linkBad t g i) fun s _ =>
    let n := laneNo (tileFin t) (Fin.ofNat 3 g) i
    let o := 0o40 + laneIdx n
    let w := s.reg (linkBlk n) o
    s.conWrite h (linkBlk n) [(o, setField w 2 2 0), (o, setField w 2 2 1)]

/-- REG_READ of registers of one block (R581, R588, R590). -/
def State.regReadOp (s : State) (h : ConHdr) (a : HostWord) (count core : Nat) : State :=
  s.conCmd h 0x60 1 (fun _ => (conAddr a core).isNone || count == 0 || decide (14 < count) || decide (2 ^ 18 < a.toNat % 2 ^ 18 + count))
    fun s authed =>
    match conAddr a core with
    | some (b, o) =>
      if !authed && s.regConf b o count then s.conAns h 5 [] else
      s.conRead h b ((List.range count).map (o + ·))
    | none => s

/-- REG_WRITE (R581, R588, R590). -/
def State.regWriteOp (s : State) (h : ConHdr) (a : HostWord) (count core : Nat) (vs : List HostWord) : State :=
  s.conCmd h 0x61 1 (fun _ => (conAddr a core).isNone || count == 0 || decide (12 < count) || vs.length != count ||
      vs.any wordBad || decide (2 ^ 18 < a.toNat % 2 ^ 18 + count)) fun s authed =>
    match conAddr a core with
    | some (b, o) =>
      if !authed && s.regConf b o count then s.conAns h 5 [] else
      s.conWrite h b ((vs.zipIdx).map fun x => (o + x.2, devWord x.1))
    | none => s

/-- SHADOW_READ (R581): S-class fields from the shadow, other fields as REG_READ. -/
def State.shadowReadOp (s : State) (h : ConHdr) (a : HostWord) (count : Nat) : State :=
  s.conCmd h 0x62 1 (fun _ => (conAddr a 0).isNone || count == 0 || decide (14 < count) || decide (2 ^ 18 < a.toNat % 2 ^ 18 + count))
    fun s authed =>
    match conAddr a 0 with
    | some (b, o) =>
      if !authed && s.regConf b o count then s.conAns h 5 [] else
      let os := (List.range count).map (o + ·)
      s.consoleHeld b (.shadow h b os) fun s => s.shadowGo h b os
    | none => s

/-- A memory-service command on a range of a sheet (R60, R566, R577, R582, R588): it needs host access, and no word moves where an
address lies outside the sheet. -/
def State.memOp (s : State) (h : ConHdr) (op sh : Nat) (a : HostWord) (n img : Nat) (host : Bool) (job : Nat → SvcJob) : State :=
  s.conCmd h op 1 (fun _ => decide (64 ≤ sh) || wordBad a || decide (2 < img)) fun s authed =>
    if !authed && s.confid sh then s.conAns h 5 []
    else if s.sheetHeld sh then s.conAns h 6 []
    else s.conLong h op sh fun s k =>
      let s := s.setPartial k 1 (w36 n)
      if !s.inSheet sh a.toNat n then s.slotDone k 8
      else if host && !s.mayMaster 0 then s.slotDone k 0xA
      else s.svcRun (job k)

/-- MEM_READ (R582). -/
def State.memReadOp (s : State) (h : ConHdr) (sh : Nat) (a : HostWord) (n : Nat) (buffer img : Nat) : State :=
  s.memOp h 0x70 sh a n img true fun k =>
    { slot := k, sheet := sh, write := false, addr := a.toNat, left := n, put := [], got := [], done := 0, reply := 0, buffer := buffer,
      image := img }

/-- MEM_WRITE (R85, R564, R582): data that arrived with EP end it, and a unit with no word ends it there. -/
def State.memWriteOp (s : State) (h : ConHdr) (sh : Nat) (a : HostWord) (n : Nat) (os : List Octet) (ep : Bool) (img : Nat) : State :=
  let w := (imageOf img).toWords os
  let bad := match w.2 with | some i => decide (i < n) | none => false
  let ws := w.1.take (match w.2 with | some i => Nat.min i n | none => n)
  s.memOp h 0x71 sh a n img true fun k =>
    { slot := k, sheet := sh, write := true, addr := a.toNat, left := 0, put := if ep then [] else ws, got := [], done := 0,
      reply := if ep then 0xB else if bad then 0xF else 0, buffer := 0, image := img }

/-- MEM_ZERO (R582). -/
def State.memZeroOp (s : State) (h : ConHdr) (sh : Nat) (a : HostWord) (n : Nat) : State :=
  s.memOp h 0x72 sh a n 0 false fun k =>
    { slot := k, sheet := sh, write := true, addr := a.toNat, left := 0, put := List.replicate n 0, got := [], done := 0, reply := 0,
      buffer := 0, image := 0 }

/-- CAL_JOB (R503-R505, R519, R581, R588): the sheet's queue of the Calender that TILE names takes the job; the answer comes in
partial-result word 3. The manual gives the command no direction, which is an operand (log entry 14). -/
def State.calJobOp (s : State) (h : ConHdr) (sh : Nat) (expand : Bool) (ws : Vector HostWord 12) : State :=
  let words : Vector Word 12 := ws.map devWord
  s.conCmd h 0x73 2 (fun _ => decide (64 ≤ sh) || ws.toList.any wordBad || calBad 0 words expand) fun s authed =>
    let t := field words[0] 24 26
    if !authed && s.confid sh then s.conAns h 5 []
    else if s.sheetHeld sh then s.conAns h 6 []
    else s.conLong h 0x73 (sh + 64 * t) fun s k =>
      let r := calRanges words expand
      if !(s.inSheet sh (ptrAddr (blkDw words 2)) r.1 && s.inSheet sh (ptrAddr (blkDw words 6)) r.2 &&
          s.inSheet sh (ptrAddr (blkDw words 10)) 65792) then s.slotDone k 8
      else match s.calCc t sh with
        | 0 =>
          let x : Ctx := { tile := t, sheet := sh, dat := false, prob := false, org := 0, asn := 0 }
          s.calAccept t { block := 0, words := words, expand := expand, ctx := x, running := false, console := some k, result := none }
        | 2 => s.slotDone k 6
        | _ => s.slotDone k 7

/-- DIE_MIGRATE (R403, R419, R588). -/
def State.dieMigrateOp (s : State) (h : ConHdr) (t i die : Nat) : State :=
  s.conCmd h 0x74 2 (fun _ => decide (7 < t) || decide (1 < i) || decide (15 < die)) fun s authed =>
    let b := stackBlk (2 * t + i)
    if !authed && s.regConf b 1 1 then s.conAns h 5 []
    else s.conWrite h b [(1, setField (setField (0 : Word) 0 0 1) 6 9 die)]

/-- Firmware raises the heartbeat every 1 ms while the module triptych runs (R583). -/
def State.beat (s : State) : State := if s.consoleUp then s.setMail 7 (s.mail 7 + 1) else s

end Sys2Proof.Machine
end

