-- ==== Sys2Proof/Machine/Float.lean ====
section
/-! DEFINITION. Floating point: the formats F36 and F72, rounding, the five exceptions, NaNs, and every operation on
encodings (R210-R237). A value is ± m x 2^e with m a natural number. -/

namespace Sys2Proof.Machine

open Sys2Proof

/-- A format: width, fraction bits p', bias (R210). -/
structure Fmt where
  w    : Nat
  f    : Nat
  bias : Nat
deriving DecidableEq, Repr

/-- F36. -/
def f36 : Fmt := ⟨36, 26, 255⟩
/-- F72. -/
def f72 : Fmt := ⟨72, 59, 2047⟩

/-- The all-ones exponent E. -/
def Fmt.emax (t : Fmt) : Nat := 2 ^ (t.w - 1 - t.f) - 1
/-- The encoding of +infinity. -/
def Fmt.inf (t : Fmt) : Nat := t.emax * 2 ^ t.f
/-- The default NaN (R222). -/
def Fmt.qnan (t : Fmt) : Nat := t.inf + 2 ^ (t.f - 1)
/-- The sign of an encoding. -/
def Fmt.sign (t : Fmt) (x : Nat) : Bool := msb t.w x
/-- The biased exponent. -/
def Fmt.exp (t : Fmt) (x : Nat) : Nat := x / 2 ^ t.f % 2 ^ (t.w - 1 - t.f)
/-- The fraction. -/
def Fmt.frac (t : Fmt) (x : Nat) : Nat := x % 2 ^ t.f
/-- An encoding is a NaN (R211). -/
def Fmt.isNan (t : Fmt) (x : Nat) : Bool := t.exp x == t.emax && t.frac x != 0
/-- An encoding is a signalling NaN. -/
def Fmt.isSnan (t : Fmt) (x : Nat) : Bool := t.isNan x && !x.testBit (t.f - 1)
/-- An encoding is an infinity. -/
def Fmt.isInf (t : Fmt) (x : Nat) : Bool := t.exp x == t.emax && t.frac x == 0
/-- An encoding is a zero. -/
def Fmt.isZero (t : Fmt) (x : Nat) : Bool := t.exp x == 0 && t.frac x == 0
/-- A NaN quieted (R222). -/
def Fmt.quiet (t : Fmt) (x : Nat) : Nat := if x.testBit (t.f - 1) then x else x + 2 ^ (t.f - 1)
/-- The encoding with a sign put before a magnitude. -/
def Fmt.signed (t : Fmt) (s : Bool) (mag : Nat) : Nat := b2n s * 2 ^ (t.w - 1) + mag
/-- The encoding with its sign inverted. -/
def Fmt.negate (t : Fmt) (x : Nat) : Nat := t.signed (!t.sign x) (x % 2 ^ (t.w - 1))
/-- The exponent of the least significant subnormal bit. -/
def Fmt.qmin (t : Fmt) : Int := 1 - t.bias - t.f
/-- The integer significand of a finite encoding. -/
def Fmt.mant (t : Fmt) (x : Nat) : Nat := if t.exp x = 0 then t.frac x else 2 ^ t.f + t.frac x
/-- The exponent of the integer significand of a finite encoding. -/
def Fmt.ulp (t : Fmt) (x : Nat) : Int := if t.exp x = 0 then t.qmin else (t.exp x : Int) - t.bias - t.f

/-- Flags as a mask in the order NV, DZ, OF, UF, NX (R214). -/
def fNV : Nat := 16
/-- Division by zero. -/
def fDZ : Nat := 8
/-- Overflow. -/
def fOF : Nat := 4
/-- Underflow. -/
def fUF : Nat := 2
/-- Inexact. -/
def fNX : Nat := 1

/-- A result encoding and the exceptions it raised. -/
abbrev FRes := Nat × Nat

/-- The rounding mode and UFE, all that FPC supplies to a result (R214, R219). -/
structure FEnv where
  rm  : Nat
  ufe : Bool
deriving DecidableEq, Repr

/-- Divide a magnitude by 2^k, rounded to an integer (R217). -/
def roundShift (rm : Nat) (neg : Bool) (m k : Nat) : Nat :=
  let q := m / 2 ^ k
  let r := m % 2 ^ k
  let half := 2 ^ k
  let up := match rm with
    | 0 => 2 * r > half || (2 * r == half && q % 2 == 1)
    | 1 => false
    | 2 => !neg && r != 0
    | 3 => neg && r != 0
    | _ => 2 * r ≥ half && r != 0
  if up then q + 1 else q

/-- Bits of a number. -/
def bitLen (m : Nat) : Nat := if m = 0 then 0 else m.log2 + 1

/-- Round m x 2^e to the quantum 2^q: the integer of quanta. -/
def roundAt (rm : Nat) (neg : Bool) (m : Nat) (e q : Int) : Nat :=
  if q ≤ e then m * 2 ^ (e - q).toNat else roundShift rm neg m (q - e).toNat

/-- An overflowed result (R218). -/
def overflow (t : Fmt) (rm : Nat) (neg : Bool) : Nat :=
  let inf := match rm with | 1 => false | 2 => !neg | 3 => neg | _ => true
  t.signed neg (if inf then t.inf else t.inf - 1)

/-- Round an exact nonzero value ± m x 2^e once to a format, with its exceptions (R217-R219). -/
def roundPack (t : Fmt) (v : FEnv) (neg : Bool) (m : Nat) (e : Int) : FRes :=
  let p := t.f + 1
  let qu := e + bitLen m - p
  let nu := roundAt v.rm neg m e qu
  -- magnitude of the value rounded with unbounded exponent: nu x 2^qu, with nu in [2^(p-1), 2^p]
  let topu : Int := qu + bitLen nu
  if topu > (t.bias : Int) + 1 then (overflow t v.rm neg, fOF + fNX)
  else
    let tiny := topu ≤ 1 - (t.bias : Int)
    let q := if qu < t.qmin then t.qmin else qu
    let n := roundAt v.rm neg m e q
    let inexact := if q ≤ e then false else n * 2 ^ (q - e).toNat != m
    -- n quanta of 2^q: a carry out of the significand doubles the quantum, and below 2^(p-1) it is subnormal
    let enc := if n < 2 ^ t.f then n else
      let n' := if n = 2 ^ p then 2 ^ t.f else n
      let q' := if n = 2 ^ p then q + 1 else q
      (q' + t.f + t.bias).toNat * 2 ^ t.f + (n' - 2 ^ t.f)
    let uf := tiny && (v.ufe || inexact)
    (t.signed neg enc, (if uf then fUF else 0) + (if inexact then fNX else 0))

/-- The sign of an exact zero sum (R221). -/
def zeroSign (rm : Nat) (a b : Bool) : Bool := if a == b then a else rm == 3

/-- The sum of two signed exact values, each sign, m and e; both may be zero (R217, R221). -/
def addExact (t : Fmt) (v : FEnv) (sa : Bool) (ma : Nat) (ea : Int) (sb : Bool) (mb : Nat) (eb : Int) : FRes :=
  let e := if ea < eb then ea else eb
  let x : Int := (if sa then -1 else 1) * ((ma * 2 ^ (ea - e).toNat : Nat) : Int)
  let y : Int := (if sb then -1 else 1) * ((mb * 2 ^ (eb - e).toNat : Nat) : Int)
  let z := x + y
  if z = 0 then
    let s := if ma = 0 ∧ mb = 0 then zeroSign v.rm sa sb else zeroSign v.rm true false
    (t.signed s 0, 0)
  else roundPack t v (decide (z < 0)) z.natAbs e

/-- The NaN result of operands in order: the first NaN quieted, NV when any is signalling (R223, R224). -/
def nanOf (t : Fmt) (xs : List Nat) : Option FRes :=
  match xs.find? t.isNan with
  | none => none
  | some x => some (t.quiet x, if xs.any t.isSnan then fNV else 0)

/-- a + b; a NaN operand is given as it stands before any negation (R223, R225). -/
def fpAdd (t : Fmt) (v : FEnv) (negB : Bool) (a b : Nat) : FRes :=
  match nanOf t [a, b] with
  | some r => r
  | none =>
    let b := if negB then t.negate b else b
    if t.isInf a then
      if t.isInf b && t.sign a != t.sign b then (t.qnan, fNV) else (a, 0)
    else if t.isInf b then (b, 0)
    else addExact t v (t.sign a) (t.mant a) (t.ulp a) (t.sign b) (t.mant b) (t.ulp b)

/-- a x b (R217, R224). -/
def fpMul (t : Fmt) (v : FEnv) (a b : Nat) : FRes :=
  match nanOf t [a, b] with
  | some r => r
  | none =>
    let s := t.sign a != t.sign b
    if t.isInf a || t.isInf b then
      if t.isZero a || t.isZero b then (t.qnan, fNV) else (t.signed s t.inf, 0)
    else if t.isZero a || t.isZero b then (t.signed s 0, 0)
    else roundPack t v s (t.mant a * t.mant b) (t.ulp a + t.ulp b)

/-- a / b (R217, R218, R224). -/
def fpDiv (t : Fmt) (v : FEnv) (a b : Nat) : FRes :=
  match nanOf t [a, b] with
  | some r => r
  | none =>
    let s := t.sign a != t.sign b
    if t.isInf a then (if t.isInf b then (t.qnan, fNV) else (t.signed s t.inf, 0))
    else if t.isInf b then (t.signed s 0, 0)
    else if t.isZero b then (if t.isZero a then (t.qnan, fNV) else (t.signed s t.inf, fDZ))
    else if t.isZero a then (t.signed s 0, 0)
    else
      let k := 2 * t.w
      let n := t.mant a * 2 ^ k
      let q := n / t.mant b
      let sticky := if n % t.mant b = 0 then 0 else 1
      roundPack t v s (2 * q + sticky) (t.ulp a - t.ulp b - k - 1)

/-- Integer square root by bits, from bit `i` - 1 down. -/
def sqrtGo (n : Nat) : Nat → Nat → Nat
  | 0, r => r
  | i + 1, r => sqrtGo n i (if (r + 2 ^ i) * (r + 2 ^ i) ≤ n then r + 2 ^ i else r)

/-- Square root (R221, R224). -/
def fpSqrt (t : Fmt) (v : FEnv) (a : Nat) : FRes :=
  match nanOf t [a] with
  | some r => r
  | none =>
    if t.isZero a then (a, 0)
    else if t.sign a then (t.qnan, fNV)
    else if t.isInf a then (a, 0)
    else
      let odd : Nat := if t.ulp a % 2 = 0 then 0 else 1
      let n := t.mant a * 2 ^ (2 * t.w + odd)
      let e := t.ulp a - (2 * t.w + odd : Nat)
      let r := sqrtGo n (2 * t.w) 0
      let sticky := if r * r = n then 0 else 1
      roundPack t v false (2 * r + sticky) (e / 2 - 1)

/-- (± a) x b + (± c), rounded once (R217, R224, R225). -/
def fpFma (t : Fmt) (v : FEnv) (negA negC : Bool) (a b c : Nat) : FRes :=
  let bad := (t.isZero a && t.isInf b) || (t.isInf a && t.isZero b)
  match nanOf t [a, b, c] with
  | some r => (r.1, if bad then fNV else r.2)
  | none =>
    if bad then (t.qnan, fNV) else
    let sp := (t.sign a != t.sign b) != negA
    let c := if negC then t.negate c else c
    if t.isInf a || t.isInf b then
      if t.isInf c && t.sign c != sp then (t.qnan, fNV) else (t.signed sp t.inf, 0)
    else if t.isInf c then (c, 0)
    else addExact t v sp (t.mant a * t.mant b) (t.ulp a + t.ulp b) (t.sign c) (t.mant c) (t.ulp c)

/-- The order of two numbers, -0 below +0, as a signed magnitude. -/
def Fmt.key (t : Fmt) (x : Nat) : Int :=
  let m : Int := (x % 2 ^ (t.w - 1) : Nat)
  if t.sign x then -m - 1 else m

/-- FMIN and FMAX (R230). -/
def fpMin (t : Fmt) (max : Bool) (a b : Nat) : FRes :=
  let nv := if t.isSnan a || t.isSnan b then fNV else 0
  if t.isNan a && t.isNan b then (t.quiet a, nv)
  else if t.isNan a then (b, nv)
  else if t.isNan b then (a, nv)
  else ((if decide (t.key a < t.key b) == max then b else a), 0)

/-- FCMP and FCMPS: the integer flags and the exceptions (R191). -/
def fpCmp (t : Fmt) (signal : Bool) (a b : Nat) : Flg × Nat :=
  if t.isNan a || t.isNan b then
    ({ n := false, z := false, c := false, v := true }, if signal || t.isSnan a || t.isSnan b then fNV else 0)
  else if (t.isZero a && t.isZero b) || a == b then ({ n := false, z := true, c := false, v := false }, 0)
  else ({ n := false, z := false, c := decide (t.key a < t.key b), v := false }, 0)

/-- The class word of FCLASS: the device bit it sets (R192). -/
def fpClass (t : Fmt) (x : Nat) : Nat :=
  let s := t.sign x
  let bit :=
    if t.isNan x then (if t.isSnan x then 34 else 35)
    else if t.isInf x then (if s then 26 else 33)
    else if t.isZero x then (if s then 29 else 30)
    else if t.exp x = 0 then (if s then 28 else 31)
    else (if s then 27 else 32)
  2 ^ (35 - bit)

/-- A finite encoding rounded to an integer magnitude (R217). -/
def fpInt (t : Fmt) (rm : Nat) (x : Nat) : Nat := roundAt rm (t.sign x) (t.mant x) (t.ulp x) 0

/-- The rounded integer differs from the operand. -/
def fpIntNx (t : Fmt) (rm : Nat) (x : Nat) : Bool :=
  if 0 ≤ t.ulp x then false else fpInt t rm x * 2 ^ (-(t.ulp x)).toNat != t.mant x

/-- FRND (R229). -/
def fpRnd (t : Fmt) (v : FEnv) (a : Nat) : FRes :=
  match nanOf t [a] with
  | some r => r
  | none =>
    if t.isInf a || t.isZero a || 0 ≤ t.ulp a then (a, 0)
    else
      let n := fpInt t v.rm a
      let r := if n = 0 then t.signed (t.sign a) 0 else (roundPack t v (t.sign a) n 0).1
      (r, if fpIntNx t v.rm a then fNX else 0)

/-- An integer of `w` bits to a format (R227). -/
def fpOfInt (t : Fmt) (v : FEnv) (w x : Nat) : FRes :=
  let i := signedOf w x
  if i = 0 then (0, 0) else roundPack t v (decide (i < 0)) i.natAbs 0

/-- A format to an integer of `w` bits (R228). -/
def fpToInt (t : Fmt) (v : FEnv) (w x : Nat) : FRes :=
  let most (neg : Bool) : Nat := if neg then 2 ^ (w - 1) else 2 ^ (w - 1) - 1
  if t.isNan x then (most true, fNV)
  else if t.isInf x then (most (t.sign x), fNV)
  else
    let n := fpInt t v.rm x
    let i : Int := if t.sign x then -(n : Int) else n
    if ovf w i then (most (t.sign x), fNV) else (wrapTo w i, if fpIntNx t v.rm x then fNX else 0)

/-- CVTSD (R226). -/
def fpWiden (v : FEnv) (x : Nat) : FRes :=
  if f36.isNan x then
    (f72.signed (f36.sign x) (f72.inf + f36.frac (f36.quiet x) * 2 ^ 33), if f36.isSnan x then fNV else 0)
  else if f36.isInf x then (f72.signed (f36.sign x) f72.inf, 0)
  else if f36.isZero x then (f72.signed (f36.sign x) 0, 0)
  else roundPack f72 v (f36.sign x) (f36.mant x) (f36.ulp x)

/-- CVTDS (R226). -/
def fpNarrow (v : FEnv) (x : Nat) : FRes :=
  if f72.isNan x then
    (f36.signed (f72.sign x) (f36.inf + f72.frac (f72.quiet x) / 2 ^ 33), if f72.isSnan x then fNV else 0)
  else if f72.isInf x then (f36.signed (f72.sign x) f36.inf, 0)
  else if f72.isZero x then (f36.signed (f72.sign x) 0, 0)
  else roundPack f36 v (f72.sign x) (f72.mant x) (f72.ulp x)

end Sys2Proof.Machine
end

