-- ==== Sys2Proof/Machine/Isa.lean ====
section
/-! DEFINITION. What the rows of the instruction set share: when a core executes (R205, R351), how an instruction's command
ends, and the common shapes of an instruction: a destination changed from sources, a destination written, flags only, a
branch, a stack step (R150, R162-R165, R173-R180, R187, R220). -/

namespace Sys2Proof.Machine

open Sys2Proof

/-- A core executes instructions: it is active, not cold, neither waiting, stopped, frozen nor held, and its sheet runs. -/
def State.executes (s : State) (c : Nat) : Bool :=
  let k := s.core c
  k.active && !k.cold && k.run == .running &&
    match k.sheet with | some sh => (s.sheet sh).running && !(s.sheet sh).checkstop | none => false

/-- The next state of an instruction's command: nothing happens in a core that does not execute (R205, R351); nonets that are
not the row's instruction are no command of the row (R128, R155). -/
def State.isaEnd (s : State) (c : Nat) (r : Option State) : Host.Outcome State Fault Refusal :=
  if !s.executes c then .next s else
  match r with
  | none => .refused .notThisInstruction
  | some s => ends s

/-- Run an instruction of a row in its core. -/
def State.isa (s : State) (t : Tmpl) (n : Insn) (body : Dec → List Formed → M Unit) : Host.Outcome State Fault Refusal :=
  s.isaEnd n.core.val (s.insn t n body)

/-- The PSW names the instruction itself again. -/
def rewind (c : Nat) (d : Dec) : M Unit := do
  let s ← get
  setIa c (pswIa (s.core c).psw + 2 ^ 38 - d.len)

/-- The instruction waits, and what it has done so far stands (R182, R266). -/
def waitHere {α : Type} (c : Nat) (d : Dec) : M α := do
  rewind c d
  let s ← get
  stopWith .stall s

/-- Read the operands from place `i` on, in template order. -/
def readFrom (c : Nat) (d : Dec) (rs : List Rdy) (i : Nat) : M (List Nat) := (rs.drop i).mapM (readOp c d.acq)

/-- x ← f(x, sources), with flags (R168, R170): operands are read in template order; with ATOM the sources come first and x is
one interlocked access (R187, R189). -/
def updX (c : Nat) (d : Dec) (fs : List Formed) (f : Flg → Nat → List Nat → AluR) : M Unit := do
  let rs ← readyOps c d.atom fs
  let s ← get
  let old := s.flags c
  match d.atom, (opAt rs 0).xl with
  | true, some x => do
    let ss ← readFrom c d rs 1
    let r ← rmw c d.rel x (opAt rs 0).f.nidx (opAt rs 0).f.op.wid fun v =>
      match f old v ss with
      | .ok (r, fl) => (some r, Except.ok fl)
      | .error e => (none, Except.error e)
    match r with
    | .ok fl => setFlags c fl
    | .error e => pcheck e
  | _, _ => do
    let v ← readOp c d.acq (opAt rs 0)
    let ss ← readFrom c d rs 1
    match f old v ss with
    | .error e => pcheck e
    | .ok (r, fl) => do
      setFlags c fl
      writeOp c d.rel (opAt rs 0) r

/-- d ← f(sources), with flags (R166, R170). -/
def setX (c : Nat) (d : Dec) (fs : List Formed) (f : Flg → List Nat → AluR) : M Unit := do
  let rs ← readyOps c false fs
  let s ← get
  let ss ← readFrom c d rs 1
  match f (s.flags c) ss with
  | .error e => pcheck e
  | .ok (r, fl) => do
    setFlags c fl
    writeOp c d.rel (opAt rs 0) r

/-- Flags ← f(sources) (R168, R170). -/
def cmpX (c : Nat) (d : Dec) (fs : List Formed) (f : Flg → List Nat → AluR) : M Unit := do
  let rs ← readyOps c false fs
  let s ← get
  let ss ← readFrom c d rs 0
  match f (s.flags c) ss with
  | .error e => pcheck e
  | .ok (_, fl) => setFlags c fl

/-- The flags stay as they were. -/
def keepF (old : Flg) (r : Nat) : AluR := .ok (r, old)

/-- A source of a list by place. -/
def srcAt (ss : List Nat) (i : Nat) : Nat := ss.getD i 0

/-- An integer instruction x, s in a core: x ← f(width, flags, x, s). -/
def State.isaXS (s : State) (t : Tmpl) (n : Insn) (f : Nat → Flg → Nat → Nat → AluR) : Host.Outcome State Fault Refusal :=
  s.isa t n fun d fs => updX n.core.val d fs fun old x ss => f d.wid.bits old x (srcAt ss 0)

/-- A branch: continue at the target when the condition holds (R173, R174). -/
def State.isaBr (s : State) (code : Nat) (n : Insn) : Host.Outcome State Fault Refusal :=
  s.isa (prim (0o200 + code) [opT] [] []) n fun _ fs => do
    let s ← get
    if branchTaken code (s.flags n.core.val) then setIa n.core.val ((fs.map Formed.val).getD 0 0)

/-- A loop: ri ← ri + `step` modulo 2^36, and continue at the target while `go` holds of it (R175). -/
def State.isaLoop (s : State) (code : Nat) (n : Insn) (step : Int) (go : Nat → Bool) : Host.Outcome State Fault Refusal :=
  s.isa (prim code [fw .r .i .wW, opT] [] []) n fun _ fs => do
    let c := n.core.val
    let rs ← readyOps c false fs
    let v := wrapTo 36 (((opAt rs 0).f.val : Int) + step)
    writeOp c false (opAt rs 0) v
    if go v then setIa c (opAt rs 1).f.val

/-- P`i` of the current bank. -/
def getP (c i : Nat) : M DWord := do
  let s ← get
  pure (vget (s.core c).cur.p i 0)

/-- Replace P`i` of the current bank. -/
def putP (c i : Nat) (v : DWord) : M Unit :=
  modify fun s => let k := s.core c; let b := k.cur; s.setCore c (k.setCur { b with p := vset b.p i v })

/-- The address of the slot of a push that reaches down to `low` (R176, R178): P7 even, and no wrap or fall below the limit. -/
def pushSlot (c : Nat) (extra : Nat) : M (Nat × Nat) := do
  let p7 ← getP c 7
  let s ← get
  let top := ptrAddr p7
  if top % 2 = 1 then pcheck 6
  let a := wrapTo 54 ((top : Int) - 2)
  let b := wrapTo 54 ((top : Int) - 2 - 2 * (extra : Int))
  if b < ptrAddr (s.core c).cur.slim ∨ top < b then pcheck 0o014
  pure (a, b)

/-- Push a doubleword, reserving `extra` doublewords below it: the slot's address (R176-R179). -/
def pushDw (c : Nat) (v : Nat) (extra : Nat) : M Nat := do
  let ab ← pushSlot c extra
  let x ← xlateM c true 2 ab.1
  store c x 0 .wD v false
  let p7 ← getP c 7
  putP c 7 (ptrSetAddr p7 ab.2)
  pure ab.1

/-- Load the doubleword that a pointer register points at, an odd address being "specification", and raise the pointer by
2 (R176, R178). -/
def popDw (c : Nat) (p : DWord) : M (Nat × DWord) := do
  if ptrAddr p % 2 = 1 then pcheck 6
  let x ← xlateM c true 1 (ptrAddr p)
  let v ← load c x 0 .wD false
  pure (v, ptrSetAddr p (ptrAddr p + 2))

/-- The return doubleword that names the next instruction (R177). -/
def returnDw (ia : Nat) : Nat := (ia % 4) * 2 ^ 54 + ia / 4 % 2 ^ 36

/-- Continue at the instruction that a return doubleword names (R177). -/
def goReturn (c v : Nat) : M Unit := setIa c (v % 2 ^ 36 * 4 + v / 2 ^ 54 % 4)

/-- The environment of a floating-point result (R214, R216). -/
def fpEnv (w : Word) : FEnv := { rm := field w 18 20, ufe := dbit w 24 }

/-- The format of a width. -/
def fmtOf (w : Wid) : Fmt := match w with | .wD => f72 | _ => f36

/-- The exceptions an operation raised: a trap where one of them is enabled, with CAUSE written over the core of before the
instruction; otherwise its sticky flags (R216, R220). -/
def fpRaise (c : Nat) (before : State) (x : Nat) : M Unit := do
  let s ← get
  let k := s.core c
  if field k.fpc 21 25 &&& x ≠ 0 then
    let u := before.undone c s
    stopWith (.check 0o012 []) (u.setCore c { u.core c with fpc := setField (u.core c).fpc 26 30 x })
  else set (s.setCore c { k with fpc := setField k.fpc 31 35 (field k.fpc 31 35 ||| x) })

/-- A floating-point result d or x ← f(sources), where the source list begins at operand `i` (R190, R216, R220). -/
def State.isaF (s : State) (t : Tmpl) (n : Insn) (i : Nat) (f : Fmt → FEnv → List Nat → FRes) : Host.Outcome State Fault Refusal :=
  s.isa t n fun d fs => do
    let c := n.core.val
    let rs ← readyOps c false fs
    let ss ← readFrom c d rs i
    let s1 ← get
    let r := f (fmtOf d.wid) (fpEnv (s1.core c).fpc) ss
    fpRaise c s r.2
    writeOp c d.rel (opAt rs 0) r.1

/-- FCMP and FCMPS (R191, R220). -/
def State.isaFcmp (s : State) (code : Nat) (n : Insn) (signal : Bool) : Host.Outcome State Fault Refusal :=
  s.isa (prim code [ow .s .f, ow .s .f] wWD [pACQ]) n fun d fs => do
    let c := n.core.val
    let rs ← readyOps c false fs
    let ss ← readFrom c d rs 0
    let r := fpCmp (fmtOf d.wid) signal (srcAt ss 0) (srcAt ss 1)
    fpRaise c s r.2
    setFlags c r.1

end Sys2Proof.Machine
end

