-- ==== Sys2Proof/Machine/Arith.lean ====
section
/-! DEFINITION. Integer arithmetic (R168, R169, R208, R209). -/

namespace Sys2Proof.Machine

open Sys2Proof

/-- A row with operands xi, si and widths N H W D. -/
def rowX (code : Nat) (pre : List Nat) : Tmpl := prim code [ow .x .i, ow .s .i] wAll pre
/-- A row with operands xi, si and widths W D. -/
def rowXd (code : Nat) : Tmpl := prim code [ow .x .i, ow .s .i] wWD [pACQ, pREL]
/-- Prefixes of an interlocked row. -/
def preAtom : List Nat := [pATOM, pACQ, pREL]
/-- Prefixes of a row without ATOM. -/
def preMem : List Nat := [pACQ, pREL]

/-- ADD (R168). -/
def execAdd (n : Insn) (s : State) : Host.Outcome State Fault Refusal :=
  s.isaXS (rowX 0o040 preAtom) n fun w _ x y => .ok (aluAdd w x y 0)
/-- ADC (R168). -/
def execAdc (n : Insn) (s : State) : Host.Outcome State Fault Refusal :=
  s.isaXS (rowX 0o041 preMem) n fun w old x y => .ok (aluAdd w x y (b2n old.c))
/-- SUB (R168). -/
def execSub (n : Insn) (s : State) : Host.Outcome State Fault Refusal :=
  s.isaXS (rowX 0o042 preAtom) n fun w _ x y => .ok (aluSub w x y 0)
/-- SBC (R168). -/
def execSbc (n : Insn) (s : State) : Host.Outcome State Fault Refusal :=
  s.isaXS (rowX 0o043 preMem) n fun w old x y => .ok (aluSub w x y (b2n old.c))
/-- NEG (R168). -/
def execNeg (n : Insn) (s : State) : Host.Outcome State Fault Refusal :=
  s.isaXS (prim 0o044 [ow .x .i] wAll preMem) n fun w _ x _ => .ok (aluSub w 0 x 0)
/-- CMP (R168). -/
def execCmp (n : Insn) (s : State) : Host.Outcome State Fault Refusal :=
  s.isa (prim 0o045 [ow .s .i, ow .s .i] wAll [pACQ]) n fun d fs =>
    cmpX n.core.val d fs fun _ ss => .ok (aluSub d.wid.bits (srcAt ss 0) (srcAt ss 1) 0)
/-- INC (R168). -/
def execInc (n : Insn) (s : State) : Host.Outcome State Fault Refusal :=
  s.isaXS (prim 0o046 [ow .x .i] wAll preAtom) n fun w old x _ => .ok (keepC old (aluAdd w x 1 0))
/-- DEC (R168). -/
def execDec (n : Insn) (s : State) : Host.Outcome State Fault Refusal :=
  s.isaXS (prim 0o047 [ow .x .i] wAll preAtom) n fun w old x _ => .ok (keepC old (aluSub w x 1 0))
/-- MUL (R168). -/
def execMul (n : Insn) (s : State) : Host.Outcome State Fault Refusal :=
  s.isaXS (rowXd 0o050) n fun w _ x y => .ok (aluMul true w x y)
/-- MULU (R168). -/
def execMulu (n : Insn) (s : State) : Host.Outcome State Fault Refusal :=
  s.isaXS (rowXd 0o051) n fun w _ x y => .ok (aluMul false w x y)
/-- MULH (R168). -/
def execMulh (n : Insn) (s : State) : Host.Outcome State Fault Refusal :=
  s.isaXS (rowXd 0o052) n fun w _ x y => .ok (aluMulH true w x y)
/-- MULHU (R168). -/
def execMulhu (n : Insn) (s : State) : Host.Outcome State Fault Refusal :=
  s.isaXS (rowXd 0o053) n fun w _ x y => .ok (aluMulH false w x y)

/-- A row with operands ri2, si, si of MULD and MULDU. -/
def rowMuld (code : Nat) : Tmpl := prim code [fw .r .i2 .wD, fw .s .i .wW, fw .s .i .wW] [] [pACQ]
/-- A row with operands ri2, si of DIVD and DIVDU. -/
def rowDivd (code : Nat) : Tmpl := prim code [fw .r .i2 .wD, fw .s .i .wW] [] [pACQ]

/-- MULD (R168). -/
def execMuld (n : Insn) (s : State) : Host.Outcome State Fault Refusal :=
  s.isa (rowMuld 0o054) n fun d fs => setX n.core.val d fs fun _ ss => .ok (aluMulD true (srcAt ss 0) (srcAt ss 1))
/-- MULDU (R168). -/
def execMuldu (n : Insn) (s : State) : Host.Outcome State Fault Refusal :=
  s.isa (rowMuld 0o055) n fun d fs => setX n.core.val d fs fun _ ss => .ok (aluMulD false (srcAt ss 0) (srcAt ss 1))
/-- DIV (R169). -/
def execDiv (n : Insn) (s : State) : Host.Outcome State Fault Refusal :=
  s.isaXS (rowXd 0o060) n fun w _ x y => aluDiv true false w x y
/-- DIVU (R169). -/
def execDivu (n : Insn) (s : State) : Host.Outcome State Fault Refusal :=
  s.isaXS (rowXd 0o061) n fun w _ x y => aluDiv false false w x y
/-- REM (R169). -/
def execRem (n : Insn) (s : State) : Host.Outcome State Fault Refusal :=
  s.isaXS (rowXd 0o062) n fun w _ x y => aluDiv true true w x y
/-- REMU (R169). -/
def execRemu (n : Insn) (s : State) : Host.Outcome State Fault Refusal :=
  s.isaXS (rowXd 0o063) n fun w _ x y => aluDiv false true w x y
/-- DIVD (R169). -/
def execDivd (n : Insn) (s : State) : Host.Outcome State Fault Refusal :=
  s.isa (rowDivd 0o064) n fun d fs => updX n.core.val d fs fun _ x ss => aluDivD true x (srcAt ss 0)
/-- DIVDU (R169). -/
def execDivdu (n : Insn) (s : State) : Host.Outcome State Fault Refusal :=
  s.isa (rowDivd 0o065) n fun d fs => updX n.core.val d fs fun _ x ss => aluDivD false x (srcAt ss 0)
/-- ABS (R168). -/
def execAbs (n : Insn) (s : State) : Host.Outcome State Fault Refusal :=
  s.isaXS (prim 0o066 [ow .x .i] wWD preMem) n fun w _ x _ => .ok (aluAbs w x)
/-- MIN (R168). -/
def execMin (n : Insn) (s : State) : Host.Outcome State Fault Refusal :=
  s.isaXS (rowX 0o121 preAtom) n fun w old x y => keepF old (aluMin true false w x y)
/-- MAX (R168). -/
def execMax (n : Insn) (s : State) : Host.Outcome State Fault Refusal :=
  s.isaXS (rowX 0o122 preAtom) n fun w old x y => keepF old (aluMin true true w x y)
/-- MINU (R168). -/
def execMinu (n : Insn) (s : State) : Host.Outcome State Fault Refusal :=
  s.isaXS (rowX 0o123 preAtom) n fun w old x y => keepF old (aluMin false false w x y)
/-- MAXU (R168). -/
def execMaxu (n : Insn) (s : State) : Host.Outcome State Fault Refusal :=
  s.isaXS (rowX 0o124 preAtom) n fun w old x y => keepF old (aluMin false true w x y)

end Sys2Proof.Machine
end

