-- ==== Sys2Proof/Machine/Branch.lean ====
section
/-! DEFINITION. Branches and loops (R173-R175) and the stack (R176-R180). -/

namespace Sys2Proof.Machine

open Sys2Proof

/-- BEQ (R173). -/
def execBeq (n : Insn) (s : State) : Host.Outcome State Fault Refusal := s.isaBr 0 n
/-- BNE (R173). -/
def execBne (n : Insn) (s : State) : Host.Outcome State Fault Refusal := s.isaBr 1 n
/-- BLT (R173). -/
def execBlt (n : Insn) (s : State) : Host.Outcome State Fault Refusal := s.isaBr 2 n
/-- BGE (R173). -/
def execBge (n : Insn) (s : State) : Host.Outcome State Fault Refusal := s.isaBr 3 n
/-- BLE (R173). -/
def execBle (n : Insn) (s : State) : Host.Outcome State Fault Refusal := s.isaBr 4 n
/-- BGT (R173). -/
def execBgt (n : Insn) (s : State) : Host.Outcome State Fault Refusal := s.isaBr 5 n
/-- BLO (R173). -/
def execBlo (n : Insn) (s : State) : Host.Outcome State Fault Refusal := s.isaBr 6 n
/-- BHS (R173). -/
def execBhs (n : Insn) (s : State) : Host.Outcome State Fault Refusal := s.isaBr 7 n
/-- BLS (R173). -/
def execBls (n : Insn) (s : State) : Host.Outcome State Fault Refusal := s.isaBr 8 n
/-- BHI (R173). -/
def execBhi (n : Insn) (s : State) : Host.Outcome State Fault Refusal := s.isaBr 9 n
/-- BVS (R173). -/
def execBvs (n : Insn) (s : State) : Host.Outcome State Fault Refusal := s.isaBr 10 n
/-- BVC (R173). -/
def execBvc (n : Insn) (s : State) : Host.Outcome State Fault Refusal := s.isaBr 11 n
/-- BMI (R173). -/
def execBmi (n : Insn) (s : State) : Host.Outcome State Fault Refusal := s.isaBr 12 n
/-- BPL (R173). -/
def execBpl (n : Insn) (s : State) : Host.Outcome State Fault Refusal := s.isaBr 13 n
/-- BR (R173). -/
def execBr (n : Insn) (s : State) : Host.Outcome State Fault Refusal := s.isaBr 14 n

/-- LOOP (R175). -/
def execLoop (n : Insn) (s : State) : Host.Outcome State Fault Refusal := s.isaLoop 0o220 n (-1) fun v => v != 0
/-- LOOPU (R175). -/
def execLoopu (n : Insn) (s : State) : Host.Outcome State Fault Refusal := s.isaLoop 0o221 n 1 fun v => v != 0
/-- LOOPG (R175). -/
def execLoopg (n : Insn) (s : State) : Host.Outcome State Fault Refusal := s.isaLoop 0o222 n (-1) fun v => !msb 36 v

/-- CALL (R179). -/
def execCall (n : Insn) (s : State) : Host.Outcome State Fault Refusal :=
  s.isa (prim 0o230 [opT] [] []) n fun _ fs => do
    let c := n.core.val
    let s ← get
    let _ ← pushDw c (returnDw (pswIa (s.core c).psw)) 0
    setIa c ((fs.map Formed.val).getD 0 0)

/-- RET (R179). -/
def execRet (n : Insn) (s : State) : Host.Outcome State Fault Refusal :=
  s.isa (prim 0o231 [] [] []) n fun _ _ => do
    let c := n.core.val
    let p7 ← getP c 7
    let r ← popDw c p7
    putP c 7 r.2
    goReturn c r.1

/-- RETN (R179): s is an unsigned count of doublewords. -/
def execRetn (n : Insn) (s : State) : Host.Outcome State Fault Refusal :=
  s.isa (prim 0o232 [fw .s .i .wW] [] []) n fun d fs => do
    let c := n.core.val
    let rs ← readyOps c false fs
    let v ← readOp c d.acq (opAt rs 0)
    let p7 ← getP c 7
    let r ← popDw c p7
    putP c 7 (ptrSetAddr r.2 (ptrAddr r.2 + 2 * v))
    goReturn c r.1

/-- PUSH (R176, R179): width W stores 0 in the even word. -/
def execPush (n : Insn) (s : State) : Host.Outcome State Fault Refusal :=
  s.isa (prim 0o233 [ow .s .i] wWD []) n fun d fs => do
    let c := n.core.val
    let rs ← readyOps c false fs
    let v ← readOp c d.acq (opAt rs 0)
    let _ ← pushDw c v 0

/-- POP (R176, R179, R180): width W takes the odd word. -/
def execPop (n : Insn) (s : State) : Host.Outcome State Fault Refusal :=
  s.isa (prim 0o234 [ow .d .i] wWD []) n fun d fs => do
    let c := n.core.val
    let rs ← readyOps c false fs
    let p7 ← getP c 7
    let r ← popDw c p7
    putP c 7 r.2
    writeOp c d.rel (opAt rs 0) (r.1 % 2 ^ d.wid.bits)

/-- ENTER (R179). -/
def execEnter (n : Insn) (s : State) : Host.Outcome State Fault Refusal :=
  s.isa (prim 0o235 [fw .s .i .wW] [] []) n fun d fs => do
    let c := n.core.val
    let rs ← readyOps c false fs
    let v ← readOp c d.acq (opAt rs 0)
    let p6 ← getP c 6
    let p7 ← getP c 7
    let a ← pushDw c p6.toNat v
    putP c 6 (ptrSetAddr p7 a)

/-- LEAVE (R179). -/
def execLeave (n : Insn) (s : State) : Host.Outcome State Fault Refusal :=
  s.isa (prim 0o236 [] [] []) n fun _ _ => do
    let c := n.core.val
    let p6 ← getP c 6
    let r ← popDw c p6
    putP c 7 r.2
    putP c 6 (BitVec.ofNat 72 r.1)

end Sys2Proof.Machine
end

