-- ==== Sys2Proof/Machine/Io.lean ====
section
/-! DEFINITION. Barriers (R266-R269, R288), IN and OUT (R42-R44, R193, R268, R274-R277), the clock and the flag word
(R203, R204), SVC and BRK (R202). -/

namespace Sys2Proof.Machine

open Sys2Proof

/-- A barrier: it emits the gather buffer (R277); `drain` performs every earlier store, `outs` waits for every earlier OUT to be
performed and `ends_` for every earlier OUT to reach its end point (R266, R269). -/
def barrier (c : Nat) (d : Dec) (drain outs ends_ : Bool) : M Unit := do
  modify fun s => s.gatherEmit c
  if ends_ then modify fun s => s.askOuts c
  let s ← get
  if (outs && s.outOpen c) || (ends_ && !(s.core c).outs.isEmpty) then waitHere c d
  if drain then
    match s.drainAll c with
    | some s => set s
    | none => waitHere c d

/-- A row without operands. -/
def rowNone (code : Nat) : Tmpl := prim code [] [] []

/-- FENCE (R266). -/
def execFence (n : Insn) (s : State) : Host.Outcome State Fault Refusal :=
  s.isa (rowNone 0o350) n fun d _ => barrier n.core.val d true true false
/-- FENCE.LL (R266): a load is performed when its instruction retires. -/
def execFenceLl (n : Insn) (s : State) : Host.Outcome State Fault Refusal :=
  s.isa (rowNone 0o351) n fun d _ => barrier n.core.val d false false false
/-- FENCE.SS (R266). -/
def execFenceSs (n : Insn) (s : State) : Host.Outcome State Fault Refusal :=
  s.isa (rowNone 0o352) n fun d _ => barrier n.core.val d true true false
/-- FENCE.LS (R266). -/
def execFenceLs (n : Insn) (s : State) : Host.Outcome State Fault Refusal :=
  s.isa (rowNone 0o353) n fun d _ => barrier n.core.val d false false false
/-- FENCE.C (R269). -/
def execFenceC (n : Insn) (s : State) : Host.Outcome State Fault Refusal :=
  s.isa (rowNone 0o354) n fun d _ => barrier n.core.val d true true true

/-- ISYNC (R197, R288): every earlier store is performed. -/
def execIsync (n : Insn) (s : State) : Host.Outcome State Fault Refusal :=
  s.isa (rowNone 0o361) n fun _ _ => doStall fun s => s.drainAll n.core.val

/-- SVC (R202): the saved address is that of the next instruction, and older stores drain (R282). An entry that stops the core leaves
the banks as they were before the instruction (R246, R256). -/
def execSvc (n : Insn) (s : State) : Host.Outcome State Fault Refusal :=
  s.isa (prim 0o370 [fw .s .i .wW] [] []) n fun d fs => do
    let c := n.core.val
    let rs ← readyOps c false fs
    let v ← readOp c d.acq (opAt rs 0)
    doStall fun s => s.drainEvent c
    let s ← get
    match s.syncEnter c 1 0 (v % 2 ^ 18) 0 with
    | none => trap .stall
    | some (.ok s) => set s
    | some (.error cause) => trap (.stop cause)

/-- BRK (R165, R202). -/
def execBrk (n : Insn) (s : State) : Host.Outcome State Fault Refusal := s.isa (rowNone 0o371) n fun _ _ => pcheck 3

/-- Write a value to the one destination of an instruction. -/
def putDst (c : Nat) (fs : List Formed) (v : State → Nat) : M Unit := do
  let rs ← readyOps c false fs
  let s ← get
  writeOp c false (opAt rs 0) (v s)

/-- RDCLK (R204). -/
def execRdclk (n : Insn) (s : State) : Host.Outcome State Fault Refusal :=
  s.isa (prim 0o372 [fw .d .i .wD] [] []) n fun _ fs => putDst n.core.val fs fun s => s.clock.toNat
/-- GETF (R203). -/
def execGetf (n : Insn) (s : State) : Host.Outcome State Fault Refusal :=
  s.isa (prim 0o373 [fw .d .i .wW] [] []) n fun _ fs => putDst n.core.val fs fun s => (s.flags n.core.val).bits
/-- SETF (R203). -/
def execSetf (n : Insn) (s : State) : Host.Outcome State Fault Refusal :=
  s.isa (prim 0o374 [fw .s .i .wW] [] []) n fun d fs => do
    let c := n.core.val
    let rs ← readyOps c false fs
    let v ← readOp c d.acq (opAt rs 0)
    setFlags c (flgOf v)

/-- What an IO-space address of the program names: a block register, or a device window with an offset (R36, R41). -/
inductive IoAt where
  | reg (b : Blk) (off : Nat)
  | win (w : Nat) (off : Nat)
deriving DecidableEq, Repr

/-- The checks of R42 in order: the target of an IN or OUT, or what stops it. -/
def State.ioCheck (s : State) (c : Nat) (write : Bool) (a : Word) : Except Trap IoAt :=
  let scope := field a 0 2
  let sh := (s.core c).sheet.getD 64
  let viol : Except Trap IoAt := .error (.freeze (if write then 0o16 else 0o05) a.toNat)
  if pswProb (s.core c).psw && decide (scope ≤ 3) then .error (.check 2 [])
  else if 5 ≤ scope then .error (.check 5 [])
  else if scope = 4 then
    let w := field a 3 8
    if s.window sh w = .unbound then viol else .ok (.win w (field a 9 35))
  else
    match blkOfDigits (field a 0 17) c with
    | none => .error (.check 5 [])
    | some b => if s.programReach c sh b write then .ok (.reg b (field a 18 35)) else viol

/-- The block whose reset holds an access (R43). -/
def State.ioBlk (s : State) (c : Nat) : IoAt → Blk
  | .reg b _ => b
  | .win w _ => match s.window ((s.core c).sheet.getD 64) w with | .rootp t i _ => .rootp (tileFin t) (Fin.ofNat 2 i) | _ => .endpt

/-- An instruction is held at a block in reset, its gather buffer emitted where it emits one: nothing else of it has happened
(R43, R429, R505). `before` is the state before the instruction. -/
def holdAt {α : Type} (before : State) (c : Nat) (i : Instr) (b : Blk) (emit : Bool) : M α := do
  let s ← get
  let next := pswIa (s.core c).psw
  let s0 := if emit then before.gatherEmit c else before
  stopWith .stall { s0.setCore c { s0.core c with run := .held i b next s0.heldSeq } with heldSeq := s0.heldSeq + 1 }

/-- The target of a checked access, once its block is out of reset and, but for an OUT to be gathered, every earlier OUT is
performed (R43, R268, R277). An access that waits leaves its operands unformed: they are formed once, when it is made. -/
def ioTarget (before : State) (c : Nat) (i : Instr) (write : Bool) (a : Nat) : M IoAt := do
  let s ← get
  match s.ioCheck c write (w36 a) with
  | .error t => trap t
  | .ok x => do
    if s.inReset.contains (s.ioBlk c x) then holdAt before c i (s.ioBlk c x) (!write)
    if !write then modify fun s => s.gatherEmit c
    let s ← get
    let gath := match x with
      | .win w _ => write && s.rbit .deckle (rattrAt ((s.core c).sheet.getD 64) w) 1
      | .reg _ _ => false
    if s.outOpen c && !gath then stopWith .stall (if write then before else before.gatherEmit c)
    pure x

/-- IN (R42-R44, R193, R276): it emits the gather buffer, and waits for a device window's data, its operands being formed when they
are there. -/
def execIoIn (n : Insn) (s : State) : Host.Outcome State Fault Refusal :=
  s.isa tIn n fun _ fs => do
    let c := n.core.val
    let rs ← readyOps c false fs
    let a ← readOp c false (opAt rs 1)
    match ← ioTarget s c (.ioIn n) false a with
    | .reg b o => do
      let s1 ← get
      let r := s1.portRead false b o
      set r.2
      writeOp c false (opAt rs 0) r.1.toNat
    | .win w o => do
      let s1 ← get
      match s1.window ((s1.core c).sheet.getD 64) w with
      | .queue q => writeOp c false (opAt rs 0) (s1.sqWord q o).toNat
      | .rootp t i fn =>
        if s1.contained t i then writeOp c false (opAt rs 0) (2 ^ 36 - 1)
        else
          let s2 := (s.gatherEmit c).emit (.devRead t i fn o)
          stopWith .stall (s2.setCore c { s2.core c with run := .devIn n (2 * t + i) })
      | .unbound => pure ()

/-- An OUT to a device window: it joins the gather buffer, or emits it and is sent by itself (R276, R277). An OUT with GATH = 1 that
does not join begins a new gather once the buffer has been emitted: the manual does not say whether it does, or is sent by itself (log
entry 86, DESIGN CHOICE). -/
def State.windowOut (s : State) (c w o : Nat) (v : Word) : State :=
  let k := s.core c
  let sh := k.sheet.getD 64
  let none_ : Nat → Option Word := fun _ => none
  let joins : Bool := match k.gather with
    | none => true
    | some g => g.window == w && g.block == o / 16
  if s.rbit .deckle (rattrAt sh w) 1 then
    let s := if joins then s else s.gatherEmit c
    let k := s.core c
    let g : Gather := k.gather.getD { window := w, block := o / 16, words := [] }
    s.setCore c { k with gather := some { g with words := Tab.set none_ g.words (o % 16) (some v) } }
  else (s.gatherEmit c).windowWrite c sh w [(o, v)]

/-- OUT (R42-R44, R193, R276, R277). -/
def execIoOut (n : Insn) (s : State) : Host.Outcome State Fault Refusal :=
  s.isa tOut n fun _ fs => do
    let c := n.core.val
    let rs ← readyOps c false fs
    let a ← readOp c false (opAt rs 0)
    let v ← readOp c false (opAt rs 1)
    match ← ioTarget s c (.ioOut n) true a with
    | .reg b o => modify fun s => (s.gatherEmit c).portWrite false b o (w36 v)
    | .win w o => modify fun s => s.windowOut c w o (w36 v)

end Sys2Proof.Machine
end

