-- ==== Sys2Proof/Machine/System.lean ====
section
/-! DEFINITION. System control: return from interruption, the PSW, WAIT, orders to other cores, control and bank registers,
stack limits, block save and restore, translation invalidation (R111-R114, R199-R207, R241, R251). -/

namespace Sys2Proof.Machine

open Sys2Proof

/-- A privileged row without operands. -/
def secNone (code : Nat) : Tmpl := secd code []

/-- IRET (R251, R258): a failed refill is a core checkstop (R256). -/
def execIret (n : Insn) (s : State) : Host.Outcome State Fault Refusal :=
  s.isa (secNone 0o060) n fun _ _ => do
    let c := n.core.val
    let s ← get
    let k := s.core c
    let psw := k.psw
    let back := pswPlvl psw
    if !pswChain psw || !(k.bank back).busy then pcheck 6
    if pswSpl psw then
      match s.refill c k.level with
      | .stall => trap .stall
      | .failed => trap (.stop 0o11)
      | .done s => set (s.setCore c { s.core c with level := back })
    else
      let k := k.setBank k.level { k.cur with busy := false }
      set (s.setCore c { k with level := back })

/-- The address of an m operand that must be an aligned doubleword (R202). -/
def oddCheck (fs : List Formed) : M Nat := do
  let a := (fs.map Formed.addr).getD 0 0
  if a % 2 = 1 then pcheck 6
  pure a

/-- The PSW that LPSW leaves: every RW field loaded, CHAIN, SPL, LEVEL and PLVL kept (R241). -/
def lpswOf (old v : DWord) : DWord :=
  setField (setField v 3 4 (field old 3 4)) 8 13 (field old 8 13)

/-- LPSW (R202, R241). -/
def execLpsw (n : Insn) (s : State) : Host.Outcome State Fault Refusal :=
  s.isa (secd 0o061 [opM]) n fun _ fs => do
    let c := n.core.val
    let a ← oddCheck fs
    let x ← xlateM c true 1 a
    let v ← load c x 0 .wD false
    let v := BitVec.ofNat 72 v
    if !pswOk v then pcheck 6
    modify fun s => s.setCore c ((s.core c).setPsw (lpswOf (s.core c).psw v))

/-- SPSW (R202). -/
def execSpsw (n : Insn) (s : State) : Host.Outcome State Fault Refusal :=
  s.isa (secd 0o062 [opM]) n fun _ fs => do
    let c := n.core.val
    let a ← oddCheck fs
    let x ← xlateM c true 2 a
    let s ← get
    store c x 0 .wD (s.core c).psw.toNat false

/-- WAIT (R202, R282). -/
def execWait (n : Insn) (s : State) : Host.Outcome State Fault Refusal :=
  s.isa (secNone 0o063) n fun _ _ => do
    let c := n.core.val
    doStall fun s => s.drainEvent c
    modify fun s => s.setCore c { s.core c with run := .wait }

/-- The target of an XCORE order is an active core of the issuing core's sheet, and not frozen (R205). -/
def State.xcoreOk (s : State) (c t : Nat) : Bool :=
  let k := s.core t
  decide (t < 192) && k.active && k.run != .frozen && k.sheet == (s.core c).sheet

/-- An XCORE order and its CC (R205): QUERY, POST with its value, PAUSE, RESUME, WAKE. -/
def State.xcore (s : State) (c t order value : Nat) : Nat × State :=
  if !s.xcoreOk c t then (3, s) else
  let k := s.core t
  let stop : Bool := match k.run with | .stopped _ => true | _ => false
  match order with
  | 1 => (match k.run with | .wait => 1 | .stopped _ => 2 | _ => 0, s)
  | 2 =>
    if k.pend.any fun i => i.code == 0o401 then (2, s)
    else (0, s.post t { level := 4, code := 0o401, param := c, info := setField (0 : Word) 0 8 value })
  | 3 => if stop then (1, s) else (0, s.pauseCore t)
  | 4 => if stop then (0, s.resumeCore t) else (1, s)
  | _ => if k.run = .wait then (0, (s.setCore t { k with run := .running }).wakeCold t) else (1, s)

/-- XCORE (R202, R205): the order is the one in the operand, whichever row names the command. -/
def State.isaXcore (s : State) (n : Insn) : Host.Outcome State Fault Refusal :=
  s.isa (secd 0o064 [fw .r .i .wW, fw .s .i .wW]) n fun d fs => do
    let c := n.core.val
    let rs ← readyOps c false fs
    let r ← readOp c d.acq (opAt rs 0)
    let v ← readOp c d.acq (opAt rs 1)
    let order := v % 512
    if order = 0 ∨ 5 < order then pcheck 6
    let s ← get
    let x := s.xcore c (r % 2 ^ 18) order (v / 512 % 512)
    set x.2
    setFlags c (ccFlags x.1)

/-- XCORE QUERY (R205). -/
def execXcoreQuery (n : Insn) (s : State) : Host.Outcome State Fault Refusal := s.isaXcore n
/-- XCORE POST (R205). -/
def execXcorePost (n : Insn) (s : State) : Host.Outcome State Fault Refusal := s.isaXcore n
/-- XCORE PAUSE (R205). -/
def execXcorePause (n : Insn) (s : State) : Host.Outcome State Fault Refusal := s.isaXcore n
/-- XCORE RESUME (R205). -/
def execXcoreResume (n : Insn) (s : State) : Host.Outcome State Fault Refusal := s.isaXcore n
/-- XCORE WAKE (R205). -/
def execXcoreWake (n : Insn) (s : State) : Host.Outcome State Fault Refusal := s.isaXcore n

/-- SPRI (R202). -/
def execSpri (n : Insn) (s : State) : Host.Outcome State Fault Refusal :=
  s.isa (secd 0o065 [fw .s .i .wW]) n fun d fs => do
    let c := n.core.val
    let rs ← readyOps c false fs
    let v ← readOp c d.acq (opAt rs 0)
    modify fun s => s.setCore c ((s.core c).setPsw (setField (s.core c).psw 18 20 v))

/-- LCTL (R207, R245): writing CLKCMP withdraws the clock-comparator interruption. -/
def execLctl (n : Insn) (s : State) : Host.Outcome State Fault Refusal :=
  s.isa (secd 0o070 [fw .s .i .wW, fw .s .i .wD]) n fun d fs => do
    let c := n.core.val
    let rs ← readyOps c false fs
    let sel ← readOp c d.acq (opAt rs 0)
    let v ← readOp c d.acq (opAt rs 1)
    let r := sel % 64
    if !ctlNumbers.contains r then pcheck 6
    modify fun s =>
      let k := (s.core c).setCtl r (BitVec.ofNat 72 v)
      s.setCore c (if r = 4 then { k with pend := k.pend.filter fun i => i.code != 0o400 } else k)

/-- SCTL (R207, R245). -/
def execSctl (n : Insn) (s : State) : Host.Outcome State Fault Refusal :=
  s.isa (secd 0o071 [fw .d .i .wD, fw .s .i .wW]) n fun d fs => do
    let c := n.core.val
    let rs ← readyOps c false fs
    let sel ← readOp c d.acq (opAt rs 1)
    if !ctlNumbers.contains (sel % 64) then pcheck 6
    let s ← get
    writeOp c false (opAt rs 0) ((s.core c).ctlReg (sel % 64)).toNat

/-- BANK and REG of a bank selector, checked: the gesso bank only in underpainting mode (R206). -/
def bankSel (c v : Nat) : M (Nat × Nat) := do
  let s ← get
  let w := w36 v
  let b := field w 27 30
  let r := field w 31 35
  if 8 < b ∨ 0o31 < r ∨ (b = 8 ∧ pswUp (s.core c).psw = false) then pcheck 6
  pure (b, r)

/-- LBNK (R206, R241). -/
def execLbnk (n : Insn) (s : State) : Host.Outcome State Fault Refusal :=
  s.isa (secd 0o072 [fw .d .i .wD, fw .s .i .wW]) n fun d fs => do
    let c := n.core.val
    let rs ← readyOps c false fs
    let sel ← readOp c d.acq (opAt rs 1)
    let br ← bankSel c sel
    let s ← get
    let b := (s.core c).bank br.1
    writeOp c false (opAt rs 0)
      (if br.2 < 16 then (vget b.g br.2 0).toNat
       else if br.2 < 0o30 then (vget b.p (br.2 - 16) 0).toNat
       else if br.2 = 0o30 then b.psw.toNat else b.slim.toNat)

/-- SBNK (R206, R241): a PSW keeps its LEVEL. -/
def execSbnk (n : Insn) (s : State) : Host.Outcome State Fault Refusal :=
  s.isa (secd 0o073 [fw .s .i .wW, fw .s .i .wD]) n fun d fs => do
    let c := n.core.val
    let rs ← readyOps c false fs
    let sel ← readOp c d.acq (opAt rs 0)
    let v ← readOp c d.acq (opAt rs 1)
    let br ← bankSel c sel
    let s ← get
    let k := s.core c
    let dw := BitVec.ofNat 72 v
    if br.1 = k.level ∨ (br.2 = 0o30 ∧ pswOk dw = false) then pcheck 6
    let b := k.bank br.1
    let b' : Bank :=
      if br.2 < 16 then { b with g := vset b.g br.2 (w36 v) }
      else if br.2 < 0o30 then { b with p := vset b.p (br.2 - 16) dw }
      else if br.2 = 0o30 then { b with psw := setField dw 8 10 (field b.psw 8 10) }
      else { b with slim := dw }
    set (s.setCore c (k.setBank br.1 b'))

/-- LSLIM (R202). -/
def execLslim (n : Insn) (s : State) : Host.Outcome State Fault Refusal :=
  s.isa (secd 0o074 [fw .s .i .wD]) n fun d fs => do
    let c := n.core.val
    let rs ← readyOps c false fs
    let v ← readOp c d.acq (opAt rs 0)
    modify fun s => s.setCurBank c { s.curBank c with slim := BitVec.ofNat 72 v }

/-- SSLIM (R202). -/
def execSslim (n : Insn) (s : State) : Host.Outcome State Fault Refusal :=
  s.isa (secd 0o075 [fw .d .i .wD]) n fun _ fs => putDst n.core.val fs fun s => (s.curBank n.core.val).slim.toNat

/-- The area at the head of a list, translated for reading and writing (R199-R201): an ADDR of 0 is "save-area list". -/
def areaHead (c list : Nat) : M (Nat × Xl) := do
  let s ← get
  let a := ptrAddr ((s.core c).ctlReg list)
  if a = 0 then pcheck 0o015
  if a % 32 ≠ 0 then pcheck 6
  let _ ← xlateM c true 1 a
  let x ← xlateM c true 2 a
  pure (a, x)

/-- The doubleword at an even offset of an area. -/
def areaGet (c : Nat) (x : Xl) (o : Nat) : M Nat := load c { x with sa := x.sa + o, mp := x.mp + o } 0 .wD false
/-- Store a doubleword at an even offset of an area. -/
def areaPut (c : Nat) (x : Xl) (o v : Nat) : M Unit := store c { x with sa := x.sa + o, mp := x.mp + o } 0 .wD v false

/-- Pop the head of list `src` and push it onto list `dst`: `n` is its link doubleword as read (R200). -/
def areaMove (c : Nat) (x : Xl) (src dst n : Nat) : M Unit := do
  let s ← get
  let k := s.core c
  areaPut c x 2 (k.ctlReg dst).toNat
  modify fun s => s.setCore c (((s.core c).setCtl dst (k.ctlReg src)).setCtl src (BitVec.ofNat 72 n))

/-- SAVU and SAVL (R200, R252, R253). -/
def State.isaSave (s : State) (code : Nat) (n : Insn) (upper : Bool) : Host.Outcome State Fault Refusal :=
  s.isa (secNone code) n fun _ _ => do
    let c := n.core.val
    let ax ← areaHead c 0
    let link ← areaGet c ax.2 2
    store c ax.2 0 .wW (saHeader upper false 0).toNat false
    let s ← get
    (halfDws (s.curBank c) upper).forM fun (x : Nat × DWord) => areaPut c ax.2 x.1 x.2.toNat
    areaMove c ax.2 0 1 link

/-- RSTU and RSTL (R200, R252, R253). -/
def State.isaRestore (s : State) (code : Nat) (n : Insn) (upper : Bool) : Host.Outcome State Fault Refusal :=
  s.isa (secNone code) n fun _ _ => do
    let c := n.core.val
    let ax ← areaHead c 1
    let h ← load c ax.2 0 .wW false
    if h ≠ (saHeader upper false 0).toNat then pcheck 0o015
    let link ← areaGet c ax.2 2
    let ds ← [4, 6, 8, 10, 12, 14, 16, 18].mapM fun o => do
      let v ← areaGet c ax.2 o
      pure (o, (BitVec.ofNat 72 v : DWord))
    modify fun s => s.setCurBank c (loadHalf (s.curBank c) upper (dwAt ds))
    areaMove c ax.2 1 0 link

/-- SAVU (R200). -/
def execSavu (n : Insn) (s : State) : Host.Outcome State Fault Refusal := s.isaSave 0o050 n true
/-- SAVL (R200). -/
def execSavl (n : Insn) (s : State) : Host.Outcome State Fault Refusal := s.isaSave 0o051 n false
/-- RSTU (R200). -/
def execRstu (n : Insn) (s : State) : Host.Outcome State Fault Refusal := s.isaRestore 0o052 n true
/-- RSTL (R200). -/
def execRstl (n : Insn) (s : State) : Host.Outcome State Fault Refusal := s.isaRestore 0o053 n false

/-- The cores that a translation invalidation reaches: the issuing core, or every core of its sheet (R111, R113, R114). -/
def State.tinvCores (s : State) (c : Nat) (all : Bool) : List Nat :=
  if all then (List.range 192).filter fun t => (s.core t).sheet == (s.core c).sheet else [c]

/-- Remove the translations that satisfy a test, and empty the walk caches, of every core reached. Every earlier store of the issuing
core, and every store of another core reached, which may have used a translation that goes, is performed first (R111-R113). -/
def tinv (c : Nat) (all : Bool) (p : Tlb → Bool) : M Unit := do
  doStall fun s => ((s.tinvCores c all).filter fun t => (s.core t).active).foldlM (fun s t => s.drainAll t) s
  modify fun s => (s.tinvCores c all).foldl (fun s t =>
    let k := s.core t
    s.setCore t { k with tlb := k.tlb.filter fun e => !p e, walk := [] }) s

/-- TINV.S and TINVB.S with the ASN in bits 24-35 of s (R197). -/
def State.isaTinvS (s : State) (code : Nat) (n : Insn) (all : Bool) : Host.Outcome State Fault Refusal :=
  s.isa (secd code [fw .s .i .wW]) n fun d fs => do
    let c := n.core.val
    let rs ← readyOps c false fs
    let v ← readOp c d.acq (opAt rs 0)
    tinv c all fun t => !t.global && t.asn == v % 4096

/-- TINV.V and TINVB.V (R111, R197): bit 0 of ri names the space. -/
def State.isaTinvV (s : State) (code : Nat) (n : Insn) (all : Bool) : Host.Outcome State Fault Refusal :=
  s.isa (secd code [fw .r .i .wW, fw .r .p .wD]) n fun _ fs => do
    let c := n.core.val
    let rs ← readyOps c false fs
    let v := (opAt rs 0).f.val
    let a := (opAt rs 1).f.val % 2 ^ 54
    let dspace := msb 36 v
    tinv c all fun t => t.covers dspace (v % 4096) (if dspace then a else a % 2 ^ 36)

/-- TINV.A (R111). -/
def execTinvA (n : Insn) (s : State) : Host.Outcome State Fault Refusal :=
  s.isa (secNone 0o030) n fun _ _ => tinv n.core.val false fun _ => true
/-- TINV.S (R111). -/
def execTinvS (n : Insn) (s : State) : Host.Outcome State Fault Refusal := s.isaTinvS 0o031 n false
/-- TINV.V (R111). -/
def execTinvV (n : Insn) (s : State) : Host.Outcome State Fault Refusal := s.isaTinvV 0o032 n false
/-- TINVB.A (R111, R113). -/
def execTinvbA (n : Insn) (s : State) : Host.Outcome State Fault Refusal :=
  s.isa (secNone 0o033) n fun _ _ => tinv n.core.val true fun _ => true
/-- TINVB.S (R111, R113). -/
def execTinvbS (n : Insn) (s : State) : Host.Outcome State Fault Refusal := s.isaTinvS 0o034 n true
/-- TINVB.V (R111, R113). -/
def execTinvbV (n : Insn) (s : State) : Host.Outcome State Fault Refusal := s.isaTinvV 0o035 n true

end Sys2Proof.Machine
end

