-- ==== Sys2Proof/Machine/Cachemaint.lean ====
section
/-! DEFINITION. Cache maintenance and way locking (R296-R309, R197, R198). -/

namespace Sys2Proof.Machine

open Sys2Proof

/-- The address of an m operand. -/
def mAddr (fs : List Formed) (i : Nat) : Nat := (fs.map Formed.addr).getD i 0

/-- A line maintenance instruction retires into a store-buffer entry (R197, R279, R307): R is needed to write back, W to
zero or discard; CZERO is a store and sets D. R126 names no KIND for these: where the page fails, CWB and CWBI record load, CZERO and
CINV store, by the permission they need (log entry 81, DESIGN CHOICE). -/
def lineOp (c : Nat) (kind : StoreKind) (a : Nat) : M Unit := do
  let acc := match kind with | .czero | .cinv => 2 | _ => 1
  let x ← xlateM c true acc a
  let s ← get
  if 96 ≤ (s.core c).stores.length then doStall fun s => s.drainOne c
  if kind == .czero then doStall fun s => s.setD (.core c) ((s.core c).sheet.getD 64) x.leafAt
  modify fun s =>
    let k := s.core c
    s.setCore c { k with stores := k.stores ++ [{ kind := kind, addr := x.mp, mask := 0, value := 0, rel := false }] }

/-- CWB (R306, R307). -/
def execCwb (n : Insn) (s : State) : Host.Outcome State Fault Refusal :=
  s.isa (prim 0o362 [opM] [] []) n fun _ fs => lineOp n.core.val .cwb (mAddr fs 0)
/-- CZERO (R306, R307). -/
def execCzero (n : Insn) (s : State) : Host.Outcome State Fault Refusal :=
  s.isa (prim 0o363 [opM] [] []) n fun _ fs => lineOp n.core.val .czero (mAddr fs 0)
/-- CINV (R306, R307). -/
def execCinv (n : Insn) (s : State) : Host.Outcome State Fault Refusal :=
  s.isa (secd 0o040 [opM]) n fun _ fs => lineOp n.core.val .cinv (mAddr fs 0)
/-- CWBI (R306, R307). -/
def execCwbi (n : Insn) (s : State) : Host.Outcome State Fault Refusal :=
  s.isa (secd 0o042 [opM]) n fun _ fs => lineOp n.core.val .cwbi (mAddr fs 0)

/-- CWB.ALL (R306): every dirty line of the issuing core's L1D and its quire's L2 is written to its controller. -/
def execCwbAll (n : Insn) (s : State) : Host.Outcome State Fault Refusal :=
  s.isa (secNone 0o043) n fun _ _ => do
    let c := n.core.val
    doStall fun s => s.drainAll c
    let s ← get
    let q := quireOf c
    let ls := (s.qlines.filter fun (x : Nat × QLine) => x.1 / 2 ^ 34 == q && x.2.st.owns && x.2.isDirty).map
      fun (x : Nat × QLine) => x.1 % 2 ^ 34
    ls.forM fun l => doStall fun s => s.mClean q l

/-- A cache of a core's quire is disabled and not draining (R302, R303). -/
def State.cacheIdle (s : State) (x : CacheSel) : Bool :=
  let l2off := match x with
    | .l1i c | .l1d c => !s.l2On (quireOf c.val)
    | .l2 _ => false
  (l2off || !s.cacheOn x) && !s.draining x

/-- CINV.ALL (R304, R306): every reached cache that is disabled and not draining is emptied of its stale lines. -/
def execCinvAll (n : Insn) (s : State) : Host.Outcome State Fault Refusal :=
  s.isa (secNone 0o041) n fun _ _ => do
    let c := n.core.val
    doStall fun s => s.drainAll c
    modify fun s =>
      let sh := (s.core c).sheet.getD 64
      let q := quireOf c
      let xs : List CacheSel := [.l1i (coreFin c), .l1d (coreFin c)] ++ if s.ownsQuire sh q then [.l2 (quireFin q)] else []
      (xs.filter s.cacheIdle).foldl (fun (s : State) x => s.clearArray x) s

/-- PRELOAD (R198): the line comes into the quire L2 unless translation or the deckle map fails, which leaves no record. -/
def preloadLine (c a : Nat) : M Unit := do
  let s ← get
  match s.xlate c true 1 1 a with
  | .error _ => pure ()
  | .ok (x, s) =>
    match s.quireRead (quireOf c) (x.mp / 16) with
    | none => pure ()
    | some (_, s) => set s

/-- PRELOAD (R197, R198). -/
def execPreload (n : Insn) (s : State) : Host.Outcome State Fault Refusal :=
  s.isa (prim 0o360 [opM] [] []) n fun _ fs => preloadLine n.core.val (mAddr fs 0)

/-- Lock a line of a quire in a way of its set (R296): another line that stands there is evicted, and its lock passes on; the line
moves there from another way, whose lock is released. -/
def State.lockLine (s : State) (q l way : Nat) : Option State :=
  let set := l2SetOf l
  (match (s.l2Set q l).find? fun (x : Nat × QLine) => x.1 != l && x.2.way == some way with
    | some v => s.evict q v.1
    | none => some s).bind fun (s : State) =>
  let s := (List.range 12).foldl (fun (s : State) w =>
    match s.lock q set w with
    | .full x | .vacant x => if x = l then s.setLock q set w .none else s
    | .none => s) s
  ((s.setLock q set way (.vacant l)).quireRead q l).map fun (r : Line × State) =>
    (r.2.setQline q l { r.2.qline q l with way := some way }).setLock q set way (.full l)

/-- PRELOAD.L (R118, R197, R296, R297): PRELOAD, where the sheet does not own the quire whole; with the L2 disabled there is no way to
lock (R303). -/
def execPreloadL (n : Insn) (s : State) : Host.Outcome State Fault Refusal :=
  s.isa (secd 0o044 [opM, fw .s .i .wW]) n fun d fs => do
    let c := n.core.val
    let s ← get
    let q := quireOf c
    let a := mAddr fs 0
    if !s.ownsQuire ((s.core c).sheet.getD 64) q then preloadLine c a
    else do
      let x ← xlateM c true 1 a
      let rs ← readyOps c false (fs.drop 1)
      let v ← readOp c d.acq (opAt rs 0)
      let way := v % 16
      if 11 < way then pcheck 6
      if s.l2On q then doStall fun s => s.lockLine q (x.mp / 16) way

/-- CUNLK (R297, R298). -/
def execCunlk (n : Insn) (s : State) : Host.Outcome State Fault Refusal :=
  s.isa (secd 0o045 [fw .s .i .wW]) n fun d fs => do
    let c := n.core.val
    let rs ← readyOps c false fs
    let v ← readOp c d.acq (opAt rs 0)
    let way := v % 16
    modify fun s =>
      let q := quireOf c
      if 11 < way || !s.ownsQuire ((s.core c).sheet.getD 64) q then s
      else { s with locks := s.locks.filter fun (x : Nat × LockSlot) => !(x.1 / 2 ^ 18 == q && x.1 % 16 == way) }

end Sys2Proof.Machine
end

