-- ==== Sys2Proof/Machine/Chaninsn.lean ====
section
/-! DEFINITION. The channel instructions (R194, R195, R273, R429-R434) and the engine instructions (R196, R503-R506,
R531-R537) at the core. -/

namespace Sys2Proof.Machine

open Sys2Proof

/-- A block of words at a D-space address, one translation for each page it lies in. -/
structure MArea where
  addr  : Nat
  count : Nat
  first : Xl
  cut   : Nat
  rest  : Option Xl
deriving DecidableEq, Repr

/-- Translate the page of an address for each of the KINDs of access that a block takes, in order. -/
def pageXlate (c a : Nat) : List Nat → M Xl
  | [] => xlateM c true 1 a
  | [k] => xlateM c true k a
  | k :: ks => do
    let _ ← xlateM c true k a
    pageXlate c a ks

/-- Translate the pages of a block, the lower first, for accesses of some KINDs (R117, R118). -/
def areaXlate (c : Nat) (kinds : List Nat) (a count : Nat) : M MArea := do
  let x ← pageXlate c a kinds
  let cut := 4096 - a % 4096
  let y ← if cut < count then do
      let y ← pageXlate c (wrapTo 54 ((a : Int) + cut)) kinds
      pure (some y)
    else pure none
  pure { addr := a, count := count, first := x, cut := cut, rest := y }

/-- The translated address of word `i` of a block. -/
def MArea.at_ (r : MArea) (i : Nat) : Xl :=
  let sh (x : Xl) (k : Nat) : Xl := { x with sa := x.sa + k, mp := x.mp + k }
  if i < r.cut then sh r.first i else sh (r.rest.getD r.first) (i - r.cut)

/-- Read words `i`.. of a block. -/
def areaRead (c : Nat) (r : MArea) (n : Nat) : M (List Word) :=
  (List.range n).mapM fun i => do
    let v ← load c (r.at_ i) 0 .wW false
    pure (w36 v)

/-- Store words of a block from word `i`. -/
def areaWrite (c : Nat) (r : MArea) (i : Nat) (ws : List Word) : M Unit :=
  ws.zipIdx.forM fun (x : Word × Nat) => store c (r.at_ (i + x.2)) 0 .wW x.1.toNat false

/-- The subchannel number in ri, checked (R194). -/
def subNo (fs : List Formed) : M Nat := do
  let v := (fs.map Formed.val).getD 0 0
  if v / 2 ^ 16 ≠ 0 then pcheck 6
  pure v

/-- The block address of an instruction, at operand `k`, its alignment checked before it is translated (R429). Of a job's or a
key descriptor's block the manual does not say whether it is checked before: the model does as for a channel instruction (log
entry 82, DESIGN CHOICE). -/
def blockAt (fs : List Formed) (k align : Nat) : M Nat := do
  let a := mAddr fs k
  if a % align ≠ 0 then pcheck 6
  pure a

/-- The instruction acts as a release write: every earlier access of the core, an OUT still on its way included, is performed
first (R265, R273). -/
def releaseAll (c : Nat) : M Unit := doStall fun s => if s.outPending c then none else s.drainAll c

/-- Reach the vat of a subchannel (R273, R429): CC 3 where the sheet does not own it, and a wait at a vat in reset; otherwise the
vat's own action gives the CC. -/
def atVat (before : State) (c n : Nat) (i : Instr) (act : State → M Nat) : M Unit := do
  let s ← get
  let sh := (s.core c).sheet.getD 64
  let cc ← if !s.ownsSub sh n then pure 3 else do
    let b := vatBlk (s.subVat n)
    if s.inReset.contains b then holdAt before c i b false
    act s
  setFlags c (ccFlags cc)

/-- A channel instruction whose vat action needs no block. -/
def vatOnly (f : State → Nat → Nat × State) (n : Nat) (s : State) : M Nat := do
  let r := f s n
  set r.2
  pure r.1

/-- A row with operands ri, m of the channel. -/
def rowChanM (code : Nat) : Tmpl := secd code [fw .r .i .wW, opM]
/-- A row with operand ri of the channel. -/
def rowChan (code : Nat) : Tmpl := secd code [fw .r .i .wW]

/-- SSCH (R430-R432): a release write. -/
def execSsch (n : Insn) (s : State) : Host.Outcome State Fault Refusal :=
  s.isa (rowChanM 0o020) n fun _ fs => do
    let c := n.core.val
    let sub ← subNo fs
    let a ← blockAt fs 1 8
    let r ← areaXlate c [1] a 8
    let rb ← areaRead c r 8
    if requestBad rb then pcheck 6
    releaseAll c
    atVat s c sub (.ssch n) fun s => vatOnly (fun s k => s.sschVat c k rb) sub s

/-- RSCH (R430, R432, R441): a release write. -/
def execRsch (n : Insn) (s : State) : Host.Outcome State Fault Refusal :=
  s.isa (rowChan 0o025) n fun _ fs => do
    let c := n.core.val
    let sub ← subNo fs
    releaseAll c
    atVat s c sub (.rsch n) fun s => vatOnly (fun s k => s.rschVat c k) sub s

/-- HSCH (R430, R447). -/
def execHsch (n : Insn) (s : State) : Host.Outcome State Fault Refusal :=
  s.isa (rowChan 0o022) n fun _ fs => do
    let c := n.core.val
    let sub ← subNo fs
    atVat s c sub (.hsch n) fun s => vatOnly State.hschVat sub s

/-- CSCH (R430, R447). -/
def execCsch (n : Insn) (s : State) : Host.Outcome State Fault Refusal :=
  s.isa (rowChan 0o023) n fun _ fs => do
    let c := n.core.val
    let sub ← subNo fs
    atVat s c sub (.csch n) fun s => vatOnly State.cschVat sub s

/-- MSCH (R430, R433): a release write. -/
def execMsch (n : Insn) (s : State) : Host.Outcome State Fault Refusal :=
  s.isa (rowChanM 0o024) n fun _ fs => do
    let c := n.core.val
    let sub ← subNo fs
    let a ← blockAt fs 1 8
    let r ← areaXlate c [1] a 16
    let ws ← areaRead c r 16
    let s1 ← get
    if s1.recordBad ((s1.core c).sheet.getD 64) ws then pcheck 6
    releaseAll c
    atVat s c sub (.msch n) fun s => vatOnly (fun s k => s.mschVat k ws) sub s

/-- STSCH (R433). -/
def execStsch (n : Insn) (s : State) : Host.Outcome State Fault Refusal :=
  s.isa (rowChanM 0o026) n fun _ fs => do
    let c := n.core.val
    let sub ← subNo fs
    let a ← blockAt fs 1 8
    let r ← areaXlate c [2] a 16
    atVat s c sub (.stsch n) fun s => do
      set (s.subTouch sub)
      areaWrite c r 0 (s.subRecord sub)
      pure 0

/-- TSCH (R273, R434, R435): the IRB is stored with CC 0 and CC 2; an acquire read where it stores a completed status. -/
def execTsch (n : Insn) (s : State) : Host.Outcome State Fault Refusal :=
  s.isa (rowChanM 0o021) n fun _ fs => do
    let c := n.core.val
    let sub ← subNo fs
    let a ← blockAt fs 1 8
    let w ← areaXlate c [2] a 8
    atVat s c sub (.tsch n) fun _ => do
      modify fun s => s.subTouch sub
      doStall fun s => if s.subSp sub then s.drainRel c else some s
      let s ← get
      let r := s.tschVat sub
      set r.2.2
      areaWrite c w 0 r.2.1
      pure r.1

/-- The words of a list as a vector of 12. -/
def vec12 (ws : List Word) : Vector Word 12 := Vector.ofFn fun i => ws.getD i.val 0
/-- The words of a list as a vector of 14. -/
def vec14 (ws : List Word) : Vector Word 14 := Vector.ofFn fun i => ws.getD i.val 0

/-- XCMP and XEXP (R503-R506): on acceptance the core writes words 12-15 of the block as 0. -/
def State.isaCal (s : State) (code : Nat) (n : Insn) (expand : Bool) (i : Instr) : Host.Outcome State Fault Refusal :=
  s.isa (prim code [opM] [] []) n fun _ fs => do
    let c := n.core.val
    let a ← blockAt fs 0 16
    let r ← areaXlate c [1, 2] a 16
    let ws ← areaRead c r 12
    let blk := vec12 ws
    if calBad a blk expand then pcheck 6
    releaseAll c
    let s1 ← get
    let t := field (vget blk 0 0) 24 26
    let sh := (s1.core c).sheet.getD 64
    if s1.inReset.contains (calBlk t) then holdAt s c i (calBlk t) false
    let cc := s1.calCc t sh
    if cc = 0 then do
      areaWrite c r 12 [0, 0, 0, 0]
      doStall fun s => s.drainAll c
      modify fun s => s.calAccept t {
        block := r.first.sa, words := blk, expand := expand, ctx := s.capture c t, running := false, console := none, result := none }
    setFlags c (ccFlags cc)

/-- XCMP (R505). -/
def execXcmp (n : Insn) (s : State) : Host.Outcome State Fault Refusal := s.isaCal 0o260 n false (.xcmp n)
/-- XEXP (R505). -/
def execXexp (n : Insn) (s : State) : Host.Outcome State Fault Refusal := s.isaCal 0o261 n true (.xexp n)

/-- XCIP (R534-R537). -/
def execXcip (n : Insn) (s : State) : Host.Outcome State Fault Refusal :=
  s.isa (prim 0o262 [opM] [] []) n fun _ fs => do
    let c := n.core.val
    let a ← blockAt fs 0 16
    let r ← areaXlate c [1] a 16
    let ws ← areaRead c r 14
    if cipBad a (vec14 ws) then pcheck 6
    releaseAll c
    let s1 ← get
    let t := field (ws.getD 0 0) 13 15
    let sh := (s1.core c).sheet.getD 64
    if s1.inReset.contains (varBlk t) then holdAt s c (.xcip n) (varBlk t) false
    let cc := s1.varCc t sh false
    if cc = 0 then
      modify fun s => s.varAccept t {
        block := r.first.sa, words := vec12 ws, key := false, slot := none, ctx := s.capture c t, running := false, result := none }
    setFlags c (ccFlags cc)

/-- XKEY (R531-R533): the operation is the FN of the descriptor, whichever row names the command; d is written with CC 0. -/
def State.isaXkey (s : State) (n : Insn) (i : Instr) : Host.Outcome State Fault Refusal :=
  s.isa (prim 0o263 [opM, fw .d .i .wW] [] []) n fun _ fs => do
    let c := n.core.val
    let a ← blockAt fs 0 8
    let r ← areaXlate c [1] a 8
    let dst := fs.drop 1
    let rs ← readyOps c false dst
    let ws ← areaRead c r 6
    let blk := vec12 ws
    if xkeyBad a blk then pcheck 6
    releaseAll c
    let s1 ← get
    let t := field (vget blk 0 0) 3 5
    let sh := (s1.core c).sheet.getD 64
    if s1.inReset.contains (varBlk t) then holdAt s c i (varBlk t) false
    let cc := s1.varCc t sh (field (vget blk 0 0) 0 2 != 3)
    if cc = 0 then do
      let s2 ← get
      let h := s2.xkeyAccept t r.first.sa blk (s2.capture c t)
      set h.2
      writeOp c false (opAt rs 0) h.1.toNat
    setFlags c (ccFlags cc)

/-- XKEY with FN UNWRAP (R532). -/
def execXkeyUnwrap (n : Insn) (s : State) : Host.Outcome State Fault Refusal := s.isaXkey n (.xkeyUnwrap n)
/-- XKEY with FN GENERATE (R532). -/
def execXkeyGenerate (n : Insn) (s : State) : Host.Outcome State Fault Refusal := s.isaXkey n (.xkeyGenerate n)
/-- XKEY with FN FREE (R532). -/
def execXkeyFree (n : Insn) (s : State) : Host.Outcome State Fault Refusal := s.isaXkey n (.xkeyFree n)

end Sys2Proof.Machine
end

