-- ==== Sys2Proof/Machine/Watermark.lean ====
section
/-! DEFINITION. Watermark commits (R591-R596): the snapshot, the rules it is validated against, the stamp, and the waves in which
it applies, with the quiesce point of a sheet (R54, R275, R319, R527). -/

namespace Sys2Proof.Machine

open Sys2Proof

/-- A staged or boot field. -/
def Fld.staged (f : Fld) : Bool := f.cls == .s || f.cls == .b

/-- The fields of the register at a key. -/
def keyFields (k : Nat) : List Fld := match regAtKey k with | some (b, o) => regFields b o | none => []

/-- The staged bits of the register at a key. -/
def keyStaged (k : Nat) : Word := regMask (keyFields k) fun f => f.cls == .s

/-- A register of a watermark image. -/
def imgReg (img : Tab Word) (b : Blk) (o : Nat) : Word := Tab.get regDefault img (regKey b o)
/-- A field of a register of a watermark image. -/
def imgFld (img : Tab Word) (b : Blk) (o lo hi : Nat) : Nat := field (imgReg img b o) lo hi
/-- A bit of a register of a watermark image. -/
def imgBit (img : Tab Word) (b : Blk) (o i : Nat) : Bool := dbit (imgReg img b o) i

/-- The snapshot of every shadow and every boot field (R591). -/
def State.takeSnapshot (s : State) : Tab Word :=
  ((s.regs ++ s.shadow).map (·.1)).foldl (fun t k =>
    let fs := keyFields k
    let boot := mergeBits fs (fun f => f.cls == .b) (regDefault k) (Tab.get regDefault s.regs k)
    Tab.set regDefault t k (mergeBits fs (fun f => f.cls == .s) boot (Tab.get regDefault s.shadow k))) []

/-- A core of a sheet leaves it under an assignment: it goes to another sheet, or is no longer assigned to this one. A spare that
joined by couching stays (R50, R51; log entry 4). -/
def State.leaves (s : State) (a : Assign) (c sh : Nat) : Bool :=
  (a.cores.any fun x => x.1.val == c && x.2.val != sh) || (assigns s.assign c sh && !assigns a c sh)

/-- A core counts as usable for a sheet under an assignment (R49). -/
def State.usable (s : State) (a : Assign) (sh c : Nat) : Bool :=
  let k := s.core c
  match k.cstate with
  | .active | .stopped => assigns a c sh || (k.sheet == some sh && !s.leaves a c sh)
  | .couching => assigns a c sh || match s.couchedFor c with
    | some x => (s.core x).sheet == some sh && !s.leaves a x sh
    | none => false
  | _ => false

/-- Another sheet that an assignment gives a core of a sheet to as well, the lowest (R50). -/
def coreClash (a : Assign) (sh : Nat) : Option Nat :=
  (List.range 64).find? fun n => n != sh && a.cores.any fun x => x.2.val == sh && assigns a x.1.val n

/-- A master of a type and identity is frozen. -/
def State.frozenIs (s : State) (type : Nat) (p : Nat → Bool) : Bool := s.frozen.any fun f => f.type == type && p f.ident

/-- The change of a register from one value to another moves a frozen master to another sheet or removes it from its sheet (R68). -/
def State.movesFrozen (s : State) (b : Blk) (o : Nat) (old new : Word) : Bool :=
  let off := dbit old 0 && !dbit new 0
  match b with
  | .deckle =>
    if 0o100 ≤ o ∧ o < 0o200 then off && s.frozen.any fun f => f.sheet == o - 0o100
    else if 0o300000 ≤ o ∧ o < 0o500000 then
      field old 0 6 != field new 0 6 && s.frozenIs 2 fun i => i == o - 0o300000
    else false
  | .cal t => decide (0o100 ≤ o ∧ o < 0o200) && off &&
      s.frozenIs 3 fun i => i / 2 ^ 17 % 2 == 0 && i / 2 ^ 14 % 8 == t.val && i % 64 == o - 0o100
  | .var t => decide (0o100 ≤ o ∧ o < 0o200) && off &&
      s.frozenIs 3 fun i => i / 2 ^ 17 % 2 == 1 && i / 2 ^ 14 % 8 == t.val && i % 64 == o - 0o100
  | .rootp t i => o == 0 && field old 2 7 != field new 2 7 &&
      s.frozenIs 4 fun x => x / 2 ^ 14 % 8 == t.val && x / 2 ^ 13 % 2 == i.val
  | .endpt => decide (0o1000 ≤ o ∧ o < 0o1200 ∧ o % 2 = 0) && (off || (dbit old 0 && field old 1 6 != field new 1 6)) &&
      s.frozenIs 5 fun i => i == (o - 0o1000) / 2
  | _ => false

/-- The sheets of a group by the values of its registers (R468). -/
def groupSheets (cfg sh0 sh1 : Word) (n : Nat) : Bool :=
  match field cfg 2 3 with
  | 0 => field cfg 4 9 == n
  | 3 => false
  | _ => if n < 36 then dbit sh0 n else dbit sh1 (n - 36)

/-- The sheets of a group in an image. -/
def imgHas (img : Tab Word) (b : Blk) (n : Nat) : Bool := groupSheets (imgReg img b 0) (imgReg img b 1) (imgReg img b 2) n

/-- START divides a group of some lanes as R463 allows. -/
def startOk (lanes start : Nat) : Bool :=
  let at_ (i : Nat) : Bool := start.testBit (7 - i)
  at_ 0 && (List.range lanes).all fun i => !at_ i ||
    (let w := 1 + (((List.range (lanes - i)).drop 1).takeWhile fun j => !at_ (i + j)).length
     (w == 1 || w == 2 || w == 4 || w == 8) && i % w == 0)

/-- A valid subchannel of a sheet has a path word that names a link of a group (R468). -/
def State.pathIn (s : State) (t g sh : Nat) : Bool :=
  let base := 18 * t + 8 * g
  (s.subsOf sh).any fun n => (List.range 8).any fun i =>
    let l := s.cbF n (8 + i) 0 7
    decide (base ≤ l ∧ l < base + (if g = 2 then 2 else 8))

/-- Slots of a wheel register that are assigned to a sheet for which a test fails, with that sheet (R468, R502, R544). -/
def slotBad (w : Word) (ok : Nat → Bool) : Option Nat :=
  ((List.range 4).find? fun i => dbit w (9 * i) && !ok (field w (9 * i + 3) (9 * i + 8))).map fun i => field w (9 * i + 3) (9 * i + 8)

/-- Reaction fields that R616 does not allow. -/
def freactBad (b : Blk) (o : Nat) (w : Word) : Bool :=
  let first := if o = 0o777702 then 0 else 9
  let n := Nat.min 9 ((faultSources b).length - first)
  let whole := match b with
    | .deckle | .wmark | .pwr | .clk | .rst | .lfi | .therm | .ident => true
    | _ => false
  (List.range n).any fun i =>
    let code := field w (4 * i + 1) (4 * i + 3)
    code == 6 || code == 7 || (code == 3 && whole) || (b == .mtrip && first + i == 2 && field w (4 * i) (4 * i + 3) != 9)

/-- The lowest other key of an image whose register satisfies a test. -/
def otherKey (img : Tab Word) (k : Nat) (p : Nat → Word → Bool) : Option Nat :=
  (img.find? fun e => e.1 != k && p e.1 e.2).map (·.1)

/-- Whether the register at a key of an image breaks a rule, and the key of the register it conflicts with, 0 for none (R49, R50, R68,
R106, R317, R343, R423, R462, R463, R468, R492, R502, R544, R561, R573, R616, R650, R653). -/
def State.ruleBreak (s : State) (img : Tab Word) (a : Assign) (b : Blk) (o : Nat) : Option Nat :=
  let k := regKey b o
  let v := imgReg img b o
  let old := s.reg b o
  let base := blkDigits .deckle * 2 ^ 18
  let when_ (c : Bool) (x : Nat) : Option Nat := if c then some x else none
  if o = 0o777702 ∨ o = 0o777703 then when_ (freactBad b o v) 0 else
  if s.movesFrozen b o old v then some 0 else
  match b with
  | .deckle =>
    if 0o100 ≤ o ∧ o < 0o200 then
      let sh := o - 0o100
      if (s.frozen.any fun f => f.type == 1 && f.sheet == sh && s.leaves a f.ident sh) = true then some 0 else
      match (if dbit v 0 then coreClash a sh else none) with
      | some n => some (regKey .deckle (0o100 + n))
      | none =>
      when_ (dbit v 0 && (!(img.any fun e => decide (base + 0o100000 + 0o2000 * sh ≤ e.1 ∧ e.1 < base + 0o102000 + 0o2000 * sh) && dbit e.2 0) ||
        !(List.range 192).any fun c => s.usable a sh c)) 0
    else if 0o300 ≤ o ∧ o < 0o400 then
      if field v 32 35 > 0o12 then some 0
      else when_ (field v 0 31 == 0 && imgBit img .deckle (o - 0o200) 0) (regKey .deckle (o - 0o200))
    else if 0o100000 ≤ o ∧ o < 0o300000 then
      if dbit v 0 then
        otherKey img k fun k' w => decide (base + 0o100000 ≤ k' ∧ k' < base + 0o300000) && dbit w 0 && field w 26 35 == field v 26 35
      else none
    else if 0o300000 ≤ o ∧ o < 0o500000 then
      let n := o - 0o300000
      let busy := dbit (s.cb n 0) 4 || (s.subSt n != 0 && s.subSt n != 3) || s.subSp n
      if field v 0 6 ≠ field old 0 6 ∧ busy = true then some 0
      else if dbit v 0 then
        otherKey img k fun k' w => decide (base + 0o300000 ≤ k' ∧ k' < base + 0o500000) && dbit w 0 &&
          field w 7 10 / 2 == field v 7 10 / 2 && field w 23 35 == field v 23 35
      else none
    else none
  | .linkgrp t g =>
    let pers := imgFld img b 0 0 1
    if o = 0 then
      let a := imgFld img (.linkgrp t 0) 0 0 1
      let persBad := pers == 3 || (g.val == 2 && pers != 0) || (pers == 2 && t.val != 0)
      if persBad then some 0
      else if pers = 2 ∧ g.val = 1 ∧ a ≠ 2 then some (regKey (.linkgrp t 0) 0)
      else if pers = 0 ∧ startOk (if g.val = 2 then 2 else 8) (field v 10 17) = false then some 0
      else when_ (pers == 0 && (field v 2 3 != field old 2 3 || field v 4 9 != field old 4 9) &&
        (List.range 64).any fun n =>
          groupSheets old (s.reg b 1) (s.reg b 2) n && !imgHas img b n && s.pathIn t.val g.val n) 0
    else if o = 1 ∨ o = 2 then
      let cfg := imgReg img b 0
      let oldc := s.reg b 0
      when_ (pers == 0 && field cfg 2 3 == field oldc 2 3 && field cfg 4 9 == field oldc 4 9 &&
        (List.range (if o = 1 then 36 else 28)).any fun i =>
          let n := if o = 1 then i else 36 + i
          groupSheets oldc (s.reg b 1) (s.reg b 2) n && !imgHas img b n && s.pathIn t.val g.val n) 0
    else if 0o20 ≤ o ∧ o < 0o40 then
      if pers = 0 ∧ imgFld img b 0 2 3 = 1 then
        (slotBad v fun n => if n < 36 then imgBit img b 1 n else imgBit img b 2 (n - 36)).map fun n => regKey b (if n < 36 then 1 else 2)
      else none
    else if g.val = 2 ∧ 0o1100 ≤ o ∧ o < 0o1200 ∧ o % 4 = 0 then
      when_ (dbit old 0 && !imgHas img b (field v 1 6)) (regKey b 0)
    else none
  | .rootp t _ => if o = 0 then when_ (dbit v 1 && imgFld img (.linkgrp t 1) 0 0 1 != 1) (regKey (.linkgrp t 1) 0) else none
  | .endpt =>
    if 0o1000 ≤ o ∧ o < 0o1200 ∧ o % 2 = 0 then
      let q := (o - 0o1000) / 2
      when_ (dbit v 0 && !a.windows.any fun x => x.1.val == field v 1 6 && x.2.2 == .queue q) 0
    else none
  | .cal t =>
    if 0o20 ≤ o ∧ o < 0o40 then
      if imgBit img b 0 0 then (slotBad v fun n => imgBit img b (0o100 + n) 0).map fun n => regKey b (0o100 + n) else none
    else if 0o100 ≤ o ∧ o < 0o200 then
      when_ ((dbit v 0 && field v 1 8 == 0) || (dbit old 0 && !dbit v 0 && !(s.calQueue t.val (o - 0o100)).isEmpty)) 0
    else none
  | .var t =>
    if 0o20 ≤ o ∧ o < 0o40 then
      if imgBit img b 0 0 then (slotBad v fun n => imgBit img b (0o100 + n) 0).map fun n => regKey b (0o100 + n) else none
    else if 0o100 ≤ o ∧ o < 0o200 then
      let sh := o - 0o100
      let sum := ((List.range 64).map fun n => imgFld img b (0o100 + n) 16 28).foldl (· + ·) 0
      let less := (dbit old 0 && !dbit v 0) || (decide (field v 16 28 < field old 16 28) && decide (field v 16 28 < s.kused t.val sh))
      when_ ((dbit v 0 && field v 1 8 == 0) || (decide (4096 < sum) && field v 16 28 != 0) ||
        (less && (!(s.varQueue t.val sh).isEmpty || s.kused t.val sh != 0))) 0
    else none
  | .pwr => if o = 0 then when_ (decide (field v 1 6 < 10 ∨ 60 < field v 1 6 ∨ field v 7 17 < 400 ∨ 1150 < field v 7 17)) 0 else none
  | .therm => if o = 0 then when_ (decide (field v 0 8 < 70 ∨ 94 < field v 0 8)) 0 else none
  | _ => none

/-- The registers that a rule may find at fault: those of the image, those in effect, DECKLE_SHOME of each valid sheet, and
LINKGRP_CFG of group B of tile 0, whose Reset value depends on group A. -/
def State.ruleKeys (s : State) (img : Tab Word) : List Nat :=
  regKey (.linkgrp 0 1) 0 :: (img.map (·.1)) ++ (s.regs.map (·.1)) ++
    ((List.range 64).filter fun n => imgBit img .deckle (0o100 + n) 0).map fun n => regKey .deckle (0o300 + n)

/-- Order of registers in a watermark image: address, then physical core (R591). -/
def imageBefore (a b : Nat) : Bool :=
  decide (a % 2 ^ 36 < b % 2 ^ 36) || (a % 2 ^ 36 == b % 2 ^ 36 && decide (a / 2 ^ 36 < b / 2 ^ 36))

/-- The failing register that comes first in the image, with what it conflicts with (R591). -/
def State.firstBreak (s : State) (img : Tab Word) (a : Assign) : Option (Nat × Nat) :=
  (s.ruleKeys img).foldl (fun best k =>
    match (regAtKey k).bind fun x => s.ruleBreak img a x.1 x.2 with
    | none => best
    | some c => match best with
      | some y => if imageBefore k y.1 then some (k, c) else best
      | none => some (k, c)) none

/-- A commit or revert begins (R591): its snapshot is validated, and the record is being written; a failure names the register.
`ver` gives version and CRC, of a commit or of the pentimento, and `a` the cores and windows it assigns. -/
def State.beginCommit (s : State) (slot : Nat) (auth : Bool) (img : Tab Word) (a : Assign) (ver : Option (Nat × Nat)) : State :=
  match s.firstBreak img a with
  | some (k, c) =>
    let s := (s.setPartial slot 3 (w36 (k % 2 ^ 36))).setPartial slot 4 (w36 (c % 2 ^ 36))
    let s := if k / 2 ^ 33 % 8 = 0 then s.setPartial slot 5 (w36 (k / 2 ^ 36)) else s
    s.slotDone slot 9
  | none =>
    let high := s.records.foldl (fun m r => Nat.max m r.version) 0
    let v := ver.getD ((high + 1) % 2 ^ 32, imageCrc img)
    let s := s.setFld .wmark 4 0 2 2
    { s with commit := some { snapshot := img, slot := slot, auth := auth, stamped := false, wave := 1, version := v.1, crc := v.2, waiting := [], assign := a } }

/-- WATERMARK_COMMIT (R591, R594, R595). -/
def State.wmCommit (s : State) (h : ConHdr) (a : Assign) : State :=
  s.conCmd h 0x22 1 (fun _ => false) fun s auth =>
    if s.wmHeld then s.conAns h 6 [] else
    s.conLong h 0x22 0 fun s k => s.beginCommit k auth s.takeSnapshot a none

/-- Every shadow and every boot field takes the value of an image (R593). -/
def State.stageImage (s : State) (img : Tab Word) : State :=
  let ks := ((s.regs ++ img).map (·.1)).filter hasBoot
  let s : State := { s with shadow := img }
  ks.foldl (fun s k => match regAtKey k with
    | some (b, o) => s.setReg b o (mergeBits (regFields b o) (fun f => f.cls == .b) (s.reg b o) (Tab.get regDefault img k))
    | none => s) s

/-- WATERMARK_REVERT (R593): a revert that fails validation leaves the shadows with the pentimento's values and changes no field. -/
def State.wmRevert (s : State) (h : ConHdr) : State :=
  s.conCmd h 0x23 1 (fun _ => false) fun s auth =>
    if s.wmHeld then s.conAns h 6 [] else
    s.conLong h 0x23 0 fun s k =>
      match pentimento s.records with
      | none => s.slotDone k 7
      | some r =>
        let staged := s.stageImage r.image
        let s : State := if (staged.firstBreak staged.takeSnapshot r.assign).isSome then { s with shadow := staged.shadow } else staged
        s.beginCommit k auth staged.takeSnapshot r.assign (some (r.version, r.crc))

/-- STAGE_DISCARD (R581, R595). -/
def State.stageDiscardOp (s : State) (h : ConHdr) : State :=
  s.conCmd h 0x24 1 (fun _ => false) fun s _ =>
    if s.wmHeld then s.conAns h 6 [] else
    ({ s with shadow := s.regs.filter fun e => keyStaged e.1 != 0 } : State).conAns h 0 []

/-- The records without the one whose slot a new record takes (R591). -/
def State.recordsLess (s : State) : List WmRec :=
  if s.records.length < 3 then s.records else
  let low := s.records.foldl (fun m r => Nat.min m r.seq) ((s.records.map (·.seq)).headD 0)
  s.records.filter fun r => r.seq != low

/-- The record of a commit is in the flash: it is stamped, and its waves follow (R591, R601). -/
def State.stampCommit (s : State) (c : Commit) : State :=
  let seq := s.records.foldl (fun m r => Nat.max m r.seq) 0 + 1
  let s : State := { s with
    records := s.recordsLess ++ [{ image := c.snapshot, version := c.version, crc := c.crc, seq := seq, auth := c.auth, assign := c.assign }]
    commit := some { c with stamped := true } }
  let s := ((s.showRecords.setFld .wmark 4 0 2 3).mailHeader).slotProgress c.slot (2 ^ 17)
  s.confidAll false

/-- A write of a watermark or session record to the flash completes, or fails with source FLASH (R591, R666). -/
def State.flashDone (s : State) (ok : Bool) : State :=
  match s.commit with
  | some c =>
    if c.stamped || !s.consoleUp then s
    else if ok then s.stampCommit c
    else
      let s : State := { s with commit := none, records := s.recordsLess }
      ((s.setFld .wmark 4 0 2 0).fault .wmark 0 0).slotDone c.slot 0xF
  | none => if ok then s else s.whenAlive fun s => s.fault .wmark 0 0

/-- What wave 1 of a commit makes of a register: the withdrawals (R592). -/
def withdrawn (img : Tab Word) (b : Blk) (o : Nat) (old : Word) : Word :=
  let new := imgReg img b o
  let clearV := if dbit old 0 && !dbit new 0 then setField old 0 0 0 else old
  match b with
  | .cal _ => if 0o100 ≤ o ∧ o < 0o200 then clearV else old
  | .var _ =>
    if 0o100 ≤ o ∧ o < 0o200 then
      if field new 16 28 < field old 16 28 then setField clearV 16 28 (field new 16 28) else clearV
    else old
  | .endpt => if 0o1000 ≤ o ∧ o < 0o1200 ∧ o % 2 = 0 then clearV else old
  | .linkgrp _ _ =>
    if o = 0 then (if field old 2 3 = 0 ∧ imgHas img b (field old 4 9) = false then setField old 2 3 3 else old)
    else if o = 1 ∨ o = 2 then
      (List.range (if o = 1 then 36 else 28)).foldl (fun w i =>
        if dbit w i && !imgHas img b (if o = 1 then i else 36 + i) then setField w i i 0 else w) old
    else old
  | .rootp _ _ => if o = 0 then setField old 2 7 (field new 2 7) else old
  | .deckle => if 0o300000 ≤ o ∧ o < 0o500000 then clearV else old
  | _ => old

/-- The per-sheet DECKLE registers and DECKLE_SUBCH, which wave 2 applies, with their sheet (R592). -/
def sheetKey (img : Tab Word) (b : Blk) (o : Nat) : Option Nat :=
  match b with
  | .deckle =>
    if 0o100 ≤ o ∧ o < 0o600 then some (o % 64)
    else if 0o10000 ≤ o ∧ o < 0o20000 then some (o / 64 % 64)
    else if 0o100000 ≤ o ∧ o < 0o300000 then some ((o - 0o100000) / 1024)
    else if 0o300000 ≤ o ∧ o < 0o500000 then some (field (imgReg img b o) 1 6)
    else none
  | _ => none

/-- Registers whose staged fields differ from an image. -/
def State.commitDiff (s : State) (img : Tab Word) : List (Blk × Nat) :=
  (((s.regs ++ img).map (·.1)).eraseDups.filter fun k =>
    let m := keyStaged k
    (Tab.get regDefault s.regs k &&& m) != (Tab.get regDefault img k &&& m)).filterMap regAtKey

/-- A withdrawal or change may apply at an engine or to a master now (R592). -/
def State.mayApply (s : State) (b : Blk) (o : Nat) (old new : Word) : Bool :=
  !s.movesFrozen b o old new && match b with
  | .cal t => !(decide (0o100 ≤ o ∧ o < 0o200)) || !(s.calQueue t.val (o - 0o100)).any fun j => j.running
  | .var t => !(decide (0o100 ≤ o ∧ o < 0o200)) || !(s.varQueue t.val (o - 0o100)).any fun j => j.running
  | _ => true

/-- What makes a link of a group go down in a commit: that it is one, its lanes, its rate and its sheets (R488). -/
def State.linkSign (s : State) (n : Nat) : Bool × Nat × Nat × List Bool :=
  (s.isLink n, s.linkWidth n, s.fld (linkBlk n) (0o40 + laneIdx n) 0 1, (List.range 64).map fun sh => s.groupHas n sh)

/-- Registers of one group take new values: links that change go down with DCAUSE CONFIG and train again (R488). -/
def State.applyGroup (s : State) (t g : Nat) (vs : List (Nat × Word)) : State :=
  let b := Blk.linkgrp (tileFin t) (Fin.ofNat 3 g)
  let put (s : State) : State := vs.foldl (fun s x => s.setReg b x.1 x.2) s
  let next := put s
  let s := (groupLinks t g).foldl (fun s n =>
    if s.isLink n && s.linkSign n != next.linkSign n then s.linkDisable n 6 else s) s
  (groupLinks t g).foldl (fun s n => s.linkRelease n) (put s)

/-- A register outside the link groups takes a new value by a commit, with what follows at its block (R304, R424, R572). -/
def State.applyReg (s : State) (b : Blk) (o : Nat) (v : Word) : State :=
  let old := s.reg b o
  match b with
  | .home h => let s := s.setReg b o v
               if o = 0 ∧ dbit old 0 = true ∧ dbit v 0 = false then s.l3Empty h.val else s
  | .rootp t i =>
    if o = 0 ∧ field old 2 9 ≠ field v 2 9 then
      let s := (s.rpRelease t.val i.val).setReg b o v
      if s.contained t.val i.val || !s.isRootPort t.val i.val then s else s.setRpState t.val i.val (b2n (dbit v 0))
    else s.setReg b o v
  | .deckle =>
    let n := o - 0o300000
    if 0o300000 ≤ o ∧ o < 0o500000 ∧ dbit old 0 = true ∧ dbit v 0 = true ∧ field old 7 35 ≠ field v 7 35 ∧ s.moving n = false then
      { s.setReg b o v with moves := s.moves ++ [(n, field old 7 10, field old 23 35)] }
    else s.setReg b o v
  | _ => s.setReg b o v

/-- Registers take the values that a wave gives them, where they may now. -/
def State.applyAll (s : State) (vs : List (Blk × Nat × Word)) : State :=
  let vs := vs.filter fun x => s.mayApply x.1 x.2.1 (s.reg x.1 x.2.1) x.2.2
  let s := vs.foldl (fun s x => match x.1 with
    | .linkgrp _ _ => s
    | _ => s.applyReg x.1 x.2.1 x.2.2) s
  (List.range 24).foldl (fun s i =>
    let b := Blk.linkgrp (tileFin (i / 3)) (Fin.ofNat 3 (i % 3))
    match (vs.filter fun x => x.1 == b).map (·.2) with
    | [] => s
    | ws => s.applyGroup (i / 3) (i % 3) ws) s

/-- The value a register takes when all its staged fields apply. -/
def State.applied (s : State) (img : Tab Word) (b : Blk) (o : Nat) : Word :=
  mergeBits (regFields b o) (fun f => f.cls == .s) (s.reg b o) (imgReg img b o)

/-- Blocks that still differ from a snapshot. -/
def State.blocksLeft (s : State) (img : Tab Word) : Nat := ((s.commitDiff img).map (·.1)).eraseDups.length

/-- PROGRESS of a commit rises by the blocks that have applied since a state before (R591). -/
def State.commitProgress (s : State) (c : Commit) (before : State) : State :=
  let x := s.slotStat c.slot
  s.slotProgress c.slot (x.2.2.2 + (before.blocksLeft c.snapshot - s.blocksLeft c.snapshot))

/-- The withdrawals of wave 1. -/
def State.waveOne (s : State) (c : Commit) : List (Blk × Nat × Word) :=
  (s.commitDiff c.snapshot).filterMap fun x =>
    let old := s.reg x.1 x.2
    let v := withdrawn c.snapshot x.1 x.2 old
    if v = old then none else some (x.1, x.2, v)

/-- The fields of a sheet that wave 2 changes. -/
def State.waveTwo (s : State) (c : Commit) (sh : Nat) : List (Blk × Nat × Word) :=
  ((s.commitDiff c.snapshot).filter fun x => sheetKey c.snapshot x.1 x.2 == some sh).map fun x =>
    (x.1, x.2, s.applied c.snapshot x.1 x.2)

/-- The fields of wave 3. -/
def State.waveThree (s : State) (c : Commit) : List (Blk × Nat × Word) :=
  ((s.commitDiff c.snapshot).filter fun x => (sheetKey c.snapshot x.1 x.2).isNone).map fun x =>
    (x.1, x.2, s.applied c.snapshot x.1 x.2)

/-- The windows of a sheet under two assignments differ (R41). -/
def windowsDiffer (a b : Assign) (sh : Nat) : Bool :=
  (a.windows.filter fun x => x.1.val == sh) != b.windows.filter fun x => x.1.val == sh

/-- A core in service comes into a sheet by a commit. -/
def State.comes (s : State) (a : Assign) (c sh : Nat) : Bool :=
  let k := s.core c
  (k.active || k.cstate == .stopped) && k.sheet != some sh && assigns a c sh

/-- Wave 2 changes something of a sheet: its fields, its cores or its windows (R41, R50, R592). -/
def State.touched (s : State) (c : Commit) (sh : Nat) : Bool :=
  !(s.waveTwo c sh).isEmpty || windowsDiffer s.assign c.assign sh ||
    (List.range 192).any fun k => ((s.core k).sheet == some sh && s.leaves c.assign k sh) || s.comes c.assign k sh

/-- The other waiting sheets that give a sheet a core or a region in wave 2 (R50, R592). -/
def State.givers (s : State) (c : Commit) (sh : Nat) : List Nat :=
  let gets := (List.range 1024).filterMap fun n =>
    let e := imgReg c.snapshot .deckle (0o100000 + 0o2000 * sh + n)
    if dbit e 0 then s.regionOwner (field e 26 35) else none
  let cores := (List.range 192).filterMap fun k => if s.comes c.assign k sh then (s.core k).sheet else none
  c.waiting.filter fun n => n != sh && (gets.contains n || cores.contains n)

/-- A sheet with every waiting sheet that gives to it, directly or through others: their fields apply together, so that no resource
belongs to two sheets at any moment (R592). -/
def State.together (s : State) (c : Commit) (sh : Nat) : List Nat :=
  (List.range 64).foldl (fun ns _ => (ns ++ ns.flatMap (s.givers c)).eraseDups) [sh]

/-- An assignment with the cores and windows of one sheet taken from another. -/
def assignFor (a b : Assign) (sh : Nat) : Assign :=
  { cores := (a.cores.filter fun x => x.2.val != sh) ++ b.cores.filter fun x => x.2.val == sh
    windows := (a.windows.filter fun x => x.1.val != sh) ++ b.windows.filter fun x => x.1.val == sh }

/-- A core leaves its sheet with its caches and buffers empty: it is in service and in no sheet (R115; log entry 4). -/
def State.leaveSheet (s : State) (c : Nat) : State :=
  let k := s.core c
  let s := s.l1Flush c
  s.setCore c { coreReset with cstate := (if k.cstate == .failed then .failed else .active), cold := k.cold }

/-- What a sheet gives up at its point: with a change of its map the lines of its regions leave the caches (R319), its fields apply, and
the cores that leave it go. -/
def State.sheetGives (s : State) (c : Commit) (sh : Nat) : State :=
  let vs := s.waveTwo c sh
  let touches (p : Nat → Bool) : Bool := vs.any fun x => p x.2.1
  let remap := touches fun o => decide (0o100000 ≤ o ∧ o < 0o300000) ||
    (o == 0o300 + sh && s.fld .deckle o 0 31 != imgFld c.snapshot .deckle o 0 31)
  let epoch := touches fun o => o == 0o500 + sh
  let cs := (List.range 192).filter fun k => (s.core k).sheet == some sh
  let s := if remap then (cs.foldl (fun s k => s.l1Flush k) s).flushRegions sh (s.regionsOf sh) 3 else s
  let s := s.applyAll vs
  let s := if epoch then s.varEpoch sh else s
  (cs.filter fun k => s.leaves c.assign k sh || !s.validSheet sh).foldl (fun s k => s.leaveSheet k) s

/-- What a sheet takes up at its point: its cores, regions and windows (R50, R107, R408). -/
def State.sheetTakes (s : State) (c : Commit) (sh : Nat) : State :=
  let s : State := { s with assign := assignFor s.assign c.assign sh }
  if s.validSheet sh then s.buildSheet sh else s.setSheet sh Sys2Proof.Machine.sheetReset

/-- Wave 2 applies at a sheet and at those that give to it, each with its COMMIT notice (R54, R107, R319, R527, R592, R599). -/
def State.sheetApply (s : State) (c : Commit) (ns : List Nat) : State :=
  let ts := ns.filter (s.touched c)
  let s := ts.foldl (fun s n => s.sheetGives c n) s
  let s := ts.foldl (fun s n => s.sheetTakes c n) s
  (ns.foldl (fun s n => s.notice n 4 c.version 0) s).confidAll false

/-- The commit is over (R76, R591, R597). -/
def State.endCommit (s : State) (c : Commit) : State :=
  let s : State := { s with commit := none, assign := c.assign }
  let s := (s.setFld .wmark 4 0 2 0).confidAll true
  let s := s.logEvent 6 0 0 (w36 c.version)
  (s.setPartial c.slot 3 (w36 c.version)).slotDone c.slot 0

/-- Wave 2 has applied at some sheets; after the last, wave 3 is next. -/
def State.sheetDone (s : State) (c : Commit) (ns : List Nat) : State :=
  let left := c.waiting.filter fun n => !ns.contains n
  { s with commit := some { c with waiting := left, wave := if left.isEmpty then 3 else 2 } }

/-- A sheet's fields may apply: no frozen master is moved by them (R592). -/
def State.sheetMay (s : State) (c : Commit) (sh : Nat) : Bool :=
  ((s.waveTwo c sh).all fun x => s.mayApply x.1 x.2.1 (s.reg x.1 x.2.1) x.2.2) &&
    !s.frozen.any fun f => f.type == 1 && f.sheet == sh && s.leaves c.assign f.ident sh

/-- A sheet needs no quiesce point: it does not run, or has nothing to change (R592). -/
def State.atOnce (s : State) (c : Commit) (sh : Nat) : Bool := !(s.sheet sh).running || !s.touched c sh

/-- Wave 2 at the sheets that need no quiesce point. -/
def State.idleSheets (s : State) : State :=
  (List.range 64).foldl (fun s sh =>
    match s.commit with
    | some c =>
      let ns := s.together c sh
      if c.wave == 2 && c.waiting.contains sh && ns.all fun n => s.atOnce c n && s.sheetMay c n then
        ((s.sheetApply c ns).commitProgress c s).sheetDone c ns
      else s
    | none => s) s

/-- COMMIT_WAVE (R381, R592): the current wave of a stamped commit applies wherever it can, and once it has applied everywhere the
next one starts. -/
def State.commitWave (s : State) : State :=
  match s.commit with
  | none => s
  | some c =>
    if !c.stamped || !s.consoleUp then s else
    match c.wave with
    | 1 =>
      let n := ((s.applyAll (s.waveOne c)).confidAll false).commitProgress c s
      if (n.waveOne c).isEmpty then
        let shs := (List.range 64).filter fun sh => n.validSheet sh || n.touched c sh
        { n with commit := some { c with wave := if shs.isEmpty then 3 else 2, waiting := shs } }
      else n
    | 2 => s.idleSheets
    | _ =>
      let n := ((s.applyAll (s.waveThree c)).confidAll false).commitProgress c s
      if (n.waveThree c).isEmpty then n.endCommit c else n

/-- A core of a sheet is in the middle of an instruction that waits for data. -/
def State.midInsn (s : State) (sh : Nat) : Bool :=
  s.cores.any fun e => e.2.sheet == some sh && match e.2.run with | .devIn _ _ | .held _ _ _ _ => true | _ => false

/-- Every committed store and gathered word of a sheet leaves its cores (R282); none while a line is busy. -/
def State.drainSheet (s : State) (sh : Nat) : Option State :=
  ((List.range 192).filter fun c => (s.core c).sheet == some sh).foldlM (fun s c => s.drainEvent c) s

/-- A sheet can be at its quiesce point: no couching of it is in progress, no core of it is in the middle of an instruction, and nothing
it changes is frozen (R54, R367, R592). -/
def State.quiet (s : State) (c : Commit) (sh : Nat) : Bool := !s.couches sh && !s.midInsn sh && s.sheetMay c sh

/-- With a change of its DECKLE_RATTR a sheet's quiesce point waits for its OUTs (R275). -/
def State.outsWait (s : State) (c : Commit) (sh : Nat) : Bool :=
  ((s.waveTwo c sh).any fun x => decide (0o10000 ≤ x.2.1 ∧ x.2.1 < 0o20000)) &&
    s.cores.any fun e => e.2.sheet == some sh && !e.2.outs.isEmpty

/-- QUIESCE_POINT (R54, R275, R367, R592): the cores of the sheet, and of the sheets that give to it, are at instruction boundaries, their
stores are drained, and with a change of DECKLE_RATTR their OUTs have reached their end points; wave 2 of the commit then applies. -/
def State.quiesceOp (s : State) (sh : Nat) : State :=
  match s.commit with
  | none => s
  | some c =>
    let ns := s.together c sh
    if !c.stamped || !s.consoleUp || c.wave != 2 || !c.waiting.contains sh || !ns.all (s.quiet c) then s else
    match ns.foldlM (fun s n => s.drainSheet n) s with
    | none => s
    | some n =>
      if ns.any (n.outsWait c) then n
      else ((n.sheetApply c ns).commitProgress c n).sheetDone c ns

end Sys2Proof.Machine
end

