-- ==== Sys2Proof/Machine/Consev.lean ====
section
/-! DEFINITION. The console commands (R574-R602) and what firmware does of itself: taking packets, heartbeat, flash writes and
commit waves. -/

namespace Sys2Proof.Machine

open Sys2Proof

/-- CONSOLE_PACKET_TAKE (R576, R580). -/
def execConsolePacketTake (octets : List Octet) (ep : Bool) (s : State) : Host.Outcome State Fault Refusal :=
  ends (s.takePacket octets ep)
/-- IDENTIFY (R670). -/
def execIdentify (h : ConHdr) (s : State) : Host.Outcome State Fault Refusal := ends (s.conIdentify h)
/-- SET_VERSION (R579, R580). -/
def execSetVersion (h : ConHdr) (version : BitVec 32) (s : State) : Host.Outcome State Fault Refusal :=
  ends (s.conVersion h version.toNat)
/-- MODULE_STATUS (R581). -/
def execModuleStatus (h : ConHdr) (s : State) : Host.Outcome State Fault Refusal := ends (s.conStatus h)
/-- OP_RELEASE (R586). -/
def execOpRelease (h : ConHdr) (token : BitVec 32) (s : State) : Host.Outcome State Fault Refusal :=
  ends (s.opRelease h token.toNat)
/-- OP_ABORT (R585). -/
def execOpAbort (h : ConHdr) (token : BitVec 32) (s : State) : Host.Outcome State Fault Refusal :=
  ends (s.opAbort h token.toNat)
/-- SHEET_QUERY (R581). -/
def execSheetQuery (h : ConHdr) (sheet : BitVec 32) (s : State) : Host.Outcome State Fault Refusal :=
  ends (s.sheetQuery h sheet.toNat)
/-- SHEET_START (R600). -/
def execSheetStart (h : ConHdr) (sheet : BitVec 32) (start : HostWord) (s : State) : Host.Outcome State Fault Refusal :=
  ends (s.sheetStartOp h sheet.toNat start)
/-- SHEET_STOP (R581). -/
def execSheetStop (h : ConHdr) (sheet : BitVec 32) (s : State) : Host.Outcome State Fault Refusal :=
  ends (s.sheetStopOp h sheet.toNat)
/-- SHEET_RESET (R581, R640). -/
def execSheetReset (h : ConHdr) (sheet flags : BitVec 32) (s : State) : Host.Outcome State Fault Refusal :=
  ends (s.sheetResetCmd h sheet.toNat flags.toNat)
/-- MASTER_RELEASE (R66, R67). -/
def execMasterRelease (h : ConHdr) (type ident mode : BitVec 32) (s : State) : Host.Outcome State Fault Refusal :=
  ends (s.masterRelease h type.toNat ident.toNat mode.toNat)
/-- SHEET_NOTICE (R598). -/
def execSheetNotice (h : ConHdr) (sheet value : BitVec 32) (s : State) : Host.Outcome State Fault Refusal :=
  ends (s.sheetNoticeOp h sheet.toNat value.toNat)
/-- WM_QUERY (R602). -/
def execWmQuery (h : ConHdr) (s : State) : Host.Outcome State Fault Refusal := ends (s.wmQueryOp h)
/-- AUTH_NONCE (R594). -/
def execAuthNonce (h : ConHdr) (s : State) : Host.Outcome State Fault Refusal := ends (s.nonceOp h)
/-- WATERMARK_COMMIT (R591, R594, R595). -/
def execWatermarkCommit (h : ConHdr) (assign : Assign) (s : State) : Host.Outcome State Fault Refusal := ends (s.wmCommit h assign)
/-- WATERMARK_REVERT (R593). -/
def execWatermarkRevert (h : ConHdr) (s : State) : Host.Outcome State Fault Refusal := ends (s.wmRevert h)
/-- STAGE_DISCARD (R581, R595). -/
def execStageDiscard (h : ConHdr) (s : State) : Host.Outcome State Fault Refusal := ends (s.stageDiscardOp h)
/-- FLASH_WRITE_DONE (R591, R666). -/
def execFlashWriteDone (ok : Bool) (s : State) : Host.Outcome State Fault Refusal := ends (s.flashDone ok)
/-- COMMIT_WAVE (R592). -/
def execCommitWave (s : State) : Host.Outcome State Fault Refusal := ends (s.whenAlive fun s => s.commitWave)
/-- QUIESCE_POINT (R54, R592). -/
def execQuiescePoint (sh : SheetId) (s : State) : Host.Outcome State Fault Refusal :=
  ends (s.whenAlive fun s => s.quiesceOp sh.val)
/-- CORE_QUERY (R581). -/
def execCoreQuery (h : ConHdr) (core : BitVec 32) (s : State) : Host.Outcome State Fault Refusal :=
  ends (s.coreQueryOp h core.toNat)
/-- CORE_RESTART (R357, R581). -/
def execCoreRestart (h : ConHdr) (core : BitVec 32) (s : State) : Host.Outcome State Fault Refusal :=
  ends (s.coreRestartOp h core.toNat)
/-- CORE_RETEST (R359, R581). -/
def execCoreRetest (h : ConHdr) (core : BitVec 32) (pass : Bool) (s : State) : Host.Outcome State Fault Refusal :=
  ends (s.coreRetestOp h core.toNat pass)
/-- SUPERVISOR_RESTART (R379, R581). -/
def execSupervisorRestart (h : ConHdr) (level number : BitVec 32) (s : State) : Host.Outcome State Fault Refusal :=
  ends (s.superRestartOp h level.toNat number.toNat)
/-- CKPT_READ (R671). -/
def execCkptRead (h : ConHdr) (core kind : BitVec 32) (selector : HostWord) (s : State) : Host.Outcome State Fault Refusal :=
  ends (s.ckptReadOp h core.toNat kind.toNat selector)
/-- FAULT_SCAN (R672). -/
def execFaultScan (h : ConHdr) (scope tile : BitVec 32) (s : State) : Host.Outcome State Fault Refusal :=
  ends (s.faultScanOp h scope.toNat tile.toNat)
/-- FAULT_INJECT (R608, R620). -/
def execFaultInject (h : ConHdr) (addr : HostWord) (core source : BitVec 32) (s : State) : Host.Outcome State Fault Refusal :=
  ends (s.faultInjectOp h addr core.toNat source.toNat)
/-- FAULT_CLEAR (R605, R611). -/
def execFaultClear (h : ConHdr) (addr : HostWord) (core : BitVec 32) (mask : HostWord) (s : State) :
    Host.Outcome State Fault Refusal :=
  ends (s.faultClearOp h addr core.toNat mask)
/-- LINK_QUERY (R581). -/
def execLinkQuery (h : ConHdr) (tile group lane : BitVec 32) (s : State) : Host.Outcome State Fault Refusal :=
  ends (s.linkQueryOp h tile.toNat group.toNat lane.toNat)
/-- LINK_RESET (R479, R581). -/
def execLinkReset (h : ConHdr) (tile group lane : BitVec 32) (s : State) : Host.Outcome State Fault Refusal :=
  ends (s.linkResetOp h tile.toNat group.toNat lane.toNat)
/-- REG_READ (R581, R590). -/
def execRegRead (h : ConHdr) (addr : HostWord) (count core : BitVec 32) (s : State) : Host.Outcome State Fault Refusal :=
  ends (s.regReadOp h addr count.toNat core.toNat)
/-- REG_WRITE (R581, R588, R590). -/
def execRegWrite (h : ConHdr) (addr : HostWord) (count core : BitVec 32) (values : List HostWord) (s : State) :
    Host.Outcome State Fault Refusal :=
  ends (s.regWriteOp h addr count.toNat core.toNat values)
/-- SHADOW_READ (R581, R590). -/
def execShadowRead (h : ConHdr) (addr : HostWord) (count : BitVec 32) (s : State) : Host.Outcome State Fault Refusal :=
  ends (s.shadowReadOp h addr count.toNat)
/-- MEM_READ (R582). -/
def execMemRead (h : ConHdr) (sheet : BitVec 32) (addr : HostWord) (words : BitVec 32) (buffer : BitVec 64) (image : BitVec 32)
    (s : State) : Host.Outcome State Fault Refusal :=
  ends (s.memReadOp h sheet.toNat addr words.toNat buffer.toNat image.toNat)
/-- MEM_WRITE (R564, R582). -/
def execMemWrite (h : ConHdr) (sheet : BitVec 32) (addr : HostWord) (words : BitVec 32) (octets : List Octet) (ep : Bool)
    (image : BitVec 32) (s : State) : Host.Outcome State Fault Refusal :=
  ends (s.memWriteOp h sheet.toNat addr words.toNat octets ep image.toNat)
/-- MEM_ZERO (R582). -/
def execMemZero (h : ConHdr) (sheet : BitVec 32) (addr : HostWord) (words : BitVec 32) (s : State) :
    Host.Outcome State Fault Refusal :=
  ends (s.memZeroOp h sheet.toNat addr words.toNat)
/-- CAL_JOB (R519). -/
def execCalJob (h : ConHdr) (sheet : BitVec 32) (expand : Bool) (block : Vector HostWord 12) (s : State) :
    Host.Outcome State Fault Refusal :=
  ends (s.calJobOp h sheet.toNat expand block)
/-- DIE_MIGRATE (R403). -/
def execDieMigrate (h : ConHdr) (tile controller die : BitVec 32) (s : State) : Host.Outcome State Fault Refusal :=
  ends (s.dieMigrateOp h tile.toNat controller.toNat die.toNat)
/-- HEARTBEAT (R583). -/
def execHeartbeat (s : State) : Host.Outcome State Fault Refusal := ends s.beat

end Sys2Proof.Machine
end

