-- ==== Sys2Proof/Machine/Corevent.lean ====
section
/-! DEFINITION. What happens to a core beside its instructions: interruptions (R243-R247), stores and gathered words leaving it
(R277, R325), the ends of its device accesses (R276), retry and couching (R354-R367), and power gating (R638). -/

namespace Sys2Proof.Machine

open Sys2Proof

/-- A core reaches instruction boundaries: in service, its sheet running, and neither in the middle of an instruction nor stopped or
frozen (R205, R243). -/
def State.atBoundary (s : State) (c : Nat) : Bool :=
  let k := s.core c
  k.active && (match k.run with | .running | .wait => true | .stopped _ | .frozen | .devIn _ _ | .held _ _ _ _ => false) &&
    match k.sheet with
    | some sh => (s.sheet sh).running && !(s.sheet sh).checkstop
    | none => false

/-- Accept the pending interruption that qualifies first (R243, R244); a cold core asks to wake for it (R638). -/
def State.acceptIrq (s : State) (c : Nat) : State :=
  if !s.atBoundary c then s else
  match (s.core c).nextIrq with
  | none => s
  | some i => if (s.core c).cold then s.wakeCold c else (s.asyncEnter c i).getD s

/-- INTERRUPTION_ACCEPT (R243, R246, R247). -/
def execInterruptionAccept (c : CoreId) (s : State) : Host.Outcome State Fault Refusal :=
  ends (s.whenAlive fun s => s.acceptIrq c.val)

/-- The comparator's interruption becomes pending once (R245). -/
def State.comparator (s : State) (c : Nat) : State :=
  let k := s.core c
  if k.active && s.clkPending k && !k.pend.any (fun i => i.level == 4 && i.code == 0o400) then
    s.post c { level := 4, code := 0o400, param := 0, info := 0 }
  else s

/-- CLOCK_COMPARATOR (R245). -/
def execClockComparator (c : CoreId) (s : State) : Host.Outcome State Fault Refusal :=
  ends (s.whenAlive fun s => s.comparator c.val)

/-- A core's committed stores still leave it: it is in service and its sheet is not checkstopped (R279, R344). -/
def State.storesGo (s : State) (c : Nat) : Bool :=
  (s.core c).active && match (s.core c).sheet with | some sh => !(s.sheet sh).checkstop | none => false

/-- STORE_BUFFER_DRAIN (R279, R325): the oldest committed store is performed; it waits while its line is busy. -/
def execStoreBufferDrain (c : CoreId) (s : State) : Host.Outcome State Fault Refusal :=
  ends (s.whenAlive fun s => if s.storesGo c.val then (s.drainOne c.val).getD s else s)

/-- GATHER_TIMEOUT (R277). -/
def execGatherTimeout (c : CoreId) (s : State) : Host.Outcome State Fault Refusal :=
  ends (s.whenAlive fun s => if s.storesGo c.val then s.gatherEmit c.val else s)

/-- WINDOW_ZERO_LENGTH_READ_DONE (R276). -/
def execWindowZeroLengthReadDone (c : CoreId) (s : State) : Host.Outcome State Fault Refusal :=
  ends (s.whenAlive fun s => s.zeroReadDone c.val)

/-- DEVICE_IN_COMPLETION (R276, R564). -/
def execDeviceInCompletion (c : CoreId) (data : Word) (ep : Bool) (s : State) : Host.Outcome State Fault Refusal :=
  ends (s.whenAlive fun s => s.devInDone c.val data ep)

/-- INSTRUCTION_RETRY (R354-R356). -/
def execInstructionRetry (c : CoreId) (cause : Fin 64) (line : LineAddr) (s : State) : Host.Outcome State Fault Refusal :=
  ends (s.whenAlive fun s => s.recover c.val cause.val line.val)

/-- ATTEMPTS_CLEAR (R355). -/
def execAttemptsClear (c : CoreId) (s : State) : Host.Outcome State Fault Refusal :=
  ends (s.whenAlive fun s => s.attemptsClear c.val)

/-- The recovery unit sheds a core for a cause: one that is retried first has used its attempts (R355, R356, R358). -/
def State.shedFor (s : State) (c cause l : Nat) : State :=
  match cause with
  | 1 | 2 | 3 | 0o13 => if s.storesGo c then s.shed c cause [] else s
  | _ => s.recover c cause l

/-- SHED (R356, R358-R361). -/
def execShed (c : CoreId) (cause : Fin 64) (line : LineAddr) (s : State) : Host.Outcome State Fault Refusal :=
  ends (s.whenAlive fun s => s.shedFor c.val cause.val line.val)

/-- COUCH_FENCED (R358). -/
def execCouchFenced (c : CoreId) (s : State) : Host.Outcome State Fault Refusal :=
  ends (s.whenAlive fun s => s.couchFenced c.val)

/-- SPARE_WAKE_DONE (R362). -/
def execSpareWakeDone (c : CoreId) (pass : Bool) (s : State) : Host.Outcome State Fault Refusal :=
  ends (s.whenAlive fun s => s.wakeDone c.val pass)

/-- STATE_TRANSFER_DONE (R364). -/
def execStateTransferDone (c : CoreId) (s : State) : Host.Outcome State Fault Refusal :=
  ends (s.whenAlive fun s => s.transferDone c.val)

/-- SPARE_RELEASE (R364, R365). -/
def execSpareRelease (c : CoreId) (s : State) : Host.Outcome State Fault Refusal :=
  ends (s.whenAlive fun s => s.spareRelease c.val)

/-- POWER_GATE_TIMEOUT (R638). -/
def execPowerGateTimeout (c : CoreId) (s : State) : Host.Outcome State Fault Refusal :=
  ends (s.whenAlive fun s => s.powerGate c.val)

end Sys2Proof.Machine
end

