-- ==== Sys2Proof/Machine/Exchange.lean ====
section
/-! DEFINITION. What happens to exchanges beside the channel instructions: the vats' own actions and the partners' answers
(R424, R425, R436-R458), and the engines' jobs (R499-R507, R522-R538). -/

namespace Sys2Proof.Machine

open Sys2Proof

/-- SLOT_GRANT (R425, R447, R450). -/
def execSlotGrant (v : VatId) (s : State) : Host.Outcome State Fault Refusal := ends (s.whenAlive fun s => s.slotGrant v.val)
/-- PACKET_FETCH (R436-R446). -/
def execPacketFetch (n : SubId) (s : State) : Host.Outcome State Fault Refusal := ends (s.whenAlive fun s => s.packetFetch n.val)
/-- XACK (R439, R445, R451, R478). -/
def execXack (m : FeltHdr) (status : Octet) (dstat : BitVec 16) (moved : Nat) (s : State) : Host.Outcome State Fault Refusal :=
  ends (s.whenAlive fun s => s.xackIn m status.toNat dstat.toNat moved)
/-- XDATA (R439, R442, R477). -/
def execXdata (m : FeltHdr) (octets : List Octet) (last poison : Bool) (s : State) : Host.Outcome State Fault Refusal :=
  ends (s.whenAlive fun s => s.xdataIn m octets last poison)
/-- RECORD (R456, R457). -/
def execRecord (m : FeltHdr) (found : Bool) (lastGen : Fin 1048576) (highCseq : Fin 4096) (status : Octet) (s : State) :
    Host.Outcome State Fault Refusal :=
  ends (s.whenAlive fun s => s.recordIn m found lastGen.val highCseq.val status.toNat)
/-- ACK_TIMEOUT (R453). -/
def execAckTimeout (n : SubId) (s : State) : Host.Outcome State Fault Refusal := ends (s.whenAlive fun s => s.ackTimeout n.val)
/-- PATH_WAIT_TIMEOUT (R452, R454). -/
def execPathWaitTimeout (n : SubId) (s : State) : Host.Outcome State Fault Refusal :=
  ends (s.whenAlive fun s => s.pathWaitTimeout n.val)
/-- HALT_TIMEOUT (R457). -/
def execHaltTimeout (n : SubId) (s : State) : Host.Outcome State Fault Refusal := ends (s.whenAlive fun s => s.haltTimeout n.val)
/-- SUBCHANNEL_MOVE (R424). -/
def execSubchannelMove (n : SubId) (s : State) : Host.Outcome State Fault Refusal := ends (s.whenAlive fun s => s.moveSub n.val)
/-- PATH_UPDATE (R428, R486), a duty of the tile triptych (R372). -/
def execPathUpdate (l : LinkId) (s : State) : Host.Outcome State Fault Refusal :=
  ends (s.whenAlive fun s => s.onDuty (.tile l.tile) fun s => s.pathUpdate (linkNo l))
/-- VAT_RESTART (R458). -/
def execVatRestart (v : VatId) (s : State) : Host.Outcome State Fault Refusal := ends (s.whenAlive fun s => s.vatRestart v.val)

/-- CAL_JOB_START (R499-R501, R506). Scheduling the engines is a duty of the tile triptych (R372). -/
def execCalJobStart (t : TileId) (s : State) : Host.Outcome State Fault Refusal := ends (s.whenAlive fun s => s.onDuty (.tile t) fun s => s.calJobStart t.val)
/-- CAL_JOB_END (R507, R514). -/
def execCalJobEnd (t : TileId) (queue : SheetId) (s : State) : Host.Outcome State Fault Refusal :=
  ends (s.whenAlive fun s => s.calJobEnd t.val queue.val)
/-- CAL_SLOT_PREEMPT (R501). -/
def execCalSlotPreempt (t : TileId) (s : State) : Host.Outcome State Fault Refusal := ends (s.whenAlive fun s => s.onDuty (.tile t) fun s => s.calPreempt t.val)
/-- CAL_SLOT_START (R501). -/
def execCalSlotStart (t : TileId) (slot : Fin 64) (s : State) : Host.Outcome State Fault Refusal :=
  ends (s.whenAlive fun s => s.onDuty (.tile t) fun s => s.calSlotBegin t.val slot.val)
/-- VAR_JOB_START (R523, R532). -/
def execVarJobStart (t : TileId) (s : State) : Host.Outcome State Fault Refusal := ends (s.whenAlive fun s => s.onDuty (.tile t) fun s => s.varJobStart t.val)
/-- VAR_JOB_END (R532, R538). -/
def execVarJobEnd (t : TileId) (queue : SheetId) (s : State) : Host.Outcome State Fault Refusal :=
  ends (s.whenAlive fun s => s.varJobEnd t.val queue.val)
/-- VAR_SLOT_PREEMPT (R524). -/
def execVarSlotPreempt (t : TileId) (s : State) : Host.Outcome State Fault Refusal := ends (s.whenAlive fun s => s.onDuty (.tile t) fun s => s.varPreempt t.val)
/-- VAR_SLOT_START (R524). -/
def execVarSlotStart (t : TileId) (slot : Fin 64) (s : State) : Host.Outcome State Fault Refusal :=
  ends (s.whenAlive fun s => s.onDuty (.tile t) fun s => s.varSlotBegin t.val slot.val)

end Sys2Proof.Machine
end

