-- ==== Sys2Proof/Machine/Faultev.lean ====
section
/-! DEFINITION. Faults and injections (R603-R621), resets and the gesso sequence (R625, R640-R649), thermal and power events
(R630-R639). -/

namespace Sys2Proof.Machine

open Sys2Proof

/-- FAULT_EVENT (R610, R612, R615): `others` are the sources of the block that record in the same cycle. -/
def execFaultEvent (b : Blk) (src : Fin 18) (info : Word) (line : LineAddr) (flips : List (Fin 720)) (others : List (Fin 18 × Word))
    (s : State) : Host.Outcome State Fault Refusal :=
  ends (s.whenAlive fun s => s.faultEvents b ((src.val, info) :: others.map fun x => (x.1.val, x.2)) line.val (flips.map (·.val)))
/-- FINJ_WRITE (R608, R620). -/
def execFinjWrite (b : Blk) (v : Word) (s : State) : Host.Outcome State Fault Refusal :=
  ends (s.whenAlive fun s => s.finjWrite b v)
/-- INJECTION_FIRE (R620, R621): `real` is a real fault of the same source in the cycle of the firing. -/
def execInjectionFire (b : Blk) (real : Option (Word × LineAddr × List (Fin 720))) (s : State) : Host.Outcome State Fault Refusal :=
  ends (s.whenAlive fun s => match real with
    | none => s.injFire b
    | some r => s.injMeets b r.1 r.2.1.val (r.2.2.map (·.val)))
/-- RESET_SHADOW_END (R618). -/
def execResetShadowEnd (b : Blk) (s : State) : Host.Outcome State Fault Refusal := ends (s.whenAlive fun s => s.shadowEnd b)
/-- QUIRE_RESET (R640). -/
def execQuireReset (q : QuireId) (s : State) : Host.Outcome State Fault Refusal := ends (s.whenAlive fun s => s.quireReset q.val)
/-- TILE_RESET (R640). -/
def execTileReset (t : TileId) (s : State) : Host.Outcome State Fault Refusal := ends (s.whenAlive fun s => s.tileReset t.val)
/-- PWROK_RISE (R640, R646, R647). -/
def execPwrokRise (bootsrc : Fin 4) (s : State) : Host.Outcome State Fault Refusal := ends (s.pwrokRise bootsrc.val)
/-- PWROK_FALL (R625): a low pulse shorter than 200 ns is ignored (R660). -/
def execPwrokFall (ns : Nat) (s : State) : Host.Outcome State Fault Refusal := ends (if ns < 200 then s else s.pwrokFall)
/-- VAUX_LOSS (R625). -/
def execVauxLoss (s : State) : Host.Outcome State Fault Refusal := ends s.vauxLoss
/-- VIN_FAULT (R641). -/
def execVinFault (millivolts : Fin 4096) (s : State) : Host.Outcome State Fault Refusal := ends (s.vinFault millivolts.val)
/-- MOD_RESET_N_ASSERT (R641): a low pulse shorter than 1 µs is ignored (R660). -/
def execModResetNAssert (ns : Nat) (s : State) : Host.Outcome State Fault Refusal := ends (if ns < 1000 then s else s.modResetLow)
/-- MODULE_RESET_HOLD_END (R641, R648). -/
def execModuleResetHoldEnd (s : State) : Host.Outcome State Fault Refusal := ends s.holdEnd

/-- Two writes of KEY of RST_MOD (R642), the second within 1 ms of the first or later. -/
def State.rstPair (s : State) (first second : Nonet) (within : Bool) : State :=
  let s := s.rstKey first
  let s : State := if within then s else { s with rstArm := none }
  s.rstKey second

/-- RST_MOD_KEY (R642). -/
def execRstModKey (first second : Nonet) (within : Bool) (s : State) : Host.Outcome State Fault Refusal :=
  ends (s.whenAlive fun s => s.rstPair first second within)

/-- The clock system runs: not with power off or after a thermal trip. -/
def State.clocked (s : State) : Bool := match s.phase with | .off | .tripped => false | .hold _ | .gesso _ _ | .ready => true

/-- REFCLK_LOSS (R637). -/
def execRefclkLoss (s : State) : Host.Outcome State Fault Refusal := ends (if s.clocked then s.refLoss else s)
/-- PLL_UNLOCK (R637). -/
def execPllUnlock (s : State) : Host.Outcome State Fault Refusal := ends (if s.clocked then s.pllLoss else s)
/-- GESSO_STEP_END (R646-R648). -/
def execGessoStepEnd (copyA copyB : DunulHdr) (trainFails : List (McId × Fin 32)) (failedCores : List CoreId)
    (failedPorts : List (TileId × Fin 7)) (spares : List (QuireId × Fin 6)) (s : State) : Host.Outcome State Fault Refusal :=
  ends (s.gessoEnd copyA copyB (trainFails.map fun x => (x.1.val, x.2.val)) (failedCores.map (·.val))
    (failedPorts.map fun x => (x.1.val, x.2.val)) (spares.map fun x => (x.1.val, x.2.val)))
/-- STAGING_CHUNK (R649). -/
def execStagingChunk (keyMatches sigValid : Bool) (s : State) : Host.Outcome State Fault Refusal :=
  ends (s.stagingChunk keyMatches sigValid)
/-- THERMAL_SAMPLE (R639). -/
def execThermalSample (temps : Vector (Fin 512) 64) (s : State) : Host.Outcome State Fault Refusal := ends (s.thermSample temps)
/-- LFI_FRAME (R632). -/
def execLfiFrame (amps : Fin 2048) (shedding : Bool) (s : State) : Host.Outcome State Fault Refusal :=
  ends (s.frame amps.val shedding)
/-- LARGE_STEP_GRANT (R630). -/
def execLargeStepGrant (s : State) : Host.Outcome State Fault Refusal := ends (s.whenAlive fun s => s.grantStep)
/-- LARGE_STEP_BEGIN (R630). -/
def execLargeStepBegin (s : State) : Host.Outcome State Fault Refusal := ends (s.whenAlive fun s => s.beginStep)
/-- STEP_CHANGE (R635). -/
def execStepChange (q : QuireId) (step : Fin 4) (s : State) : Host.Outcome State Fault Refusal :=
  ends (s.whenAlive fun s => s.stepWrite q.val step.val)
/-- STEP_CHANGE_DONE (R635). -/
def execStepChangeDone (q : QuireId) (s : State) : Host.Outcome State Fault Refusal := ends (s.whenAlive fun s => s.stepDone q.val)
/-- CLOCK_STRETCH (R636). -/
def execClockStretch (q : QuireId) (s : State) : Host.Outcome State Fault Refusal := ends (s.whenAlive fun s => s.stretch q.val)
/-- STRETCH_END (R636). -/
def execStretchEnd (q : QuireId) (s : State) : Host.Outcome State Fault Refusal := ends (s.whenAlive fun s => s.stretchEnd q.val)

end Sys2Proof.Machine
end

