-- ==== Sys2Proof/Machine/Fp.lean ====
section
/-! DEFINITION. Floating point: arithmetic, sign operations, comparison, class, rounding, FPC and conversions (R190-R192,
R210-R237). -/

namespace Sys2Proof.Machine

open Sys2Proof

/-- A row with operands xf, sf. -/
def rowFx (code : Nat) : Tmpl := prim code [ow .x .f, ow .s .f] wWD preMem
/-- A row with operands df, sf. -/
def rowFd (code : Nat) : Tmpl := prim code [ow .d .f, ow .s .f] wWD preMem
/-- A row with operands df, sf, sf. -/
def rowFd2 (code : Nat) : Tmpl := prim code [ow .d .f, ow .s .f, ow .s .f] wWD preMem
/-- A row with operands df, sf, sf, sf. -/
def rowFd3 (code : Nat) : Tmpl := prim code [ow .d .f, ow .s .f, ow .s .f, ow .s .f] wWD preMem

/-- FADD (R190). -/
def execFadd (n : Insn) (s : State) : Host.Outcome State Fault Refusal :=
  s.isaF (rowFx 0o300) n 0 fun t v ss => fpAdd t v false (srcAt ss 0) (srcAt ss 1)
/-- FSUB (R190, R225). -/
def execFsub (n : Insn) (s : State) : Host.Outcome State Fault Refusal :=
  s.isaF (rowFx 0o301) n 0 fun t v ss => fpAdd t v true (srcAt ss 0) (srcAt ss 1)
/-- FMUL (R190). -/
def execFmul (n : Insn) (s : State) : Host.Outcome State Fault Refusal :=
  s.isaF (rowFx 0o302) n 0 fun t v ss => fpMul t v (srcAt ss 0) (srcAt ss 1)
/-- FDIV (R190). -/
def execFdiv (n : Insn) (s : State) : Host.Outcome State Fault Refusal :=
  s.isaF (rowFx 0o303) n 0 fun t v ss => fpDiv t v (srcAt ss 0) (srcAt ss 1)
/-- FSQRT (R190). -/
def execFsqrt (n : Insn) (s : State) : Host.Outcome State Fault Refusal :=
  s.isaF (rowFd 0o304) n 1 fun t v ss => fpSqrt t v (srcAt ss 0)
/-- FMA (R190). -/
def execFma (n : Insn) (s : State) : Host.Outcome State Fault Refusal :=
  s.isaF (rowFd3 0o305) n 1 fun t v ss => fpFma t v false false (srcAt ss 0) (srcAt ss 1) (srcAt ss 2)
/-- FMS (R190, R225). -/
def execFms (n : Insn) (s : State) : Host.Outcome State Fault Refusal :=
  s.isaF (rowFd3 0o306) n 1 fun t v ss => fpFma t v false true (srcAt ss 0) (srcAt ss 1) (srcAt ss 2)
/-- FNMA (R190, R225). -/
def execFnma (n : Insn) (s : State) : Host.Outcome State Fault Refusal :=
  s.isaF (rowFd3 0o307) n 1 fun t v ss => fpFma t v true true (srcAt ss 0) (srcAt ss 1) (srcAt ss 2)
/-- FNMS (R190, R225). -/
def execFnms (n : Insn) (s : State) : Host.Outcome State Fault Refusal :=
  s.isaF (rowFd3 0o310) n 1 fun t v ss => fpFma t v true false (srcAt ss 0) (srcAt ss 1) (srcAt ss 2)
/-- FMIN (R230). -/
def execFmin (n : Insn) (s : State) : Host.Outcome State Fault Refusal :=
  s.isaF (rowFx 0o311) n 0 fun t _ ss => fpMin t false (srcAt ss 0) (srcAt ss 1)
/-- FMAX (R230). -/
def execFmax (n : Insn) (s : State) : Host.Outcome State Fault Refusal :=
  s.isaF (rowFx 0o312) n 0 fun t _ ss => fpMin t true (srcAt ss 0) (srcAt ss 1)
/-- FABS (R190). -/
def execFabs (n : Insn) (s : State) : Host.Outcome State Fault Refusal :=
  s.isaF (rowFd 0o313) n 1 fun t _ ss => (srcAt ss 0 % 2 ^ (t.w - 1), 0)
/-- FNEG (R190). -/
def execFneg (n : Insn) (s : State) : Host.Outcome State Fault Refusal :=
  s.isaF (rowFd 0o314) n 1 fun t _ ss => (t.negate (srcAt ss 0), 0)
/-- FCPYS (R190). -/
def execFcpys (n : Insn) (s : State) : Host.Outcome State Fault Refusal :=
  s.isaF (rowFd2 0o315) n 1 fun t _ ss => (t.signed (t.sign (srcAt ss 1)) (srcAt ss 0 % 2 ^ (t.w - 1)), 0)
/-- FCMP (R191). -/
def execFcmp (n : Insn) (s : State) : Host.Outcome State Fault Refusal := s.isaFcmp 0o316 n false
/-- FCMPS (R191). -/
def execFcmps (n : Insn) (s : State) : Host.Outcome State Fault Refusal := s.isaFcmp 0o317 n true
/-- FMOV (R190). -/
def execFmov (n : Insn) (s : State) : Host.Outcome State Fault Refusal :=
  s.isaF (rowFd 0o320) n 1 fun _ _ ss => (srcAt ss 0, 0)
/-- FCLASS (R192). -/
def execFclass (n : Insn) (s : State) : Host.Outcome State Fault Refusal :=
  s.isaF (prim 0o321 [fw .d .i .wW, ow .s .f] wWD preMem) n 1 fun t _ ss => (fpClass t (srcAt ss 0), 0)
/-- FRND (R229). -/
def execFrnd (n : Insn) (s : State) : Host.Outcome State Fault Refusal :=
  s.isaF (rowFd 0o322) n 1 fun t v ss => fpRnd t v (srcAt ss 0)

/-- LFPC (R215): a reserved RM or bit is "specification". -/
def execLfpc (n : Insn) (s : State) : Host.Outcome State Fault Refusal :=
  s.isa (prim 0o323 [fw .s .i .wW] [] [pACQ]) n fun d fs => do
    let c := n.core.val
    let rs ← readyOps c false fs
    let v ← readOp c d.acq (opAt rs 0)
    let w := w36 v
    if field w 0 17 ≠ 0 ∨ 4 < field w 18 20 then pcheck 6
    modify fun s => s.setCore c { s.core c with fpc := w }

/-- SFPC (R216). -/
def execSfpc (n : Insn) (s : State) : Host.Outcome State Fault Refusal :=
  s.isa (prim 0o324 [fw .d .i .wW] [] [pREL]) n fun d fs => do
    let c := n.core.val
    let rs ← readyOps c false fs
    let s ← get
    writeOp c d.rel (opAt rs 0) (s.core c).fpc.toNat

/-- A conversion row: destination and source with fixed widths. -/
def rowCvt (code : Nat) (dk : Kind) (dw : Wid) (sk : Kind) (sw : Wid) : Tmpl := prim code [fw .d dk dw, fw .s sk sw] [] preMem

/-- CVTWS (R227). -/
def execCvtws (n : Insn) (s : State) : Host.Outcome State Fault Refusal :=
  s.isaF (rowCvt 0o330 .f .wW .i .wW) n 1 fun _ v ss => fpOfInt f36 v 36 (srcAt ss 0)
/-- CVTWD (R227). -/
def execCvtwd (n : Insn) (s : State) : Host.Outcome State Fault Refusal :=
  s.isaF (rowCvt 0o331 .f .wD .i .wW) n 1 fun _ v ss => fpOfInt f72 v 36 (srcAt ss 0)
/-- CVTLS (R227). -/
def execCvtls (n : Insn) (s : State) : Host.Outcome State Fault Refusal :=
  s.isaF (rowCvt 0o332 .f .wW .i .wD) n 1 fun _ v ss => fpOfInt f36 v 72 (srcAt ss 0)
/-- CVTLD (R227). -/
def execCvtld (n : Insn) (s : State) : Host.Outcome State Fault Refusal :=
  s.isaF (rowCvt 0o333 .f .wD .i .wD) n 1 fun _ v ss => fpOfInt f72 v 72 (srcAt ss 0)
/-- CVTSW (R228). -/
def execCvtsw (n : Insn) (s : State) : Host.Outcome State Fault Refusal :=
  s.isaF (rowCvt 0o334 .i .wW .f .wW) n 1 fun _ v ss => fpToInt f36 v 36 (srcAt ss 0)
/-- CVTDW (R228). -/
def execCvtdw (n : Insn) (s : State) : Host.Outcome State Fault Refusal :=
  s.isaF (rowCvt 0o335 .i .wW .f .wD) n 1 fun _ v ss => fpToInt f72 v 36 (srcAt ss 0)
/-- CVTSL (R228). -/
def execCvtsl (n : Insn) (s : State) : Host.Outcome State Fault Refusal :=
  s.isaF (rowCvt 0o336 .i .wD .f .wW) n 1 fun _ v ss => fpToInt f36 v 72 (srcAt ss 0)
/-- CVTDL (R228). -/
def execCvtdl (n : Insn) (s : State) : Host.Outcome State Fault Refusal :=
  s.isaF (rowCvt 0o337 .i .wD .f .wD) n 1 fun _ v ss => fpToInt f72 v 72 (srcAt ss 0)
/-- CVTSD (R226). -/
def execCvtsd (n : Insn) (s : State) : Host.Outcome State Fault Refusal :=
  s.isaF (rowCvt 0o340 .f .wD .f .wW) n 1 fun _ v ss => fpWiden v (srcAt ss 0)
/-- CVTDS (R226). -/
def execCvtds (n : Insn) (s : State) : Host.Outcome State Fault Refusal :=
  s.isaF (rowCvt 0o341 .f .wW .f .wD) n 1 fun _ v ss => fpNarrow v (srcAt ss 0)

end Sys2Proof.Machine
end

