-- ==== Sys2Proof/Machine/Heldev.lean ====
section
/-! DEFINITION. Accesses held at a block in reset (R43, R429, R505, R590), the end of that reset (R613), and register accesses
that have no row of their own (R17). -/

namespace Sys2Proof.Machine

open Sys2Proof

/-- The CK_SUP cycles that an access may be held (R43, R590). -/
def holdLimit : Nat := 65536

/-- Run a held instruction that ends with a condition code of 3 and nothing else of its own (R429, R505). -/
def State.ccThree (s : State) (t : Tmpl) (n : Insn) : State :=
  (s.insn t n fun _ _ => setFlags n.core.val (ccFlags 3)).getD s

/-- The instruction of a core held too long ends: IN and OUT with "addressing", a channel or engine instruction with CC 3 (R43,
R429, R505). -/
def State.heldEnds (s : State) (c : Nat) (i : Instr) : State :=
  match i with
  | .ioIn _ | .ioOut _ => (s.takeTrap c (.check 5 [])).getD s
  | .ssch n => s.ccThree (rowChanM 0o020) n
  | .tsch n => s.ccThree (rowChanM 0o021) n
  | .hsch n => s.ccThree (rowChan 0o022) n
  | .csch n => s.ccThree (rowChan 0o023) n
  | .msch n => s.ccThree (rowChanM 0o024) n
  | .rsch n => s.ccThree (rowChan 0o025) n
  | .stsch n => s.ccThree (rowChanM 0o026) n
  | .xcmp n => s.ccThree (prim 0o260 [opM] [] []) n
  | .xexp n => s.ccThree (prim 0o261 [opM] [] []) n
  | .xcip n => s.ccThree (prim 0o262 [opM] [] []) n
  | .xkeyUnwrap n | .xkeyGenerate n | .xkeyFree n => s.ccThree (prim 0o263 [opM, fw .d .i .wW] [] []) n
  | _ => s

/-- An access of a core in service has been held too long (R43, R281, R429, R505). -/
def State.heldTimeout (s : State) (c : Nat) : State :=
  let k := s.core c
  match k.run with
  | .held i b _ _ =>
    if s.inReset.contains b && k.active then ((s.setCore c { k with run := .running }).heldEnds c i).paused c else s
  | .running | .wait | .stopped _ | .frozen | .devIn _ _ => s

/-- ACCESS_TIMEOUT (R43, R429, R505). -/
def execAccessTimeout (c : CoreId) (s : State) : Host.Outcome State Fault Refusal :=
  ends (s.whenAlive fun s => s.heldTimeout c.val)

/-- The effect of a held instruction made again. -/
def rerun (i : Instr) (s : State) : Host.Outcome State Fault Refusal :=
  match i with
  | .ioIn n => execIoIn n s
  | .ioOut n => execIoOut n s
  | .ssch n => execSsch n s
  | .tsch n => execTsch n s
  | .hsch n => execHsch n s
  | .csch n => execCsch n s
  | .msch n => execMsch n s
  | .rsch n => execRsch n s
  | .stsch n => execStsch n s
  | .xcmp n => execXcmp n s
  | .xexp n => execXexp n s
  | .xcip n => execXcip n s
  | .xkeyUnwrap n => execXkeyUnwrap n s
  | .xkeyGenerate n => execXkeyGenerate n s
  | .xkeyFree n => execXkeyFree n s
  | _ => .next s

/-- A core's held instruction is made again now that its block serves (R43, R44). -/
def State.heldAgain (s : State) (c : Nat) (i : Instr) : State :=
  match rerun i (s.setCore c { s.core c with run := .running }) with
  | .next s => s.paused c
  | _ => s

/-- Firmware gives up an access held at a block too long (R590, R597). -/
def State.fwAbandon (s : State) (b : Blk) (o : Nat) : State :=
  s.logEvent 8 0 (blkDigits b) (w36 o)

/-- A register access of the console path that was held since a time: applied, or ended with STATE where it was held too long; an
access of firmware's own that was abandoned stays for its retry (R44, R590). -/
def State.portAgain (s : State) (e : HeldReg × Nat × Nat) : State :=
  let late := decide (e.2.1 + holdLimit < s.clock.toNat)
  match e.1 with
  | .read h b os => if late then s.conAns h 7 [] else s.regReadGo h b os
  | .write h b vs => if late then s.conAns h 7 (replyWords [0]) else s.regWriteGo h b vs
  | .shadow h b os => if late then s.conAns h 7 [] else s.shadowGo h b os
  | .single r v con =>
    if late && con then
      let s : State := { s with portHeld := s.portHeld ++ [e] }
      if s.heldFw.contains r then s
      else { s.fwAbandon r.blk r.off.val with heldFw := s.heldFw ++ [r] }
    else s.portWrite con r.blk r.off.val v

/-- The block that a held register access of the console path is for. -/
def heldBlk : HeldReg → Blk
  | .read _ b _ | .write _ b _ | .shadow _ b _ => b
  | .single r _ _ => r.blk

/-- An access that was held at a block: an instruction of a core, or a register access of the console path. -/
inductive HeldAny where
  | insn (c : Nat) (i : Instr)
  | port (e : HeldReg × Nat × Nat)

/-- Insert an access among those after it in order. -/
def insertHeld (x : Nat × HeldAny) : List (Nat × HeldAny) → List (Nat × HeldAny)
  | [] => [x]
  | y :: r => if x.1 ≤ y.1 then x :: y :: r else y :: insertHeld x r

/-- A held access is made. -/
def State.heldMade (s : State) : HeldAny → State
  | .insn c i => s.heldAgain c i
  | .port e => s.portAgain e

/-- A block leaves reset, and the accesses held at it, of programs and of the console path alike, are made in the order in which they
reached it (R43, R44, R429, R590, R613). -/
def State.resetOver (s : State) (b : Blk) : State :=
  if !s.inReset.contains b then s else
  let s := s.leaveReset b
  let mine := s.portHeld.filter fun e => heldBlk e.1 == b
  let all := (((s.heldAt b).map fun e => (e.1, HeldAny.insn e.2.1 e.2.2)) ++ mine.map fun e => (e.2.2, HeldAny.port e)).foldr insertHeld []
  let s : State := { s with portHeld := s.portHeld.filter fun e => heldBlk e.1 != b }
  all.foldl (fun s e => s.heldMade e.2) s

/-- BLOCK_RESET_END (R43, R613). -/
def execBlockResetEnd (b : Blk) (s : State) : Host.Outcome State Fault Refusal := ends (s.whenAlive fun s => s.resetOver b)

/-- Firmware retries an access that it abandoned (R590): while the block is in reset the first attempt is logged; out of reset
what was abandoned is made. -/
def State.fwRetry (s : State) (a : RegAt) : State :=
  if !s.mtUp then s
  else if s.inReset.contains a.blk then
    if s.heldFw.contains a then s
    else { s.fwAbandon a.blk a.off.val with heldFw := s.heldFw ++ [a] }
  else
    let mine (e : HeldReg × Nat × Nat) : Bool := match e.1 with | .single r _ _ => r == a | _ => false
    let due := s.portHeld.filter mine
    let s : State := { s with heldFw := s.heldFw.filter (· != a), portHeld := s.portHeld.filter fun e => !mine e }
    due.foldl (fun s e => match e.1 with | .single r v con => s.portWrite con r.blk r.off.val v | _ => s) s

/-- HELD_ACCESS_RETRY (R590, R597). -/
def execHeldAccessRetry (a : RegAt) (s : State) : Host.Outcome State Fault Refusal := ends (s.whenAlive fun s => s.fwRetry a)

/-- A read of a register whose answer goes out (R17). -/
def State.readOut (s : State) (r : RegAt) : State :=
  if s.inReset.contains r.blk then s else
  let x := s.portRead true r.blk r.off.val
  x.2.emit (.regValue r.blk r.off.val x.1)

/-- READ_CLEAR (R17). -/
def execReadClear (r : RegAt) (s : State) : Host.Outcome State Fault Refusal := ends (s.whenAlive fun s => s.readOut r)

/-- REGISTER_WRITE (R17, R20, R588): held while its block is in reset. -/
def execRegisterWrite (r : RegAt) (value : Word) (console : Bool) (s : State) : Host.Outcome State Fault Refusal :=
  ends (s.whenAlive fun s => s.consoleHeld r.blk (.single r value console) fun s => s.portWrite console r.blk r.off.val value)

end Sys2Proof.Machine
end

