-- ==== Sys2Proof/Machine/Hostev.lean ====
section
/-! DEFINITION. The commands of the host endpoint (R545-R567). -/

namespace Sys2Proof.Machine

open Sys2Proof

/-- CONFIG_REQUEST (R547, R567). -/
def execConfigRequest (f : Fin 2) (reg : Fin 1024) (write : Option (BitVec 32)) (be : BitVec 4) (s : State) :
    Host.Outcome State Fault Refusal :=
  ends (s.whenAlive fun s => s.configRequest f.val reg.val write be)
/-- BAR0_WRITE (R551, R558). -/
def execBar0Write (f : Fin 2) (off : Fin 262144) (value : BitVec 32) (s : State) : Host.Outcome State Fault Refusal :=
  ends (s.whenAlive fun s => s.bar0Write f.val off.val value)
/-- CRTAIL_DOORBELL (R551, R552). -/
def execCrtailDoorbell (tail : BitVec 16) (s : State) : Host.Outcome State Fault Refusal :=
  ends (s.whenAlive fun s => s.crtail tail)

/-- Two writes of SVRST (R553), the second within 1 ms of the first or later. -/
def State.svPair (s : State) (first second : Octet) (within : Bool) : State :=
  if !s.memOk 0 then s else
  let s := s.hostTraffic.svKey first
  let s : State := if within then s else { s with endpt := { s.endpt with svArm := none } }
  s.svKey second

/-- SVRST (R382, R553). -/
def execSvrst (first second : Octet) (within : Bool) (s : State) : Host.Outcome State Fault Refusal :=
  ends (s.whenAlive fun s => s.svPair first second within)
/-- BAR2_READ (R554, R555). -/
def execBar2Read (word : Fin 65536) (count : Fin 513) (portAWrites uncorrectable : Bool) (s : State) :
    Host.Outcome State Fault Refusal :=
  ends (s.whenAlive fun s => s.bar2Read word.val count.val portAWrites uncorrectable)
/-- BAR2_WRITE (R554, R555). -/
def execBar2Write (off : Fin 524288) (octets : List Octet) (enables : List Bool) (ep : Bool) (s : State) :
    Host.Outcome State Fault Refusal :=
  ends (s.whenAlive fun s => s.bar2Write off.val octets enables ep)
/-- HTAIL_DOORBELL (R558, R559). -/
def execHtailDoorbell (q : SheetId) (tail : BitVec 16) (s : State) : Host.Outcome State Fault Refusal :=
  ends (s.whenAlive fun s => s.htail q.val tail)
/-- H2S_MOVE (R559, R564). -/
def execH2sMove (q : SheetId) (octets : List Octet) (ep : Bool) (s : State) : Host.Outcome State Fault Refusal :=
  ends (s.whenAlive fun s => s.h2sMove q.val octets ep)
/-- S2H_MOVE (R559, R564). -/
def execS2hMove (q : SheetId) (s : State) : Host.Outcome State Fault Refusal := ends (s.whenAlive fun s => s.s2hMove q.val)
/-- STAIL_DOORBELL (R560). -/
def execStailDoorbell (q : SheetId) (tail : BitVec 16) (s : State) : Host.Outcome State Fault Refusal :=
  ends (s.whenAlive fun s => s.stail q.val tail)
/-- COMPLETION_TIMEOUT (R559). -/
def execCompletionTimeout (q : SheetId) (s : State) : Host.Outcome State Fault Refusal :=
  ends (s.whenAlive fun s => s.readTimeout q.val)
/-- MSI_SEND (R562). -/
def execMsiSend (f : Fin 2) (vector : Fin 64) (s : State) : Host.Outcome State Fault Refusal :=
  ends (s.whenAlive fun s => s.msiSend f.val vector.val)
/-- BUS_MASTER_ENABLE_CLEAR (R565, R566). -/
def execBusMasterEnableClear (f : Fin 2) (s : State) : Host.Outcome State Fault Refusal :=
  ends (s.whenAlive fun s => s.bmeClear f.val)
/-- FLR (R565, R566). -/
def execFlr (f : Fin 2) (s : State) : Host.Outcome State Fault Refusal := ends (s.whenAlive fun s => s.flr f.val)
/-- HOT_RESET (R566). -/
def execHotReset (s : State) : Host.Outcome State Fault Refusal := ends (s.whenAlive fun s => s.hotReset)
/-- PERST_N_ASSERT (R566): a low pulse shorter than 100 ns is ignored (R660). -/
def execPerstNAssert (ns : Nat) (s : State) : Host.Outcome State Fault Refusal := ends (if ns < 100 then s else s.perstOn)
/-- PERST_N_DEASSERT (R567). -/
def execPerstNDeassert (s : State) : Host.Outcome State Fault Refusal := ends s.perstOff
/-- ASPM_L1_ENTRY (R563). -/
def execAspmL1Entry (s : State) : Host.Outcome State Fault Refusal := ends (s.whenAlive fun s => s.aspmL1)
/-- ASPM_L0S_ENTRY (R563). -/
def execAspmL0sEntry (s : State) : Host.Outcome State Fault Refusal := ends (s.whenAlive fun s => s.aspmL0s)

end Sys2Proof.Machine
end

