-- ==== Sys2Proof/Machine/Linkev.lean ====
section
/-! DEFINITION. The commands of the felt links (R463-R498) and the root ports (R568-R573). -/

namespace Sys2Proof.Machine

open Sys2Proof

/-- A group's lanes belong to a root port where its personality is ROOT (R462, R568): the effect on the port, or on the felt link. -/
def State.onLanes (s : State) (l : LinkId) (port : State → Nat → Nat → State) (felt : State → Nat → State) : State :=
  if l.group.val < 2 && s.isRootPort l.tile.val l.group.val then port s l.tile.val l.group.val else felt s (linkNo l)

/-- DATA_FLIT (R470-R476): the header's own type decides where it names another. -/
def execDataFlit (l : LinkId) (lane : Fin 8) (h : FlitHdr) (crcGood : Bool) (s : State) : Host.Outcome State Fault Refusal :=
  ends (s.whenAlive fun s => s.flitIn (linkNo l) lane h crcGood)
/-- IDLE_FLIT (R470-R476). -/
def execIdleFlit (l : LinkId) (lane : Fin 8) (h : FlitHdr) (crcGood : Bool) (s : State) : Host.Outcome State Fault Refusal :=
  ends (s.whenAlive fun s => s.flitIn (linkNo l) lane h crcGood)
/-- REPLAY_TIMEOUT (R474). -/
def execReplayTimeout (l : LinkId) (s : State) : Host.Outcome State Fault Refusal :=
  ends (s.whenAlive fun s => s.replayTimeout (linkNo l))
/-- ACK_TIMER (R473). -/
def execAckTimer (l : LinkId) (s : State) : Host.Outcome State Fault Refusal := ends (s.whenAlive fun s => s.ackTimer (linkNo l))
/-- LINK_IDENTIFY (R481-R483, R489). -/
def execLinkIdentify (l : LinkId) (words : Vector Word 8) (s : State) : Host.Outcome State Fault Refusal :=
  ends (s.whenAlive fun s => s.identify (linkNo l) words)
/-- SLEEP (R484). -/
def execSleep (l : LinkId) (s : State) : Host.Outcome State Fault Refusal := ends (s.whenAlive fun s => s.sleepIn (linkNo l))
/-- SLEEP_ACK (R484). -/
def execSleepAck (l : LinkId) (s : State) : Host.Outcome State Fault Refusal := ends (s.whenAlive fun s => s.sleepAckIn (linkNo l))
/-- SLEEP_IDLE (R484). -/
def execSleepIdle (l : LinkId) (s : State) : Host.Outcome State Fault Refusal := ends (s.whenAlive fun s => s.sleepIdle (linkNo l))
/-- LINK_WAKE (R484). -/
def execLinkWake (l : LinkId) (s : State) : Host.Outcome State Fault Refusal := ends (s.whenAlive fun s => s.linkWake (linkNo l))
/-- LANE_LOSS (R467, R485). -/
def execLaneLoss (l : LinkId) (lane : Fin 8) (s : State) : Host.Outcome State Fault Refusal :=
  ends (s.whenAlive fun s => s.laneLoss (linkNo l) lane.val)
/-- DETECT_POLL (R479, R573). Training is a duty of the tile triptych (R372). -/
def execDetectPoll (l : LinkId) (found : Bool) (s : State) : Host.Outcome State Fault Refusal :=
  ends (s.whenAlive fun s => s.onDuty (.tile l.tile) fun s => s.onLanes l (fun s t i => s.rpDetect t i found) fun s n => s.detectPoll n found)
/-- TRAINING_TIMEOUT (R479, R480). -/
def execTrainingTimeout (l : LinkId) (s : State) : Host.Outcome State Fault Refusal :=
  ends (s.whenAlive fun s => s.onDuty (.tile l.tile) fun s => s.onLanes l State.rpTimeout State.trainTimeout)
/-- TRAINING_DONE (R479, R568, R573). -/
def execTrainingDone (l : LinkId) (s : State) : Host.Outcome State Fault Refusal :=
  ends (s.whenAlive fun s => s.onDuty (.tile l.tile) fun s => s.onLanes l State.rpTrain State.trainDone)
/-- LINK_EN_WRITE (R479, R495). -/
def execLinkEnWrite (l : LinkId) (en : Bool) (s : State) : Host.Outcome State Fault Refusal :=
  ends (s.whenAlive fun s => s.linkEn (linkNo l) en)
/-- WWRITE (R456, R490, R491). -/
def execWwrite (m : FeltHdr) (devaddr : BitVec 16) (octets : List Octet) (poison : Bool) (s : State) :
    Host.Outcome State Fault Refusal :=
  ends (s.whenAlive fun s => s.wwriteIn m devaddr octets poison)
/-- SESSION_SENSE (R460, R490, R491). -/
def execSessionSense (m : FeltHdr) (s : State) : Host.Outcome State Fault Refusal := ends (s.whenAlive fun s => s.sessionSense m)
/-- XREQ_REJECT (R490). -/
def execXreqReject (m : FeltHdr) (code : Octet) (s : State) : Host.Outcome State Fault Refusal :=
  ends (s.whenAlive fun s => s.xreqReject m code.toNat)
/-- WINDOW_ARM (R492). -/
def execWindowArm (t : TileId) (w : Fin 16) (s : State) : Host.Outcome State Fault Refusal :=
  ends (s.whenAlive fun s => s.windowArm t.val w.val)
/-- PARTNER_LEAVE (R485). -/
def execPartnerLeave (l : LinkId) (s : State) : Host.Outcome State Fault Refusal :=
  ends (s.whenAlive fun s => s.partnerLeave (linkNo l))

/-- ROOTP_CONFIG_ISSUE (R569, R571). -/
def execRootpConfigIssue (p : RootId) (v : Word) (s : State) : Host.Outcome State Fault Refusal :=
  ends (s.whenAlive fun s => s.rpConfig p.tile.val p.inst.val v)
/-- ROOTP_CONFIG_COMPLETION (R569). -/
def execRootpConfigCompletion (p : RootId) (stat : Fin 8) (data : BitVec 32) (s : State) : Host.Outcome State Fault Refusal :=
  ends (s.whenAlive fun s => s.rpConfigDone p.tile.val p.inst.val stat.val data)
/-- INBOUND_REQUEST (R570). -/
def execInboundRequest (p : RootId) (r : InboundReq) (s : State) : Host.Outcome State Fault Refusal :=
  ends (s.whenAlive fun s => s.rpInbound p.tile.val p.inst.val r)
/-- CONTAINMENT (R571). -/
def execContainment (p : RootId) (cause : Fin 16) (hdr : Vector Word 4) (s : State) : Host.Outcome State Fault Refusal :=
  ends (s.whenAlive fun s => s.rpContain p.tile.val p.inst.val cause.val hdr.toList)
/-- CONTAINMENT_RELEASE (R572). -/
def execContainmentRelease (p : RootId) (s : State) : Host.Outcome State Fault Refusal :=
  ends (s.whenAlive fun s => s.rpRelAct p.tile.val p.inst.val)
/-- ROOTP_WINDOW_ARM (R570). -/
def execRootpWindowArm (p : RootId) (w : Fin 16) (s : State) : Host.Outcome State Fault Refusal :=
  ends (s.whenAlive fun s => s.rpArm p.tile.val p.inst.val w.val)
/-- ROOTP_LINK_ENABLE (R568, R573). -/
def execRootpLinkEnable (p : RootId) (en : Bool) (s : State) : Host.Outcome State Fault Refusal :=
  ends (s.whenAlive fun s => s.rpEnable p.tile.val p.inst.val en)

end Sys2Proof.Machine
end

