-- ==== Sys2Proof/Machine/Logic.lean ====
section
/-! DEFINITION. Logical, shift and bit instructions (R170-R172). -/

namespace Sys2Proof.Machine

open Sys2Proof

/-- AND (R170). -/
def execAnd (n : Insn) (s : State) : Host.Outcome State Fault Refusal :=
  s.isaXS (rowX 0o070 preAtom) n fun w _ x y => .ok (aluLogic w (x &&& y))
/-- OR (R170). -/
def execOr (n : Insn) (s : State) : Host.Outcome State Fault Refusal :=
  s.isaXS (rowX 0o071 preAtom) n fun w _ x y => .ok (aluLogic w (x ||| y))
/-- XOR (R170). -/
def execXor (n : Insn) (s : State) : Host.Outcome State Fault Refusal :=
  s.isaXS (rowX 0o072 preAtom) n fun w _ x y => .ok (aluLogic w (x ^^^ y))
/-- NOT (R170). -/
def execNot (n : Insn) (s : State) : Host.Outcome State Fault Refusal :=
  s.isaXS (prim 0o073 [ow .x .i] wAll preMem) n fun w _ x _ => .ok (aluLogic w (notW w x))
/-- ANDN (R170). -/
def execAndn (n : Insn) (s : State) : Host.Outcome State Fault Refusal :=
  s.isaXS (rowX 0o074 preMem) n fun w _ x y => .ok (aluLogic w (x &&& notW w y))
/-- TEST (R170). -/
def execTest (n : Insn) (s : State) : Host.Outcome State Fault Refusal :=
  s.isa (prim 0o075 [ow .s .i, ow .s .i] wAll [pACQ]) n fun d fs =>
    cmpX n.core.val d fs fun _ ss => .ok (aluLogic d.wid.bits (srcAt ss 0 &&& srcAt ss 1))

/-- A shift row: xi, si with the count of width W. -/
def rowShift (code : Nat) : Tmpl := prim code [ow .x .i, fw .s .i .wW] wAll preMem
/-- A double shift row: xi, si, si with the count of width W. -/
def rowShiftD (code : Nat) : Tmpl := prim code [ow .x .i, ow .s .i, fw .s .i .wW] wWD preMem

/-- SHL (R171). -/
def execShl (n : Insn) (s : State) : Host.Outcome State Fault Refusal :=
  s.isaXS (rowShift 0o100) n fun w old x y => .ok (aluShl w x y old)
/-- SHR (R171). -/
def execShr (n : Insn) (s : State) : Host.Outcome State Fault Refusal :=
  s.isaXS (rowShift 0o101) n fun w old x y => .ok (aluShr w x y old)
/-- SAR (R171). -/
def execSar (n : Insn) (s : State) : Host.Outcome State Fault Refusal :=
  s.isaXS (rowShift 0o102) n fun w old x y => .ok (aluSar w x y old)
/-- ROL (R170). -/
def execRol (n : Insn) (s : State) : Host.Outcome State Fault Refusal :=
  s.isaXS (rowShift 0o103) n fun w old x y => .ok (aluRol w x y old)
/-- ROR (R170). -/
def execRor (n : Insn) (s : State) : Host.Outcome State Fault Refusal :=
  s.isaXS (rowShift 0o104) n fun w old x y => .ok (aluRor w x y old)
/-- SHLD (R170). -/
def execShld (n : Insn) (s : State) : Host.Outcome State Fault Refusal :=
  s.isa (rowShiftD 0o105) n fun d fs =>
    updX n.core.val d fs fun old x ss => aluShld d.wid.bits x (srcAt ss 0) (srcAt ss 1) old
/-- SHRD (R170). -/
def execShrd (n : Insn) (s : State) : Host.Outcome State Fault Refusal :=
  s.isa (rowShiftD 0o106) n fun d fs =>
    updX n.core.val d fs fun old x ss => aluShrd d.wid.bits x (srcAt ss 0) (srcAt ss 1) old

/-- A bit row: xi, si with the bit number of width W. -/
def rowBit (code : Nat) : Tmpl := prim code [ow .x .i, fw .s .i .wW] wWD preAtom

/-- BTST (R170, R172). -/
def execBtst (n : Insn) (s : State) : Host.Outcome State Fault Refusal :=
  s.isa (prim 0o110 [ow .s .i, fw .s .i .wW] wWD [pACQ]) n fun d fs =>
    cmpX n.core.val d fs fun old ss => aluBit id d.wid.bits (srcAt ss 0) (srcAt ss 1) old
/-- BSET (R170, R172). -/
def execBset (n : Insn) (s : State) : Host.Outcome State Fault Refusal :=
  s.isaXS (rowBit 0o111) n fun w old x y => aluBit (fun _ => true) w x y old
/-- BCLR (R170, R172). -/
def execBclr (n : Insn) (s : State) : Host.Outcome State Fault Refusal :=
  s.isaXS (rowBit 0o112) n fun w old x y => aluBit (fun _ => false) w x y old
/-- BFLIP (R170, R172). -/
def execBflip (n : Insn) (s : State) : Host.Outcome State Fault Refusal :=
  s.isaXS (rowBit 0o113) n fun w old x y => aluBit (fun b => !b) w x y old

/-- A counting row: di, si. -/
def rowCount (code : Nat) : Tmpl := prim code [ow .d .i, ow .s .i] wWD preMem

/-- CLZ (R170). -/
def execClz (n : Insn) (s : State) : Host.Outcome State Fault Refusal :=
  s.isa (rowCount 0o114) n fun d fs => setX n.core.val d fs fun _ ss => .ok (aluClz d.wid.bits (srcAt ss 0))
/-- CTZ (R170). -/
def execCtz (n : Insn) (s : State) : Host.Outcome State Fault Refusal :=
  s.isa (rowCount 0o115) n fun d fs => setX n.core.val d fs fun _ ss => .ok (aluCtz d.wid.bits (srcAt ss 0))
/-- POPC (R170). -/
def execPopc (n : Insn) (s : State) : Host.Outcome State Fault Refusal :=
  s.isa (rowCount 0o116) n fun d fs => setX n.core.val d fs fun _ ss => .ok (aluPopc d.wid.bits (srcAt ss 0))
/-- BEXT (R170, R172). -/
def execBext (n : Insn) (s : State) : Host.Outcome State Fault Refusal :=
  s.isa (prim 0o117 [ow .d .i, ow .s .i, fw .s .i .wW] wWD preMem) n fun d fs =>
    setX n.core.val d fs fun _ ss => aluBext d.wid.bits (srcAt ss 0) (srcAt ss 1)
/-- BINS (R170, R172). -/
def execBins (n : Insn) (s : State) : Host.Outcome State Fault Refusal :=
  s.isa (prim 0o120 [ow .x .i, ow .s .i, fw .s .i .wW] wWD preMem) n fun d fs =>
    updX n.core.val d fs fun _ x ss => aluBins d.wid.bits x (srcAt ss 0) (srcAt ss 1)

end Sys2Proof.Machine
end

