-- ==== Sys2Proof/Machine/Move.lean ====
section
/-! DEFINITION. Data movement and pointers (R166, R167). -/

namespace Sys2Proof.Machine

open Sys2Proof

/-- MOV (R166). -/
def execMov (n : Insn) (s : State) : Host.Outcome State Fault Refusal :=
  s.isa (prim 0o010 [ow .d .i, ow .s .i] wAll [pACQ, pREL]) n fun d fs =>
    setX n.core.val d fs fun old ss => keepF old (srcAt ss 0)

/-- The destination of MOVZ and MOVX, whose width follows the source's (R142). -/
def extDst : TOp := ⟨.d, .i, .ext⟩

/-- MOVZ (R166). -/
def execMovz (n : Insn) (s : State) : Host.Outcome State Fault Refusal :=
  s.isa (prim 0o011 [extDst, ow .s .i] [.wN, .wH] [pACQ, pREL]) n fun d fs =>
    setX n.core.val d fs fun old ss => keepF old (srcAt ss 0)

/-- MOVX (R166). -/
def execMovx (n : Insn) (s : State) : Host.Outcome State Fault Refusal :=
  s.isa (prim 0o012 [extDst, ow .s .i] [.wN, .wH] [pACQ, pREL]) n fun d fs =>
    setX n.core.val d fs fun old ss => keepF old (sext d.wid.bits (WSel.ext.wid d.wid).bits (srcAt ss 0))

/-- XCHG (R166): interlocked with exactly one memory operand (R187). -/
def execXchg (n : Insn) (s : State) : Host.Outcome State Fault Refusal :=
  s.isa (prim 0o013 [ow .x .i, ow .x .i] wAll [pATOM, pACQ, pREL]) n fun d fs => do
    let c := n.core.val
    let one := (fs.filter fun f => f.op.isMem).length == 1
    let rs ← readyOps c one fs
    let a := opAt rs 0
    let b := opAt rs 1
    let lock (m r : Rdy) (x : Xl) : M Unit := do
      let v ← rmw c d.rel x m.f.nidx m.f.op.wid fun v => (some r.f.val, v)
      writeOp c d.rel r v
    match one, a.xl, b.xl with
    | true, some x, _ => lock a b x
    | true, none, some x => lock b a x
    | _, _, _ => do
      let va ← readOp c d.acq a
      let vb ← readOp c d.acq b
      writeOp c d.rel a vb
      writeOp c d.rel b va

/-- CAS (R166): interlocked when x is in memory; on a mismatch nothing is written to x and D is not set (R188). -/
def execCas (n : Insn) (s : State) : Host.Outcome State Fault Refusal :=
  s.isa (prim 0o014 [ow .x .i, ow .r .i, ow .s .i] wWD [pATOM, pACQ, pREL]) n fun d fs => do
    let c := n.core.val
    let rs ← readyOps c true fs
    let x := opAt rs 0
    let r := opAt rs 1
    let w := x.f.op.wid
    let old := (← get).flags c
    let v ← match x.xl with
      | some xl => rmw c d.rel xl x.f.nidx w fun v => (none, v)
      | none => pure x.f.val
    let new ← readOp c d.acq (opAt rs 2)
    if v = r.f.val then do
      setFlags c { old with z := true }
      match x.xl with
      | some xl => rmw c d.rel xl x.f.nidx w fun _ => (some new, ())
      | none => writeOp c d.rel x new
    else do
      setFlags c { old with z := false }
      writeOp c d.rel r v

/-- LDA (R167): TAG of the base pointer in modes 0o03 to 0o11, otherwise 0. -/
def execLda (n : Insn) (s : State) : Host.Outcome State Fault Refusal :=
  s.isa (prim 0o020 [fw .r .p .wD, opM] [] []) n fun _ fs => do
    let c := n.core.val
    let rs ← readyOps c false fs
    let m := (opAt rs 1).f
    let tag ← match m.op.form with
      | .mem mode reg _ => do
        let p ← getP c reg
        pure (if mode ≤ 0o11 then field p 0 15 else 0)
      | _ => pure 0
    writeOp c false (opAt rs 0) (tag * 2 ^ 56 + m.addr % 2 ^ 54)

/-- MOVP (R166). -/
def execMovp (n : Insn) (s : State) : Host.Outcome State Fault Refusal :=
  s.isa (prim 0o021 [fw .d .p .wD, fw .s .p .wD] [] [pACQ, pREL]) n fun d fs =>
    setX n.core.val d fs fun old ss => keepF old (srcAt ss 0)

/-- A number as a pointer. -/
def ptrOf (v : Nat) : DWord := BitVec.ofNat 72 v

/-- PTAG (R166). -/
def execPtag (n : Insn) (s : State) : Host.Outcome State Fault Refusal :=
  s.isa (prim 0o022 [fw .x .p .wD, fw .s .i .wW] [] []) n fun d fs =>
    updX n.core.val d fs fun old x ss => keepF old (setField (ptrOf x) 0 15 (srcAt ss 0)).toNat

/-- PADD (R166). -/
def execPadd (n : Insn) (s : State) : Host.Outcome State Fault Refusal :=
  s.isa (prim 0o023 [fw .x .p .wD, fw .s .i .wW] [] []) n fun d fs =>
    updX n.core.val d fs fun old x ss =>
      keepF old (ptrSetAddr (ptrOf x) (wrapTo 54 ((ptrAddr (ptrOf x) : Int) + signedOf 36 (srcAt ss 0)))).toNat

/-- PSUB (R166). -/
def execPsub (n : Insn) (s : State) : Host.Outcome State Fault Refusal :=
  s.isa (prim 0o024 [fw .r .i2 .wD, fw .r .p .wD, fw .r .p .wD] [] []) n fun d fs =>
    setX n.core.val d fs fun _ ss =>
      let r := wrapTo 72 ((ptrAddr (ptrOf (srcAt ss 0)) : Int) - ptrAddr (ptrOf (srcAt ss 1)))
      .ok (r, nzcv 72 r false false)

/-- PCMP (R166). -/
def execPcmp (n : Insn) (s : State) : Host.Outcome State Fault Refusal :=
  s.isa (prim 0o025 [fw .r .p .wD, fw .r .p .wD] [] []) n fun d fs =>
    cmpX n.core.val d fs fun _ ss =>
      let a := ptrAddr (ptrOf (srcAt ss 0))
      let b := ptrAddr (ptrOf (srcAt ss 1))
      .ok (0, { n := false, z := a == b, c := decide (a < b), v := false })

end Sys2Proof.Machine
end

