-- ==== Sys2Proof/Machine/Stacks.lean ====
section
/-! DEFINITION. The commands of the memory controllers, the stacks (R387-R407) and the Easel (R409-R414). -/

namespace Sys2Proof.Machine

open Sys2Proof

/-- The triptych whose duty the scrub, the sparing and the training of a stack are (R372). -/
def stackDuty (m : McId) : Trip := .tile (tileFin (m.val / 2))

/-- MEMC_READ (R389, R393, R394). -/
def execMemcRead (m : McId) (ls : StackLine) (first second : RawRead) (s : State) : Host.Outcome State Fault Refusal :=
  ends (s.whenAlive fun s => s.memcRead m.val ls.val first second)

/-- MEMC_WRITE (R389, R395). -/
def execMemcWrite (m : McId) (ls : StackLine) (data : Line) (s : State) : Host.Outcome State Fault Refusal :=
  ends (s.whenAlive fun s => s.memcWrite m.val ls.val data)

/-- DEFERRED_POISON (R400): the homes then go on with what waited for the controller. -/
def execDeferredPoison (m : McId) (s : State) : Host.Outcome State Fault Refusal :=
  ends (s.whenAlive fun s => (s.deferredPoison m.val).homesGo)

/-- PATROL_SCRUB (R401). -/
def execPatrolScrub (m : McId) (first second : RawRead) (s : State) : Host.Outcome State Fault Refusal :=
  ends (s.whenAlive fun s => s.onDuty (stackDuty m) fun s => s.patrol m.val first second)

/-- PATROL_REPAIR (R401). -/
def execPatrolRepair (m : McId) (ls : StackLine) (data : Line) (s : State) : Host.Outcome State Fault Refusal :=
  ends (s.whenAlive fun s => s.onDuty (stackDuty m) fun s => s.patrolRepair m.val ls.val data)

/-- ROW_SPARE_DONE (R402): the accesses that waited for the row go on. -/
def execRowSpareDone (m : McId) (pc bank : Fin 32) (row : Fin 32768) (errs : Vector (Vector (BitVec 80) 9) 32) (s : State) :
    Host.Outcome State Fault Refusal :=
  ends (s.whenAlive fun s => s.onDuty (stackDuty m) fun s => (s.rowSpared m.val pc.val bank.val row.val errs).homesGo)

/-- MIGRATION_START (R403, R419). -/
def execMigrationStart (m : McId) (die : Fin 16) (s : State) : Host.Outcome State Fault Refusal :=
  ends (s.whenAlive fun s => s.onDuty (stackDuty m) fun s => s.migrate m.val die.val)

/-- MIGRATION_COPY (R403, R404). -/
def execMigrationCopy (m : McId) (half : Fin 2) (first second : RawRead) (spareFails : Bool) (s : State) :
    Host.Outcome State Fault Refusal :=
  ends (s.whenAlive fun s => s.onDuty (stackDuty m) fun s => s.migCopy m.val half.val first second spareFails)

/-- RECALIBRATION (R404, R406). -/
def execRecalibration (m : McId) (pc : Fin 32) (fails : Bool) (s : State) : Host.Outcome State Fault Refusal :=
  ends (s.whenAlive fun s => s.onDuty (stackDuty m) fun s => s.recalibrate m.val pc.val fails)

/-- REFRESH (R407): a row keeps its contents; nothing that the manual names changes. -/
def execRefresh (_m : McId) (_pc _bank : Fin 32) (_row : Fin 32768) (s : State) : Host.Outcome State Fault Refusal := .next s

/-- STACK_TEMP_SAMPLE (R407). -/
def execStackTempSample (m : McId) (temp : Fin 512) (s : State) : Host.Outcome State Fault Refusal :=
  ends (s.whenAlive fun s => s.stackTemp m.val temp.val)

/-- EASEL_ACCESS (R409-R413). -/
def execEaselAccess (t : TileId) (bank : Fin 32) (reqs : List EaselReq) (portB : Option EaselPortB) (errors : Fin 3) (s : State) :
    Host.Outcome State Fault Refusal :=
  ends (s.whenAlive fun s => s.easelCycle t.val bank.val reqs portB errors.val)

/-- EASEL_SCRUB (R409). -/
def execEaselScrub (t : TileId) (addr : Fin 4194304) (errors : Fin 3) (s : State) : Host.Outcome State Fault Refusal :=
  ends (s.whenAlive fun s => s.easelScrub t.val addr.val errors.val)

/-- EASEL_RETENTION (R414). -/
def execEaselRetention (t : TileId) (ret : BitVec 32) (s : State) : Host.Outcome State Fault Refusal :=
  ends (s.whenAlive fun s => s.easelRet t.val ret)

/-- EASEL_WAKE_DONE (R414). -/
def execEaselWakeDone (t : TileId) (bank : Fin 32) (s : State) : Host.Outcome State Fault Refusal :=
  ends (s.whenAlive fun s => s.easelWake t.val bank.val)

end Sys2Proof.Machine
end

