-- ==== Sys2Proof/Machine/Strings.lean ====
section
/-! DEFINITION. String instructions (R137, R181-R186): one unit, and repetition with interruption between units. -/

namespace Sys2Proof.Machine

open Sys2Proof

/-- The unit at P`i`: its address and nonet index, aligned (R77, R149, R181). -/
def unitAt (c i : Nat) (w : Wid) : M (Nat × Nat) := do
  let p ← getP c i
  let a := longAddr p w 0
  if misaligned w a.1 a.2 then pcheck 6
  pure a

/-- Advance P`i` one unit (R149, R181). -/
def unitStep (c i : Nat) (w : Wid) : M Unit := do
  let p ← getP c i
  putP c i (ptrStep p w 1)

/-- One string unit: what it does and the unit's value (R181, R182). -/
abbrev StrUnit := M Nat

/-- The unit of SMOV. -/
def unitMov (c : Nat) (w : Wid) : StrUnit := do
  let a ← unitAt c 4 w
  let xa ← xlateM c true 1 a.1
  let b ← unitAt c 5 w
  let xb ← xlateM c true 2 b.1
  let v ← load c xa a.2 w false
  store c xb b.2 w v false
  unitStep c 4 w
  unitStep c 5 w
  pure v

/-- The unit of SCMP. -/
def unitCmp (c : Nat) (w : Wid) : StrUnit := do
  let a ← unitAt c 4 w
  let xa ← xlateM c true 1 a.1
  let b ← unitAt c 5 w
  let xb ← xlateM c true 1 b.1
  let v ← load c xa a.2 w false
  let u ← load c xb b.2 w false
  setFlags c (aluSub w.bits v u 0).2
  unitStep c 4 w
  unitStep c 5 w
  pure v

/-- The unit of SSCAN, given s. -/
def unitScan (c : Nat) (w : Wid) (v : Nat) : StrUnit := do
  let b ← unitAt c 5 w
  let xb ← xlateM c true 1 b.1
  let u ← load c xb b.2 w false
  setFlags c (aluSub w.bits u v 0).2
  unitStep c 5 w
  pure u

/-- The unit of SSTO, given s. -/
def unitSto (c : Nat) (w : Wid) (v : Nat) : StrUnit := do
  let b ← unitAt c 5 w
  let xb ← xlateM c true 2 b.1
  store c xb b.2 w v false
  unitStep c 5 w
  pure v

/-- The unit of SLOD, given its destination. -/
def unitLod (c : Nat) (w : Wid) (r : Rdy) : StrUnit := do
  let a ← unitAt c 4 w
  let xa ← xlateM c true 1 a.1
  let v ← load c xa a.2 w false
  unitStep c 4 w
  writeOp c false r v
  pure v

/-- The early end that a repeat prefix names, given Z and the unit's value (R131, R182). -/
def repEnds (p : Nat) (z : Bool) (v : Nat) : Bool :=
  match p with
  | 0o741 => z
  | 0o742 => !z
  | 0o743 => v == 0
  | _ => false

/-- G12 (R182). -/
def State.g12 (s : State) (c : Nat) : Nat := (vget (s.core c).cur.g 12 0).toNat

/-- A stop between units leaves the units before it in force, the PSW naming the string instruction (R183, R184). -/
def betweenUnits {α : Type} (c : Nat) (d : Dec) (m : M α) : M α := fun s =>
  match m.run s with
  | .ok r => .ok r
  | .error e =>
    let k := s.core c
    let at_ := s.setCore c (k.setPsw (pswSetIa k.psw (pswIa k.psw + 2 ^ 38 - d.len)))
    .error { e with keep := some (e.keep.getD at_) }

/-- Units while G12 is not 0, at most as many as G12 gives (R182): `src` reads s before the first unit; `done` follows the end. -/
def strRun (c : Nat) (d : Dec) (p : Nat) (src : M Nat) (unit : Nat → StrUnit) (done : M Unit) : Nat → Option Nat → M Unit
  | 0, _ => done
  | n + 1, v => do
    let s ← get
    match (s.core c).nextIrq with
    | some i => do
      rewind c d
      betweenUnits c { d with len := 0 } (doStall fun s => s.asyncEnter c i)
    | none => do
      let r ← betweenUnits c d (do
        let v ← match v with
          | some v => pure v
          | none => src
        let u ← unit v
        modify fun s =>
          let k := s.core c
          let b := k.cur
          s.setCore c (k.setCur { b with g := vset b.g 12 (w36 (s.g12 c - 1)) })
        pure (v, u))
      let s ← get
      if repEnds p (s.flags c).z r.2 then done else strRun c d p src unit done n (some r.1)

/-- The pointer update of an operand in mode 0o10 or 0o11, made at the end of a repeated string instruction on the register as
the units left it (R137, R185); with G12 = 0 at entry P4 and P5 stay (R182). -/
def lateUpdate (c : Nat) (none_ : Bool) (o : DOp) : M Unit :=
  match o.form with
  | .mem mode reg _ => do
    let p ← getP c reg
    if none_ && (reg == 4 || reg == 5) then pure ()
    else if mode = 0o10 then putP c reg (ptrStep p o.wid 1)
    else if mode = 0o11 then putP c reg (ptrStep p o.wid (-1))
    else pure ()
  | _ => pure ()

/-- A string instruction (R181-R185): without a repeat prefix one unit, its operand formed first; with one, units while G12
lasts, the operand formed once and not updated until the end. -/
def State.isaStr (s : State) (t : Tmpl) (n : Insn) (hasSrc : Bool) (unit : Dec → List Rdy → Nat → StrUnit) :
    Host.Outcome State Fault Refusal :=
  let c := n.core.val
  s.isaEnd c (s.insnD t n fun d =>
    match d.rep with
    | none => do
      let fs ← formM c d.ops
      let rs ← readyOps c false fs
      let v ← if hasSrc then readOp c false (opAt rs 0) else pure 0
      let _ ← unit d rs v
    | some p => do
      let s ← get
      let k := s.core c
      let fs := (formOps (s.sfBase c) (pswIa k.psw) k d.ops).1
      let src : M Nat := if hasSrc then do
          let rs ← readyOps c false fs
          readOp c false (opAt rs 0)
        else pure 0
      let count := s.g12 c
      strRun c d p src (fun v => unit d (fs.map fun f => { f := f, xl := none }) v)
        (d.ops.forM (lateUpdate c (count == 0))) count none)

/-- SMOV (R181). -/
def execSmov (n : Insn) (s : State) : Host.Outcome State Fault Refusal :=
  s.isaStr (prim 0o240 [] wAll [0o740, 0o743]) n false fun d _ _ => unitMov n.core.val d.wid
/-- SCMP (R181). -/
def execScmp (n : Insn) (s : State) : Host.Outcome State Fault Refusal :=
  s.isaStr (prim 0o241 [] wAll [0o741, 0o742]) n false fun d _ _ => unitCmp n.core.val d.wid
/-- SSCAN (R181). -/
def execSscan (n : Insn) (s : State) : Host.Outcome State Fault Refusal :=
  s.isaStr (prim 0o242 [ow .s .i] wAll [0o741, 0o742]) n true fun d _ v => unitScan n.core.val d.wid v
/-- SSTO (R181). -/
def execSsto (n : Insn) (s : State) : Host.Outcome State Fault Refusal :=
  s.isaStr (prim 0o243 [ow .s .i] wAll [0o740]) n true fun d _ v => unitSto n.core.val d.wid v
/-- SLOD (R181). -/
def execSlod (n : Insn) (s : State) : Host.Outcome State Fault Refusal :=
  s.isaStr (prim 0o244 [ow .d .i] wAll [0o740, 0o743]) n false fun d rs _ => unitLod n.core.val d.wid (opAt rs 0)

end Sys2Proof.Machine
end

