-- ==== Sys2Proof/Machine/Triptych.lean ====
section
/-! DEFINITION. What happens to a triptych: outvoted panels, halts, takeover and restart (R373-R382). -/

namespace Sys2Proof.Machine

open Sys2Proof

/-- PANEL_OUTVOTE (R373-R376). -/
def execPanelOutvote (t : Trip) (a b c : Word) (test : PanelTest) (s : State) : Host.Outcome State Fault Refusal :=
  ends (s.whenAlive fun s => s.panelOutvote t a b c test)

/-- PANEL_RELOAD_DONE (R374, R375). -/
def execPanelReloadDone (t : Trip) (upset : Option (Fin 3 × Fin 4194304 × Word)) (test : PanelTest) (s : State) :
    Host.Outcome State Fault Refusal :=
  ends (s.whenAlive fun s => s.panelReload t (upset.map fun x => (x.1.val, x.2.1.val, x.2.2)) test)

/-- TRIPTYCH_TAKEOVER (R377). -/
def execTriptychTakeover (t : Trip) (s : State) : Host.Outcome State Fault Refusal := ends (s.whenAlive fun s => s.takeover t)

/-- TRIPTYCH_RESTART (R379). -/
def execTriptychRestart (t : Trip) (s : State) : Host.Outcome State Fault Refusal := ends (s.whenAlive fun s => s.tripRestart t)

/-- TRIPTYCH_RESTART_DONE (R379). -/
def execTriptychRestartDone (t : Trip) (pass : Bool) (s : State) : Host.Outcome State Fault Refusal :=
  ends (s.whenAlive fun s => s.restartDone t pass)

/-- SUPERVISOR_ONLY_RESET (R382). -/
def execSupervisorOnlyReset (s : State) : Host.Outcome State Fault Refusal := ends (s.whenAlive fun s => s.superReset false)

/-- SUPERVISOR_ONLY_RESET_DONE (R382). -/
def execSupervisorOnlyResetDone (pass : Bool) (s : State) : Host.Outcome State Fault Refusal :=
  ends (s.whenAlive fun s => s.superDone pass)

end Sys2Proof.Machine
end

