-- ==== Sys2Proof/Machine/Dispatch.lean ====
section
/-! DEFINITION. One arm per command: each calls that command's own meaning. -/

namespace Sys2Proof.Machine

open Sys2Proof

/-- The effect of a command on everything but the queue. -/
def exec (i : Instr) (s : State) : Host.Outcome State Fault Refusal :=
  match i with
  | .mov n => Sys2Proof.Machine.execMov n s
  | .movz n => Sys2Proof.Machine.execMovz n s
  | .movx n => Sys2Proof.Machine.execMovx n s
  | .xchg n => Sys2Proof.Machine.execXchg n s
  | .cas n => Sys2Proof.Machine.execCas n s
  | .lda n => Sys2Proof.Machine.execLda n s
  | .movp n => Sys2Proof.Machine.execMovp n s
  | .ptag n => Sys2Proof.Machine.execPtag n s
  | .padd n => Sys2Proof.Machine.execPadd n s
  | .psub n => Sys2Proof.Machine.execPsub n s
  | .pcmp n => Sys2Proof.Machine.execPcmp n s
  | .add n => Sys2Proof.Machine.execAdd n s
  | .adc n => Sys2Proof.Machine.execAdc n s
  | .sub n => Sys2Proof.Machine.execSub n s
  | .sbc n => Sys2Proof.Machine.execSbc n s
  | .neg n => Sys2Proof.Machine.execNeg n s
  | .cmp n => Sys2Proof.Machine.execCmp n s
  | .inc n => Sys2Proof.Machine.execInc n s
  | .dec n => Sys2Proof.Machine.execDec n s
  | .mul n => Sys2Proof.Machine.execMul n s
  | .mulu n => Sys2Proof.Machine.execMulu n s
  | .mulh n => Sys2Proof.Machine.execMulh n s
  | .mulhu n => Sys2Proof.Machine.execMulhu n s
  | .muld n => Sys2Proof.Machine.execMuld n s
  | .muldu n => Sys2Proof.Machine.execMuldu n s
  | .div n => Sys2Proof.Machine.execDiv n s
  | .divu n => Sys2Proof.Machine.execDivu n s
  | .rem n => Sys2Proof.Machine.execRem n s
  | .remu n => Sys2Proof.Machine.execRemu n s
  | .divd n => Sys2Proof.Machine.execDivd n s
  | .divdu n => Sys2Proof.Machine.execDivdu n s
  | .abs n => Sys2Proof.Machine.execAbs n s
  | .min n => Sys2Proof.Machine.execMin n s
  | .max n => Sys2Proof.Machine.execMax n s
  | .minu n => Sys2Proof.Machine.execMinu n s
  | .maxu n => Sys2Proof.Machine.execMaxu n s
  | .and n => Sys2Proof.Machine.execAnd n s
  | .or n => Sys2Proof.Machine.execOr n s
  | .xor n => Sys2Proof.Machine.execXor n s
  | .not n => Sys2Proof.Machine.execNot n s
  | .andn n => Sys2Proof.Machine.execAndn n s
  | .test n => Sys2Proof.Machine.execTest n s
  | .shl n => Sys2Proof.Machine.execShl n s
  | .shr n => Sys2Proof.Machine.execShr n s
  | .sar n => Sys2Proof.Machine.execSar n s
  | .rol n => Sys2Proof.Machine.execRol n s
  | .ror n => Sys2Proof.Machine.execRor n s
  | .shld n => Sys2Proof.Machine.execShld n s
  | .shrd n => Sys2Proof.Machine.execShrd n s
  | .btst n => Sys2Proof.Machine.execBtst n s
  | .bset n => Sys2Proof.Machine.execBset n s
  | .bclr n => Sys2Proof.Machine.execBclr n s
  | .bflip n => Sys2Proof.Machine.execBflip n s
  | .clz n => Sys2Proof.Machine.execClz n s
  | .ctz n => Sys2Proof.Machine.execCtz n s
  | .popc n => Sys2Proof.Machine.execPopc n s
  | .bext n => Sys2Proof.Machine.execBext n s
  | .bins n => Sys2Proof.Machine.execBins n s
  | .beq n => Sys2Proof.Machine.execBeq n s
  | .bne n => Sys2Proof.Machine.execBne n s
  | .blt n => Sys2Proof.Machine.execBlt n s
  | .bge n => Sys2Proof.Machine.execBge n s
  | .ble n => Sys2Proof.Machine.execBle n s
  | .bgt n => Sys2Proof.Machine.execBgt n s
  | .blo n => Sys2Proof.Machine.execBlo n s
  | .bhs n => Sys2Proof.Machine.execBhs n s
  | .bls n => Sys2Proof.Machine.execBls n s
  | .bhi n => Sys2Proof.Machine.execBhi n s
  | .bvs n => Sys2Proof.Machine.execBvs n s
  | .bvc n => Sys2Proof.Machine.execBvc n s
  | .bmi n => Sys2Proof.Machine.execBmi n s
  | .bpl n => Sys2Proof.Machine.execBpl n s
  | .br n => Sys2Proof.Machine.execBr n s
  | .loop n => Sys2Proof.Machine.execLoop n s
  | .loopu n => Sys2Proof.Machine.execLoopu n s
  | .loopg n => Sys2Proof.Machine.execLoopg n s
  | .call n => Sys2Proof.Machine.execCall n s
  | .ret n => Sys2Proof.Machine.execRet n s
  | .retn n => Sys2Proof.Machine.execRetn n s
  | .push n => Sys2Proof.Machine.execPush n s
  | .pop n => Sys2Proof.Machine.execPop n s
  | .enter n => Sys2Proof.Machine.execEnter n s
  | .leave n => Sys2Proof.Machine.execLeave n s
  | .smov n => Sys2Proof.Machine.execSmov n s
  | .scmp n => Sys2Proof.Machine.execScmp n s
  | .sscan n => Sys2Proof.Machine.execSscan n s
  | .ssto n => Sys2Proof.Machine.execSsto n s
  | .slod n => Sys2Proof.Machine.execSlod n s
  | .xcmp n => Sys2Proof.Machine.execXcmp n s
  | .xexp n => Sys2Proof.Machine.execXexp n s
  | .xcip n => Sys2Proof.Machine.execXcip n s
  | .xkeyUnwrap n => Sys2Proof.Machine.execXkeyUnwrap n s
  | .xkeyGenerate n => Sys2Proof.Machine.execXkeyGenerate n s
  | .xkeyFree n => Sys2Proof.Machine.execXkeyFree n s
  | .fadd n => Sys2Proof.Machine.execFadd n s
  | .fsub n => Sys2Proof.Machine.execFsub n s
  | .fmul n => Sys2Proof.Machine.execFmul n s
  | .fdiv n => Sys2Proof.Machine.execFdiv n s
  | .fsqrt n => Sys2Proof.Machine.execFsqrt n s
  | .fma n => Sys2Proof.Machine.execFma n s
  | .fms n => Sys2Proof.Machine.execFms n s
  | .fnma n => Sys2Proof.Machine.execFnma n s
  | .fnms n => Sys2Proof.Machine.execFnms n s
  | .fmin n => Sys2Proof.Machine.execFmin n s
  | .fmax n => Sys2Proof.Machine.execFmax n s
  | .fabs n => Sys2Proof.Machine.execFabs n s
  | .fneg n => Sys2Proof.Machine.execFneg n s
  | .fcpys n => Sys2Proof.Machine.execFcpys n s
  | .fcmp n => Sys2Proof.Machine.execFcmp n s
  | .fcmps n => Sys2Proof.Machine.execFcmps n s
  | .fmov n => Sys2Proof.Machine.execFmov n s
  | .fclass n => Sys2Proof.Machine.execFclass n s
  | .frnd n => Sys2Proof.Machine.execFrnd n s
  | .lfpc n => Sys2Proof.Machine.execLfpc n s
  | .sfpc n => Sys2Proof.Machine.execSfpc n s
  | .cvtws n => Sys2Proof.Machine.execCvtws n s
  | .cvtwd n => Sys2Proof.Machine.execCvtwd n s
  | .cvtls n => Sys2Proof.Machine.execCvtls n s
  | .cvtld n => Sys2Proof.Machine.execCvtld n s
  | .cvtsw n => Sys2Proof.Machine.execCvtsw n s
  | .cvtdw n => Sys2Proof.Machine.execCvtdw n s
  | .cvtsl n => Sys2Proof.Machine.execCvtsl n s
  | .cvtdl n => Sys2Proof.Machine.execCvtdl n s
  | .cvtsd n => Sys2Proof.Machine.execCvtsd n s
  | .cvtds n => Sys2Proof.Machine.execCvtds n s
  | .fence n => Sys2Proof.Machine.execFence n s
  | .fenceLl n => Sys2Proof.Machine.execFenceLl n s
  | .fenceSs n => Sys2Proof.Machine.execFenceSs n s
  | .fenceLs n => Sys2Proof.Machine.execFenceLs n s
  | .fenceC n => Sys2Proof.Machine.execFenceC n s
  | .preload n => Sys2Proof.Machine.execPreload n s
  | .isync n => Sys2Proof.Machine.execIsync n s
  | .cwb n => Sys2Proof.Machine.execCwb n s
  | .czero n => Sys2Proof.Machine.execCzero n s
  | .svc n => Sys2Proof.Machine.execSvc n s
  | .brk n => Sys2Proof.Machine.execBrk n s
  | .rdclk n => Sys2Proof.Machine.execRdclk n s
  | .getf n => Sys2Proof.Machine.execGetf n s
  | .setf n => Sys2Proof.Machine.execSetf n s
  | .ioIn n => Sys2Proof.Machine.execIoIn n s
  | .ioOut n => Sys2Proof.Machine.execIoOut n s
  | .ssch n => Sys2Proof.Machine.execSsch n s
  | .tsch n => Sys2Proof.Machine.execTsch n s
  | .hsch n => Sys2Proof.Machine.execHsch n s
  | .csch n => Sys2Proof.Machine.execCsch n s
  | .msch n => Sys2Proof.Machine.execMsch n s
  | .rsch n => Sys2Proof.Machine.execRsch n s
  | .stsch n => Sys2Proof.Machine.execStsch n s
  | .tinvA n => Sys2Proof.Machine.execTinvA n s
  | .tinvS n => Sys2Proof.Machine.execTinvS n s
  | .tinvV n => Sys2Proof.Machine.execTinvV n s
  | .tinvbA n => Sys2Proof.Machine.execTinvbA n s
  | .tinvbS n => Sys2Proof.Machine.execTinvbS n s
  | .tinvbV n => Sys2Proof.Machine.execTinvbV n s
  | .cinv n => Sys2Proof.Machine.execCinv n s
  | .cinvAll n => Sys2Proof.Machine.execCinvAll n s
  | .cwbi n => Sys2Proof.Machine.execCwbi n s
  | .cwbAll n => Sys2Proof.Machine.execCwbAll n s
  | .preloadL n => Sys2Proof.Machine.execPreloadL n s
  | .cunlk n => Sys2Proof.Machine.execCunlk n s
  | .savu n => Sys2Proof.Machine.execSavu n s
  | .savl n => Sys2Proof.Machine.execSavl n s
  | .rstu n => Sys2Proof.Machine.execRstu n s
  | .rstl n => Sys2Proof.Machine.execRstl n s
  | .iret n => Sys2Proof.Machine.execIret n s
  | .lpsw n => Sys2Proof.Machine.execLpsw n s
  | .spsw n => Sys2Proof.Machine.execSpsw n s
  | .wait n => Sys2Proof.Machine.execWait n s
  | .xcoreQuery n => Sys2Proof.Machine.execXcoreQuery n s
  | .xcorePost n => Sys2Proof.Machine.execXcorePost n s
  | .xcorePause n => Sys2Proof.Machine.execXcorePause n s
  | .xcoreResume n => Sys2Proof.Machine.execXcoreResume n s
  | .xcoreWake n => Sys2Proof.Machine.execXcoreWake n s
  | .spri n => Sys2Proof.Machine.execSpri n s
  | .lctl n => Sys2Proof.Machine.execLctl n s
  | .sctl n => Sys2Proof.Machine.execSctl n s
  | .lbnk n => Sys2Proof.Machine.execLbnk n s
  | .sbnk n => Sys2Proof.Machine.execSbnk n s
  | .lslim n => Sys2Proof.Machine.execLslim n s
  | .sslim n => Sys2Proof.Machine.execSslim n s
  | .interruptionAccept c => Sys2Proof.Machine.execInterruptionAccept c s
  | .clockComparator c => Sys2Proof.Machine.execClockComparator c s
  | .storeBufferDrain c => Sys2Proof.Machine.execStoreBufferDrain c s
  | .gatherTimeout c => Sys2Proof.Machine.execGatherTimeout c s
  | .windowZeroLengthReadDone c => Sys2Proof.Machine.execWindowZeroLengthReadDone c s
  | .deviceInCompletion c data ep => Sys2Proof.Machine.execDeviceInCompletion c data ep s
  | .quiescePoint sh => Sys2Proof.Machine.execQuiescePoint sh s
  | .residencyClean c line parityError => Sys2Proof.Machine.execResidencyClean c line parityError s
  | .cacheDisable x => Sys2Proof.Machine.execCacheDisable x s
  | .cacheEnable x => Sys2Proof.Machine.execCacheEnable x s
  | .cacheDrainDone x => Sys2Proof.Machine.execCacheDrainDone x s
  | .gets h q line count ask => Sys2Proof.Machine.execGets h q line count ask s
  | .getm h q line count ask => Sys2Proof.Machine.execGetm h q line count ask s
  | .getz h q line count ask => Sys2Proof.Machine.execGetz h q line count ask s
  | .putm h q line data ask => Sys2Proof.Machine.execPutm h q line data ask s
  | .pute h q line ask => Sys2Proof.Machine.execPute h q line ask s
  | .mclean h q line count ask => Sys2Proof.Machine.execMclean h q line count ask s
  | .mflush h q line count ask => Sys2Proof.Machine.execMflush h q line count ask s
  | .mpurge h q line count ask => Sys2Proof.Machine.execMpurge h q line count ask s
  | .readnc h r line count ask => Sys2Proof.Machine.execReadnc h r line count ask s
  | .writenc h r line count mask words ask => Sys2Proof.Machine.execWritenc h r line count mask words ask s
  | .atomnc h r line count op dbl word operand ask => Sys2Proof.Machine.execAtomnc h r line count op dbl word operand ask s
  | .done h q line final => Sys2Proof.Machine.execDone h q line final s
  | .sdata h q line data dirty => Sys2Proof.Machine.execSdata h q line data dirty s
  | .rdata h q line data dirty => Sys2Proof.Machine.execRdata h q line data dirty s
  | .homeInvack h q line => Sys2Proof.Machine.execHomeInvack h q line s
  | .datas q line data exclusive => Sys2Proof.Machine.execDatas q line data exclusive s
  | .datam q line data n => Sys2Proof.Machine.execDatam q line data n s
  | .grantm q line n => Sys2Proof.Machine.execGrantm q line n s
  | .invack q line => Sys2Proof.Machine.execInvack q line s
  | .putack q line => Sys2Proof.Machine.execPutack q line s
  | .staleack q line => Sys2Proof.Machine.execStaleack q line s
  | .retry r line count => Sys2Proof.Machine.execRetry r line count s
  | .requestReissue r line => Sys2Proof.Machine.execRequestReissue r line s
  | .fwdgets q line requester => Sys2Proof.Machine.execFwdgets q line requester s
  | .fwdgetm q line requester n => Sys2Proof.Machine.execFwdgetm q line requester n s
  | .inv q line collector => Sys2Proof.Machine.execInv q line collector s
  | .recall q line => Sys2Proof.Machine.execRecall q line s
  | .snp q line clean => Sys2Proof.Machine.execSnp q line clean s
  | .datanc r line data => Sys2Proof.Machine.execDatanc r line data s
  | .cmpnc r line old => Sys2Proof.Machine.execCmpnc r line old s
  | .homeTimeout h line => Sys2Proof.Machine.execHomeTimeout h line s
  | .quireTimeout q line => Sys2Proof.Machine.execQuireTimeout q line s
  | .l2RetentionWake q => Sys2Proof.Machine.execL2RetentionWake q s
  | .webPortFail t p => Sys2Proof.Machine.execWebPortFail t p s
  | .instructionRetry c cause line => Sys2Proof.Machine.execInstructionRetry c cause line s
  | .attemptsClear c => Sys2Proof.Machine.execAttemptsClear c s
  | .shed c cause line => Sys2Proof.Machine.execShed c cause line s
  | .couchFenced c => Sys2Proof.Machine.execCouchFenced c s
  | .spareWakeDone c pass => Sys2Proof.Machine.execSpareWakeDone c pass s
  | .stateTransferDone c => Sys2Proof.Machine.execStateTransferDone c s
  | .spareRelease c => Sys2Proof.Machine.execSpareRelease c s
  | .panelOutvote t a b c test => Sys2Proof.Machine.execPanelOutvote t a b c test s
  | .panelReloadDone t upset test => Sys2Proof.Machine.execPanelReloadDone t upset test s
  | .triptychTakeover t => Sys2Proof.Machine.execTriptychTakeover t s
  | .triptychRestart t => Sys2Proof.Machine.execTriptychRestart t s
  | .triptychRestartDone t pass => Sys2Proof.Machine.execTriptychRestartDone t pass s
  | .supervisorOnlyReset => Sys2Proof.Machine.execSupervisorOnlyReset s
  | .supervisorOnlyResetDone pass => Sys2Proof.Machine.execSupervisorOnlyResetDone pass s
  | .memcRead m ls first second => Sys2Proof.Machine.execMemcRead m ls first second s
  | .memcWrite m ls data => Sys2Proof.Machine.execMemcWrite m ls data s
  | .deferredPoison m => Sys2Proof.Machine.execDeferredPoison m s
  | .patrolScrub m first second => Sys2Proof.Machine.execPatrolScrub m first second s
  | .patrolRepair m ls data => Sys2Proof.Machine.execPatrolRepair m ls data s
  | .rowSpareDone m pc bank row errs => Sys2Proof.Machine.execRowSpareDone m pc bank row errs s
  | .migrationStart m die => Sys2Proof.Machine.execMigrationStart m die s
  | .migrationCopy m half first second spareFails => Sys2Proof.Machine.execMigrationCopy m half first second spareFails s
  | .recalibration m pc fails => Sys2Proof.Machine.execRecalibration m pc fails s
  | .refresh m pc bank row => Sys2Proof.Machine.execRefresh m pc bank row s
  | .stackTempSample m temp => Sys2Proof.Machine.execStackTempSample m temp s
  | .easelAccess t bank reqs portB errors => Sys2Proof.Machine.execEaselAccess t bank reqs portB errors s
  | .easelScrub t addr errors => Sys2Proof.Machine.execEaselScrub t addr errors s
  | .easelRetention t ret => Sys2Proof.Machine.execEaselRetention t ret s
  | .easelWakeDone t bank => Sys2Proof.Machine.execEaselWakeDone t bank s
  | .slotGrant v => Sys2Proof.Machine.execSlotGrant v s
  | .packetFetch n => Sys2Proof.Machine.execPacketFetch n s
  | .xack m status dstat moved => Sys2Proof.Machine.execXack m status dstat moved s
  | .xdata m octets last poison => Sys2Proof.Machine.execXdata m octets last poison s
  | .record m found lastGen highCseq status => Sys2Proof.Machine.execRecord m found lastGen highCseq status s
  | .ackTimeout n => Sys2Proof.Machine.execAckTimeout n s
  | .pathWaitTimeout n => Sys2Proof.Machine.execPathWaitTimeout n s
  | .haltTimeout n => Sys2Proof.Machine.execHaltTimeout n s
  | .subchannelMove n => Sys2Proof.Machine.execSubchannelMove n s
  | .pathUpdate l => Sys2Proof.Machine.execPathUpdate l s
  | .vatRestart v => Sys2Proof.Machine.execVatRestart v s
  | .dataFlit l lane h crcGood => Sys2Proof.Machine.execDataFlit l lane h crcGood s
  | .idleFlit l lane h crcGood => Sys2Proof.Machine.execIdleFlit l lane h crcGood s
  | .replayTimeout l => Sys2Proof.Machine.execReplayTimeout l s
  | .ackTimer l => Sys2Proof.Machine.execAckTimer l s
  | .linkIdentify l words => Sys2Proof.Machine.execLinkIdentify l words s
  | .sleep l => Sys2Proof.Machine.execSleep l s
  | .sleepAck l => Sys2Proof.Machine.execSleepAck l s
  | .sleepIdle l => Sys2Proof.Machine.execSleepIdle l s
  | .linkWake l => Sys2Proof.Machine.execLinkWake l s
  | .laneLoss l lane => Sys2Proof.Machine.execLaneLoss l lane s
  | .detectPoll l found => Sys2Proof.Machine.execDetectPoll l found s
  | .trainingTimeout l => Sys2Proof.Machine.execTrainingTimeout l s
  | .trainingDone l => Sys2Proof.Machine.execTrainingDone l s
  | .linkEnWrite l en => Sys2Proof.Machine.execLinkEnWrite l en s
  | .wwrite m devaddr octets poison => Sys2Proof.Machine.execWwrite m devaddr octets poison s
  | .sessionSense m => Sys2Proof.Machine.execSessionSense m s
  | .xreqReject m code => Sys2Proof.Machine.execXreqReject m code s
  | .windowArm t w => Sys2Proof.Machine.execWindowArm t w s
  | .calJobStart t => Sys2Proof.Machine.execCalJobStart t s
  | .calJobEnd t queue => Sys2Proof.Machine.execCalJobEnd t queue s
  | .calSlotPreempt t => Sys2Proof.Machine.execCalSlotPreempt t s
  | .calSlotStart t slot => Sys2Proof.Machine.execCalSlotStart t slot s
  | .varJobStart t => Sys2Proof.Machine.execVarJobStart t s
  | .varJobEnd t queue => Sys2Proof.Machine.execVarJobEnd t queue s
  | .varSlotPreempt t => Sys2Proof.Machine.execVarSlotPreempt t s
  | .varSlotStart t slot => Sys2Proof.Machine.execVarSlotStart t slot s
  | .configRequest f reg write be => Sys2Proof.Machine.execConfigRequest f reg write be s
  | .bar0Write f off value => Sys2Proof.Machine.execBar0Write f off value s
  | .crtailDoorbell tail => Sys2Proof.Machine.execCrtailDoorbell tail s
  | .svrst first second within => Sys2Proof.Machine.execSvrst first second within s
  | .bar2Read word count portAWrites uncorrectable => Sys2Proof.Machine.execBar2Read word count portAWrites uncorrectable s
  | .bar2Write off octets enables ep => Sys2Proof.Machine.execBar2Write off octets enables ep s
  | .htailDoorbell q tail => Sys2Proof.Machine.execHtailDoorbell q tail s
  | .h2sMove q octets ep => Sys2Proof.Machine.execH2sMove q octets ep s
  | .s2hMove q => Sys2Proof.Machine.execS2hMove q s
  | .stailDoorbell q tail => Sys2Proof.Machine.execStailDoorbell q tail s
  | .completionTimeout q => Sys2Proof.Machine.execCompletionTimeout q s
  | .msiSend f vector => Sys2Proof.Machine.execMsiSend f vector s
  | .busMasterEnableClear f => Sys2Proof.Machine.execBusMasterEnableClear f s
  | .flr f => Sys2Proof.Machine.execFlr f s
  | .hotReset => Sys2Proof.Machine.execHotReset s
  | .perstNAssert ns => Sys2Proof.Machine.execPerstNAssert ns s
  | .perstNDeassert => Sys2Proof.Machine.execPerstNDeassert s
  | .aspmL1Entry => Sys2Proof.Machine.execAspmL1Entry s
  | .aspmL0sEntry => Sys2Proof.Machine.execAspmL0sEntry s
  | .rootpConfigIssue p v => Sys2Proof.Machine.execRootpConfigIssue p v s
  | .rootpConfigCompletion p stat data => Sys2Proof.Machine.execRootpConfigCompletion p stat data s
  | .inboundRequest p r => Sys2Proof.Machine.execInboundRequest p r s
  | .containment p cause hdr => Sys2Proof.Machine.execContainment p cause hdr s
  | .containmentRelease p => Sys2Proof.Machine.execContainmentRelease p s
  | .rootpWindowArm p w => Sys2Proof.Machine.execRootpWindowArm p w s
  | .rootpLinkEnable p en => Sys2Proof.Machine.execRootpLinkEnable p en s
  | .consolePacketTake octets ep => Sys2Proof.Machine.execConsolePacketTake octets ep s
  | .identify h => Sys2Proof.Machine.execIdentify h s
  | .setVersion h version => Sys2Proof.Machine.execSetVersion h version s
  | .moduleStatus h => Sys2Proof.Machine.execModuleStatus h s
  | .opRelease h token => Sys2Proof.Machine.execOpRelease h token s
  | .opAbort h token => Sys2Proof.Machine.execOpAbort h token s
  | .sheetQuery h sheet => Sys2Proof.Machine.execSheetQuery h sheet s
  | .sheetStart h sheet start => Sys2Proof.Machine.execSheetStart h sheet start s
  | .sheetStop h sheet => Sys2Proof.Machine.execSheetStop h sheet s
  | .sheetReset h sheet flags => Sys2Proof.Machine.execSheetReset h sheet flags s
  | .masterRelease h type ident mode => Sys2Proof.Machine.execMasterRelease h type ident mode s
  | .sheetNotice h sheet value => Sys2Proof.Machine.execSheetNotice h sheet value s
  | .wmQuery h => Sys2Proof.Machine.execWmQuery h s
  | .authNonce h => Sys2Proof.Machine.execAuthNonce h s
  | .watermarkCommit h assign => Sys2Proof.Machine.execWatermarkCommit h assign s
  | .watermarkRevert h => Sys2Proof.Machine.execWatermarkRevert h s
  | .stageDiscard h => Sys2Proof.Machine.execStageDiscard h s
  | .flashWriteDone ok => Sys2Proof.Machine.execFlashWriteDone ok s
  | .commitWave => Sys2Proof.Machine.execCommitWave s
  | .coreQuery h core => Sys2Proof.Machine.execCoreQuery h core s
  | .coreRestart h core => Sys2Proof.Machine.execCoreRestart h core s
  | .coreRetest h core pass => Sys2Proof.Machine.execCoreRetest h core pass s
  | .supervisorRestart h level number => Sys2Proof.Machine.execSupervisorRestart h level number s
  | .ckptRead h core kind selector => Sys2Proof.Machine.execCkptRead h core kind selector s
  | .faultScan h scope tile => Sys2Proof.Machine.execFaultScan h scope tile s
  | .faultInject h addr core source => Sys2Proof.Machine.execFaultInject h addr core source s
  | .faultClear h addr core mask => Sys2Proof.Machine.execFaultClear h addr core mask s
  | .linkQuery h tile group lane => Sys2Proof.Machine.execLinkQuery h tile group lane s
  | .linkReset h tile group lane => Sys2Proof.Machine.execLinkReset h tile group lane s
  | .regRead h addr count core => Sys2Proof.Machine.execRegRead h addr count core s
  | .regWrite h addr count core values => Sys2Proof.Machine.execRegWrite h addr count core values s
  | .shadowRead h addr count => Sys2Proof.Machine.execShadowRead h addr count s
  | .memRead h sheet addr words buffer image => Sys2Proof.Machine.execMemRead h sheet addr words buffer image s
  | .memWrite h sheet addr words octets ep image => Sys2Proof.Machine.execMemWrite h sheet addr words octets ep image s
  | .memZero h sheet addr words => Sys2Proof.Machine.execMemZero h sheet addr words s
  | .calJob h sheet expand block => Sys2Proof.Machine.execCalJob h sheet expand block s
  | .dieMigrate h tile controller die => Sys2Proof.Machine.execDieMigrate h tile controller die s
  | .heldAccessRetry a => Sys2Proof.Machine.execHeldAccessRetry a s
  | .accessTimeout c => Sys2Proof.Machine.execAccessTimeout c s
  | .heartbeat => Sys2Proof.Machine.execHeartbeat s
  | .stagingChunk keyMatches sigValid => Sys2Proof.Machine.execStagingChunk keyMatches sigValid s
  | .faultEvent b src info line flips others => Sys2Proof.Machine.execFaultEvent b src info line flips others s
  | .finjWrite b v => Sys2Proof.Machine.execFinjWrite b v s
  | .injectionFire b real => Sys2Proof.Machine.execInjectionFire b real s
  | .resetShadowEnd b => Sys2Proof.Machine.execResetShadowEnd b s
  | .blockResetEnd b => Sys2Proof.Machine.execBlockResetEnd b s
  | .quireReset q => Sys2Proof.Machine.execQuireReset q s
  | .tileReset t => Sys2Proof.Machine.execTileReset t s
  | .pwrokRise bootsrc => Sys2Proof.Machine.execPwrokRise bootsrc s
  | .pwrokFall ns => Sys2Proof.Machine.execPwrokFall ns s
  | .vauxLoss => Sys2Proof.Machine.execVauxLoss s
  | .vinFault millivolts => Sys2Proof.Machine.execVinFault millivolts s
  | .modResetNAssert ns => Sys2Proof.Machine.execModResetNAssert ns s
  | .moduleResetHoldEnd => Sys2Proof.Machine.execModuleResetHoldEnd s
  | .rstModKey first second within => Sys2Proof.Machine.execRstModKey first second within s
  | .refclkLoss => Sys2Proof.Machine.execRefclkLoss s
  | .pllUnlock => Sys2Proof.Machine.execPllUnlock s
  | .gessoStepEnd copyA copyB trainFails failedCores failedPorts spares => Sys2Proof.Machine.execGessoStepEnd copyA copyB trainFails failedCores failedPorts spares s
  | .thermalSample temps => Sys2Proof.Machine.execThermalSample temps s
  | .lfiFrame amps shedding => Sys2Proof.Machine.execLfiFrame amps shedding s
  | .largeStepGrant => Sys2Proof.Machine.execLargeStepGrant s
  | .largeStepBegin => Sys2Proof.Machine.execLargeStepBegin s
  | .stepChange q step => Sys2Proof.Machine.execStepChange q step s
  | .stepChangeDone q => Sys2Proof.Machine.execStepChangeDone q s
  | .clockStretch q => Sys2Proof.Machine.execClockStretch q s
  | .stretchEnd q => Sys2Proof.Machine.execStretchEnd q s
  | .powerGateTimeout c => Sys2Proof.Machine.execPowerGateTimeout c s
  | .smbaddrSample addr => Sys2Proof.Machine.execSmbaddrSample addr s
  | .smbusIdent => Sys2Proof.Machine.execSmbusIdent s
  | .smbusStatus => Sys2Proof.Machine.execSmbusStatus s
  | .smbusTemp => Sys2Proof.Machine.execSmbusTemp s
  | .smbusVin => Sys2Proof.Machine.execSmbusVin s
  | .smbusIin => Sys2Proof.Machine.execSmbusIin s
  | .smbusLastrst => Sys2Proof.Machine.execSmbusLastrst s
  | .bypass => Sys2Proof.Machine.execBypass s
  | .idcode => Sys2Proof.Machine.execIdcode s
  | .samplePreload => Sys2Proof.Machine.execSamplePreload s
  | .extest => Sys2Proof.Machine.execExtest s
  | .extestPulse => Sys2Proof.Machine.execExtestPulse s
  | .extestTrain => Sys2Proof.Machine.execExtestTrain s
  | .highz => Sys2Proof.Machine.execHighz s
  | .clamp => Sys2Proof.Machine.execClamp s
  | .readClear r => Sys2Proof.Machine.execReadClear r s
  | .registerWrite r value console => Sys2Proof.Machine.execRegisterWrite r value console s
  | .quireCmp q line => Sys2Proof.Machine.execQuireCmp q line s
  | .partnerLeave l => Sys2Proof.Machine.execPartnerLeave l s

end Sys2Proof.Machine
end

