-- ==== Sys2Proof/WellFormed.lean ====
section
/-! DEFINITION. Which commands are well formed: the checks that the types of the operands do not make already. -/

namespace Sys2Proof

/-- The core instruction of a command, none for an event (R128). -/
def Instr.insn : Instr → Option Insn
  | .mov n | .movz n | .movx n | .xchg n | .cas n | .lda n | .movp n | .ptag n | .padd n | .psub n | .pcmp n | .add n
  | .adc n | .sub n | .sbc n | .neg n | .cmp n | .inc n | .dec n | .mul n | .mulu n | .mulh n | .mulhu n | .muld n
  | .muldu n | .div n | .divu n | .rem n | .remu n | .divd n | .divdu n | .abs n | .min n | .max n | .minu n
  | .maxu n | .and n | .or n | .xor n | .not n | .andn n | .test n | .shl n | .shr n | .sar n | .rol n | .ror n
  | .shld n | .shrd n | .btst n | .bset n | .bclr n | .bflip n | .clz n | .ctz n | .popc n | .bext n | .bins n
  | .beq n | .bne n | .blt n | .bge n | .ble n | .bgt n | .blo n | .bhs n | .bls n | .bhi n | .bvs n | .bvc n
  | .bmi n | .bpl n | .br n | .loop n | .loopu n | .loopg n | .call n | .ret n | .retn n | .push n | .pop n
  | .enter n | .leave n | .smov n | .scmp n | .sscan n | .ssto n | .slod n | .xcmp n | .xexp n | .xcip n
  | .xkeyUnwrap n | .xkeyGenerate n | .xkeyFree n | .fadd n | .fsub n | .fmul n | .fdiv n | .fsqrt n | .fma n
  | .fms n | .fnma n | .fnms n | .fmin n | .fmax n | .fabs n | .fneg n | .fcpys n | .fcmp n | .fcmps n | .fmov n
  | .fclass n | .frnd n | .lfpc n | .sfpc n | .cvtws n | .cvtwd n | .cvtls n | .cvtld n | .cvtsw n | .cvtdw n
  | .cvtsl n | .cvtdl n | .cvtsd n | .cvtds n | .fence n | .fenceLl n | .fenceSs n | .fenceLs n | .fenceC n
  | .preload n | .isync n | .cwb n | .czero n | .svc n | .brk n | .rdclk n | .getf n | .setf n | .ioIn n | .ioOut n
  | .ssch n | .tsch n | .hsch n | .csch n | .msch n | .rsch n | .stsch n | .tinvA n | .tinvS n | .tinvV n | .tinvbA n
  | .tinvbS n | .tinvbV n | .cinv n | .cinvAll n | .cwbi n | .cwbAll n | .preloadL n | .cunlk n | .savu n | .savl n
  | .rstu n | .rstl n | .iret n | .lpsw n | .spsw n | .wait n | .xcoreQuery n | .xcorePost n | .xcorePause n
  | .xcoreResume n | .xcoreWake n | .spri n | .lctl n | .sctl n | .lbnk n | .sbnk n | .lslim n | .sslim n => some n
  | _ => none

/-- The nonets of a core instruction: prefixes are 0o740 to 0o757, the opcode is one nonet that is no prefix, or two after
0o777, and an instruction has at most 15 nonets (R128, R131, R138-R140). -/
def Insn.wf (n : Insn) : Bool :=
  let pfx (x : BitVec 9) : Bool := decide (0o740 ≤ x.toNat ∧ x.toNat ≤ 0o757)
  n.pre.all pfx &&
    (match n.opc with
     | [x] => !pfx x && x != 0o777
     | [x, _] => x == 0o777
     | _ => false) &&
    decide (n.pre.length + n.opc.length + n.ops.length ≤ 15)

/-- A link begins at a lane of its group: 8 lanes in groups A and B, 2 in group C (R26, R463). -/
def linkOk (l : LinkId) : Bool := l.group.val < 2 || l.lane.val < 2

/-- A felt message body has at most 4,096 octets (R477). -/
def bodyOk (os : List Octet) : Bool := decide (os.length ≤ 4096)

/-- The accesses of one bank cycle: one per master slot, all of the bank (R411). -/
def reqsOk (bank : Fin 32) (rs : List EaselReq) : Bool :=
  decide ((rs.map fun r => r.slot).Nodup) && rs.all fun r => r.addr.val % 32 == bank.val

/-- Port B reaches only the dual-ported words of bank 0 (R412). -/
def portOk (p : Option EaselPortB) : Bool :=
  match p with | some x => x.addr.val % 32 == 0 && decide (x.addr.val < 2097152) | none => true

/-- The length of an inbound write is that of its octets (R570). -/
def inboundOk (r : InboundReq) : Bool :=
  match r.write with | some os => decide (r.len = os.length) | none => true

/-- The number of fault sources of a block (R622). -/
def sourceCount : Blk → Nat
  | .core _ | .retry _ | .l2 _ | .qtrip _ | .ttrip _ | .mtrip | .home _ | .stack _ | .easel _ | .linkgrp _ _ => 3
  | .quire _ | .qpwr _ | .vat _ | .var _ | .rootp _ _ | .endpt | .web _ _ | .deckle | .pwr | .clk | .therm => 2
  | .dir _ => 4
  | .memc _ => 5
  | .cal _ | .wmark | .lfi | .rst | .ident => 1

/-- The master of a request at a home is one that a freeze record can name (R71, R72). -/
def askOk (a : Ask) : Bool :=
  match a.master.type.val with
  | 1 => decide (a.master.ident.val < 192)
  | 2 => decide (a.master.ident.val < 65536)
  | 3 => decide (a.master.ident.val % 2 ^ 14 < 64)
  | 4 => true
  | 5 => decide (a.master.ident.val < 64)
  | _ => false

/-- A well-formed command. -/
def Instr.wf (i : Instr) : Bool :=
  match i.insn, i with
  | some n, _ => n.wf
  | none, .easelAccess _ bank reqs portB _ => reqsOk bank reqs && portOk portB
  | none, .xdata m os _ _ => linkOk m.link && bodyOk os
  | none, .wwrite m _ os _ => linkOk m.link && bodyOk os
  | none, .xack m _ _ mv => linkOk m.link && decide (mv < 2 ^ 36)
  | none, .record m _ _ _ _ => linkOk m.link
  | none, .sessionSense m => linkOk m.link
  | none, .xreqReject m _ => linkOk m.link
  | none, .inboundRequest _ r => inboundOk r
  | none, .consolePacketTake os _ => decide (os.length = 256)
  | none, .bar2Read w n _ _ => decide (w.val + n.val ≤ 65536)
  | none, .bar2Write off os en _ => decide (en.length = os.length) && decide (off.val + os.length ≤ 524288)
  | none, .h2sMove _ os _ => decide (os.length = 72)
  | none, .regWrite _ _ n _ vs => decide (vs.length = n.toNat)
  | none, .faultEvent b src _ _ _ os => (src :: os.map (·.1)).all fun i => decide (i.val < sourceCount b)
  | none, .atomnc _ _ _ _ _ dbl w _ a => askOk a && (!dbl || w.val % 2 == 0)
  | none, .gets _ _ _ _ a | none, .getm _ _ _ _ a | none, .getz _ _ _ _ a | none, .putm _ _ _ _ a | none, .pute _ _ _ a
  | none, .mclean _ _ _ _ a | none, .mflush _ _ _ _ a | none, .mpurge _ _ _ _ a | none, .readnc _ _ _ _ a
  | none, .writenc _ _ _ _ _ _ a => askOk a
  | none, .gessoStepEnd _ _ f cs _ sp => decide f.Nodup && decide cs.Nodup && decide (sp.map (·.1)).Nodup
  | none, .pathUpdate l | none, .dataFlit l _ _ _ | none, .idleFlit l _ _ _ | none, .replayTimeout l | none, .ackTimer l
  | none, .linkIdentify l _ | none, .sleep l | none, .sleepAck l | none, .sleepIdle l | none, .linkWake l
  | none, .laneLoss l _ | none, .detectPoll l _ | none, .trainingTimeout l | none, .trainingDone l
  | none, .linkEnWrite l _ | none, .partnerLeave l => linkOk l
  | none, _ => true

end Sys2Proof
end

