-- ==== Sys2Proof/Safety.lean ====
section
/-! DEFINITION. The terms in which claims about runs are stated: a state between commands, a core that begins an instruction,
operands that can be read, and what an instruction leaves when it deposits a result. -/

namespace Sys2Proof.Machine

open Sys2Proof

/-- Nothing is outstanding: no fault reaction or notice waits to be carried out, no work waits for a line, and no sheet reset waits
for a couching (R367, R372, R613). What follows a command's own effect is then nothing. -/
def State.Quiet (s : State) : Prop := s.reacts = [] ∧ s.waits = [] ∧ ∀ o ∈ s.longOps, o.op ≠ 0x13

/-- What an instruction of core `c` begun in `s` leaves once its own effect has given `t`: a COUCH notice that waited for the core's
first instruction is due, and what follows any command follows (R367, R613). -/
def State.after (s : State) (c : Nat) (t : State) : State := (if s.waits.isEmpty then t else t.ran c).follow

/-- What an instruction of core `c` begun in `s` leaves where it is stopped with the state `k` kept: the stop is carried out once the
older stores have drained, and has to wait, with nothing begun, while a line is busy (R249, R282). -/
def State.stops (s : State) (c : Nat) (k : State) (t : Trap) : State :=
  match k.takeTrap c t with
  | none => s.follow
  | some r => s.after c r

/-- What an instruction of core `c` begun in `s` leaves where a stop met in the state `met` undoes it (R165, R184). -/
def State.trapped (s : State) (c : Nat) (met : State) (t : Trap) : State := s.stops c (s.undone c met) t

/-- The state with the flags of core `c` replaced (R162). -/
def State.withFlags (s : State) (c : Nat) (f : Flg) : State :=
  s.setCore c ((s.core c).setPsw (pswSetFlags (s.core c).psw f))

/-- The state with the instruction address of core `c` replaced (R89). -/
def State.withIa (s : State) (c a : Nat) : State := s.setCore c ((s.core c).setPsw (pswSetIa (s.core c).psw a))

/-- The state with pointer register `i` of the current bank of core `c` replaced. -/
def State.withP (s : State) (c i : Nat) (v : DWord) : State :=
  s.setCore c ((s.core c).setCur { (s.core c).cur with p := vset (s.core c).cur.p i v })

/-- Pointer register `i` of the current bank of core `c`. -/
def State.ptr (s : State) (c i : Nat) : DWord := vget (s.core c).cur.p i 0

/-- The state with FPC of core `c` replaced (R214). -/
def State.withFpc (s : State) (c : Nat) (w : Word) : State := s.setCore c { s.core c with fpc := w }

/-- The state with a condition code in the flags of core `c`: CC 0 sets Z alone, CC 1 V, CC 2 C, CC 3 both C and V (R194). -/
def State.withCc (s : State) (c cc : Nat) : State :=
  s.withFlags c { n := false, z := decide (cc = 0), c := decide (cc = 2 ∨ cc = 3), v := decide (cc = 1 ∨ cc = 3) }

/-- The state with control register `r` of core `c` replaced (R245). -/
def State.withCtl (s : State) (c r : Nat) (v : DWord) : State := s.setCore c ((s.core c).setCtl r v)

/-- The state with a store at a translated address committed into the store buffer of core `c` (R262, R282). -/
def State.stored (s : State) (c : Nat) (x : Xl) (nidx : Nat) (w : Wid) (v : Nat) (rel : Bool) : State :=
  s.setCore c { s.core c with stores := (s.core c).stores ++ [{
    kind := .data, addr := x.mp - x.mp % 2, mask := opMask x.mp nidx w, value := opPut x.mp nidx w v, rel := rel }] }

/-- The store buffer of core `c` has room for one more entry, of the 96 it holds (R282). -/
def State.room (s : State) (c : Nat) : Prop := (s.core c).stores.length < 96

/-- A value is stored at a translated address: the buffer has room, D of the address's leaf is set where it was not, and one store is
committed (R101, R262, R282). -/
def Stores (s : State) (c : Nat) (x : Xl) (nidx : Nat) (w : Wid) (v : Nat) (rel : Bool) (s' : State) : Prop :=
  s.room c ∧ ∃ s1, s.setD (.core c) ((s.core c).sheet.getD 64) x.leafAt = some s1 ∧ s' = s1.stored c x nidx w v rel

/-- What an operand's write leaves: a register written, or one store committed at the operand's own address (R163, R262). -/
def Deposits (s : State) (c : Nat) (rel : Bool) (r : Rdy) (v : Nat) (s' : State) : Prop :=
  match r.xl with
  | some x => Stores s c x r.f.nidx r.f.op.wid v rel s'
  | none => s' = s.setCore c (writeReg (s.core c) r.f.op.kind r.f.op.wid r.f.op.regNo v)

/-- Core `n.core` begins instruction `n` of row `t`, which decodes as `d`: it executes, its nonets are an instruction of the row and can
be fetched, and `s1` is the state once they have been, with the PSW naming the next instruction (R154-R156, R205). -/
structure Begins (t : Tmpl) (n : Insn) (s : State) (d : Dec) (s1 : State) : Prop where
  /-- The core executes instructions. -/
  runs  : s.executes n.core.val = true
  /-- The nonets are an instruction of the row. -/
  dec   : decodeInsn t (pswProb (s.core n.core.val).psw) n.pre n.opc n.ops = .ok d
  /-- The nonets can be fetched. -/
  start : ∃ s0, (fetchCheck n.core.val (pswIa (s.core n.core.val).psw) d.len).run s = .ok ((), s0) ∧
    s1 = s0.withIa n.core.val (pswIa (s.core n.core.val).psw + d.len)

/-- The operands are formed as `fs`, leaving `s'` (R150). -/
def Forms (c : Nat) (d : Dec) (s : State) (fs : List Formed) (s' : State) : Prop := (formM c d.ops).run s = .ok (fs, s')

/-- The operands of an instruction without a memory operand, by place: a register's contents, an immediate or a target (R144, R163). -/
def directVal (c : Nat) (s : State) (d : Dec) (i : Nat) : Nat :=
  ((formOps (s.sfBase c) (pswIa (s.core c).psw) (s.core c) d.ops).1.map Formed.val).getD i 0

/-- The register that the operand at place `i` names (R144). -/
def regNoAt (d : Dec) (i : Nat) : Nat := (d.ops.map DOp.regNo).getD i 0

/-- From `s`, the operands of an instruction are formed, those in memory are translated, which makes them ready as `rs` in `s2`, and
the operands from place `i` on are read as `vs`, which leaves `s'` (R118, R150); `ilock` is an interlocked access. -/
structure Reads (c : Nat) (d : Dec) (s : State) (ilock : Bool) (i : Nat) (rs : List Rdy) (s2 : State) (vs : List Nat) (s' : State) :
    Prop where
  /-- The operands are formed and translated. -/
  ready : ∃ fs s1, Forms c d s fs s1 ∧ (readyOps c ilock fs).run s1 = .ok (rs, s2)
  /-- The operands are read. -/
  read  : (readFrom c d rs i).run s2 = .ok (vs, s')

/-- A row of x and sources: for every form whose operands can be read, x ← f(width, flags, x, sources) with its flags; with ATOM on a
memory operand the same as one interlocked access; a failed check on the values traps (R150, R165, R168, R170, R187, R189). -/
def UpdRow (mk : Insn → Instr) (t : Tmpl) (f : Nat → Flg → Nat → List Nat → AluR) : Prop :=
  ∀ n s d s1, Begins t n s d s1 →
    let c := n.core.val
    (∀ rs s2 vs s', Reads c d s1 d.atom 0 rs s2 vs s' → (d.atom = false ∨ (opAt rs 0).xl = none) →
      match f d.wid.bits (s2.flags c) (srcAt vs 0) (vs.drop 1) with
      | .ok (v, fl) => ∀ s3, Deposits (s'.withFlags c fl) c d.rel (opAt rs 0) v s3 → exec (mk n) s = .next (s.after c s3)
      | .error code => exec (mk n) s = .next (s.trapped c s' (.check code []))) ∧
    (∀ rs s2 vs s' x v s'', Reads c d s1 true 1 rs s2 vs s' → d.atom = true → (opAt rs 0).xl = some x →
      (rmw c d.rel x (opAt rs 0).f.nidx (opAt rs 0).f.op.wid fun v =>
        match f d.wid.bits (s2.flags c) v vs with
        | .ok (r, _) => (some r, v)
        | .error _ => (none, v)).run s' = .ok (v, s'') →
      match f d.wid.bits (s2.flags c) v vs with
      | .ok (_, fl) => exec (mk n) s = .next (s.after c (s''.withFlags c fl))
      | .error code => exec (mk n) s = .next (s.trapped c s'' (.check code [])))

/-- A row of a destination and sources: for every form whose operands can be read, d ← f(width, flags, sources) with its flags; a failed
check on the values traps. -/
def SetRow (mk : Insn → Instr) (t : Tmpl) (f : Nat → Flg → List Nat → AluR) : Prop :=
  ∀ n s d s1, Begins t n s d s1 →
    let c := n.core.val
    ∀ rs s2 vs s', Reads c d s1 false 1 rs s2 vs s' →
      match f d.wid.bits (s2.flags c) vs with
      | .ok (v, fl) => ∀ s3, Deposits (s'.withFlags c fl) c d.rel (opAt rs 0) v s3 → exec (mk n) s = .next (s.after c s3)
      | .error code => exec (mk n) s = .next (s.trapped c s' (.check code []))

/-- A row of sources that sets flags only; a failed check on the values traps. -/
def CmpRow (mk : Insn → Instr) (t : Tmpl) (f : Nat → Flg → List Nat → Except Nat Flg) : Prop :=
  ∀ n s d s1, Begins t n s d s1 →
    let c := n.core.val
    ∀ rs s2 vs s', Reads c d s1 false 0 rs s2 vs s' →
      exec (mk n) s = .next (match f d.wid.bits (s2.flags c) vs with
        | .ok fl => s.after c (s'.withFlags c fl)
        | .error code => s.trapped c s' (.check code []))

/-- A row that writes one destination from the state and its other operands, leaving the flags; a failed check traps. -/
def DstRow (mk : Insn → Instr) (t : Tmpl) (f : Nat → State → List Nat → Except Nat Nat) : Prop :=
  ∀ n s d s1, Begins t n s d s1 →
    let c := n.core.val
    ∀ rs s2 vs s', Reads c d s1 false 1 rs s2 vs s' →
      match f c s' vs with
      | .ok v => ∀ s3, Deposits s' c d.rel (opAt rs 0) v s3 → exec (mk n) s = .next (s.after c s3)
      | .error code => exec (mk n) s = .next (s.trapped c s' (.check code []))

/-- A row whose operands are all sources: what it leaves is given by the state after they are read; a failed check traps. -/
def SrcRow (mk : Insn → Instr) (t : Tmpl) (f : Nat → State → List Nat → Except Nat State) : Prop :=
  ∀ n s d s1, Begins t n s d s1 →
    let c := n.core.val
    ∀ rs s2 vs s', Reads c d s1 false 0 rs s2 vs s' →
      exec (mk n) s = .next (match f c s' vs with
        | .ok r => s.after c r
        | .error code => s.trapped c s' (.check code []))

/-- A floating-point row of sources from place `i` on: where FPC enables none of the exceptions raised, the result is written and they
are added to the sticky flags; where it enables one of them, the instruction is undone and traps with CAUSE written (R216, R220). -/
def FpRow (mk : Insn → Instr) (t : Tmpl) (i : Nat) (f : Fmt → FEnv → List Nat → FRes) : Prop :=
  ∀ n s d s1, Begins t n s d s1 →
    let c := n.core.val
    ∀ rs s2 vs s', Reads c d s1 false i rs s2 vs s' →
      let w := (s'.core c).fpc
      let r := f (fmtOf d.wid) (fpEnv w) vs
      (field w 21 25 &&& r.2 = 0 →
        ∀ s3, Deposits (s'.withFpc c (setField w 31 35 (field w 31 35 ||| r.2))) c d.rel (opAt rs 0) r.1 s3 →
          exec (mk n) s = .next (s.after c s3)) ∧
      (field w 21 25 &&& r.2 ≠ 0 →
        let u := s.undone c s'
        exec (mk n) s = .next (s.stops c (u.withFpc c (setField (u.core c).fpc 26 30 r.2)) (.check 0o012 [])))

/-- A branch row: the instruction continues at its target when the condition holds of the flags, and otherwise at the next
instruction; nothing else changes (R173, R174). -/
def BranchRow (mk : Insn → Instr) (code : Nat) (cond : Flg → Bool) : Prop :=
  ∀ n s d s1, Begins (prim (0o200 + code) [opT] [] []) n s d s1 →
    let c := n.core.val
    exec (mk n) s = .next (s.after c (if cond (s1.flags c) then s1.withIa c (directVal c s1 d 0) else s1))

/-- A loop row: ri ← ri + step modulo 2^36, and the target is taken while the test holds of the new value; no flag changes (R175). -/
def LoopRow (mk : Insn → Instr) (code : Nat) (step : Int) (go : Nat → Bool) : Prop :=
  ∀ n s d s1, Begins (prim code [fw .r .i .wW, opT] [] []) n s d s1 →
    let c := n.core.val
    let v := wrapTo 36 ((directVal c s1 d 0 : Int) + step)
    let s2 := s1.setCore c (writeReg (s1.core c) .i .wW (regNoAt d 0) v)
    exec (mk n) s = .next (s.after c (if go v then s2.withIa c (directVal c s1 d 1) else s2))

/-- A D-space address of core `c` translates for an access of a KIND (1 read, 2 write), leaving `s'` (R117). -/
def Maps (s : State) (c kind va : Nat) (x : Xl) (s' : State) : Prop := s.xlate c true kind kind va = .ok (x, s')

/-- A translated address moved on by a number of words. -/
def Xl.plus (x : Xl) (k : Nat) : Xl := { x with sa := x.sa + k, mp := x.mp + k }

/-- P7 of core `c` admits a push that reaches `extra` doublewords below its slot: ADDR even, no wrap, and nothing below the stack
limit (R178). -/
def PushFits (s : State) (c extra : Nat) : Prop :=
  ptrAddr (s.ptr c 7) % 2 = 0 ∧ 2 + 2 * extra ≤ ptrAddr (s.ptr c 7) ∧
    ptrAddr (s.core c).cur.slim ≤ ptrAddr (s.ptr c 7) - 2 - 2 * extra

/-- A doubleword is pushed: its slot translates and takes it, and ADDR of P7 goes down to `extra` doublewords below the slot (R176,
R179). -/
def Pushes (s : State) (c v extra : Nat) (s' : State) : Prop :=
  PushFits s c extra ∧ ∃ x s1 s2, Maps s c 2 (ptrAddr (s.ptr c 7) - 2) x s1 ∧ Stores s1 c x 0 .wD v false s2 ∧
    s' = s2.withP c 7 (ptrSetAddr (s2.ptr c 7) (ptrAddr (s.ptr c 7) - 2 - 2 * extra))

/-- A doubleword at an even D-space address is popped: translated and loaded (R176). -/
def Pops (s : State) (c a v : Nat) (s' : State) : Prop :=
  a % 2 = 0 ∧ ∃ x s2, Maps s c 1 a x s2 ∧ (load c x 0 .wD false).run s2 = .ok (v, s')

/-- The state with the buffered translations of some cores that satisfy a test removed, and their walk caches emptied (R111). -/
def State.invalidated (s : State) (cs : List Nat) (p : Tlb → Bool) : State :=
  cs.foldl (fun s t => s.setCore t { s.core t with tlb := (s.core t).tlb.filter fun e => !p e, walk := [] }) s

/-- Address of the operand at place `i` of the formed operands. -/
def addrAt (fs : List Formed) (i : Nat) : Nat := (fs.map Formed.addr).getD i 0

/-- Value of the operand at place `i` of the formed operands. -/
def valAt (fs : List Formed) (i : Nat) : Nat := (fs.map Formed.val).getD i 0

/-- The head of a save-area list of core `c` at an address, translated for reading and writing (R199-R201). -/
def Heads (s : State) (c list : Nat) (x : Xl) (s' : State) : Prop :=
  ptrAddr ((s.core c).ctlReg list) ≠ 0 ∧ ptrAddr ((s.core c).ctlReg list) % 32 = 0 ∧
    ∃ y s1, Maps s c 1 (ptrAddr ((s.core c).ctlReg list)) y s1 ∧ Maps s1 c 2 (ptrAddr ((s.core c).ctlReg list)) x s'

/-- Doublewords are stored one after the other at offsets of a translated area (R252). -/
inductive Stored (c : Nat) (x : Xl) : State → List (Nat × DWord) → State → Prop where
  | nil (s : State) : Stored c x s [] s
  | cons {s s1 s' : State} {o : Nat} {v : DWord} {r : List (Nat × DWord)} :
      Stores s c (x.plus o) 0 .wD v.toNat false s1 → Stored c x s1 r s' → Stored c x s ((o, v) :: r) s'

/-- The state with P`i` of core `c` advanced one unit of a width (R149, R181). -/
def State.stepP (s : State) (c i : Nat) (w : Wid) : State := s.withP c i (ptrStep (s.ptr c i) w 1)

/-- The state with one unit counted off G12 of core `c` (R182). -/
def State.counted (s : State) (c : Nat) : State :=
  s.setCurBank c { s.curBank c with g := vset (s.curBank c).g 12 (w36 (s.g12 c - 1)) }

/-- The unit of a string instruction at P`i`, which is aligned and translates for an access of a KIND: its nonet index, its translation,
and the state that leaves (R77, R149, R181). -/
def UnitAt (s : State) (c i kind : Nat) (w : Wid) (nidx : Nat) (x : Xl) (s' : State) : Prop :=
  nidx = (longAddr (s.ptr c i) w 0).2 ∧ misaligned w (longAddr (s.ptr c i) w 0).1 nidx = false ∧
    Maps s c kind (longAddr (s.ptr c i) w 0).1 x s'

/-- The flags of the subtraction `a - b` at a width (R168). -/
def subFlags (w a b : Nat) : Flg :=
  let r := wrapTo w ((a : Int) - b)
  nzcv w r (decide (a < b)) (msb w a != msb w b && msb w r != msb w a)

/-- One unit of SMOV: the unit at P4 is stored at P5, and both advance (R181). The unit's value is given back. -/
def MovUnit (c : Nat) (w : Wid) (s : State) (v : Nat) (s' : State) : Prop :=
  ∃ i xa s1 j xb s2 s3 s4, UnitAt s c 4 1 w i xa s1 ∧ UnitAt s1 c 5 2 w j xb s2 ∧ (load c xa i w false).run s2 = .ok (v, s3) ∧
    Stores s3 c xb j w v false s4 ∧ s' = (s4.stepP c 4 w).stepP c 5 w

/-- One unit of SCMP: the flags are those of the unit at P4 minus the unit at P5, and both advance. -/
def CmpUnit (c : Nat) (w : Wid) (s : State) (v : Nat) (s' : State) : Prop :=
  ∃ i xa s1 j xb s2 s3 u s4, UnitAt s c 4 1 w i xa s1 ∧ UnitAt s1 c 5 1 w j xb s2 ∧ (load c xa i w false).run s2 = .ok (v, s3) ∧
    (load c xb j w false).run s3 = .ok (u, s4) ∧ s' = ((s4.withFlags c (subFlags w.bits v u)).stepP c 4 w).stepP c 5 w

/-- One unit of SSCAN for `v`: the flags are those of the unit at P5 minus `v`, and P5 advances. -/
def ScanUnit (c : Nat) (w : Wid) (v : Nat) (s : State) (u : Nat) (s' : State) : Prop :=
  ∃ j xb s1 s2, UnitAt s c 5 1 w j xb s1 ∧ (load c xb j w false).run s1 = .ok (u, s2) ∧
    s' = (s2.withFlags c (subFlags w.bits u v)).stepP c 5 w

/-- One unit of SSTO of `v`: it is stored at P5, which advances. -/
def StoUnit (c : Nat) (w : Wid) (v : Nat) (s : State) (u : Nat) (s' : State) : Prop :=
  ∃ j xb s1 s2, UnitAt s c 5 2 w j xb s1 ∧ Stores s1 c xb j w v false s2 ∧ u = v ∧ s' = s2.stepP c 5 w

/-- One unit of SLOD: the unit at P4 is loaded, P4 advances, and the destination takes it. -/
def LodUnit (c : Nat) (w : Wid) (r : Rdy) (s : State) (v : Nat) (s' : State) : Prop :=
  ∃ i xa s1 s2, UnitAt s c 4 1 w i xa s1 ∧ (load c xa i w false).run s1 = .ok (v, s2) ∧ Deposits (s2.stepP c 4 w) c false r v s'

/-- `n` units are to be done under repeat prefix `p`, the first of them at once. Units are done one after the other, each counted off G12,
until the prefix's early end, the count's end, or a boundary at which `m` units are left; at the boundaries before that no interruption
is accepted (R131, R182, R183). -/
inductive Units (c p : Nat) (unit : State → Nat → State → Prop) : Nat → State → Nat → State → Prop where
  | last {n v : Nat} {s s1 : State} : unit s v s1 → repEnds p ((s1.counted c).flags c).z v = true → Units c p unit (n + 1) s 0 (s1.counted c)
  | one {n v : Nat} {s s1 : State} : unit s v s1 → repEnds p ((s1.counted c).flags c).z v = false → Units c p unit (n + 1) s n (s1.counted c)
  | more {n m v : Nat} {s s1 s' : State} : unit s v s1 → repEnds p ((s1.counted c).flags c).z v = false → n ≠ 0 →
      ((s1.counted c).core c).nextIrq = none → Units c p unit n (s1.counted c) m s' → Units c p unit (n + 1) s m s'

/-- A repeated string instruction of core `c`, begun in `s`, that has read what it reads once in `s1`: what it leaves is `t` where it
does its units and the pointer update of its operand, is interrupted at a unit boundary, or has none to do (R137, R182, R183, R185). -/
inductive Repeats (c : Nat) (d : Dec) (p : Nat) (unit : State → Nat → State → Prop) (count : Nat) (s1 : State) : State → Prop where
  | ends {s2 t : State} : Units c p unit count s1 0 s2 → (d.ops.forM (lateUpdate c false)).run s2 = .ok ((), t) →
      Repeats c d p unit count s1 t
  | breaks {m : Nat} {i : Irq} {s2 t : State} : Units c p unit count s1 m s2 → m ≠ 0 → (s2.core c).nextIrq = some i →
      (s2.withIa c (pswIa (s2.core c).psw + 2 ^ 38 - d.len)).asyncEnter c i = some t → Repeats c d p unit count s1 t

/-- The operands of core `c`'s instruction, formed without their pointer updates (R137, R185). -/
def State.formed (s : State) (c : Nat) (d : Dec) : List Formed :=
  (formOps (s.sfBase c) (pswIa (s.core c).psw) (s.core c) d.ops).1

/-- The first operand of a repeated string instruction is read, once for all units (R137, R185). -/
def ReadsOnce (c : Nat) (d : Dec) (s : State) (v : Nat) (s' : State) : Prop :=
  ∃ rs s1, (readyOps c false (s.formed c d)).run s = .ok (rs, s1) ∧ (readOp c false (opAt rs 0)).run s1 = .ok (v, s')

/-- A string row under a repeat prefix, whose operand is read by `src` and whose units are `unit`: with G12 = 0 only an operand's own
pointer is updated, unless that is P4 or P5; a pending interruption that qualifies is accepted before the first unit, with the PSW at
the instruction; otherwise it repeats (R137, R182-R185). -/
def RepeatRow (mk : Insn → Instr) (t : Tmpl) (src : Nat → Dec → State → Nat → State → Prop)
    (unit : Nat → Dec → State → Nat → State → Nat → State → Prop) : Prop :=
  ∀ n s d s1 p, Begins t n s d s1 → d.rep = some p →
    let c := n.core.val
    (s1.g12 c = 0 → ∀ t, (d.ops.forM (lateUpdate c true)).run s1 = .ok ((), t) → exec (mk n) s = .next (s.after c t)) ∧
    (∀ i t, 0 < s1.g12 c → (s1.core c).nextIrq = some i →
      (s1.withIa c (pswIa (s1.core c).psw + 2 ^ 38 - d.len)).asyncEnter c i = some t → exec (mk n) s = .next (s.after c t)) ∧
    (∀ v s2 t, 0 < s1.g12 c → (s1.core c).nextIrq = none → src c d s1 v s2 →
      Repeats c d p (unit c d s1 v) (s1.g12 c) s2 t → exec (mk n) s = .next (s.after c t))

/-- What an instruction leaves that core `c` holds at block `b` in reset, with `next` the address after it: nothing else of it has
happened, and the holds of the module keep their order (R43, R429, R505). -/
def State.heldBy (s : State) (c : Nat) (i : Instr) (b : Blk) (next : Nat) : State :=
  ({ s.setCore c { s.core c with run := .held i b next s.heldSeq } with heldSeq := s.heldSeq + 1 } : State).follow

/-- A channel instruction `i` begun in `s` has reached, in `s4`, the point where its subchannel's vat acts: CC 3 where the core's sheet
does not own the subchannel, a wait where the vat is in reset, and otherwise the condition code and the state that `act` gives (R429,
R430). -/
def AtVat (s : State) (n : Insn) (i : Instr) (sub : Nat) (s4 : State) (act : Nat → State → Prop) : Prop :=
  let c := n.core.val
  let own := s4.ownsSub ((s4.core c).sheet.getD 64) sub
  let b := vatBlk (s4.subVat sub)
  (own = false → exec i s = .next (s.after c (s4.withCc c 3))) ∧
  (own = true → b ∈ s4.inReset → exec i s = .next (s.heldBy c i b (pswIa (s4.core c).psw))) ∧
  (own = true → b ∉ s4.inReset → ∀ cc t, act cc t → exec i s = .next (s.after c (t.withCc c cc)))

/-- The first condition in order that holds gives the condition code with nothing done; where none holds, the order is done (R430). -/
def Answers (s : State) (tests : List (Nat × Prop)) (done : State → Prop) (cc : Nat) (t : State) : Prop :=
  (∃ a p b, tests = a ++ (cc, p) :: b ∧ p ∧ (∀ x ∈ a, ¬ x.2) ∧ t = s) ∨ (cc = 0 ∧ (∀ x ∈ tests, ¬ x.2) ∧ done t)

/-- Words are stored one after the other from word `i` of a block, leaving `s'` (R433, R434, R505). -/
def Wrote (s : State) (c : Nat) (r : MArea) (i : Nat) (ws : List Word) (s' : State) : Prop :=
  ∃ ss : List State, ss.length = ws.length + 1 ∧ ss.head? = some s ∧ ss.getLast? = some s' ∧
    ∀ k w a b, ws[k]? = some w → ss[k]? = some a → ss[k + 1]? = some b → Stores a c (r.at_ (i + k)) 0 .wW w.toNat false b

/-- A request of kind `k` arrives at home `h`, as the only one of its CK_WEB cycle, for a line that is free to run it: the slice serves,
the asking sheet owns the line's region, nothing runs or waits on the line, and an entry it needs is there. `s1` is the state once the
requester's own record of the request and the rotation pointer have taken note of it (R56, R317, R326-R328, R339). -/
structure Arrives (s : State) (h r l : Nat) (k : ReqKind) (cnt : Nat) (a : Ask) (s1 : State) : Prop where
  /-- The home and the line's sheet serve. -/
  live  : s.lineLive h l = true
  /-- The line belongs to the sheet of the request's tag. -/
  owned : s.regionOwner (l / 2 ^ 24) = some a.sheet.val
  /-- No other request for the line is in the cycle. -/
  alone : a.more = false ∧ ∀ x ∈ (s.home h).arrivals, x.1 ≠ l
  /-- The state in which the home takes the request. -/
  noted : s1 = (s.issued r l k cnt).setHome h { s.home h with ptr := (r + 1) % 40 }
  /-- Nothing runs or queues on the line. -/
  idle  : (s1.dirE h l).txn = none ∧ (s1.dirE h l).queue = []
  /-- Nothing waits for the line. -/
  clear : ∀ w ∈ (s1.home h).waiting, w.1 ≠ l
  /-- A request that needs an entry finds a way of the set free and not reserved. -/
  way   : k.allocates = true → (s1.dirE h l).st = .di → (s1.dirSetEntries h l).length < 16 ∧ s1.reservedSet h l = false

/-- What a home leaves that has taken request of `r` for line `l`: the request has left the order of those at count 64, and what can
complete or start behind it does (R326, R335, R340). -/
def State.tookReq (s : State) (h r l : Nat) : State := ({ s with order64 := s.order64.erase (r, h, l) } : State).homeAfter h l

/-- A request as its home keeps it. -/
def reqOf (k : ReqKind) (r cnt : Nat) (data : Option Line) : HReq := { kind := k, who := r, cnt := cnt, data := data }

/-- Firmware carries out a console command of an opcode (R577-R580, R594): it interprets commands, the packet in hand is this one, its
version is selected, and it is unsigned or correctly signed; `s1` is the state without the nonce that a signed command consumed. -/
structure Hears (h : ConHdr) (op ver : Nat) (s s1 : State) : Prop where
  /-- Firmware interprets console commands. -/
  up   : s.consoleUp = true
  /-- The packet in hand, if there is one, carries the opcode. -/
  mine : ∀ t, s.taken = some t → t.opcode = op
  /-- The opcode's version is selected. -/
  ver  : ver ≤ s.conVer
  /-- It is unsigned, or its signature verifies against a nonce, which it consumes. -/
  sig  : (h.sig = .none ∧ s1 = s) ∨ (h.sig = .valid ∧ s.nonce ≠ none ∧ s1 = ({ s with nonce := none } : State))

/-- The state in which a long command runs: it holds token slot `k`, and its PENDING reply with the slot's token is out (R577, R583,
R586). -/
def State.started (s : State) (h : ConHdr) (op target k : Nat) : State :=
  let seq := ((s.slotStat k).1 + 1) % 256
  let s1 := s.setSlot k seq 1 0 0
  ({ s1 with longOps := s1.longOps ++ [{ slot := k, op := op, target := target, reply := none }] } : State).reply h.tag 1 (seq * 256 + k) []

/-- A register access of the console path is held at its block in reset, behind those already held there (R44, R590). -/
def State.heldAtPort (s : State) (i : HeldReg) : State :=
  { s with portHeld := s.portHeld ++ [(i, s.clock.toNat, s.heldSeq)], heldSeq := s.heldSeq + 1 }

/-- A fault source that does nothing but record: no error in a cached line, and no agent that it shows dead (R290, R293, R343, R612). -/
def plainSource : Blk → Nat → Bool
  | .core _, 1 | .core _, 2 | .l2 _, 0 | .l2 _, 1 | .l2 _, 2 | .home _, 0 | .home _, 1 => false
  | .dir _, 2 | .dir _, 3 | .quire _, 0 | .quire _, 1 => false
  | _, _ => true

end Sys2Proof.Machine
end

