-- ==== Sys2Proof/Certificates/Slice0/Obligations.lean ====
section
/-! DEFINITION. The statements for the provers, one def each: what a step does, what each command does and leaves, and the rules of
the spec over the whole machine. A row's statement gives the next state under conditions on the state and operands alone, so it is
the row's completion and its frame at once. -/

open Sys2Proof Sys2Proof.Machine

/-- A step takes the command at the front of the queue and is its effect on the state with the queue's rest; on an empty queue a cycle of
the supervisor clock passes and nothing else (DESIGN CHOICE, log entry 2). -/
def Obligations.StepRunsFrontCommand : Prop :=
  (∀ (c : Instr) (s : State), step ({ s with pending := c :: s.pending }) = exec c s) ∧
  (∀ s : State, s.pending = [] → step s = .next { s with clock := s.clock + 1 })


/-- R240, R243, R258, R605, R606, R625: what reset leaves. No command waits and no reaction is outstanding; a core is at level 0, whose bank
is busy with UP 1 and MASK 7, and the PSW of every other bank, the gesso bank among them, is zero and the bank free; its count of gesso
traps is zero and nothing is pending or buffered; no status or mask bit of any fault register is set; PERST_N is asserted and the first
step of a cold start runs. The PSW of the gesso bank, which no rule gives, is the model's choice (log entry 1). -/
def Obligations.ResetState : Prop :=
  State.reset.pending = [] ∧ State.reset.reacts = [] ∧ State.reset.waits = [] ∧ State.reset.phase = .gesso 1 true ∧
  State.reset.endpt.perst = true ∧
  (∀ c < 192, let k := State.reset.core c
    k.level = 0 ∧ k.spills = 0 ∧ k.gesso = false ∧ (k.bank 0).busy = true ∧
      pswUp k.psw = true ∧ pswMask k.psw = 7 ∧ pswProb k.psw = false ∧ pswDat k.psw = false ∧ pswOk k.psw = true ∧
      (∀ l, l ≠ 0 → (k.bank l).busy = false ∧ (k.bank l).psw = 0) ∧ k.pend = [] ∧ k.stores = [] ∧ k.tlb = [] ∧ k.gather = none) ∧
  (∀ b : Blk, ∀ i < 36, State.reset.rbit b 0o777700 i = false ∧ State.reset.rbit b 0o777701 i = false)

/-- R377, R381, R612, R613: no step leaves a fault reaction outstanding that is due: whatever reactions a command causes, and those that
follow from them, are carried out within its step, but one that a halted supervisor has to carry out, which is paused. Where nothing is
outstanding, nothing follows a command's own effect. That reactions wait for the end of the command's own effect is the model's reading
(log entry 65). -/
def Obligations.StepsLeaveNoReaction : Prop :=
  (∀ s t : State, (∀ x ∈ s.reacts, s.reactDue x = false) → step s = .next t → ∀ x ∈ t.reacts, t.reactDue x = false) ∧
  (∀ s : State, s.Quiet → s.follow = s)

/-- No step ends in a fault, and the only refusal is of nonets that are no instruction of the row they were given to, in a core that executes;
everything else has an effect. The refusal is the model's choice (log entry 27). -/
def Obligations.OnlyWrongNonetsAreRefused : Prop :=
  ∀ s : State, (∀ f, step s ≠ .fault f) ∧
    (∀ r, step s = .refused r → r = .notThisInstruction ∧
      ∃ c rest n, s.pending = c :: rest ∧ c.insn = some n ∧ s.executes n.core.val = true)


/-- R205, R351, R600: an instruction given to a core that does not execute (one that waits, is stopped, frozen, cold or held, or whose sheet
does not run) changes nothing. That such a command is taken and does nothing is the model's choice (log entry 27). -/
def Obligations.StoppedCoresIgnoreInstructions : Prop :=
  ∀ (i : Instr) (n : Insn) (s : State), i.insn = some n → s.executes n.core.val = false → exec i s = .next s


/-- R249: entering a level. The bank of the level is busy with a PSW built from the vector entry and the PSW of the level left: PROB, DAT
and the instruction address from the entry, UP from the old PSW, CHAIN 1, SPL as told, LEVEL and PLVL, MASK the largest of the three, flags
and reserved fields zero. IRECL takes code, parameter and information; the bank's other registers, the other banks, the other control
registers and everything else of the core stay. -/
def Obligations.InterruptionEntry : Prop :=
  ∀ (k : Core) (vec : DWord) (l code sub param : Nat) (info : Word) (spl : Bool), l < 8 → k.level < 8 → code < 512 → sub < 512 →
    param < 2 ^ 18 →
    let t := k.enter vec l code sub param info spl
    let p := (t.bank l).psw
    t.level = l ∧ (t.bank l).busy = true ∧
      pswProb p = pswProb vec ∧ pswDat p = pswDat vec ∧ pswUp p = pswUp k.psw ∧ pswChain p = true ∧ pswSpl p = spl ∧
      field p 8 10 = l ∧ pswPlvl p = k.level ∧ pswMask p = Nat.max l (Nat.max (pswMask k.psw) (pswMask vec)) ∧
      field p 16 17 = field vec 16 17 ∧ field p 32 35 = 0 ∧ field p 36 71 = field vec 36 71 ∧ pswOk p = true ∧
      (field (t.ctlReg (0o10 + l)) 0 8 = code ∧ field (t.ctlReg (0o10 + l)) 9 17 = sub ∧ field (t.ctlReg (0o10 + l)) 18 35 = param ∧
        field (t.ctlReg (0o10 + l)) 36 71 = info.toNat) ∧
      (∀ r, r ≠ 0o10 + l → t.ctlReg r = k.ctlReg r) ∧ (∀ i, i ≠ l → t.bank i = k.bank i) ∧
      (t.bank l).g = (k.bank l).g ∧ (t.bank l).p = (k.bank l).p ∧ (t.bank l).slim = (k.bank l).slim ∧
      { t with banks := k.banks, ctl := k.ctl, level := k.level } = k


/-- R104, R106: sheets never share memory. Where no two valid entries of two different sheets' deckle maps name one region, no
sheet-absolute address of one sheet and of another map to one module-physical address, and within a region the map keeps the offset. -/
def Obligations.SheetsShareNoMemory : Prop :=
  ∀ (s : State) (a b : Nat), a ≠ b →
    (∀ i j, i < 1024 → j < 1024 → dbit (s.reg .deckle (0o100000 + 0o2000 * a + i)) 0 = true →
      dbit (s.reg .deckle (0o100000 + 0o2000 * b + j)) 0 = true →
      field (s.reg .deckle (0o100000 + 0o2000 * a + i)) 26 35 ≠ field (s.reg .deckle (0o100000 + 0o2000 * b + j)) 26 35) →
    ∀ x y m m', s.deckleMap a x = some m → s.deckleMap b y = some m' →
      m ≠ m' ∧ m / 2 ^ 28 ≠ m' / 2 ^ 28 ∧ m % 2 ^ 28 = x % 2 ^ 28 ∧ m < 2 ^ 38

/-- R141, R155, R159: every instruction of the secondary page but IN and OUT is privileged. In problem state, once its prefixes are
prefixes, its opcode nonets are its own and the nonets up to them can be fetched, it is the program check 0o002 with the check code and
the position of its opcode in CORE_DECINFO, whatever its operands are, and nothing else of it happens. -/
def Obligations.PrivilegedInstructionsTrap : Prop :=
  ∀ q ∈ [(Instr.iret, secd 0o060 []), (.lpsw, secd 0o061 [opM]), (.spsw, secd 0o062 [opM]), (.wait, secd 0o063 []),
      (.xcoreQuery, secd 0o064 [fw .r .i .wW, fw .s .i .wW]), (.xcorePost, secd 0o064 [fw .r .i .wW, fw .s .i .wW]),
      (.xcorePause, secd 0o064 [fw .r .i .wW, fw .s .i .wW]), (.xcoreResume, secd 0o064 [fw .r .i .wW, fw .s .i .wW]),
      (.xcoreWake, secd 0o064 [fw .r .i .wW, fw .s .i .wW]), (.spri, secd 0o065 [fw .s .i .wW]),
      (.lctl, secd 0o070 [fw .s .i .wW, fw .s .i .wD]), (.sctl, secd 0o071 [fw .d .i .wD, fw .s .i .wW]),
      (.lbnk, secd 0o072 [fw .d .i .wD, fw .s .i .wW]), (.sbnk, secd 0o073 [fw .s .i .wW, fw .s .i .wD]),
      (.lslim, secd 0o074 [fw .s .i .wD]), (.sslim, secd 0o075 [fw .d .i .wD]),
      (.savu, secd 0o050 []), (.savl, secd 0o051 []), (.rstu, secd 0o052 []), (.rstl, secd 0o053 []),
      (.tinvA, secd 0o030 []), (.tinvS, secd 0o031 [fw .s .i .wW]), (.tinvV, secd 0o032 [fw .r .i .wW, fw .r .p .wD]),
      (.tinvbA, secd 0o033 []), (.tinvbS, secd 0o034 [fw .s .i .wW]), (.tinvbV, secd 0o035 [fw .r .i .wW, fw .r .p .wD]),
      (.cinv, secd 0o040 [opM]), (.cinvAll, secd 0o041 []), (.cwbi, secd 0o042 [opM]), (.cwbAll, secd 0o043 []),
      (.preloadL, secd 0o044 [opM, fw .s .i .wW]), (.cunlk, secd 0o045 [fw .s .i .wW]),
      (.ssch, rowChanM 0o020), (.tsch, rowChanM 0o021), (.hsch, rowChan 0o022), (.csch, rowChan 0o023), (.msch, rowChanM 0o024),
      (.rsch, rowChan 0o025), (.stsch, rowChanM 0o026)],
    ∀ (n : Insn) (s s0 : State) ps, s.executes n.core.val = true → pswProb (s.core n.core.val).psw = true →
      decPre [] 0 n.pre = .ok ps → decOpc q.2 ps.length n.opc = .ok () →
      (fetchCheck n.core.val (pswIa (s.core n.core.val).psw) (ps.length + 2)).run s = .ok ((), s0) →
      exec (q.1 n) s =
        .next (s.trapped n.core.val s0 (.check 2 [(0o207, decInfo n.opc 2 (ps.length + 1) 0o05)]))

/-- R168: ADD, ADC, SUB, SBC, NEG, INC and DEC complete on every form whose operands can be read, with the result modulo 2^w and the
flags of R162; CMP sets the flags of a subtraction and nothing else. Overflow is by the signs of the operands and the result.
R168: the multiplications complete on every form whose operands can be read: the low bits with C = V when the product does not
fit, the high bits, and the 72-bit product of two words. -/
def Obligations.AddSubtractMultiplyRows : Prop :=
  (UpdRow .add (rowX 0o040 preAtom) (fun w _ x ss =>
     let y := srcAt ss 0
     let r := (x + y) % 2 ^ w
     .ok (r, nzcv w r (decide (2 ^ w ≤ x + y)) (msb w x == msb w y && msb w r != msb w x))) ∧
   UpdRow .adc (rowX 0o041 preMem) (fun w old x ss =>
     let y := srcAt ss 0
     let r := (x + y + b2n old.c) % 2 ^ w
     .ok (r, nzcv w r (decide (2 ^ w ≤ x + y + b2n old.c)) (msb w x == msb w y && msb w r != msb w x))) ∧
   UpdRow .sub (rowX 0o042 preAtom) (fun w _ x ss =>
     let y := srcAt ss 0
     let r := wrapTo w ((x : Int) - y)
     .ok (r, nzcv w r (decide (x < y)) (msb w x != msb w y && msb w r != msb w x))) ∧
   UpdRow .sbc (rowX 0o043 preMem) (fun w old x ss =>
     let y := srcAt ss 0
     let r := wrapTo w ((x : Int) - y - b2n old.c)
     .ok (r, nzcv w r (decide (x < y + b2n old.c)) (msb w x != msb w y && msb w r != msb w x))) ∧
   UpdRow .neg (prim 0o044 [ow .x .i] wAll preMem) (fun w _ x _ =>
     let r := wrapTo w (-(x : Int))
     .ok (r, nzcv w r (decide (x ≠ 0)) (decide (x % 2 ^ w = 2 ^ (w - 1))))) ∧
   UpdRow .inc (prim 0o046 [ow .x .i] wAll preAtom) (fun w old x _ =>
     let r := (x + 1) % 2 ^ w
     .ok (r, nzcv w r old.c (decide (r = 2 ^ (w - 1))))) ∧
   UpdRow .dec (prim 0o047 [ow .x .i] wAll preAtom) (fun w old x _ =>
     let r := wrapTo w ((x : Int) - 1)
     .ok (r, nzcv w r old.c (decide (r = 2 ^ (w - 1) - 1)))) ∧
   CmpRow .cmp (prim 0o045 [ow .s .i, ow .s .i] wAll [pACQ]) (fun w _ ss =>
     let x := srcAt ss 0
     let y := srcAt ss 1
     let r := wrapTo w ((x : Int) - y)
     .ok (nzcv w r (decide (x < y)) (msb w x != msb w y && msb w r != msb w x)))) ∧
  (UpdRow .mul (rowXd 0o050) (fun w _ x ss =>
     let p := signedOf w x * signedOf w (srcAt ss 0)
     let r := x * srcAt ss 0 % 2 ^ w
     .ok (r, nzcv w r (decide (signedOf w r ≠ p)) (decide (signedOf w r ≠ p)))) ∧
   UpdRow .mulu (rowXd 0o051) (fun w _ x ss =>
     let r := x * srcAt ss 0 % 2 ^ w
     .ok (r, nzcv w r (decide (r ≠ x * srcAt ss 0)) (decide (r ≠ x * srcAt ss 0)))) ∧
   UpdRow .mulh (rowXd 0o052) (fun w _ x ss =>
     let r := wrapTo w (signedOf w x * signedOf w (srcAt ss 0) / (2 ^ w : Nat))
     .ok (r, nzcv w r false false)) ∧
   UpdRow .mulhu (rowXd 0o053) (fun w _ x ss =>
     let r := x * srcAt ss 0 / 2 ^ w % 2 ^ w
     .ok (r, nzcv w r false false)) ∧
   SetRow .muld (rowMuld 0o054) (fun _ _ ss =>
     let r := wrapTo 72 (signedOf 36 (srcAt ss 0) * signedOf 36 (srcAt ss 1))
     .ok (r, nzcv 72 r false false)) ∧
   SetRow .muldu (rowMuld 0o055) (fun _ _ ss =>
     let r := srcAt ss 0 * srcAt ss 1 % 2 ^ 72
     .ok (r, nzcv 72 r false false)))


/-- R169: the divisions complete on every form whose operands can be read and whose divisor is not zero, the most negative value
divided by -1 and a quotient too large for a word among them; a divisor of zero is the program check 0o011. -/
def Obligations.DivideRows : Prop :=
  UpdRow .div (rowXd 0o060) (fun w _ x ss =>
    let a := signedOf w x
    let b := signedOf w (srcAt ss 0)
    if b = 0 then .error 0o011
    else if a = -(2 ^ (w - 1) : Nat) ∧ b = -1 then .ok (x, nzcv w x false true)
    else .ok (wrapTo w (a.tdiv b), nzcv w (wrapTo w (a.tdiv b)) false false)) ∧
  UpdRow .rem (rowXd 0o062) (fun w _ x ss =>
    let a := signedOf w x
    let b := signedOf w (srcAt ss 0)
    if b = 0 then .error 0o011
    else .ok (wrapTo w (a.tmod b), nzcv w (wrapTo w (a.tmod b)) false (decide (a = -(2 ^ (w - 1) : Nat) ∧ b = -1)))) ∧
  UpdRow .divu (rowXd 0o061) (fun w _ x ss =>
    if srcAt ss 0 % 2 ^ w = 0 then .error 0o011
    else .ok (x / srcAt ss 0, nzcv w (x / srcAt ss 0) false false)) ∧
  UpdRow .remu (rowXd 0o063) (fun w _ x ss =>
    if srcAt ss 0 % 2 ^ w = 0 then .error 0o011
    else .ok (x % srcAt ss 0, nzcv w (x % srcAt ss 0) false false)) ∧
  UpdRow .divd (rowDivd 0o064) (fun _ _ x ss =>
    let a := signedOf 72 x
    let b := signedOf 36 (srcAt ss 0)
    let q := a.tdiv b
    if b = 0 then .error 0o011
    else if q < -(2 ^ 35 : Int) ∨ (2 ^ 35 : Int) ≤ q then .ok (x, nzcv 36 (x / 2 ^ 36) false true)
    else .ok (wrapTo 36 q * 2 ^ 36 + wrapTo 36 (a.tmod b), nzcv 36 (wrapTo 36 q) false false)) ∧
  UpdRow .divdu (rowDivd 0o065) (fun _ _ x ss =>
    let b := srcAt ss 0
    if b % 2 ^ 36 = 0 then .error 0o011
    else if 2 ^ 36 ≤ x / b then .ok (x, nzcv 36 (x / 2 ^ 36) false true)
    else .ok (x / b * 2 ^ 36 + wrapTo 36 (x % b : Nat), nzcv 36 (x / b) false false))


/-- R168: ABS gives the magnitude, the most negative value returned unchanged with V; MIN, MAX, MINU and MAXU give the smaller or the
larger operand and leave the flags.
R170: the logical instructions complete on every form whose operands can be read, with N and Z of the result and C = V = 0. -/
def Obligations.AbsMinMaxAndLogicRows : Prop :=
  (UpdRow .abs (prim 0o066 [ow .x .i] wWD preMem) (fun w _ x _ =>
     let r := if signedOf w x < 0 then wrapTo w (-(signedOf w x)) else x
     .ok (r, nzcv w r false (decide (signedOf w x = -(2 ^ (w - 1) : Nat))))) ∧
   UpdRow .min (rowX 0o121 preAtom) (fun w old x ss =>
     .ok (if signedOf w x < signedOf w (srcAt ss 0) then x else srcAt ss 0, old)) ∧
   UpdRow .max (rowX 0o122 preAtom) (fun w old x ss =>
     .ok (if signedOf w x < signedOf w (srcAt ss 0) then srcAt ss 0 else x, old)) ∧
   UpdRow .minu (rowX 0o123 preAtom) (fun _ old x ss => .ok (Nat.min x (srcAt ss 0), old)) ∧
   UpdRow .maxu (rowX 0o124 preAtom) (fun _ old x ss => .ok (Nat.max x (srcAt ss 0), old))) ∧
  (UpdRow .and (rowX 0o070 preAtom) (fun w _ x ss => .ok (x &&& srcAt ss 0, nzcv w (x &&& srcAt ss 0) false false)) ∧
   UpdRow .or (rowX 0o071 preAtom) (fun w _ x ss => .ok (x ||| srcAt ss 0, nzcv w (x ||| srcAt ss 0) false false)) ∧
   UpdRow .xor (rowX 0o072 preAtom) (fun w _ x ss => .ok (x ^^^ srcAt ss 0, nzcv w (x ^^^ srcAt ss 0) false false)) ∧
   UpdRow .not (prim 0o073 [ow .x .i] wAll preMem) (fun w _ x _ =>
     let r := 2 ^ w - 1 - x % 2 ^ w
     .ok (r, nzcv w r false false)) ∧
   UpdRow .andn (rowX 0o074 preMem) (fun w _ x ss =>
     let r := x &&& (2 ^ w - 1 - srcAt ss 0 % 2 ^ w)
     .ok (r, nzcv w r false false)) ∧
   CmpRow .test (prim 0o075 [ow .s .i, ow .s .i] wAll [pACQ]) (fun w _ ss =>
     .ok (nzcv w (srcAt ss 0 &&& srcAt ss 1) false false)))


/-- R170, R171: the shifts and rotates complete on every form whose operands can be read, for every count; a count of 0 leaves the
flags; SHLD and SHRD by more than the width are the program check 0o006.
R170, R172: the bit and field instructions complete on every form whose operands can be read and whose bit number or field lies
within the width; otherwise the program check 0o006. Bit n counts from the most significant bit. -/
def Obligations.ShiftAndBitRows : Prop :=
  (UpdRow .shl (rowShift 0o100) (fun w old x ss =>
     let n := srcAt ss 0
     let r := x * 2 ^ n % 2 ^ w
     if n = 0 then .ok (x, old)
     else .ok (r, nzcv w r (decide (n ≤ w) && x.testBit (w - n)) (decide (signedOf w r ≠ signedOf w x * (2 ^ n : Nat))))) ∧
   UpdRow .shr (rowShift 0o101) (fun w old x ss =>
     let n := srcAt ss 0
     let r := if w < n then 0 else x / 2 ^ n
     if n = 0 then .ok (x, old) else .ok (r, nzcv w r (decide (n ≤ w) && x.testBit (n - 1)) false)) ∧
   UpdRow .sar (rowShift 0o102) (fun w old x ss =>
     let n := srcAt ss 0
     let r := wrapTo w (signedOf w x / (2 ^ n : Nat))
     if n = 0 then .ok (x, old)
     else .ok (r, nzcv w r (if w < n then msb w x else x.testBit (n - 1)) false)) ∧
   UpdRow .rol (rowShift 0o103) (fun w old x ss =>
     let k := srcAt ss 0 % w
     let r := (x * 2 ^ k + x / 2 ^ (w - k)) % 2 ^ w
     if k = 0 then .ok (x, old) else .ok (r, nzcv w r (r.testBit 0) false)) ∧
   UpdRow .ror (rowShift 0o104) (fun w old x ss =>
     let k := srcAt ss 0 % w
     let r := (x / 2 ^ k + x * 2 ^ (w - k)) % 2 ^ w
     if k = 0 then .ok (x, old) else .ok (r, nzcv w r (msb w r) false)) ∧
   UpdRow .shld (rowShiftD 0o105) (fun w old x ss =>
     let n := srcAt ss 1
     let r := (x * 2 ^ n + srcAt ss 0 / 2 ^ (w - n)) % 2 ^ w
     if w < n then .error 0o006
     else if n = 0 then .ok (x, old)
     else .ok (r, nzcv w r (x.testBit (w - n)) false)) ∧
   UpdRow .shrd (rowShiftD 0o106) (fun w old x ss =>
     let n := srcAt ss 1
     let r := (x / 2 ^ n + srcAt ss 0 * 2 ^ (w - n)) % 2 ^ w
     if w < n then .error 0o006
     else if n = 0 then .ok (x, old)
     else .ok (r, nzcv w r (x.testBit (n - 1)) false))) ∧
  (CmpRow .btst (prim 0o110 [ow .s .i, fw .s .i .wW] wWD [pACQ]) (fun w old ss =>
     let b := (srcAt ss 0).testBit (w - 1 - srcAt ss 1)
     if w ≤ srcAt ss 1 then .error 0o006 else .ok { old with c := b, z := !b }) ∧
   UpdRow .bset (rowBit 0o111) (fun w old x ss =>
     let k := w - 1 - srcAt ss 0
     if w ≤ srcAt ss 0 then .error 0o006 else .ok (x ||| 2 ^ k, { old with c := x.testBit k, z := !x.testBit k })) ∧
   UpdRow .bclr (rowBit 0o112) (fun w old x ss =>
     let k := w - 1 - srcAt ss 0
     if w ≤ srcAt ss 0 then .error 0o006
     else .ok ((x ||| 2 ^ k) - 2 ^ k, { old with c := x.testBit k, z := !x.testBit k })) ∧
   UpdRow .bflip (rowBit 0o113) (fun w old x ss =>
     let k := w - 1 - srcAt ss 0
     if w ≤ srcAt ss 0 then .error 0o006 else .ok (x ^^^ 2 ^ k, { old with c := x.testBit k, z := !x.testBit k })) ∧
   SetRow .clz (rowCount 0o114) (fun w _ ss =>
     .ok (w - bitLen (srcAt ss 0 % 2 ^ w), { n := false, z := srcAt ss 0 == 0, c := false, v := false })) ∧
   SetRow .ctz (rowCount 0o115) (fun w _ ss =>
     .ok (((List.range w).takeWhile fun i => !(srcAt ss 0).testBit i).length,
       { n := false, z := srcAt ss 0 == 0, c := false, v := false })) ∧
   SetRow .popc (rowCount 0o116) (fun w _ ss =>
     .ok (((List.range w).map fun i => b2n ((srcAt ss 0).testBit i)).sum,
       { n := false, z := srcAt ss 0 == 0, c := false, v := false })) ∧
   SetRow .bext (prim 0o117 [ow .d .i, ow .s .i, fw .s .i .wW] wWD preMem) (fun w _ ss =>
     let pos := srcAt ss 1 / 512 % 512
     let len := srcAt ss 1 % 512
     let r := srcAt ss 0 / 2 ^ (w - pos - len) % 2 ^ len
     if len = 0 ∨ w < pos + len then .error 0o006 else .ok (r, nzcv w r false false)) ∧
   UpdRow .bins (prim 0o120 [ow .x .i, ow .s .i, fw .s .i .wW] wWD preMem) (fun w _ x ss =>
     let pos := srcAt ss 1 / 512 % 512
     let len := srcAt ss 1 % 512
     let k := 2 ^ (w - pos - len)
     let r := x / (k * 2 ^ len) * (k * 2 ^ len) + srcAt ss 0 % 2 ^ len * k + x % k
     if len = 0 ∨ w < pos + len then .error 0o006 else .ok (r, nzcv w r false false)))


/-- R166: the moves and the pointer instructions complete on every form whose operands can be read. MOV, MOVZ, MOVX and MOVP leave the flags;
PTAG keeps NIDX and ADDR, PADD keeps TAG and NIDX; PSUB gives a 72-bit difference; PCMP compares ADDR fields. R166, R187, R188: XCHG
exchanges two operands, interlocked when exactly one is in memory. CAS writes s where x equals r and otherwise loads r, writing nothing to
x; its access to memory is interlocked. LDA writes an address and TAG without an access (R167). The widths at which XCHG is interlocked
and D on a CAS that stores nothing are the model's reading (log entry 29). -/
def Obligations.MoveAndExchangeRows : Prop :=
  (SetRow .mov (prim 0o010 [ow .d .i, ow .s .i] wAll [pACQ, pREL]) (fun _ old ss => .ok (srcAt ss 0, old)) ∧
   SetRow .movz (prim 0o011 [extDst, ow .s .i] [.wN, .wH] [pACQ, pREL]) (fun _ old ss => .ok (srcAt ss 0, old)) ∧
   SetRow .movx (prim 0o012 [extDst, ow .s .i] [.wN, .wH] [pACQ, pREL]) (fun w old ss =>
     .ok (wrapTo (if w = 36 then 72 else 36) (signedOf w (srcAt ss 0)), old)) ∧
   SetRow .movp (prim 0o021 [fw .d .p .wD, fw .s .p .wD] [] [pACQ, pREL]) (fun _ old ss => .ok (srcAt ss 0, old)) ∧
   UpdRow .ptag (prim 0o022 [fw .x .p .wD, fw .s .i .wW] [] []) (fun _ old x ss =>
     .ok (srcAt ss 0 % 2 ^ 16 * 2 ^ 56 + x % 2 ^ 56, old)) ∧
   UpdRow .padd (prim 0o023 [fw .x .p .wD, fw .s .i .wW] [] []) (fun _ old x ss =>
     .ok (x % 2 ^ 72 / 2 ^ 54 * 2 ^ 54 + wrapTo 54 ((x % 2 ^ 54 : Nat) + signedOf 36 (srcAt ss 0)), old)) ∧
   SetRow .psub (prim 0o024 [fw .r .i2 .wD, fw .r .p .wD, fw .r .p .wD] [] []) (fun _ _ ss =>
     let r := wrapTo 72 ((srcAt ss 0 % 2 ^ 54 : Nat) - (srcAt ss 1 % 2 ^ 54 : Nat) : Int)
     .ok (r, nzcv 72 r false false)) ∧
   CmpRow .pcmp (prim 0o025 [fw .r .p .wD, fw .r .p .wD] [] []) (fun _ _ ss =>
     let a := srcAt ss 0 % 2 ^ 54
     let b := srcAt ss 1 % 2 ^ 54
     .ok { n := false, z := a == b, c := decide (a < b), v := false })) ∧
  (∀ n s d s1, Begins (prim 0o013 [ow .x .i, ow .x .i] wAll [pATOM, pACQ, pREL]) n s d s1 →
     let c := n.core.val
     (∀ rs s2 vs s' s3 s4, Reads c d s1 false 0 rs s2 vs s' → (d.ops.filter DOp.isMem).length ≠ 1 →
       Deposits s' c d.rel (opAt rs 0) (srcAt vs 1) s3 → Deposits s3 c d.rel (opAt rs 1) (srcAt vs 0) s4 →
       exec (.xchg n) s = .next (s.after c s4)) ∧
     (∀ fs sf rs s2 k x v s3 s4, Forms c d s1 fs sf → (readyOps c true fs).run sf = .ok (rs, s2) →
       (d.ops.filter DOp.isMem).length = 1 → k < 2 → (opAt rs k).xl = some x →
       (rmw c d.rel x (opAt rs k).f.nidx (opAt rs k).f.op.wid fun v => (some (opAt rs (1 - k)).f.val, v)).run s2 = .ok (v, s3) →
       Deposits s3 c d.rel (opAt rs (1 - k)) v s4 → exec (.xchg n) s = .next (s.after c s4))) ∧
  (∀ n s d s1 fs sf rs s2, Begins (prim 0o014 [ow .x .i, ow .r .i, ow .s .i] wWD [pATOM, pACQ, pREL]) n s d s1 →
     let c := n.core.val
     let old := s2.flags c
     Forms c d s1 fs sf → (readyOps c true fs).run sf = .ok (rs, s2) →
     (∀ new s3 s4, (opAt rs 0).xl = none → (readOp c d.acq (opAt rs 2)).run s2 = .ok (new, s3) →
       (if (opAt rs 0).f.val = (opAt rs 1).f.val then Deposits (s3.withFlags c { old with z := true }) c d.rel (opAt rs 0) new s4
        else Deposits (s3.withFlags c { old with z := false }) c d.rel (opAt rs 1) (opAt rs 0).f.val s4) →
       exec (.cas n) s = .next (s.after c s4)) ∧
     (∀ x v s3 new s4 s5, (opAt rs 0).xl = some x →
       (rmw c d.rel x (opAt rs 0).f.nidx (opAt rs 0).f.op.wid fun v => (none, v)).run s2 = .ok (v, s3) →
       (readOp c d.acq (opAt rs 2)).run s3 = .ok (new, s4) →
       (if v = (opAt rs 1).f.val then
          (rmw c d.rel x (opAt rs 0).f.nidx (opAt rs 0).f.op.wid fun _ => (some new, ())).run
            (s4.withFlags c { old with z := true }) = .ok ((), s5)
        else Deposits (s4.withFlags c { old with z := false }) c d.rel (opAt rs 1) v s5) →
       exec (.cas n) s = .next (s.after c s5))) ∧
  (∀ n s d s1 fs sf rs s2 mode reg ext, Begins (prim 0o020 [fw .r .p .wD, opM] [] []) n s d s1 →
     let c := n.core.val
     Forms c d s1 fs sf → (readyOps c false fs).run sf = .ok (rs, s2) →
     (d.ops.map DOp.form).getD 1 (.imm 0) = .mem mode reg ext →
     exec (.lda n) s = .next (s.after c (s2.withP c (regNoAt d 0)
       (BitVec.ofNat 72 ((if mode ≤ 0o11 then field (s2.ptr c reg) 0 15 else 0) * 2 ^ 56 +
         (fs.map Formed.addr).getD 1 0 % 2 ^ 54)))))

/-- R173, R174: each branch reads the flags its row names and continues at its target or at the next instruction, and changes nothing
else.
R175: LOOP and LOOPG subtract 1 from ri and LOOPU adds 1, modulo 2^36; each goes on at its target under its own test of the new
ri; no flag changes. -/
def Obligations.BranchAndLoopRows : Prop :=
  (BranchRow .beq 0 (fun f => f.z) ∧ BranchRow .bne 1 (fun f => !f.z) ∧
   BranchRow .blt 2 (fun f => f.n != f.v) ∧ BranchRow .bge 3 (fun f => f.n == f.v) ∧
   BranchRow .ble 4 (fun f => f.z || f.n != f.v) ∧ BranchRow .bgt 5 (fun f => !(f.z || f.n != f.v)) ∧
   BranchRow .blo 6 (fun f => f.c) ∧ BranchRow .bhs 7 (fun f => !f.c) ∧
   BranchRow .bls 8 (fun f => f.c || f.z) ∧ BranchRow .bhi 9 (fun f => !(f.c || f.z)) ∧
   BranchRow .bvs 10 (fun f => f.v) ∧ BranchRow .bvc 11 (fun f => !f.v) ∧
   BranchRow .bmi 12 (fun f => f.n) ∧ BranchRow .bpl 13 (fun f => !f.n) ∧ BranchRow .br 14 (fun _ => true)) ∧
  (LoopRow .loop 0o220 (-1) (fun v => decide (v ≠ 0)) ∧ LoopRow .loopu 0o221 1 (fun v => decide (v ≠ 0)) ∧
   LoopRow .loopg 0o222 (-1) (fun v => decide (0 ≤ signedOf 36 v)))


/-- R176-R180: the stack instructions complete where the slot lies above the limit and translates. CALL pushes the return doubleword,
RET and RETN continue where it names, PUSH and POP move one value, ENTER and LEAVE set up and take down a frame.
R178, R179: a push with an odd ADDR in P7 is the program check 0o006, and one that would wrap or fall below the stack limit is
0o014; a pop from an odd address is 0o006. Nothing else of the instruction happens. -/
def Obligations.StackRows : Prop :=
  ((∀ n s d s1 s2, Begins (prim 0o230 [opT] [] []) n s d s1 →
     let c := n.core.val
     let next := pswIa (s1.core c).psw
     Pushes s1 c (next % 4 * 2 ^ 54 + next / 4 % 2 ^ 36) 0 s2 →
     exec (.call n) s = .next (s.after c (s2.withIa c (directVal c s1 d 0)))) ∧
   (∀ n s d s1 v s3, Begins (prim 0o231 [] [] []) n s d s1 → Pops s1 n.core.val (ptrAddr (s1.ptr n.core.val 7)) v s3 →
     let c := n.core.val
     exec (.ret n) s = .next (s.after c
       ((s3.withP c 7 (ptrSetAddr (s1.ptr c 7) (ptrAddr (s1.ptr c 7) + 2))).withIa c (v % 2 ^ 36 * 4 + v / 2 ^ 54 % 4)))) ∧
   (∀ n s d s1 rs s2 vs s' v s3, Begins (prim 0o232 [fw .s .i .wW] [] []) n s d s1 → Reads n.core.val d s1 false 0 rs s2 vs s' →
     Pops s' n.core.val (ptrAddr (s'.ptr n.core.val 7)) v s3 →
     let c := n.core.val
     exec (.retn n) s = .next (s.after c
       ((s3.withP c 7 (ptrSetAddr (s'.ptr c 7) ((ptrAddr (s'.ptr c 7) + 2) % 2 ^ 54 + 2 * srcAt vs 0))).withIa c
         (v % 2 ^ 36 * 4 + v / 2 ^ 54 % 4)))) ∧
   (∀ n s d s1 rs s2 vs s' s3, Begins (prim 0o233 [ow .s .i] wWD []) n s d s1 → Reads n.core.val d s1 false 0 rs s2 vs s' →
     Pushes s' n.core.val (srcAt vs 0) 0 s3 → exec (.push n) s = .next (s.after n.core.val s3)) ∧
   (∀ n s d s1 rs s2 vs s' v s3 s4, Begins (prim 0o234 [ow .d .i] wWD []) n s d s1 → Reads n.core.val d s1 false 1 rs s2 vs s' →
     let c := n.core.val
     Pops s' c (ptrAddr (s'.ptr c 7)) v s3 →
     Deposits (s3.withP c 7 (ptrSetAddr (s'.ptr c 7) (ptrAddr (s'.ptr c 7) + 2))) c d.rel (opAt rs 0) (v % 2 ^ d.wid.bits) s4 →
     exec (.pop n) s = .next (s.after c s4)) ∧
   (∀ n s d s1 rs s2 vs s' s3, Begins (prim 0o235 [fw .s .i .wW] [] []) n s d s1 → Reads n.core.val d s1 false 0 rs s2 vs s' →
     let c := n.core.val
     Pushes s' c (s'.ptr c 6).toNat (srcAt vs 0) s3 →
     exec (.enter n) s = .next (s.after c (s3.withP c 6 (ptrSetAddr (s'.ptr c 7) (ptrAddr (s'.ptr c 7) - 2))))) ∧
   (∀ n s d s1 v s3, Begins (prim 0o236 [] [] []) n s d s1 → Pops s1 n.core.val (ptrAddr (s1.ptr n.core.val 6)) v s3 →
     let c := n.core.val
     exec (.leave n) s = .next (s.after c
       ((s3.withP c 7 (ptrSetAddr (s1.ptr c 6) (ptrAddr (s1.ptr c 6) + 2))).withP c 6 (BitVec.ofNat 72 v))))) ∧
  ((∀ n s d s1 rs s2 vs s', Begins (prim 0o233 [ow .s .i] wWD []) n s d s1 → Reads n.core.val d s1 false 0 rs s2 vs s' →
     ¬ PushFits s' n.core.val 0 →
     exec (.push n) s = .next (s.trapped n.core.val s'
       (.check (if ptrAddr (s'.ptr n.core.val 7) % 2 = 1 then 0o006 else 0o014) []))) ∧
   (∀ n s d s1, Begins (prim 0o230 [opT] [] []) n s d s1 → ¬ PushFits s1 n.core.val 0 →
     exec (.call n) s = .next (s.trapped n.core.val s1
       (.check (if ptrAddr (s1.ptr n.core.val 7) % 2 = 1 then 0o006 else 0o014) []))) ∧
   (∀ n s d s1 rs s2 vs s', Begins (prim 0o235 [fw .s .i .wW] [] []) n s d s1 → Reads n.core.val d s1 false 0 rs s2 vs s' →
     srcAt vs 0 < 2 ^ 36 → ¬ PushFits s' n.core.val (srcAt vs 0) →
     exec (.enter n) s = .next (s.trapped n.core.val s'
       (.check (if ptrAddr (s'.ptr n.core.val 7) % 2 = 1 then 0o006 else 0o014) []))) ∧
   (∀ q ∈ [(Instr.ret, 0o231, 7), (Instr.leave, 0o236, 6)], ∀ n s d s1, Begins (prim q.2.1 [] [] []) n s d s1 →
     ptrAddr (s1.ptr n.core.val q.2.2) % 2 = 1 → exec (q.1 n) s = .next (s.trapped n.core.val s1 (.check 0o006 []))))

/-- R181, R182: without a repeat prefix each string instruction performs one unit and advances its pointers one step of the width: SMOV moves,
SCMP and SSCAN set the flags of a subtraction, SSTO stores and SLOD loads; G12 stays. R137, R182-R185: a repeated one performs units, each
counted off G12, until the prefix's early end or the count's end, with its operand read once, before the first unit, and its operand's
pointer updated once, after the last; an interruption that qualifies at a unit boundary is accepted there with the PSW at the instruction;
with G12 = 0 it performs none. When a string instruction updates and reads its operand is the model's reading (log entry 23). -/
def Obligations.StringRows : Prop :=
  ((∀ n s d s1 v t, Begins (prim 0o240 [] wAll [0o740, 0o743]) n s d s1 → d.rep = none → MovUnit n.core.val d.wid s1 v t →
     exec (.smov n) s = .next (s.after n.core.val t)) ∧
   (∀ n s d s1 v t, Begins (prim 0o241 [] wAll [0o741, 0o742]) n s d s1 → d.rep = none → CmpUnit n.core.val d.wid s1 v t →
     exec (.scmp n) s = .next (s.after n.core.val t)) ∧
   (∀ n s d s1 fs sf rs s2 v s3 u t, Begins (prim 0o242 [ow .s .i] wAll [0o741, 0o742]) n s d s1 → d.rep = none →
     Forms n.core.val d s1 fs sf → (readyOps n.core.val false fs).run sf = .ok (rs, s2) →
     (readOp n.core.val false (opAt rs 0)).run s2 = .ok (v, s3) → ScanUnit n.core.val d.wid v s3 u t →
     exec (.sscan n) s = .next (s.after n.core.val t)) ∧
   (∀ n s d s1 fs sf rs s2 v s3 u t, Begins (prim 0o243 [ow .s .i] wAll [0o740]) n s d s1 → d.rep = none →
     Forms n.core.val d s1 fs sf → (readyOps n.core.val false fs).run sf = .ok (rs, s2) →
     (readOp n.core.val false (opAt rs 0)).run s2 = .ok (v, s3) → StoUnit n.core.val d.wid v s3 u t →
     exec (.ssto n) s = .next (s.after n.core.val t)) ∧
   (∀ n s d s1 fs sf rs s2 v t, Begins (prim 0o244 [ow .d .i] wAll [0o740, 0o743]) n s d s1 → d.rep = none →
     Forms n.core.val d s1 fs sf → (readyOps n.core.val false fs).run sf = .ok (rs, s2) → LodUnit n.core.val d.wid (opAt rs 0) s2 v t →
     exec (.slod n) s = .next (s.after n.core.val t))) ∧
  (RepeatRow .smov (prim 0o240 [] wAll [0o740, 0o743]) (fun _ _ s v s' => v = 0 ∧ s' = s) (fun c d _ _ => MovUnit c d.wid) ∧
   RepeatRow .scmp (prim 0o241 [] wAll [0o741, 0o742]) (fun _ _ s v s' => v = 0 ∧ s' = s) (fun c d _ _ => CmpUnit c d.wid) ∧
   RepeatRow .sscan (prim 0o242 [ow .s .i] wAll [0o741, 0o742]) ReadsOnce (fun c d _ v => ScanUnit c d.wid v) ∧
   RepeatRow .ssto (prim 0o243 [ow .s .i] wAll [0o740]) ReadsOnce (fun c d _ v => StoUnit c d.wid v) ∧
   RepeatRow .slod (prim 0o244 [ow .d .i] wAll [0o740, 0o743]) (fun _ _ s v s' => v = 0 ∧ s' = s) (fun c d s1 _ =>
     LodUnit c d.wid (opAt ((s1.formed c d).map fun f => { f := f, xl := none }) 0)))

/-- R190, R216, R220: the floating-point arithmetic completes on every form whose operands can be read, with each result rounded once
under RM; the operations are those of R217-R225 and R230 on encodings. -/
def Obligations.FloatArithmeticRows : Prop :=
  FpRow .fadd (rowFx 0o300) 0 (fun t v ss => fpAdd t v false (srcAt ss 0) (srcAt ss 1)) ∧
  FpRow .fsub (rowFx 0o301) 0 (fun t v ss => fpAdd t v true (srcAt ss 0) (srcAt ss 1)) ∧
  FpRow .fmul (rowFx 0o302) 0 (fun t v ss => fpMul t v (srcAt ss 0) (srcAt ss 1)) ∧
  FpRow .fdiv (rowFx 0o303) 0 (fun t v ss => fpDiv t v (srcAt ss 0) (srcAt ss 1)) ∧
  FpRow .fsqrt (rowFd 0o304) 1 (fun t v ss => fpSqrt t v (srcAt ss 0)) ∧
  FpRow .fma (rowFd3 0o305) 1 (fun t v ss => fpFma t v false false (srcAt ss 0) (srcAt ss 1) (srcAt ss 2)) ∧
  FpRow .fms (rowFd3 0o306) 1 (fun t v ss => fpFma t v false true (srcAt ss 0) (srcAt ss 1) (srcAt ss 2)) ∧
  FpRow .fnma (rowFd3 0o307) 1 (fun t v ss => fpFma t v true true (srcAt ss 0) (srcAt ss 1) (srcAt ss 2)) ∧
  FpRow .fnms (rowFd3 0o310) 1 (fun t v ss => fpFma t v true false (srcAt ss 0) (srcAt ss 1) (srcAt ss 2)) ∧
  FpRow .frnd (rowFd 0o322) 1 (fun t v ss => fpRnd t v (srcAt ss 0))

/-- R190-R192, R215, R216, R230: the sign operations, moves, minimum and maximum, comparisons and class complete on every form whose
operands can be read; LFPC refuses a reserved RM or bit with 0o006; SFPC stores FPC.
R226-R228: the conversions complete on every form whose operands can be read; those between formats and from integers round once
under RM, and those to integers give the nearest end of the range with the invalid exception where the value does not fit. -/
def Obligations.FloatSignAndConversionRows : Prop :=
  (FpRow .fabs (rowFd 0o313) 1 (fun t _ ss => (srcAt ss 0 % 2 ^ (t.w - 1), 0)) ∧
   FpRow .fneg (rowFd 0o314) 1 (fun t _ ss =>
     (srcAt ss 0 % 2 ^ (t.w - 1) + (if msb t.w (srcAt ss 0) then 0 else 2 ^ (t.w - 1)), 0)) ∧
   FpRow .fcpys (rowFd2 0o315) 1 (fun t _ ss =>
     (srcAt ss 0 % 2 ^ (t.w - 1) + (if msb t.w (srcAt ss 1) then 2 ^ (t.w - 1) else 0), 0)) ∧
   FpRow .fmov (rowFd 0o320) 1 (fun _ _ ss => (srcAt ss 0, 0)) ∧
   FpRow .fmin (rowFx 0o311) 0 (fun t _ ss => fpMin t false (srcAt ss 0) (srcAt ss 1)) ∧
   FpRow .fmax (rowFx 0o312) 0 (fun t _ ss => fpMin t true (srcAt ss 0) (srcAt ss 1)) ∧
   FpRow .fclass (prim 0o321 [fw .d .i .wW, ow .s .f] wWD preMem) 1 (fun t _ ss => (fpClass t (srcAt ss 0), 0)) ∧
   (∀ q ∈ [(Instr.fcmp, 0o316, false), (Instr.fcmps, 0o317, true)], ∀ n s d s1,
     Begins (prim q.2.1 [ow .s .f, ow .s .f] wWD [pACQ]) n s d s1 →
     let c := n.core.val
     ∀ rs s2 vs s', Reads c d s1 false 0 rs s2 vs s' →
     let w := (s'.core c).fpc
     let r := fpCmp (fmtOf d.wid) q.2.2 (srcAt vs 0) (srcAt vs 1)
     (field w 21 25 &&& r.2 = 0 →
       exec (q.1 n) s = .next (s.after c ((s'.withFpc c (setField w 31 35 (field w 31 35 ||| r.2))).withFlags c r.1))) ∧
     (field w 21 25 &&& r.2 ≠ 0 →
       let u := s.undone c s'
       exec (q.1 n) s = .next (s.stops c (u.withFpc c (setField (u.core c).fpc 26 30 r.2)) (.check 0o012 [])))) ∧
   SrcRow .lfpc (prim 0o323 [fw .s .i .wW] [] [pACQ]) (fun c s vs =>
     let w : Word := w36 (srcAt vs 0)
     if field w 0 17 ≠ 0 ∨ 4 < field w 18 20 then .error 0o006 else .ok (s.withFpc c w)) ∧
   DstRow .sfpc (prim 0o324 [fw .d .i .wW] [] [pREL]) (fun c s _ => .ok (s.core c).fpc.toNat)) ∧
  (FpRow .cvtws (rowCvt 0o330 .f .wW .i .wW) 1 (fun _ v ss => fpOfInt f36 v 36 (srcAt ss 0)) ∧
   FpRow .cvtwd (rowCvt 0o331 .f .wD .i .wW) 1 (fun _ v ss => fpOfInt f72 v 36 (srcAt ss 0)) ∧
   FpRow .cvtls (rowCvt 0o332 .f .wW .i .wD) 1 (fun _ v ss => fpOfInt f36 v 72 (srcAt ss 0)) ∧
   FpRow .cvtld (rowCvt 0o333 .f .wD .i .wD) 1 (fun _ v ss => fpOfInt f72 v 72 (srcAt ss 0)) ∧
   FpRow .cvtsw (rowCvt 0o334 .i .wW .f .wW) 1 (fun _ v ss => fpToInt f36 v 36 (srcAt ss 0)) ∧
   FpRow .cvtdw (rowCvt 0o335 .i .wW .f .wD) 1 (fun _ v ss => fpToInt f72 v 36 (srcAt ss 0)) ∧
   FpRow .cvtsl (rowCvt 0o336 .i .wD .f .wW) 1 (fun _ v ss => fpToInt f36 v 72 (srcAt ss 0)) ∧
   FpRow .cvtdl (rowCvt 0o337 .i .wD .f .wD) 1 (fun _ v ss => fpToInt f72 v 72 (srcAt ss 0)) ∧
   FpRow .cvtsd (rowCvt 0o340 .f .wD .f .wW) 1 (fun _ v ss => fpWiden v (srcAt ss 0)) ∧
   FpRow .cvtds (rowCvt 0o341 .f .wW .f .wD) 1 (fun _ v ss => fpNarrow v (srcAt ss 0)) ∧
   (∀ (t : Fmt) (v : FEnv) (w x : Nat), 0 < w → t.isNan x = true → fpToInt t v w x = (2 ^ (w - 1), fNV)) ∧
   (∀ (t : Fmt) (v : FEnv) (w x : Nat), 0 < w → t.isInf x = true →
     fpToInt t v w x = (if t.sign x then 2 ^ (w - 1) else 2 ^ (w - 1) - 1, fNV)))

/-- R217: the rounding of a magnitude to a multiple of 2^k. To nearest, it errs by at most half a step and by exactly half only towards
an even multiple; towards zero it never rises; towards plus or minus infinity it never errs to the other side; to nearest with ties away
it errs by at most half a step. -/
def Obligations.RoundingIsNearest : Prop :=
  ∀ (neg : Bool) (m k : Nat),
    (let q := roundShift 0 neg m k; 2 * m ≤ 2 * (q * 2 ^ k) + 2 ^ k ∧ 2 * (q * 2 ^ k) ≤ 2 * m + 2 ^ k ∧
        ((2 * m = 2 * (q * 2 ^ k) + 2 ^ k ∨ 2 * (q * 2 ^ k) = 2 * m + 2 ^ k) → q % 2 = 0)) ∧
    (let q := roundShift 1 neg m k; q * 2 ^ k ≤ m ∧ m < (q + 1) * 2 ^ k) ∧
    (let q := roundShift 2 neg m k; if neg then q * 2 ^ k ≤ m ∧ m < (q + 1) * 2 ^ k else m ≤ q * 2 ^ k ∧ q * 2 ^ k < m + 2 ^ k) ∧
    (let q := roundShift 3 neg m k; if neg then m ≤ q * 2 ^ k ∧ q * 2 ^ k < m + 2 ^ k else q * 2 ^ k ≤ m ∧ m < (q + 1) * 2 ^ k) ∧
    (let q := roundShift 4 neg m k; 2 * m < 2 * (q * 2 ^ k) + 2 ^ k ∧ 2 * (q * 2 ^ k) ≤ 2 * m + 2 ^ k)


/-- R266, R269, R276, R277, R288: a barrier emits the gather buffer. FENCE and FENCE.SS perform every earlier store and wait for every OUT
without early acknowledgement; FENCE.C waits for every OUT to reach its end point, asking for the zero-length reads that show it; FENCE.LL
and FENCE.LS have nothing more to wait for; a wait leaves the PSW at the barrier and what it has done in force. ISYNC performs every
earlier store, and is not begun while a line is busy. R202-R204: SVC performs the older stores and enters level 1 at the next instruction
with PARAM the low 18 bits of s; an entry that fails stops the core, the instruction undone; BRK is the program check 0o003. RDCLK stores
the clock, GETF the flags, and SETF loads them. That a command whose wait has not ended leaves the PSW and is sent again is the model's
choice (log entry 30). -/
def Obligations.BarrierAndServiceRows : Prop :=
  ((∀ q ∈ [(Instr.fence, 0o350), (Instr.fenceSs, 0o352)], ∀ n s d s1, Begins (prim q.2 [] [] []) n s d s1 →
     let c := n.core.val
     let s2 := s1.gatherEmit c
     (∀ s3, s2.outOpen c = false → s2.drainAll c = some s3 → exec (q.1 n) s = .next (s.after c s3)) ∧
     ((s2.outOpen c = true ∨ s2.drainAll c = none) →
       exec (q.1 n) s = .next (s2.withIa c (pswIa (s2.core c).psw + 2 ^ 38 - d.len)).follow)) ∧
   (∀ q ∈ [(Instr.fenceLl, 0o351), (Instr.fenceLs, 0o353)], ∀ n s d s1, Begins (prim q.2 [] [] []) n s d s1 →
     exec (q.1 n) s = .next (s.after n.core.val (s1.gatherEmit n.core.val))) ∧
   (∀ n s d s1, Begins (prim 0o354 [] [] []) n s d s1 →
     let c := n.core.val
     let s2 := (s1.gatherEmit c).askOuts c
     (∀ s3, (s2.core c).outs = [] → s2.drainAll c = some s3 → exec (.fenceC n) s = .next (s.after c s3)) ∧
     (((s2.core c).outs ≠ [] ∨ s2.drainAll c = none) →
       exec (.fenceC n) s = .next (s2.withIa c (pswIa (s2.core c).psw + 2 ^ 38 - d.len)).follow)) ∧
   (∀ n s d s1, Begins (prim 0o361 [] [] []) n s d s1 →
     (∀ s2, s1.drainAll n.core.val = some s2 → exec (.isync n) s = .next (s.after n.core.val s2)) ∧
     (s1.drainAll n.core.val = none → exec (.isync n) s = .next s.follow))) ∧
  ((∀ n s d s1 rs s2 vs s' s3, Begins (prim 0o370 [fw .s .i .wW] [] []) n s d s1 → Reads n.core.val d s1 false 0 rs s2 vs s' →
     let c := n.core.val
     s'.drainEvent c = some s3 →
     (∀ v s4, (((s3.gatherEmit c).core c).bank 1).busy = false → (s3.gatherEmit c).vector c 1 = some (some v, s4) →
       exec (.svc n) s = .next (s.after c (s4.setCore c ((s4.core c).enter v 1 0 0 (srcAt vs 0 % 2 ^ 18) 0 false)))) ∧
     (∀ cause, s3.syncEnter c 1 0 (srcAt vs 0 % 2 ^ 18) 0 = some (.error cause) →
       exec (.svc n) s = .next (s.trapped c s3 (.stop cause)))) ∧
   (∀ n s d s1, Begins (prim 0o371 [] [] []) n s d s1 → exec (.brk n) s = .next (s.trapped n.core.val s1 (.check 0o003 []))) ∧
   DstRow .rdclk (prim 0o372 [fw .d .i .wD] [] []) (fun _ s _ => .ok s.clock.toNat) ∧
   DstRow .getf (prim 0o373 [fw .d .i .wW] [] []) (fun c s _ =>
     .ok (8 * b2n (s.flags c).n + 4 * b2n (s.flags c).z + 2 * b2n (s.flags c).c + b2n (s.flags c).v)) ∧
   SrcRow .setf (prim 0o374 [fw .s .i .wW] [] []) (fun c s vs => .ok (s.withFlags c {
     n := (srcAt vs 0).testBit 3, z := (srcAt vs 0).testBit 2, c := (srcAt vs 0).testBit 1, v := (srcAt vs 0).testBit 0 })))

/-- R251, R258: IRET with CHAIN = 1 and the bank of PLVL busy frees its bank and returns to PLVL, or with SPL = 1 refills its own bank
from the spill list and returns to PLVL; otherwise it is the program check 0o006, and a failed refill the core checkstop 0o011. -/
def Obligations.ReturnRows : Prop :=
  ∀ n s d s1, Begins (secd 0o060 []) n s d s1 →
    let c := n.core.val
    let k := s1.core c
    let back := field k.psw 11 13
    ((dbit k.psw 3 = false ∨ (k.bank back).busy = false) → exec (.iret n) s = .next (s.trapped c s1 (.check 0o006 []))) ∧
    (dbit k.psw 3 = true → (k.bank back).busy = true → dbit k.psw 4 = false →
      exec (.iret n) s = .next (s.after c (s1.setCore c { (k.setBank k.level { k.cur with busy := false }) with level := back }))) ∧
    (∀ s2, dbit k.psw 3 = true → (k.bank back).busy = true → dbit k.psw 4 = true → s1.refill c k.level = .done s2 →
      exec (.iret n) s = .next (s.after c (s2.setCore c { s2.core c with level := back }))) ∧
    (dbit k.psw 3 = true → (k.bank back).busy = true → dbit k.psw 4 = true → s1.refill c k.level = .failed →
      exec (.iret n) s = .next (s.trapped c s1 (.stop 0o011)))

/-- R202, R240, R241: LPSW loads every field of the PSW from an even D-space address but CHAIN, SPL, LEVEL and PLVL, and is the program check
0o006 where the address is odd or a reserved field is not zero; SPSW stores the PSW; SPRI replaces MASK; WAIT drains the core and leaves
it waiting. R202, R206, R207, R245: LCTL and SCTL load and store the control registers that exist, and other numbers are the program check
0o006; writing CLKCMP withdraws its pending interruption; LBNK and SBNK read and write a register of a bank, SBNK never of the current
bank nor a PSW with a reserved bit, and the gesso bank only in underpainting mode; LSLIM and SSLIM load and store the stack limit. That
SPSW, LBNK and SBNK of the bank in use see the next instruction's address is the model's reading (log entry 31). -/
def Obligations.PswAndControlRows : Prop :=
  ((∀ n s d s1 fs sf, Begins (secd 0o061 [opM]) n s d s1 → Forms n.core.val d s1 fs sf →
     let c := n.core.val
     let a := addrAt fs 0
     (a % 2 = 1 → exec (.lpsw n) s = .next (s.trapped c sf (.check 0o006 []))) ∧
     (∀ x s2 v s3, a % 2 = 0 → Maps sf c 1 a x s2 → (load c x 0 .wD false).run s2 = .ok (v, s3) →
       if field (BitVec.ofNat 72 v) 5 7 = 0 ∧ field (BitVec.ofNat 72 v) 14 15 = 0 ∧ field (BitVec.ofNat 72 v) 21 31 = 0 then
         ∃ p : DWord, exec (.lpsw n) s = .next (s.after c (s3.setCore c ((s3.core c).setPsw p))) ∧
           ∀ i < 72, dbit p i =
             if (3 ≤ i ∧ i ≤ 4) ∨ (8 ≤ i ∧ i ≤ 13) then dbit (s3.core c).psw i else dbit (BitVec.ofNat 72 v) i
       else exec (.lpsw n) s = .next (s.trapped c s3 (.check 0o006 [])))) ∧
   (∀ n s d s1 fs sf, Begins (secd 0o062 [opM]) n s d s1 → Forms n.core.val d s1 fs sf →
     let c := n.core.val
     let a := addrAt fs 0
     (a % 2 = 1 → exec (.spsw n) s = .next (s.trapped c sf (.check 0o006 []))) ∧
     (∀ x s2 s3, a % 2 = 0 → Maps sf c 2 a x s2 → Stores s2 c x 0 .wD (s2.core c).psw.toNat false s3 →
       exec (.spsw n) s = .next (s.after c s3))) ∧
   SrcRow .spri (secd 0o065 [fw .s .i .wW]) (fun c s vs =>
     .ok (s.setCore c ((s.core c).setPsw (setField (s.core c).psw 18 20 (srcAt vs 0 % 8))))) ∧
   (∀ n s d s1 s2, Begins (secd 0o063 []) n s d s1 → s1.drainEvent n.core.val = some s2 →
     exec (.wait n) s = .next (s.after n.core.val (s2.setCore n.core.val { s2.core n.core.val with run := .wait })))) ∧
  (SrcRow .lctl (secd 0o070 [fw .s .i .wW, fw .s .i .wD]) (fun c s vs =>
     let r := srcAt vs 0 % 64
     let s1 := s.withCtl c r (BitVec.ofNat 72 (srcAt vs 1))
     if r < 4 ∨ (0o11 ≤ r ∧ r ≤ 0o17) then .ok s1
     else if r = 4 then .ok (s1.setCore c { s1.core c with pend := (s1.core c).pend.filter fun i => i.code ≠ 0o400 })
     else .error 0o006) ∧
   DstRow .sctl (secd 0o071 [fw .d .i .wD, fw .s .i .wW]) (fun c s vs =>
     let r := srcAt vs 0 % 64
     if r ≤ 4 ∨ (0o11 ≤ r ∧ r ≤ 0o17) then .ok ((s.core c).ctlReg r).toNat else .error 0o006) ∧
   DstRow .lbnk (secd 0o072 [fw .d .i .wD, fw .s .i .wW]) (fun c s vs =>
     let r := srcAt vs 0 % 32
     let b := srcAt vs 0 / 32 % 16
     let k := (s.core c).bank b
     if 8 < b ∨ 0o31 < r ∨ (b = 8 ∧ dbit (s.core c).psw 2 = false) then .error 0o006
     else if h : r < 16 then .ok (k.g[r]).toNat
     else if h : r < 24 then .ok (k.p[r - 16]).toNat
     else if r = 24 then .ok k.psw.toNat else .ok k.slim.toNat) ∧
   SrcRow .sbnk (secd 0o073 [fw .s .i .wW, fw .s .i .wD]) (fun c s vs =>
     let r := srcAt vs 0 % 32
     let b := srcAt vs 0 / 32 % 16
     let v := srcAt vs 1
     let k := (s.core c).bank b
     let put (x : Bank) : Except Nat State := .ok (s.setCore c ((s.core c).setBank b x))
     if 8 < b ∨ 0o31 < r ∨ (b = 8 ∧ dbit (s.core c).psw 2 = false) ∨ b = (s.core c).level then .error 0o006
     else if r < 16 then put { k with g := k.g.setIfInBounds r (BitVec.ofNat 36 v) }
     else if r < 24 then put { k with p := k.p.setIfInBounds (r - 16) (BitVec.ofNat 72 v) }
     else if r = 24 then
       if field (BitVec.ofNat 72 v) 5 7 ≠ 0 ∨ field (BitVec.ofNat 72 v) 14 15 ≠ 0 ∨ field (BitVec.ofNat 72 v) 21 31 ≠ 0 then .error 0o006
       else put { k with psw := setField (BitVec.ofNat 72 v) 8 10 (field k.psw 8 10) }
     else put { k with slim := BitVec.ofNat 72 v }) ∧
   SrcRow .lslim (secd 0o074 [fw .s .i .wD]) (fun c s vs =>
     .ok (s.setCurBank c { s.curBank c with slim := BitVec.ofNat 72 (srcAt vs 0) })) ∧
   DstRow .sslim (secd 0o075 [fw .d .i .wD]) (fun c s _ => .ok (s.curBank c).slim.toNat))

/-- R205: an XCORE instruction with an order of 1 to 5 answers CC 3 unless its target is an active core of its own sheet that is not frozen;
QUERY reports what the target does, POST makes the level-4 interruption 0o401 pending with its value, PAUSE stops a core that runs or
waits, RESUME starts a stopped one and WAKE ends a WAIT. Any other order is the program check 0o006. That the order in the operand counts,
whichever row names the command, is the model's reading (log entry 31). -/
def Obligations.CoreOrders : Prop :=
  ∀ mk ∈ [Instr.xcoreQuery, Instr.xcorePost, Instr.xcorePause, Instr.xcoreResume, Instr.xcoreWake],
    SrcRow mk (secd 0o064 [fw .r .i .wW, fw .s .i .wW]) fun c s vs =>
      let t := srcAt vs 0 % 2 ^ 18
      let order := srcAt vs 1 % 512
      let value := srcAt vs 1 / 512 % 512
      let k := s.core t
      if order = 0 ∨ 5 < order then .error 0o006
      else if ¬ (t < 192 ∧ k.cstate = .active ∧ k.run ≠ .frozen ∧ k.sheet = (s.core c).sheet) then .ok (s.withCc c 3)
      else if order = 1 then
        .ok (s.withCc c (if k.run = .wait then 1 else if k.run = .stopped true ∨ k.run = .stopped false then 2 else 0))
      else if order = 2 then
        if 0o401 ∈ k.pend.map Irq.code then .ok (s.withCc c 2)
        else .ok ((s.setCore t { k with pend := k.pend ++ [
          { level := 4, code := 0o401, param := c, info := BitVec.ofNat 36 (value * 2 ^ 27) }] }).withCc c 0)
      else if order = 3 then
        match k.run with
        | .running => .ok ((s.setCore t { k with run := .stopped false }).withCc c 0)
        | .wait => .ok ((s.setCore t { k with run := .stopped true }).withCc c 0)
        | .stopped _ => .ok (s.withCc c 1)
        | .devIn _ _ | .held _ _ _ _ | .frozen => .ok ((s.setCore t { k with pausing := true }).withCc c 0)
      else if order = 4 then
        match k.run with
        | .stopped w => .ok ((s.setCore t { k with run := if w then .wait else .running }).withCc c 0)
        | _ => .ok (s.withCc c 1)
      else if k.run = .wait then .ok (((s.setCore t { k with run := .running }).wakeCold t).withCc c 0)
      else .ok (s.withCc c 1)

/-- R199-R201, R252, R253: SAVU and SAVL take the head of the free-area list, store a header, the half bank and the old head of the save
list, and move the area to the save list; RSTU and RSTL take the head of the save list, whose header must be theirs (else the program
check 0o015), load the half bank and move the area back. A list with ADDR 0 is 0o015, an area not aligned to 32 words 0o006. -/
def Obligations.SaveRows : Prop :=
  (∀ q ∈ [(Instr.savu, 0o050, true), (Instr.savl, 0o051, false)], ∀ n s d s1, Begins (secd q.2.1 []) n s d s1 →
    let c := n.core.val
    let a := ptrAddr ((s1.core c).ctlReg 0)
    let head := if q.2.2 then 2 ^ 27 + 2 ^ 16 else 2 ^ 27 + 2 * 2 ^ 16
    (a = 0 → exec (q.1 n) s = .next (s.trapped c s1 (.check 0o015 []))) ∧
    (a % 32 ≠ 0 → exec (q.1 n) s = .next (s.trapped c s1 (.check 0o006 []))) ∧
    (∀ x s2 link s3 s4 s5 s6, Heads s1 c 0 x s2 → (load c (x.plus 2) 0 .wD false).run s2 = .ok (link, s3) →
      Stores s3 c x 0 .wW head false s4 → Stored c x s4 (halfDws (s4.curBank c) q.2.2) s5 →
      Stores s5 c (x.plus 2) 0 .wD ((s5.core c).ctlReg 1).toNat false s6 →
      exec (q.1 n) s = .next (s.after c
        ((s6.withCtl c 1 ((s5.core c).ctlReg 0)).withCtl c 0 (BitVec.ofNat 72 link))))) ∧
  (∀ q ∈ [(Instr.rstu, 0o052, true), (Instr.rstl, 0o053, false)], ∀ n s d s1, Begins (secd q.2.1 []) n s d s1 →
    let c := n.core.val
    let a := ptrAddr ((s1.core c).ctlReg 1)
    let head := if q.2.2 then 2 ^ 27 + 2 ^ 16 else 2 ^ 27 + 2 * 2 ^ 16
    (a = 0 → exec (q.1 n) s = .next (s.trapped c s1 (.check 0o015 []))) ∧
    (a % 32 ≠ 0 → exec (q.1 n) s = .next (s.trapped c s1 (.check 0o006 []))) ∧
    (∀ x s2 h s3, Heads s1 c 1 x s2 → (load c x 0 .wW false).run s2 = .ok (h, s3) →
      (h ≠ head → exec (q.1 n) s = .next (s.trapped c s3 (.check 0o015 []))) ∧
      (∀ link ds s4, h = head →
        ([2, 4, 6, 8, 10, 12, 14, 16, 18].mapM fun o => load c (x.plus o) 0 .wD false).run s3 = .ok (link :: ds, s4) →
        let s5 := s4.setCurBank c (loadHalf (s4.curBank c) q.2.2 (fun o => BitVec.ofNat 72 (ds.getD ((o - 4) / 2) 0)))
        ∀ s6, Stores s5 c (x.plus 2) 0 .wD ((s5.core c).ctlReg 0).toNat false s6 →
          exec (q.1 n) s = .next (s.after c
            ((s6.withCtl c 0 ((s5.core c).ctlReg 1)).withCtl c 1 (BitVec.ofNat 72 link))))))

/-- R111-R114, R197: the translation invalidations reach the issuing core or (B forms) every core of its sheet. They perform every
earlier store of the active cores reached, then remove the translations they name and empty the walk caches: A all of them, S the ones
of an ASN that are not global, V those that cover an address of the space that bit 0 of ri names. -/
def Obligations.InvalidationRows : Prop :=
  let cores (s : State) (c : Nat) (all : Bool) : List Nat :=
    if all then (List.range 192).filter fun t => (s.core t).sheet = (s.core c).sheet else [c]
  let drain (s : State) (c : Nat) (all : Bool) : Option State :=
    ((cores s c all).filter fun t => (s.core t).cstate = .active).foldlM (fun s t => s.drainAll t) s
  (∀ q ∈ [(Instr.tinvA, 0o030, false), (Instr.tinvbA, 0o033, true)], ∀ n s d s1 s2, Begins (secd q.2.1 []) n s d s1 →
    let c := n.core.val
    drain s1 c q.2.2 = some s2 →
    exec (q.1 n) s = .next (s.after c (s2.invalidated (cores s2 c q.2.2) fun _ => true))) ∧
  (∀ q ∈ [(Instr.tinvS, 0o031, false), (Instr.tinvbS, 0o034, true)], ∀ n s d s1 rs sr vs s' s2,
    Begins (secd q.2.1 [fw .s .i .wW]) n s d s1 →
    let c := n.core.val
    Reads c d s1 false 0 rs sr vs s' → drain s' c q.2.2 = some s2 →
    exec (q.1 n) s = .next (s.after c (s2.invalidated (cores s2 c q.2.2) fun e => !e.global && e.asn == srcAt vs 0 % 2 ^ 12))) ∧
  (∀ q ∈ [(Instr.tinvV, 0o032, false), (Instr.tinvbV, 0o035, true)], ∀ n s d s1 rs sr vs s' s2,
    Begins (secd q.2.1 [fw .r .i .wW, fw .r .p .wD]) n s d s1 →
    let c := n.core.val
    Reads c d s1 false 0 rs sr vs s' → drain s' c q.2.2 = some s2 →
    let dspace := (srcAt vs 0).testBit 35
    let a := if dspace then srcAt vs 1 % 2 ^ 54 else srcAt vs 1 % 2 ^ 36
    exec (q.1 n) s = .next (s.after c (s2.invalidated (cores s2 c q.2.2)
      fun e => e.dspace == dspace && (e.global || e.asn == srcAt vs 0 % 2 ^ 12) &&
        e.vpage == (if e.large then a / 2 ^ 26 else a / 2 ^ 12))))

/-- R197, R198, R296-R298, R303, R304, R306, R307: CWB, CZERO, CINV and CWBI each retire into one store-buffer entry of their line, CZERO with
D set; CWB.ALL has its controller write every dirty line the quire owns; CINV.ALL empties the caches in reach that are off and not
draining of what they kept; PRELOAD brings the line into the quire or, where its address fails or the line is busy, does nothing;
PRELOAD.L locks it in a way, after the checks of both its operands in their order; CUNLK releases the locks of a way. What PRELOAD.L does
without the whole quire, and what a disabled cache keeps, are the model's readings (log entries 25 and 32). -/
def Obligations.CacheRows : Prop :=
  (∀ q ∈ [(Instr.cwb, prim 0o362 [opM] [] [], StoreKind.cwb, 1), (Instr.czero, prim 0o363 [opM] [] [], StoreKind.czero, 2),
      (Instr.cinv, secd 0o040 [opM], StoreKind.cinv, 2), (Instr.cwbi, secd 0o042 [opM], StoreKind.cwbi, 1)],
    ∀ n s d s1 fs sf x s2 s3, Begins q.2.1 n s d s1 →
    let c := n.core.val
    Forms c d s1 fs sf → Maps sf c q.2.2.2 (addrAt fs 0) x s2 → s2.room c →
    (if q.2.2.1 = .czero then s2.setD (.core c) ((s2.core c).sheet.getD 64) x.leafAt = some s3 else s3 = s2) →
    exec (q.1 n) s = .next (s.after c (s3.setCore c { s3.core c with stores := (s3.core c).stores ++ [
      { kind := q.2.2.1, addr := x.mp, mask := 0, value := 0, rel := false }] }))) ∧
  (∀ n s d s1 s2 s3, Begins (secd 0o043 []) n s d s1 → s1.drainAll n.core.val = some s2 →
    let q := n.core.val / 6
    (((s2.qlines.filter fun (y : Nat × QLine) => y.1 / 2 ^ 34 = q ∧ y.2.st.owns = true ∧ y.2.isDirty = true).map
      fun (y : Nat × QLine) => y.1 % 2 ^ 34).foldlM (fun s l => s.mClean q l) s2) = some s3 →
    exec (.cwbAll n) s = .next (s.after n.core.val s3)) ∧
  (∀ n s d s1 s2, Begins (secd 0o041 []) n s d s1 → s1.drainAll n.core.val = some s2 →
    let q := quireOf n.core.val
    ∃ l, exec (.cinvAll n) s = .next (s.after n.core.val { s2 with arrays := l }) ∧
      (∀ y, y ∈ l ↔ y ∈ s2.arrays ∧ ¬ ∃ x, (x = .l1i n.core ∨ x = .l1d n.core ∨
          (x = .l2 (quireFin q) ∧ s2.ownsQuire ((s2.core n.core.val).sheet.getD 64) q = true)) ∧
        s2.cacheIdle x = true ∧ y.1 / 2 ^ 34 = cacheNo x)) ∧
  (∀ n s d s1 fs sf, Begins (prim 0o360 [opM] [] []) n s d s1 → Forms n.core.val d s1 fs sf →
    let c := n.core.val
    (∀ e, sf.xlate c true 1 1 (addrAt fs 0) = .error e → exec (.preload n) s = .next (s.after c sf)) ∧
    (∀ x s2, sf.xlate c true 1 1 (addrAt fs 0) = .ok (x, s2) →
      (s2.quireRead (quireOf c) (x.mp / 16) = none → exec (.preload n) s = .next (s.after c sf)) ∧
      (∀ l s3, s2.quireRead (quireOf c) (x.mp / 16) = some (l, s3) → exec (.preload n) s = .next (s.after c s3)))) ∧
  (∀ n s d s1 fs sf, Begins (secd 0o044 [opM, fw .s .i .wW]) n s d s1 → Forms n.core.val d s1 fs sf →
    let c := n.core.val
    let q := quireOf c
    let sh := (sf.core c).sheet.getD 64
    (∀ x s2 rs s3 v s4, sf.ownsQuire sh q = true → Maps sf c 1 (addrAt fs 0) x s2 →
      (readyOps c false (fs.drop 1)).run s2 = .ok (rs, s3) → (readOp c d.acq (opAt rs 0)).run s3 = .ok (v, s4) →
      (11 < v % 16 → exec (.preloadL n) s = .next (s.trapped c s4 (.check 0o006 []))) ∧
      (v % 16 ≤ 11 → sf.l2On q = false → exec (.preloadL n) s = .next (s.after c s4)) ∧
      (∀ s5, v % 16 ≤ 11 → sf.l2On q = true → s4.lockLine q (x.mp / 16) (v % 16) = some s5 →
        exec (.preloadL n) s = .next (s.after c s5))) ∧
    (∀ x s2 l s3, sf.ownsQuire sh q = false → sf.xlate c true 1 1 (addrAt fs 0) = .ok (x, s2) →
      s2.quireRead q (x.mp / 16) = some (l, s3) → exec (.preloadL n) s = .next (s.after c s3))) ∧
  SrcRow .cunlk (secd 0o045 [fw .s .i .wW]) (fun c s vs =>
    let way := srcAt vs 0 % 16
    if 11 < way ∨ s.ownsQuire ((s.core c).sheet.getD 64) (c / 6) = false then .ok s
    else .ok { s with locks := s.locks.filter fun (y : Nat × LockSlot) => ¬ (y.1 / 2 ^ 18 = c / 6 ∧ y.1 % 16 = way) })

/-- R41-R44, R193, R268, R274-R277, R571: IN and OUT of a block register in reach of the program read and write it; at a block in reset the
core holds the instruction, nothing else of which has happened; an IN of a bound queue window reads a queue word, one of a bound root-port
window sends a device read and waits for its data (all ones where the port is contained); an OUT to a window joins the gather buffer or is
sent; an access, but an OUT to be gathered, waits unbegun while an earlier OUT is not performed. R42: the checks of an IN or OUT, in
order: a core register address in problem state is the privileged check 0o002, a scope above 4 and an address that names no block are the
check 0o005, and an unbound window or a block out of reach freezes the core with KIND 0o05 for an IN and 0o16 for an OUT and the IO-space
address. That an OUT which does not join starts a new gather, and that a wait undoes the instruction, are the model's choices (log entries
30 and 86). -/
def Obligations.InOutRows : Prop :=
  ((∀ n s d s1 fs sf rs s2 a s', Begins { secd 0o010 [ow .d .i, ow .s .i] with priv := false } n s d s1 →
     let c := n.core.val
     Forms c d s1 fs sf → (readyOps c false fs).run sf = .ok (rs, s2) → (readOp c false (opAt rs 1)).run s2 = .ok (a, s') →
     let w : Word := BitVec.ofNat 36 a
     let s3 := s'.gatherEmit c
     let e := s.gatherEmit c
     (∀ t, s'.ioCheck c false w = .error t → exec (.ioIn n) s = .next (s.trapped c s' t)) ∧
     (∀ x, s'.ioCheck c false w = .ok x → s'.ioBlk c x ∈ s'.inReset →
       exec (.ioIn n) s = .next (e.heldBy c (.ioIn n) (s'.ioBlk c x) (pswIa (s'.core c).psw))) ∧
     (∀ x, s'.ioCheck c false w = .ok x → s'.ioBlk c x ∉ s'.inReset → s3.outOpen c = true → exec (.ioIn n) s = .next e.follow) ∧
     (∀ x, s'.ioCheck c false w = .ok x → s'.ioBlk c x ∉ s'.inReset → s3.outOpen c = false →
       match x with
       | .reg b o => ∀ s4, Deposits (s3.portRead false b o).2 c false (opAt rs 0) (s3.portRead false b o).1.toNat s4 →
         exec (.ioIn n) s = .next (s.after c s4)
       | .win v o =>
         match s3.window ((s3.core c).sheet.getD 64) v with
         | .queue q => ∀ s4, Deposits s3 c false (opAt rs 0) (s3.sqWord q o).toNat s4 → exec (.ioIn n) s = .next (s.after c s4)
         | .rootp t i fn =>
           (s3.contained t i = true → ∀ s4, Deposits s3 c false (opAt rs 0) (2 ^ 36 - 1) s4 →
             exec (.ioIn n) s = .next (s.after c s4)) ∧
           (s3.contained t i = false →
             let s4 := e.emit (.devRead t i fn o)
             exec (.ioIn n) s = .next (s4.setCore c { s4.core c with run := .devIn n (2 * t + i) }).follow)
         | .unbound => exec (.ioIn n) s = .next (s.after c s3))) ∧
   (∀ n s d s1 fs sf rs s2 a s2' v s', Begins { secd 0o011 [ow .s .i, ow .s .i] with priv := false } n s d s1 →
     let c := n.core.val
     Forms c d s1 fs sf → (readyOps c false fs).run sf = .ok (rs, s2) → (readOp c false (opAt rs 0)).run s2 = .ok (a, s2') →
     (readOp c false (opAt rs 1)).run s2' = .ok (v, s') →
     let sh := (s'.core c).sheet.getD 64
     let w : Word := BitVec.ofNat 36 a
     let u : Word := BitVec.ofNat 36 v
     (∀ t, s'.ioCheck c true w = .error t → exec (.ioOut n) s = .next (s.trapped c s' t)) ∧
     (∀ x, s'.ioCheck c true w = .ok x → s'.ioBlk c x ∈ s'.inReset →
       exec (.ioOut n) s = .next (s.heldBy c (.ioOut n) (s'.ioBlk c x) (pswIa (s'.core c).psw))) ∧
     (∀ b o, s'.ioCheck c true w = .ok (.reg b o) → b ∉ s'.inReset →
       exec (.ioOut n) s = .next (if s'.outOpen c then s.follow else s.after c ((s'.gatherEmit c).portWrite false b o u))) ∧
     (∀ i o, s'.ioCheck c true w = .ok (.win i o) → s'.ioBlk c (.win i o) ∉ s'.inReset →
       let gath := s'.rbit .deckle (0o10000 + 0o100 * sh + i) 1
       let joins := match (s'.core c).gather with
         | some g => g.window == i && g.block == o / 16
         | none => true
       (gath = false → exec (.ioOut n) s = .next
         (if s'.outOpen c then s.follow else s.after c ((s'.gatherEmit c).windowWrite c sh i [(o, u)]))) ∧
       (gath = true →
         let s3 := if joins then s' else s'.gatherEmit c
         let g := (s3.core c).gather.getD { window := i, block := o / 16, words := [] }
         exec (.ioOut n) s = .next (s.after c (s3.setCore c { s3.core c with
           gather := some { g with words := Tab.set (fun _ => none) g.words (o % 16) (some u) } })))))) ∧
  (∀ (s : State) (c : Nat) (write : Bool) (a : Word),
     let sh := (s.core c).sheet.getD 64
     let kind := if write then 0o16 else 0o05
     s.ioCheck c write a =
       if dbit (s.core c).psw 0 = true ∧ field a 0 2 ≤ 3 then .error (.check 0o002 [])
       else if 5 ≤ field a 0 2 then .error (.check 0o005 [])
       else if field a 0 2 = 4 then
         if s.window sh (field a 3 8) = .unbound then .error (.freeze kind a.toNat) else .ok (.win (field a 3 8) (field a 9 35))
       else if blkOfDigits (field a 0 17) c = none then .error (.check 0o005 [])
       else if s.programReach c sh ((blkOfDigits (field a 0 17) c).getD .endpt) write = true then
         .ok (.reg ((blkOfDigits (field a 0 17) c).getD .endpt) (field a 18 35))
       else .error (.freeze kind a.toNat))

/-- R194, R265, R273, R429, R430, R447: a channel instruction whose number is below 2^16, whose block is aligned and whose request or
record is sound answers CC 3 where its sheet does not own the subchannel, and is held where the vat is in reset; otherwise the vat's
state gives the CC, and with CC 0 the order is done. SSCH, RSCH and MSCH first have every earlier access of the core performed. A number
from 2^16 or a block off 8 words is the program check 0o006.
R430, R433-R435: MSCH changes EN and the paths of an idle subchannel, STSCH stores its record, and TSCH stores the IRB and with CC 0
clears SP. -/
def Obligations.ChannelRows : Prop :=
  (∀ q ∈ [(Instr.ssch, rowChanM 0o020, true), (.tsch, rowChanM 0o021, true), (.hsch, rowChan 0o022, false), (.csch, rowChan 0o023, false),
      (.msch, rowChanM 0o024, true), (.rsch, rowChan 0o025, false), (.stsch, rowChanM 0o026, true)],
     ∀ n s d s1 fs sf, Begins q.2.1 n s d s1 → Forms n.core.val d s1 fs sf →
       (2 ^ 16 ≤ valAt fs 0 ∨ (q.2.2 = true ∧ addrAt fs 1 % 8 ≠ 0)) → exec (q.1 n) s = .next (s.trapped n.core.val sf (.check 0o006 []))) ∧
  ((∀ n s d s1 fs sf r s2 ws s3, Begins (rowChanM 0o020) n s d s1 →
     let c := n.core.val
     let sub := valAt fs 0
     Forms c d s1 fs sf → sub < 2 ^ 16 → addrAt fs 1 % 8 = 0 →
     (areaXlate c [1] (addrAt fs 1) 8).run sf = .ok (r, s2) → (areaRead c r 8).run s2 = .ok (ws, s3) →
     (requestBad ws = true → exec (.ssch n) s = .next (s.trapped c s3 (.check 0o006 []))) ∧
     (∀ s4, requestBad ws = false → s3.outPending c = false → s3.drainAll c = some s4 →
       AtVat s n (.ssch n) sub s4 (Answers s4
         [(3, dbit (s4.cb sub 0) 4 = false ∨ s4.subFrz sub = true ∨
            ∀ i ∈ List.range 8, (field (ws.getD 2 0) 17 24).testBit (7 - i) = true → s4.pst sub i = 0),
          (2, s4.subSp sub = true), (1, s4.subSt sub ≠ 0 ∨ s4.moving sub = true)]
         fun t => t = s4.startExchange c sub (some ws)))) ∧
   (∀ n s d s1 fs sf s4, Begins (rowChan 0o025) n s d s1 →
     let c := n.core.val
     let sub := valAt fs 0
     Forms c d s1 fs sf → sub < 2 ^ 16 → sf.outPending c = false → sf.drainAll c = some s4 →
     AtVat s n (.rsch n) sub s4 (Answers s4
       [(3, s4.subSt sub = 0 ∨ dbit (s4.cb sub 0) 4 = false ∨ s4.subFrz sub = true), (2, s4.subSp sub = true),
        (1, s4.subSt sub ≠ 3 ∨ s4.moving sub = true)]
       fun t => t = s4.startExchange c sub none)) ∧
   (∀ q ∈ [(Instr.hsch, 0o022, 0o011, false), (Instr.csch, 0o023, 0o012, true)], ∀ n s d s1 fs sf, Begins (rowChan q.2.1) n s d s1 →
     let sub := valAt fs 0
     Forms n.core.val d s1 fs sf → sub < 2 ^ 16 →
     AtVat s n (q.1 n) sub sf (Answers sf
       [(3, sf.subFrz sub = true), (2, sf.subSp sub = true), (1, sf.subSt sub = 5 ∨ (q.2.2.2 = false ∧ sf.subSt sub = 4))]
       fun t => t = sf.stopExchange sub q.2.2.1 q.2.2.2))) ∧
  ((∀ n s d s1 fs sf r s2 ws s3, Begins (rowChanM 0o024) n s d s1 →
     let c := n.core.val
     let sub := valAt fs 0
     Forms c d s1 fs sf → sub < 2 ^ 16 → addrAt fs 1 % 8 = 0 →
     (areaXlate c [1] (addrAt fs 1) 16).run sf = .ok (r, s2) → (areaRead c r 16).run s2 = .ok (ws, s3) →
     let bad := s3.recordBad ((s3.core c).sheet.getD 64) ws
     (bad = true → exec (.msch n) s = .next (s.trapped c s3 (.check 0o006 []))) ∧
     (∀ s4, bad = false → s3.outPending c = false → s3.drainAll c = some s4 →
       AtVat s n (.msch n) sub s4 (Answers s4
         [(3, s4.subFrz sub = true), (2, s4.subSp sub = true), (1, s4.subSt sub ≠ 0)] fun t => t = (s4.mschVat sub ws).2))) ∧
   (∀ n s d s1 fs sf r s2, Begins (rowChanM 0o026) n s d s1 →
     let c := n.core.val
     let sub := valAt fs 0
     Forms c d s1 fs sf → sub < 2 ^ 16 → addrAt fs 1 % 8 = 0 → (areaXlate c [2] (addrAt fs 1) 16).run sf = .ok (r, s2) →
     AtVat s n (.stsch n) sub s2 fun cc t =>
       cc = 0 ∧ Wrote (s2.subTouch sub) c r 0 ((s2.subTouch sub).subRecord sub) t) ∧
   (∀ n s d s1 fs sf r s2, Begins (rowChanM 0o021) n s d s1 →
     let c := n.core.val
     let sub := valAt fs 0
     Forms c d s1 fs sf → sub < 2 ^ 16 → addrAt fs 1 % 8 = 0 → (areaXlate c [2] (addrAt fs 1) 8).run sf = .ok (r, s2) →
     AtVat s n (.tsch n) sub s2 fun cc t =>
       ∃ s3, (if (s2.subTouch sub).subSp sub then (s2.subTouch sub).drainRel c else some (s2.subTouch sub)) = some s3 ∧
         let took := s3.subSp sub && !dbit (s3.cb sub 0) 8
         cc = (if took then 0 else 2) ∧
           Wrote (if took then (s3.setCbF sub 0 6 6 0).withdrawIo sub else s3) c r 0 (s3.irb sub took) t))

/-- R196, R503-R506, R531-R537: an engine instruction whose block passes its checks first has every earlier access of the core performed; it
is held where the engine is in reset, and otherwise answers CC 3 where the engine is closed to its sheet, CC 2 where the sheet's queue (or
its share of the key store) is full and CC 1 where the queue is frozen; with CC 0 the job joins the queue, XCMP and XEXP having cleared
words 12-15 of the block, and XKEY having written the handle, or 0, to d. A block off its alignment, or one that breaks its rules, is the
program check 0o006. That the alignment of the block is checked before its translation is the model's choice (log entry 82). -/
def Obligations.EngineRows : Prop :=
  (∀ q ∈ [(Instr.xcmp, prim 0o260 [opM] [] [], 16), (.xexp, prim 0o261 [opM] [] [], 16), (.xcip, prim 0o262 [opM] [] [], 16),
      (.xkeyUnwrap, prim 0o263 [opM, fw .d .i .wW] [] [], 8), (.xkeyGenerate, prim 0o263 [opM, fw .d .i .wW] [] [], 8),
      (.xkeyFree, prim 0o263 [opM, fw .d .i .wW] [] [], 8)],
    ∀ n s d s1 fs sf, Begins q.2.1 n s d s1 → Forms n.core.val d s1 fs sf → addrAt fs 0 % q.2.2 ≠ 0 →
      exec (q.1 n) s = .next (s.trapped n.core.val sf (.check 0o006 []))) ∧
  (∀ q ∈ [(Instr.xcmp, 0o260, false), (Instr.xexp, 0o261, true)], ∀ n s d s1 fs sf r s2 ws s3,
    Begins (prim q.2.1 [opM] [] []) n s d s1 →
    let c := n.core.val
    Forms c d s1 fs sf → addrAt fs 0 % 16 = 0 → (areaXlate c [1, 2] (addrAt fs 0) 16).run sf = .ok (r, s2) →
    (areaRead c r 12).run s2 = .ok (ws, s3) →
    let t := field (ws.getD 0 0) 24 26
    let bad := calBad (addrAt fs 0) (vec12 ws) q.2.2
    (bad = true → exec (q.1 n) s = .next (s.trapped c s3 (.check 0o006 []))) ∧
    (∀ s4, bad = false → s3.outPending c = false → s3.drainAll c = some s4 →
      let sh := (s4.core c).sheet.getD 64
      (calBlk t ∈ s4.inReset → exec (q.1 n) s = .next (s.heldBy c (q.1 n) (calBlk t) (pswIa (s4.core c).psw))) ∧
      (calBlk t ∉ s4.inReset → ∀ cc u, Answers s4
          [(3, s4.rbit (calBlk t) (0o100 + sh) 0 = false), (2, 32 ≤ (s4.calQueue t sh).length), (1, s4.calFrz t sh = true)]
          (fun u => ∃ s5 s6, Wrote s4 c r 12 [0, 0, 0, 0] s5 ∧ s5.drainAll c = some s6 ∧
            let x := s6.capture c t
            u = s6.setCalQueue t x.sheet (s6.calQueue t x.sheet ++ [
              { block := r.first.sa, words := vec12 ws, expand := q.2.2, ctx := x, running := false, console := none,
                result := none }])) cc u →
        exec (q.1 n) s = .next (s.after c (u.withCc c cc))))) ∧
  (∀ n s d s1 fs sf r s2 ws s3, Begins (prim 0o262 [opM] [] []) n s d s1 →
    let c := n.core.val
    Forms c d s1 fs sf → addrAt fs 0 % 16 = 0 → (areaXlate c [1] (addrAt fs 0) 16).run sf = .ok (r, s2) →
    (areaRead c r 14).run s2 = .ok (ws, s3) →
    let t := field (ws.getD 0 0) 13 15
    let bad := cipBad (addrAt fs 0) (vec14 ws)
    (bad = true → exec (.xcip n) s = .next (s.trapped c s3 (.check 0o006 []))) ∧
    (∀ s4, bad = false → s3.outPending c = false → s3.drainAll c = some s4 →
      let sh := (s4.core c).sheet.getD 64
      (varBlk t ∈ s4.inReset → exec (.xcip n) s = .next (s.heldBy c (.xcip n) (varBlk t) (pswIa (s4.core c).psw))) ∧
      (varBlk t ∉ s4.inReset → ∀ cc u, Answers s4
          [(3, s4.rbit (varBlk t) (0o100 + sh) 0 = false), (2, 32 ≤ (s4.varQueue t sh).length),
           (1, s4.rbit (varBlk t) (0o100 + sh) 15 = true)]
          (fun u => let x := s4.capture c t
            u = s4.setVarQueue t x.sheet (s4.varQueue t x.sheet ++ [
              { block := r.first.sa, words := vec12 ws, key := false, slot := none, ctx := x, running := false, result := none }])) cc u →
        exec (.xcip n) s = .next (s.after c (u.withCc c cc))))) ∧
  (∀ mk ∈ [Instr.xkeyUnwrap, Instr.xkeyGenerate, Instr.xkeyFree], ∀ n s d s1 fs sf r s2 rs sr ws s3,
    Begins (prim 0o263 [opM, fw .d .i .wW] [] []) n s d s1 →
    let c := n.core.val
    Forms c d s1 fs sf → addrAt fs 0 % 8 = 0 → (areaXlate c [1] (addrAt fs 0) 8).run sf = .ok (r, s2) →
    (readyOps c false (fs.drop 1)).run s2 = .ok (rs, sr) → (areaRead c r 6).run sr = .ok (ws, s3) →
    let t := field (ws.getD 0 0) 3 5
    let fn := field (ws.getD 0 0) 0 2
    let bad := xkeyBad (addrAt fs 0) (vec12 ws)
    (bad = true → exec (mk n) s = .next (s.trapped c s3 (.check 0o006 []))) ∧
    (∀ s4, bad = false → s3.outPending c = false → s3.drainAll c = some s4 →
      let sh := (s4.core c).sheet.getD 64
      (varBlk t ∈ s4.inReset → exec (mk n) s = .next (s.heldBy c (mk n) (varBlk t) (pswIa (s4.core c).psw))) ∧
      (varBlk t ∉ s4.inReset → ∀ cc u, Answers s4
          [(3, s4.rbit (varBlk t) (0o100 + sh) 0 = false),
           (2, 32 ≤ (s4.varQueue t sh).length ∨ (fn ≠ 3 ∧ s4.kused t sh = s4.fld (varBlk t) (0o100 + sh) 16 28)),
           (1, s4.rbit (varBlk t) (0o100 + sh) 15 = true)]
          (fun u => let h := s4.xkeyAccept t r.first.sa (vec12 ws) (s4.capture c t)
            Deposits h.2 c false (opAt rs 0) h.1.toNat u) cc u →
        exec (mk n) s = .next (s.after c (u.withCc c cc)))))

/-- R243, R247, R249: of the pending interruptions that qualify, the one accepted is of the highest level and, within it, the one that
became pending first. -/
def Obligations.AcceptedInterruption : Prop :=
  ∀ (k : Core) (i : Irq), k.nextIrq = some i ↔
    ∃ a b, k.pend = a ++ i :: b ∧ k.accepts i = true ∧ (∀ j ∈ a, k.accepts j = true → j.level < i.level) ∧
      (∀ j ∈ b, k.accepts j = true → j.level ≤ i.level)

/-- R243-R247, R273, R276, R277, R279, R281, R638: what happens to a core beside its instructions completes in every state out of reset. A
core at an instruction boundary enters its next interruption, as an acquire for level 3; the comparator's interruption becomes pending
once; the oldest committed store is performed, a release write only once every OUT is; the gather buffer is emitted; an answered
zero-length read ends its OUT; the data of an IN reach its destination in a core in service; and a core that waits with PGW = 1 goes cold,
and with the last of its quire and RETEN = 1 the L2 into retention, while a triptych carries out the quire's duties. That an event of time
acts when its command is sent is the model's reading (log entry 66). -/
def Obligations.CoreEvents : Prop :=
  ∀ (c : CoreId) (s : State), s.alive = true →
    (∀ i s0 v s1, s.atBoundary c.val = true → (s.core c.val).nextIrq = some i → (s.core c.val).cold = false →
      (if i.level = 3 then s.drainRel c.val else some s) = some s0 → s0.vector c.val i.level = some (some v, s1) →
      let s2 := s1.gatherEmit c.val
      let k := { s2.core c.val with pend := (s2.core c.val).pend.erase i, run := .running }
      exec (.interruptionAccept c) s = .next (s2.setCore c.val (k.enter v i.level i.code 0 i.param i.info false)).follow) ∧
    ((s.core c.val).cstate = .active → (s.core c.val).ctlReg 4 ≠ 0 → ((s.core c.val).ctlReg 4).toNat ≤ s.clock.toNat →
      exec (.clockComparator c) s = .next (if ∃ i ∈ (s.core c.val).pend, i.level = 4 ∧ i.code = 0o400 then s
        else s.setCore c.val { s.core c.val with
          pend := (s.core c.val).pend ++ [{ level := 4, code := 0o400, param := 0, info := 0 }] }).follow) ∧
    (∀ x r s1, s.storesGo c.val = true → (s.core c.val).stores = x :: r → (x.rel = false ∨ s.outPending c.val = false) →
      s.perform c.val x = some s1 →
      exec (.storeBufferDrain c) s = .next (s1.setCore c.val { s1.core c.val with stores := (s1.core c.val).stores.drop 1 }).follow) ∧
    (∀ g, s.storesGo c.val = true → (s.core c.val).gather = some g →
      exec (.gatherTimeout c) s = .next ((s.setCore c.val { s.core c.val with gather := none }).windowWrite c.val
        ((s.core c.val).sheet.getD 64) g.window (g.words.filterMap fun x => x.2.map fun v => (g.block * 16 + x.1, v))).follow) ∧
    (∀ a o b, (s.core c.val).outs = a ++ o :: b → (∀ x ∈ a, x.asked = false) → o.asked = true →
      exec (.windowZeroLengthReadDone c) s = .next (s.setCore c.val { s.core c.val with outs := a ++ b }).follow) ∧
    (∀ n p v ep, (s.core c.val).run = .devIn n p → (s.core c.val).cstate = .active → n.core = c →
      let s1 := if ep then s.setFld (rpBlk (p / 2) (p % 2)) 1 12 12 1 else s
      let s2 := s1.setCore c.val { s1.core c.val with run := .running }
      ∀ d s3 fs sf rs sr a sa t, Begins { secd 0o010 [ow .d .i, ow .s .i] with priv := false } n s2 d s3 → Forms c.val d s3 fs sf →
        (readyOps c.val false fs).run sf = .ok (rs, sr) → (readOp c.val false (opAt rs 1)).run sr = .ok (a, sa) →
        Deposits sa c.val false (opAt rs 0) (if ep then 2 ^ 36 - 1 else v.toNat) t →
        exec (.deviceInCompletion c v ep) s = .next ((if s2.waits.isEmpty then t else t.ran c.val).paused c.val).follow) ∧
    (∀ s1, s.acts (.quire (quireFin (c.val / 6))) = true → (s.core c.val).cstate = .active → (s.core c.val).run = .wait →
      (s.core c.val).cold = false → s.rbit (qpwrBlk (c.val / 6)) 0 8 = true → s.drainEvent c.val = some s1 →
      let s2 := (s1.l1Flush c.val).setCore c.val { s1.core c.val with cold := true }
      exec (.powerGateTimeout c) s = .next
        (if s2.acts (.quire (quireFin (c.val / 6))) = true ∧ (∀ i < 6, (s2.core (6 * (c.val / 6) + i)).cold = true) ∧
            s2.rbit (qpwrBlk (c.val / 6)) 0 9 = true then
          s2.setFld (qpwrBlk (c.val / 6)) 1 14 14 1 else s2).follow)

/-- R290-R292, R354-R356, R358: a core that meets a retry cause with attempts left drains its stores, counts the attempt and the retry,
records cause and time, and goes on from its checkpoint; at ATTEMPTS = 3, and for causes 4 to 6, it is shed, but a parity error in a line
that is not dirty only drops the copy; causes 0o10 to 0o12 stop the core. A core is shed with its CAUSE and time recorded, its dirty lines
gone to the L2 and the end points of its OUTs asked for. 4,096 clean retire groups clear ATTEMPTS. R360-R367, R372, R377: a shed core
takes the first spare in the order of R360 that is there, whose wake it asks for, the tile's triptych choosing across the tile, and is
lost where there is none. Its fence ends when no OUT is open and no IN waits; the spare's wake, its transfer and its release follow one
another; a spare that fails its test is FAILED and the search goes on. The stages at which a couching waits, and the duties that a halted
triptych withholds, are the model's readings (log entries 48 and 91). -/
def Obligations.RetryAndCouchingEvents : Prop :=
  (∀ (c : CoreId) (s : State) (line : LineAddr), s.alive = true → (s.core c.val).cstate = .active →
     ((∀ sh, (s.core c.val).sheet = some sh → (s.sheet sh).checkstop = false) →
       (∀ cause : Fin 64, cause.val ∈ [1, 2, 3, 0o13] →
         (∀ s1, s.fld (.retry c) 0 3 4 < 3 → s.drainEvent c.val = some s1 →
           exec (.instructionRetry c cause line) s = .next (((((s1.setFld (.retry c) 0 3 4 (s.fld (.retry c) 0 3 4 + 1)).setFld
             (.retry c) 0 5 10 cause.val).setReg (.retry c) 2 (BitVec.ofNat 36 (micros 36 s1))).count (.retry c) 1 0 35).fault
             (.retry c) 0 (BitVec.ofNat 36 cause.val)).follow) ∧
         (s.fld (.retry c) 0 3 4 = 3 → exec (.instructionRetry c cause line) s = .next (s.shed c.val cause.val []).follow)) ∧
       exec (.instructionRetry c 4 line) s = .next
         (if (s.qline (c.val / 6) line.val).l1dirty = some c.val then s.shed c.val 4 [line.val]
         else s.setQline (c.val / 6) line.val (((s.qline (c.val / 6) line.val).dropL1 c.val true).dropL1 c.val false)).follow ∧
       (∀ cause : Fin 64, cause.val ∈ [0o10, 0o11, 0o12] → ∀ s1, s.drainEvent c.val = some s1 →
         exec (.instructionRetry c cause line) s = .next (s1.coreStop c.val cause.val).follow)) ∧
     exec (.attemptsClear c) s = .next (s.setFld (.retry c) 0 3 4 0).follow ∧
     (∀ (cause : Fin 64) (sh : Nat), cause.val ∈ [1, 2, 3, 0o13] → s.storesGo c.val = true → (s.core c.val).sheet = some sh → sh ≠ 64 →
       let s1 := (s.l1Flush c.val).askOuts c.val
       let s2 := (((s1.setFld (.retry c) 0 0 2 1).setFld (.retry c) 0 5 10 cause.val).setReg (.retry c) 2 (BitVec.ofNat 36 (micros 36 s1)))
       let s3 := (s2.setCore c.val { s2.core c.val with
         cstate := .failed, cold := true
         couch := some ⟨cause.val, s2.clock.toNat, none, false, false, []⟩ }).fault (.retry c) 1 (BitVec.ofNat 36 cause.val)
       s3.acting (.quire (quireFin (quireOf c.val))) ≠ 3 → exec (.shed c cause line) s = .next (s3.chooseSpare c.val).follow)) ∧
  ((∀ (s : State) (c : Nat) (k : Couch), (s.core c).couch = some k → k.spare = none → s.served (c / 6) = true →
     let sh := (s.core c).sheet.getD 64
     let free (q : Nat) : Bool := s.rbit .ident 3 q && (s.core (s.spareCore q)).cstate == .spare
     let claim (q : Nat) : State :=
       let s1 := (s.setHave q false).setCore (s.spareCore q) { s.core (s.spareCore q) with cstate := .couching }
       (s1.setCore c { s1.core c with couch := some { k with spare := some (s.spareCore q), woke := false, transferred := false } }).couchWake
         (s.spareCore q)
     (k.cause = 6 → s.chooseSpare c = s.lose c 2) ∧
     (∀ q, k.cause ≠ 6 → (s.spareQuires c sh).1.find? free = some q → s.chooseSpare c = claim q) ∧
     (k.cause ≠ 6 → (s.spareQuires c sh).1.find? free = none →
       (s.acts (.tile (tileFin (c / 24))) = false → s.chooseSpare c = s) ∧
       (s.acts (.tile (tileFin (c / 24))) = true →
         s.chooseSpare c = match (s.spareQuires c sh).2.find? free with | some q => claim q | none => s.lose c 1))) ∧
   (∀ (c : CoreId) (s : State) (x : Couch), s.alive = true → (s.core c.val).couch = some x → s.fld (.retry c) 0 0 2 = 2 →
     (s.core c.val).outs = [] → (∀ n p, (s.core c.val).run ≠ .devIn n p) →
     exec (.couchFenced c) s = .next (s.setFld (.retry c) 0 0 2 3).follow) ∧
   (∀ (p : CoreId) (s : State) (c : Nat) (k : Couch), s.alive = true → s.couchedFor p.val = some c → (s.core c).couch = some k →
     s.served (c / 6) = true →
     (k.woke = false → s.stepOpen (.coreWake p.val) = false →
       let s1 := s.setCore c { s.core c with couch := some { k with woke := true } }
       let s2 := s.setCore c { s.core c with couch := some { k with spare := none } }
       exec (.spareWakeDone p true) s = .next ((s1.setCore p.val { s1.core p.val with cold := false }).wakeL2 (p.val / 6)).follow ∧
       exec (.spareWakeDone p false) s = .next
         ((s2.setCore p.val { s2.core p.val with cstate := .failed, cold := true }).chooseSpare c).follow) ∧
     (k.woke = true → exec (.stateTransferDone p) s = .next
       (s.setCore c { s.core c with couch := some { k with transferred := true } }).follow) ∧
     (∀ t, k.transferred = true → s.fld (retryBlk c) 0 0 2 ≠ 1 →
       (s.couchState c = 3 ∨ (s.couchState c = 2 ∧ s.rbit .deckle (0o100 + (s.core c).sheet.getD 0) 3 = true)) →
       s.takePlace c p.val k.lostLines = some t → exec (.spareRelease p) s = .next t.follow)))

/-- R371, R373-R382, R385: the panels of a triptych whose output differs from the voted one are outvoted: a single one of a TRIPLEX triptych
is counted, fenced and reloaded, or left fenced where its wires fail or at its third time in a day, and more than one, or unlike panels in
DUPLEX or SELFTEST, halt it; a reload ends; a parent takes over and restarts a halted child once, which resumes or stays halted; and the
module triptych restarts by a supervisor-only reset, and resumes or is halted. That the panels' outputs and test results are operands is
the model's choice (log entry 97); what a failed restart leaves is its reading (log entry 48). -/
def Obligations.TriptychEvents : Prop :=
  (∀ (t : Trip) (s : State) (a b c : Word) (test : PanelTest), s.alive = true →
    (s.tmode t = 0 → (∀ i < 3, s.rbit (tripBlk t) 0 (3 + i) = false) →
      (a = b → b = c → exec (.panelOutvote t a b c test) s = .next s.follow) ∧
      (a ≠ b → b = c → exec (.panelOutvote t a b c test) s = .next (s.panelFence t 0 test).follow) ∧
      (a ≠ b → a = c → exec (.panelOutvote t a b c test) s = .next (s.panelFence t 1 test).follow) ∧
      (a ≠ c → a = b → exec (.panelOutvote t a b c test) s = .next (s.panelFence t 2 test).follow) ∧
      (∀ out : List Nat, out = ([(0, a), (1, b), (2, c)].filter fun x : Nat × Word => x.2 ≠ (a &&& b) ||| (b &&& c) ||| (a &&& c)).map (·.1) →
        2 ≤ out.length → exec (.panelOutvote t a b c test) s = .next ((out.foldl (fun s p =>
          (s.count (tripBlk t) 0 18 26).fault (tripBlk t) 0 (BitVec.ofNat 36 p)) s).tripHalt t).follow)) ∧
    ((s.tmode t = 1 ∨ s.tmode t = 2) → s.rbit (tripBlk t) 0 3 = true → s.rbit (tripBlk t) 0 4 = false → s.rbit (tripBlk t) 0 5 = false →
      exec (.panelOutvote t a b c test) s = .next (if c = b then s else s.tripHalt t).follow) ∧
    (∀ p x y, s.tmode t = 1 → (p, x, y) ∈ [(0, 1, 2), (1, 0, 2), (2, 0, 1)] → s.rbit (tripBlk t) 0 (3 + p) = true →
      s.rbit (tripBlk t) 0 (3 + x) = false → s.rbit (tripBlk t) 0 (3 + y) = false →
      (s.panelMem t x ≠ s.panelMem t y → exec (.panelReloadDone t none test) s = .next (s.tripHalt t).follow) ∧
      (s.panelMem t x = s.panelMem t y →
        let s1 := ({ s with panels := ((s.panelMem t x).foldl (fun m e => Tab.set panelDefault m (panelKey t p e.1) e.2)
          (s.panels.filter fun e => e.1 / 2 ^ 22 ≠ 3 * tripNo t + p)) } : State).count (tripBlk t) 0 27 35
        exec (.panelReloadDone t none test) s = .next
          (if test.pass = false then s1 else if loopFails test = true then s1.wireFault t p
          else (s1.setFld (tripBlk t) 0 3 5 0).setTmode t 0).follow)) ∧
    (t ≠ .module → s.tmode t = 3 → s.acting t ≠ 3 → t ∉ s.restarted →
      exec (.triptychRestart t) s = .next (({ s with restarted := s.restarted ++ [t] } : State).tripReload t).follow) ∧
    (t ≠ .module → s.tmode t = 4 →
      let s1 := ((s.setFld (tripBlk t) 0 3 8 0).setTmode t 0).tripOps t 0
      exec (.triptychRestartDone t true) s = .next ({ s1 with
        carried := s1.carried.filter (· ≠ t), restarted := s1.restarted.filter (· ≠ t)
        outvotes := s1.outvotes.filter fun x => x.1 ≠ t } : State).dutiesGo.follow ∧
      (t ∈ s.restarted → exec (.triptychRestartDone t false) s = .next ((s.setTmode t 3).tripOps t 0xF).follow)) ∧
    (s.acting t ≠ 0 → s.acting t ≠ 3 → t ∉ s.carried →
      exec (.triptychTakeover t) s = .next ({ s with carried := s.carried ++ [t] } : State).dutiesGo.follow)) ∧
  (∀ s : State, s.alive = true →
    (s.tmode .module = 4 → exec .supervisorOnlyReset s = .next s.follow) ∧
    (s.tmode .module ≠ 4 →
      let s0 := if s.tmode .module = 3 then s else s.tripHalt .module
      s0.tmode .module = 3 →
      let s1 : State := { s0 with nonce := none, restarted := (s0.restarted.filter fun x => x ≠ .module) ++ [.module] }
      exec .supervisorOnlyReset s = .next
        (((s1.setBar 0 0x20 (s1.bar 0 0x20 ||| 8#32)).setReg .mtrip 0 (setField 0 0 2 3)).tripReload .module).follow) ∧
    (s.tmode .module = 4 →
      let s1 := s.setBar 0 0x20 (s.bar 0 0x20 &&& ~~~8#32)
      exec (.supervisorOnlyResetDone false) s = .next (s1.tripHalt .module).follow ∧
      (let s2 := s1.setTmode .module 0
       let s3 : State := { s2 with
         outvotes := s2.outvotes.filter fun x => x.1 ≠ .module, restarted := s2.restarted.filter (· ≠ .module) }
       let s4 := ((s3.longOps.filterMap fun o => o.reply.map fun r => (o.slot, r)).foldl (fun s x => s.slotDone x.1 x.2) s3).dutiesGo
       s4.commit ≠ none → exec (.supervisorOnlyResetDone true) s = .next s4.follow)))

/-- R326, R333: a home runs a request for a line on which nothing runs or waits by the table: GetS, GetM and GetZ are answered with data or a
grant, or forwarded to the owner, with an Inv to each sharer, and the line is busy until Done or until its last InvAck and RData. R316,
R323, R333-R335, R341: the other requests. PutM and PutE from the owner free or share the entry and are acknowledged, and from anyone else
answered StaleAck; MClean, MFlush and MPurge of a line no quire holds complete at once, and of an owned line ask its owner; ReadNC,
WriteNC and AtomNC of an unheld line read and change the home's data. That the row also does the requester's side is the model's reading
(log entry 45). -/
def Obligations.HomeRequests : Prop :=
  (∀ (h : HomeId) (q : QuireId) (line : LineAddr) (cnt : Fin 65) (a : Ask) (s s1 : State),
     let l := line.val
     let e := s1.dirE h.val l
     let sh := s1.shOf l e (some q.val)
     (Arrives s h.val q.val l .getS cnt.val a s1 →
       let rq := reqOf .getS q.val cnt.val none
       (∀ d s2, e.st = .di → s1.homeData h.val l = some (d, s2) → exec (.gets h q line cnt a) s = .next
         (((s2.web "DataE" h.val q.val l (some d) 0).busy h.val l (txnOf .bd rq [] false false)).tookReq h.val q.val l).follow) ∧
       (∀ d s2, e.st = .ds → s1.homeData h.val l = some (d, s2) → exec (.gets h q line cnt a) s = .next
         (((s2.web "DataS" h.val q.val l (some d) 0).busy h.val l (txnOf .bd rq [] false false)).tookReq h.val q.val l).follow) ∧
       (∀ o, (e.st = .dO ∨ e.st = .dx) → e.owner = some o → exec (.gets h q line cnt a) s = .next
         (((s1.web "FwdGetS" h.val o l none q.val).busy h.val l (txnOf .bd rq [] false true)).tookReq h.val q.val l).follow)) ∧
     (Arrives s h.val q.val l .getM cnt.val a s1 →
       let rq := reqOf .getM q.val cnt.val none
       (∀ d s2, e.st = .di → s1.homeData h.val l = some (d, s2) → exec (.getm h q line cnt a) s = .next
         (((s2.web "DataM" h.val q.val l (some d) 0).busy h.val l (txnOf .bd rq [] false false)).tookReq h.val q.val l).follow) ∧
       (∀ d s2, e.st = .ds → s1.homeData h.val l = some (d, s2) → exec (.getm h q line cnt a) s = .next
         ((((s2.web "DataM" h.val q.val l (some d) sh.length).sendInv h.val l e.bc sh q.val).busy h.val l
           (txnOf .bd rq [] false false)).tookReq h.val q.val l).follow) ∧
       (e.st = .dO → e.owner = some q.val → exec (.getm h q line cnt a) s = .next
         ((((s1.web "GrantM" h.val q.val l none sh.length).sendInv h.val l e.bc sh q.val).busy h.val l
           (txnOf .bd rq [] false false)).tookReq h.val q.val l).follow) ∧
       (∀ o, e.st = .dO → e.owner = some o → o ≠ q.val → exec (.getm h q line cnt a) s = .next
         ((((s1.web "FwdGetM" h.val o l none (64 * q.val + sh.length)).sendInv h.val l e.bc sh q.val).busy h.val l
           (txnOf .bd rq [] false true)).tookReq h.val q.val l).follow) ∧
       (∀ o, e.st = .dx → e.owner = some o → exec (.getm h q line cnt a) s = .next
         (((s1.web "FwdGetM" h.val o l none (64 * q.val)).busy h.val l (txnOf .bd rq [] false true)).tookReq h.val q.val l).follow)) ∧
     (Arrives s h.val q.val l .getZ cnt.val a s1 →
       let rq := reqOf .getZ q.val cnt.val none
       (e.st = .di → exec (.getz h q line cnt a) s = .next
         (((s1.web "GrantM" h.val q.val l none 0).busy h.val l (txnOf .bd rq [] false false)).tookReq h.val q.val l).follow) ∧
       (e.st = .ds → exec (.getz h q line cnt a) s = .next
         ((((s1.sendInv h.val l e.bc sh homeCollects).busy h.val l (txnOf .bc rq sh false false)).tryComplete h.val l).tookReq
           h.val q.val l).follow) ∧
       (∀ o, e.st = .dx → e.owner = some o → exec (.getz h q line cnt a) s = .next
         (((((s1.sendInv h.val l e.bc [] homeCollects).web "Recall" h.val o l none 0).busy h.val l (txnOf .bc rq [] true false)).tryComplete
           h.val l).tookReq h.val q.val l).follow))) ∧
  (∀ (h : HomeId) (line : LineAddr) (cnt : Fin 65) (a : Ask) (s s1 : State),
     let l := line.val
     let e := s1.dirE h.val l
     (∀ (q : QuireId) (data : Line), Arrives s h.val q.val l .putM (s.qline q.val l).count a s1 →
       (e.owner = some q.val → s1.canWrite h.val l = true →
         let s2 := s1.homeWrite h.val l data
         let s3 := if e.st = .dx then s2.freeEntry h.val l else s2.putDir h.val l { e with owner := none, st := .ds }
         exec (.putm h q line data a) s = .next ((s3.web "PutAck" h.val q.val l none 0).tookReq h.val q.val l).follow) ∧
       (e.owner ≠ some q.val →
         exec (.putm h q line data a) s = .next ((s1.web "StaleAck" h.val q.val l none 0).tookReq h.val q.val l).follow)) ∧
     (∀ q : QuireId, Arrives s h.val q.val l .putE (s.qline q.val l).count a s1 →
       (e.owner = some q.val →
         let s3 := if e.st = .dx then s1.freeEntry h.val l else s1.putDir h.val l { e with owner := none, st := .ds }
         exec (.pute h q line a) s = .next ((s3.web "PutAck" h.val q.val l none 0).tookReq h.val q.val l).follow) ∧
       (e.owner ≠ some q.val →
         exec (.pute h q line a) s = .next ((s1.web "StaleAck" h.val q.val l none 0).tookReq h.val q.val l).follow)) ∧
     (∀ q : QuireId, Arrives s h.val q.val l .mClean cnt.val a s1 →
       (∀ s2, (e.st = .di ∨ e.st = .ds) → s1.l3Clean h.val l = some s2 →
         exec (.mclean h q line cnt a) s = .next ((s2.web "Cmp" h.val q.val l none 0).tookReq h.val q.val l).follow) ∧
       (∀ o, (e.st = .dO ∨ e.st = .dx) → e.owner = some o → exec (.mclean h q line cnt a) s = .next
         (((s1.web "Snp" h.val o l none 1).busy h.val l (txnOf .bs (reqOf .mClean q.val cnt.val none) [] true false)).tookReq
           h.val q.val l).follow)) ∧
     (∀ q : QuireId, Arrives s h.val q.val l .mFlush cnt.val a s1 →
       (∀ d, e.st = .di → s1.memUp l = true → s1.l3Line h.val l = some { data := d, dirty := true } →
         exec (.mflush h q line cnt a) s = .next
           (((((s1.memWrite l d).setL3 h.val l none).freeEntry h.val l).web "Cmp" h.val q.val l none 0).tookReq h.val q.val l).follow) ∧
       (e.st = .di → (∀ x, s1.l3Line h.val l = some x → x.dirty = false) → exec (.mflush h q line cnt a) s = .next
         ((((s1.setL3 h.val l none).freeEntry h.val l).web "Cmp" h.val q.val l none 0).tookReq h.val q.val l).follow) ∧
       (∀ o, e.st = .dx → e.owner = some o → exec (.mflush h q line cnt a) s = .next
         (((((s1.sendInv h.val l e.bc [] homeCollects).web "Recall" h.val o l none 0).busy h.val l
           (txnOf .bc (reqOf .mFlush q.val cnt.val none) [] true false)).tryComplete h.val l).tookReq h.val q.val l).follow)) ∧
     (∀ q : QuireId, Arrives s h.val q.val l .mPurge cnt.val a s1 → e.st = .di →
       exec (.mpurge h q line cnt a) s = .next
         ((((s1.setL3 h.val l none).freeEntry h.val l).web "Cmp" h.val q.val l none 0).tookReq h.val q.val l).follow) ∧
     (∀ r : ReqIdx, Arrives s h.val r.val l .readNC cnt.val a s1 →
       (∀ d s2, (e.st = .di ∨ e.st = .ds) → (s1.useDir h.val l).homeData h.val l = some (d, s2) →
         exec (.readnc h r line cnt a) s = .next ((s2.web "DataNC" h.val r.val l (some d) 0).tookReq h.val r.val l).follow) ∧
       (∀ o, (e.st = .dO ∨ e.st = .dx) → e.owner = some o → exec (.readnc h r line cnt a) s = .next
         (((s1.web "Snp" h.val o l none 0).busy h.val l (txnOf .bs (reqOf .readNC r.val cnt.val none) [] true false)).tookReq
           h.val r.val l).follow)) ∧
     (∀ (r : ReqIdx) (mask : BitVec 16) (ws : Vector Word 16) (d : Line) (s2 : State),
       Arrives s h.val r.val l (.writeNC mask ws) cnt.val a s1 → e.st = .di → s1.homeData h.val l = some (d, s2) →
       s2.canWrite h.val l = true →
       let x : Line := { words := Vector.ofFn fun i => if mask.getLsbD (15 - i.val) then ws[i] else d.words[i]
                         poison := d.poison && mask != BitVec.allOnes 16 }
       exec (.writenc h r line cnt mask ws a) s = .next
         (((s2.homeWrite h.val l x).web "CmpNC" h.val r.val l none 0).tookReq h.val r.val l).follow) ∧
     (∀ (r : ReqIdx) (op : AtomOp) (i : Fin 16) (v : DWord) (d : Line) (s2 : State),
       (Arrives s h.val r.val l (.atomNC op false i.val v) cnt.val a s1 → e.st = .di → s1.homeData h.val l = some (d, s2) →
         s2.canWrite h.val l = true →
         let x : Line := match atomValue op 36 d.words[i].toNat (v.toNat % 2 ^ 36) with
           | some n => { d with words := d.words.set i (BitVec.ofNat 36 n) }
           | none => d
         exec (.atomnc h r line cnt op false i v a) s = .next
           (((s2.homeWrite h.val l x).web "CmpNC" h.val r.val l none d.words[i].toNat).tookReq h.val r.val l).follow) ∧
       (Arrives s h.val r.val l (.atomNC op true i.val v) cnt.val a s1 → e.st = .di → s1.homeData h.val l = some (d, s2) →
         s2.canWrite h.val l = true →
         let old := lineDw d (i.val / 2)
         let x : Line := match atomValue op 72 old.toNat v.toNat with
           | some n => linePutDw d (i.val / 2) (BitVec.allOnes 72) (BitVec.ofNat 72 n)
           | none => d
         exec (.atomnc h r line cnt op true i v a) s = .next
           (((s2.homeWrite h.val l x).web "CmpNC" h.val r.val l none old.toNat).tookReq h.val r.val l).follow)))

/-- R334-R336, R338, R343: the answers that a home waits for. Done ends a busy line in the state its final state gives; SData, RData and an
InvAck are taken where they are awaited; any other is a protocol error: the directory block records the sender, whose sheets checkstop. A
transaction busy for T cycles finds the agents dead that have not answered. -/
def Obligations.HomeAnswers : Prop :=
  ∀ (h : HomeId) (q : QuireId) (line : LineAddr) (s : State), s.lineLive h.val line.val = true →
    let l := line.val
    let e := s.dirE h.val l
    (∀ t, e.txn = some t → t.busy = .bd → t.req.who = q.val →
      exec (.done h q line .m) s = .next
        ((s.putDir h.val l { e with txn := none, st := .dx, owner := some q.val, sharers := [], bc := false }).homeAfter h.val l).follow ∧
      exec (.done h q line .e) s = .next
        ((s.putDir h.val l { e with txn := none, st := .dx, owner := some q.val, sharers := [], bc := false }).homeAfter h.val l).follow ∧
      (e.bc = false → q.val ∉ e.sharers → e.sharers.length < 4 → exec (.done h q line .s) s = .next
        ((s.putDir h.val l { e with txn := none, sharers := e.sharers ++ [q.val], st := if t.fwd then .dO else .ds }).homeAfter h.val l).follow) ∧
      (e.bc = false → q.val ∉ e.sharers → 4 ≤ e.sharers.length → exec (.done h q line .s) s = .next
        ((s.putDir h.val l { e with txn := none, sharers := [], bc := true, st := if t.fwd then .dO else .ds }).homeAfter h.val l).follow)) ∧
    (∀ t x d, e.txn = some t → t.needD = true → e.owner = some q.val →
      (t.busy = .bs → exec (.sdata h q line x d) s = .next
        ((s.busy h.val l { t with needD := false, got := some (x, d) }).homeAfter h.val l).follow) ∧
      (t.busy = .bc → exec (.rdata h q line x d) s = .next
        ((s.busy h.val l { t with needD := false, got := some (x, d) }).homeAfter h.val l).follow)) ∧
    (∀ t, e.txn = some t → t.busy = .bc → q.val ∈ t.acks → exec (.homeInvack h q line) s = .next
      ((s.busy h.val l { t with acks := t.acks.erase q.val }).homeAfter h.val l).follow) ∧
    (∀ f x d, e.txn = none →
      let s1 := (s.fault (dirBlk h.val) 3 (BitVec.ofNat 36 q.val)).quireDead q.val 3
      exec (.done h q line f) s = .next s1.follow ∧ exec (.sdata h q line x d) s = .next s1.follow ∧
        exec (.rdata h q line x d) s = .next s1.follow ∧ exec (.homeInvack h q line) s = .next s1.follow) ∧
    (∀ t, e.txn = some t →
      let silent := if t.busy = .bd then [t.req.who] else t.acks ++ if t.needD then e.owner.toList else []
      exec (.homeTimeout h line) s = .next
        ((s.fault (dirBlk h.val) 1 (BitVec.ofNat 36 l)).quiresDead (silent.filter fun r => r < 32) 1).follow)

/-- R320, R321, R330, R332, R341-R343: what a quire's line does with the answers to its requests, a line being given up where its set has no
way for it: DataS and DataE fill it in S and E, DataM and GrantM give it in M once every InvAck is there, PutAck and StaleAck end a Put,
and Done tells the home; in an L2 that drains the line then goes back. Cmp ends a maintenance request, and a wait of 2T cycles finds the
home dead. R316, R328, R331, R340, R638: what a quire's line does with the messages of other agents' requests. FwdGetS, FwdGetM, Inv,
Recall and Snp are answered from the states the table gives and change the line as it says; Retry keeps the request, which goes out again
with its count raised; and an answer to a non-caching request ends it. Which line a full set gives up is free (log entry 5). -/
def Obligations.QuireAnswers : Prop :=
  (∀ (q : QuireId) (line : LineAddr) (s : State), s.quireLive q.val line.val = true →
     let l := line.val
     let x := s.qline q.val l
     let put (st : QState) (d : Line) (dirty : Bool) (t : State) : State := t.qput q.val l
       { x with st := st, data := d, dirty := dirty, acks := 0, expect := none, req := none, count := 0, retried := false }
     let room := s.fillRoom q.val l
     let tell (t : State) (f : Nat) : State := (t.web "Done" q.val (t.homeNo l) l none f).drainFill q.val l
     ((s.wayFor q.val l).isSome = true → room = s) ∧
     (∀ d, x.st = .isD → exec (.datas q line d false) s = .next (tell (put .s d false room) 0).follow ∧
       exec (.datas q line d true) s = .next (tell (put .e d false room) 1).follow) ∧
     (∀ d n, (x.st = .imAD ∨ x.st = .smAD) →
       (x.acks = n.val → exec (.datam q line d n) s = .next (tell (put .m d true room) 2).follow) ∧
       (x.acks ≠ n.val → exec (.datam q line d n) s = .next
         (room.qput q.val l { x with st := .imA, data := d, dirty := true, expect := some n.val }).follow)) ∧
     (∀ n, x.st = .omAD → x.req = some .getM → x.acks = n.val →
       exec (.grantm q line n) s = .next (tell (put .m x.data true room) 2).follow) ∧
     (∀ n, x.st = .imAD → exec (.grantm q line n) s = .next (tell (put .m zeroLine true room) 2).follow) ∧
     ((x.st = .imAD ∨ x.st = .smAD ∨ x.st = .omAD) →
       exec (.invack q line) s = .next (s.setQline q.val l { x with acks := x.acks + 1 }).follow) ∧
     (x.st = .imA → x.expect = some (x.acks + 1) → exec (.invack q line) s = .next (tell (put .m x.data true s) 2).follow) ∧
     ((x.st = .miA ∨ x.st = .eiA) → exec (.putack q line) s = .next (put .i zeroLine false s).follow) ∧
     (x.st = .iiA → exec (.staleack q line) s = .next (put .i zeroLine false s).follow) ∧
     (∀ a y b, s.openReqs = a ++ y :: b → y.who = q.val → y.line = l → y.kind.maint = true →
       (∀ z ∈ a, z.who ≠ q.val ∨ z.line ≠ l ∨ z.kind.maint = false) →
       exec (.quireCmp q line) s = .next ({ s with openReqs := a ++ b } : State).follow) ∧
     ((x.req ≠ none ∨ ∃ y ∈ s.openReqs, y.who = q.val ∧ y.line = l) → exec (.quireTimeout q line) s = .next
       ((s.fault (.quire q) 0 (BitVec.ofNat 36 (s.homeNo l))).homeDead (s.homeNo l) 0).follow)) ∧
  ((∀ (q : QuireId) (line : LineAddr) (s : State), s.quireLive q.val line.val = true → s.rbit (.qpwr q) 1 14 = false →
     let l := line.val
     let x := s.qline q.val l
     (∀ r : QuireId,
       (x.st = .m ∨ x.st = .e → exec (.fwdgets q line r) s = .next ((s.qput q.val l { x with
         st := .o, dirty := x.dirty || x.st == .m, perm := none, l1dirty := none }).web "DataS" q.val r.val l (some x.data) 0).follow) ∧
       (x.st = .o ∨ x.st = .omAD ∨ x.st = .miA ∨ x.st = .eiA →
         exec (.fwdgets q line r) s = .next ((s.qput q.val l x).web "DataS" q.val r.val l (some x.data) 0).follow)) ∧
     (∀ (r : QuireId) (n : Fin 33),
       (x.st = .m ∨ x.st = .o ∨ x.st = .e → exec (.fwdgetm q line r n) s = .next
         ((s.qput q.val l { x with st := .i }).web "DataM" q.val r.val l (some x.data) n.val).follow) ∧
       (x.st = .omAD → exec (.fwdgetm q line r n) s = .next
         ((s.qput q.val l { x with st := .imAD }).web "DataM" q.val r.val l (some x.data) n.val).follow) ∧
       (x.st = .miA ∨ x.st = .eiA → exec (.fwdgetm q line r n) s = .next
         ((s.qput q.val l { x with st := .iiA }).web "DataM" q.val r.val l (some x.data) n.val).follow)) ∧
     (∀ (cl : Collector),
       let ack (t : State) : State := match cl with
         | .quire r => t.web "InvAck" q.val r.val l none 0
         | .home => t.web "InvAck" q.val (s.homeNo l) l none homeCollects
       (x.st = .s → exec (.inv q line cl) s = .next (ack (s.qput q.val l { x with st := .i })).follow) ∧
       (x.st = .smAD → exec (.inv q line cl) s = .next (ack (s.qput q.val l { x with st := .imAD })).follow) ∧
       (x.st = .i ∨ x.st = .isD ∨ x.st = .imAD ∨ x.st = .iiA → exec (.inv q line cl) s = .next (ack (s.qput q.val l x)).follow)) ∧
     (x.st = .m → exec (.recall q line) s = .next
       ((s.qput q.val l { x with st := .i }).web "RData" q.val (s.homeNo l) l (some x.data) 1).follow) ∧
     (x.st = .e → x.dirty = false → exec (.recall q line) s = .next
       ((s.qput q.val l { x with st := .i }).web "RData" q.val (s.homeNo l) l (some x.data) 0).follow) ∧
     (x.st = .m →
       (let t := s.qput q.val l { x with perm := none, l1dirty := none }
       exec (.snp q line false) s = .next (t.web "SData" q.val (s.homeNo l) l (some x.data) 1).follow) ∧
       (let t := s.qput q.val l { x with st := .e, dirty := false, perm := none, l1dirty := none }
       exec (.snp q line true) s = .next (t.web "SData" q.val (s.homeNo l) l (some x.data) 1).follow)) ∧
     (∀ r : QuireId, x.st = .s → exec (.fwdgets q line r) s = .next
       ((s.fault (.quire q) 1 (BitVec.ofNat 36 (s.homeNo l))).homeDead (s.homeNo l) 1).follow)) ∧
   (∀ (r : ReqIdx) (line : LineAddr) (s : State), s.alive = true →
     let l := line.val
     let x := s.qline r.val l
     (∀ cnt : Fin 65, x.req ≠ none → x.retried = false → x.count = cnt.val →
       exec (.retry r line cnt) s = .next (s.setQline r.val l { x with retried := true }).follow) ∧
     (∀ k, x.req = some k → x.retried = true → x.count < 63 → exec (.requestReissue r line) s = .next
       ((s.setQline r.val l { x with count := x.count + 1, retried := false }).web k.name r.val (s.homeNo l) l
         (if k = .putM then some x.data else none) (x.count + 1)).follow) ∧
     (∀ d old a y b, s.openReqs = a ++ y :: b → y.who = r.val → y.line = l → (∀ z ∈ a, z.who ≠ r.val ∨ z.line ≠ l) →
       (y.kind = .readNC → exec (.datanc r line d) s = .next ({ s with openReqs := a ++ b } : State).follow) ∧
       (y.kind.nonCaching = true → y.kind ≠ .readNC →
         exec (.cmpnc r line old) s = .next ({ s with openReqs := a ++ b } : State).follow))))

/-- R32, R33, R291, R295, R302-R305, R311, R312, R342, R638: a dirty L1D line at its residency limit is written back; disabling a cache clears
its enable and sets DRAINING, an L1's lines staying in its array; a write that enables a cache waits whole while DRAINING is 1; a disable
ends with DRAINING clear, an L2's only once its quire holds no line, and what waited is applied; a retained L2 whose wake has ended serves
its messages; and a Web port that fails takes its link down at both ends. What stays in a disabled cache's array and how writes are held
are the model's readings (log entries 25 and 89). -/
def Obligations.CacheEvents : Prop :=
  (∀ (c : CoreId) (line : LineAddr) (s : State), s.fld (.core c) 0o220 6 9 ≠ 0 →
    (s.qline (c.val / 6) line.val).l1dirty = some c.val →
    exec (.residencyClean c line false) s = .next
      (s.setQline (c.val / 6) line.val { s.qline (c.val / 6) line.val with l1dirty := none }).follow ∧
    ((s.core c.val).cstate = .active → (∀ sh, (s.core c.val).sheet = some sh → (s.sheet sh).checkstop = false) →
      exec (.residencyClean c line true) s = .next (s.shed c.val 4 [line.val]).follow)) ∧
  (∀ (c : CoreId) (s : State),
    (s.rbit (.core c) 0o220 0 = true → exec (.cacheDisable (.l1i c)) s = .next
      (((s.l1Off c.val false).setFld (.core c) 0o220 0 0 0).setFld (.core c) 0o220 2 2 1).follow) ∧
    (s.rbit (.core c) 0o220 1 = true → exec (.cacheDisable (.l1d c)) s = .next
      (((s.l1Off c.val true).setFld (.core c) 0o220 1 1 0).setFld (.core c) 0o220 2 2 1).follow) ∧
    (s.rbit (.core c) 0o220 0 = false → exec (.cacheDisable (.l1i c)) s = .next s.follow) ∧
    (∀ q : QuireId, s.rbit (.l2 q) 0 0 = true →
      exec (.cacheDisable (.l2 q)) s = .next ((s.setFld (.l2 q) 0 0 1 1).drainL2 q.val).follow) ∧
    (∀ x, let v := setField (s.reg (enableAt x).1 (enableAt x).2.1) (enableAt x).2.2 (enableAt x).2.2 1
      (s.draining x = false → exec (.cacheEnable x) s = .next (s.enableApply x v).follow) ∧
      (s.draining x = true → s.cacheOn x = false → dbit v (enableAt x).2.2 = true →
        exec (.cacheEnable x) s = .next ({ s with heldEn := s.heldEn ++ [(x, v)] } : State).follow)) ∧
    (s.rbit (.core c) 0o220 2 = true → s.heldEn = [] →
      exec (.cacheDrainDone (.l1i c)) s = .next (s.setFld (.core c) 0o220 2 2 0).follow)) ∧
  (∀ (q : QuireId) (s : State), s.rbit (.l2 q) 0 1 = true →
    ((∃ y ∈ s.qlines, y.1 / 2 ^ 34 = q.val ∧ y.2.st ≠ .i) → exec (.cacheDrainDone (.l2 q)) s = .next s.follow) ∧
    ((∀ y ∈ s.qlines, y.1 / 2 ^ 34 = q.val → y.2.st = .i) → s.heldEn = [] →
      exec (.cacheDrainDone (.l2 q)) s = .next (s.setFld (.l2 q) 0 1 1 0).follow)) ∧
  (∀ (q : QuireId) (s : State), s.stepOpen (.quireWake q.val) = false →
    let s1 := s.setFld (.qpwr q) 1 14 14 0
    s1.rbit (.qpwr q) 1 14 = false →
    exec (.l2RetentionWake q) s = .next ((s1.l2Wait.filter fun w => w.1 == q.val).foldl (fun (s : State) w => s.l2Serve w.2)
      ({ s1 with l2Wait := s1.l2Wait.filter fun w => w.1 != q.val } : State)).follow) ∧
  (∀ (t : TileId) (p : Fin 7) (s : State), s.alive = true →
    let u := (t.val + 1 + p.val) % 8
    webPort t.val u ∉ s.webDown →
    let s1 : State := { s with webDown := s.webDown ++ [webPort t.val u, webPort u t.val] }
    let s2 := (s1.fault (.web t p) 0 (BitVec.ofNat 36 u)).fault (.web (tileFin u) (Fin.ofNat 7 (6 - p.val))) 0 (BitVec.ofNat 36 t.val)
    (∀ x < 8, ∀ y < 8, x < y → s2.tilePath x y = true) → exec (.webPortFail t p) s = .next s2.follow)

/-- R390-R393, R395: the codeword decodes to itself; a codeword with one bit of its 80 inverted, or any two of bits 0-78, decodes to the
codeword that was stored; and a poison codeword of any data and fold reads as poison. -/
def Obligations.CodewordCorrectsTwoErrors : Prop :=
  ∀ (data : Nat) (fold : Bool), data < 2 ^ 64 →
    cwDecode (cwEncode data fold false) = .good (cwEncode data fold false) false ∧
    (∀ i < 80, cwDecode (cwFlip (cwEncode data fold false) i) = .good (cwEncode data fold false) true) ∧
    (∀ i < 79, ∀ j < 79, i ≠ j →
      cwDecode (cwFlip (cwFlip (cwEncode data fold false) i) j) = .good (cwEncode data fold false) true) ∧
    cwDecode (cwEncode data fold true) = .poison


/-- R390, R392-R395: the nine codewords of a line decode, at the address they were stored for, to that line, and those of a poisoned line
read as poisoned; two line addresses that differ in one or two bits have different folds, so that a line read in place of another is
noticed. -/
def Obligations.LineCodewords : Prop :=
  (∀ (l : Nat) (x : Line), x.poison = false → lineDecode l ((List.range 9).map (storedCw l x)) = .ok x 0) ∧
  (∀ (l : Nat) (x : Line), x.poison = true → lineDecode l ((List.range 9).map (storedCw l x)) = .poison false) ∧
  (∀ (l i j : Nat), i < 34 → j < 34 → foldOf (l ^^^ 2 ^ i) ≠ foldOf l ∧ (i ≠ j → foldOf (l ^^^ 2 ^ i ^^^ 2 ^ j) ≠ foldOf l)) ∧
  (∀ (l l' : Nat) (x : Line), x.poison = false → foldOf l ≠ foldOf l' →
    ∃ n, lineDecode l' ((List.range 9).map (storedCw l x)) = .misdir n)

/-- R389, R393, R394, R396-R398, R401, R402, R418: a read of a line whose controller accepts requests. A good line is delivered, and one with
corrected codewords is rewritten in place, counted and reported; a poisoned or uncorrectable line is delivered poisoned, the latter being
written so and reported, and the row of an uncorrectable codeword is spared, in a poisoned line too; a misdirected read is made again. A
write stores the line; the patrol reads the line at POS and moves on. That a second reading which is poisoned or uncorrectable counts as a
misdirection that persists is the model's choice (log entry 77). -/
def Obligations.MemoryReads : Prop :=
  ∀ (m : McId) (ls : StackLine) (a b : RawRead) (s : State), s.alive = true → s.memUp (m.val * 2 ^ 30 + ls.val) = true →
    let l := m.val * 2 ^ 30 + ls.val
    let poisonSeen := ((s.count (.memc m) 6 0 35).setFld (.memc m) 7 0 2 4).setFld (.memc m) 7 6 35 ls.val
    (∀ x, lineDecode l (s.rawLine m.val a) = .ok x 0 →
      exec (.memcRead m ls a b) s = .next (s.emit (.lineOut m.val x)).follow) ∧
    (∀ x n, lineDecode l (s.rawLine m.val a) = .ok x n → 0 < n →
      let s1 := (((s.setDram l x).count (.memc m) 3 0 35).setFld (.memc m) 7 0 2 1).setFld (.memc m) 7 6 35 ls.val
      exec (.memcRead m ls a b) s = .next
        (((s1.fault (.memc m) 0 (BitVec.ofNat 36 ls.val)).countCorrected m.val ls.val n).emit (.lineOut m.val x)).follow) ∧
    (lineDecode l (s.rawLine m.val a) = .poison false →
      exec (.memcRead m ls a b) s = .next (poisonSeen.emit (.lineOut m.val poisonLine)).follow) ∧
    (lineDecode l (s.rawLine m.val a) = .poison true →
      exec (.memcRead m ls a b) s = .next ((poisonSeen.badCodeword m.val ls.val).emit (.lineOut m.val poisonLine)).follow) ∧
    (lineDecode l (s.rawLine m.val a) = .bad →
      let s1 := (((s.memWrite l poisonLine).count (.memc m) 4 0 35).setFld (.memc m) 7 0 2 2).setFld (.memc m) 7 6 35 ls.val
      exec (.memcRead m ls a b) s = .next
        (((s1.fault (.memc m) 1 (BitVec.ofNat 36 ls.val)).badCodeword m.val ls.val).emit (.lineOut m.val poisonLine)).follow) ∧
    (∀ n x, lineDecode l (s.rawLine m.val a) = .misdir n → lineDecode l (s.rawLine m.val b) = .ok x 0 →
      exec (.memcRead m ls a b) s = .next
        ((((s.count (.memc m) 5 0 35).setFld (.memc m) 7 0 2 3).setFld (.memc m) 7 6 35 ls.val).emit (.lineOut m.val x)).follow) ∧
    (∀ x, (∀ y ∈ (s.mc m.val).patrol, y.1 ≠ ls.val) → exec (.memcWrite m ls x) s = .next (s.setDram l x).follow) ∧
    (∀ x, s.acts (stackDuty m) = true → s.rbit (.memc m) 1 0 = true → s.fld (.memc m) 1 6 35 = ls.val → ls.val + 1 < 2 ^ 30 →
      let s1 := s.setFld (.memc m) 1 6 35 (ls.val + 1)
      lineDecode l (s1.rawLine m.val a) = .ok x 0 → exec (.patrolScrub m a b) s = .next s1.follow)

/-- R400-R407, R630: the other commands of a memory controller, where the tile's triptych does its duty. DataNC for a patrolled line repairs
it unless a newer write reached it or it is poisoned; regions named for it are poisoned whole; a row's 32 lines are copied to a spare row;
a migration starts, and aborts on a failing spare die; refresh changes nothing; and the temperature sets the refresh rate and the
throttle, which is left by a step that above 90 °C is neither asked for nor granted. Which triptych has the duty is the model's reading
(log entry 91). -/
def Obligations.MemoryUpkeep : Prop :=
  ∀ (m : McId) (s : State), s.alive = true → s.acts (stackDuty m) = true →
    (∀ ls x newer, (s.mc m.val).patrol.find? (·.1 == ls.val) = some (ls.val, newer) →
      let s1 := s.setMc m.val { s.mc m.val with patrol := (s.mc m.val).patrol.filter (·.1 ≠ ls.val) }
      exec (.patrolRepair m ls x) s = .next
        (if x.poison then s1.memCheck (m.val * 2 ^ 30 + ls.val) 0o010
        else if newer then s1 else s1.setDram (m.val * 2 ^ 30 + ls.val) x).follow) ∧
    (∀ r, .memc m ∉ s.inReset → (∀ i < 4096, s.rbit .rst (0o10000 + 2 * i) 0 = false) → (s.mc m.val).defer = [r] → r ∉ s.poisoned →
      let s1 := s.setMc m.val { s.mc m.val with defer := [] }
      let s2 := s1.setMc m.val { s1.mc m.val with
        patrol := (s1.mc m.val).patrol.map fun y => if y.1 / 2 ^ 24 = r % 64 then (y.1, true) else y }
      exec (.deferredPoison m) s = .next ((({ s2 with
        dram := s2.dram.filter fun e => e.1 / 2 ^ 24 != r, poisoned := s2.poisoned ++ [r] } : State).memCheck (r * 2 ^ 24) 0o015).homesGo).follow) ∧
    (∀ pc bank row errs,
      let key := pc.val * 2 ^ 20 + bank.val * 2 ^ 15 + row.val
      key ∈ (s.mc m.val).copying →
      let s1 := (List.range 32).foldl (fun (s : State) col =>
        let ls := row.val * 32768 + col * 1024 + bank.val * 32 + pc.val
        let r : RawRead := { from_ := Fin.ofNat _ ls, errs := vget errs col (Vector.replicate 9 0) }
        s.copyLine m.val ls 0o012 r r) s
      let k := s1.mc m.val
      let s2 := s1.setMc m.val { k with
        copying := k.copying.filter (· ≠ key)
        rows := Tab.set (fun _ => 0) k.rows key 0
        spared := Tab.set (fun _ => 0) k.spared (key / 2 ^ 15) (Tab.get (fun _ => 0) k.spared (key / 2 ^ 15) + 1) }
      exec (.rowSpareDone m pc bank row errs) s = .next
        (s2.setFld (.stack m) 0 18 31 (s2.fld (.stack m) 0 18 31 + 1)).homesGo.follow) ∧
    (∀ die, s.fld (.stack m) 0 0 1 = 0 →
      let s1 := (s.setFld (.stack m) 0 0 1 1).setFld (.stack m) 0 2 5 die.val
      let s2 := ((s1.setFld (.stack m) 1 6 9 die.val).setFld (.stack m) 1 1 3 0b100).setFld (.stack m) 1 10 35 0
      exec (.migrationStart m die) s = .next (s2.setMc m.val { s2.mc m.val with ptrs := #v[0, 0] }).follow) ∧
    (let aborted := ((s.setFld (.stack m) 1 1 3 0b001).setFld (.stack m) 0 0 1 3).fault (.stack m) 1
        (BitVec.ofNat 36 (s.fld (.stack m) 0 2 5));
      (∀ half a b, s.rbit (.stack m) 1 1 = true → exec (.migrationCopy m half a b true) s = .next aborted.follow) ∧
      (∀ pc, s.rbit (.stack m) 1 1 = true → pc.val / 2 = s.fld (.stack m) 0 2 5 →
        exec (.recalibration m pc true) s = .next aborted.follow) ∧
      ∀ pc fails, (fails = false ∨ s.rbit (.stack m) 1 1 = false ∨ pc.val / 2 ≠ s.fld (.stack m) 0 2 5) →
        exec (.recalibration m pc fails) s = .next s.follow) ∧
    (∀ pc bank row, exec (.refresh m pc bank row) s = .next s) ∧
    (∀ temp,
      let s1 := s.setFld (.stack m) 0 6 14 temp.val
      (temp.val ≤ 83 →
        let s2 := s1.setFld (.memc m) 0 3 3 0
        let s3 : State := { s2 with steps := s2.steps ++ [(.unthrottle m.val, false)] }
        s2.rbit (.memc m) 0 2 = true → (.unthrottle m.val, false) ∉ s2.steps → (∀ g ∈ s2.granted, g.1 ≠ .unthrottle m.val) →
        exec (.stackTempSample m temp) s = .next (s3.setMc m.val { s3.mc m.val with hot := false }).follow) ∧
      (85 < temp.val → temp.val ≤ 88 →
        let s2 := s1.setFld (.memc m) 0 3 3 1
        s2.rbit (.memc m) 0 2 = false →
        exec (.stackTempSample m temp) s = .next (s2.setMc m.val { s2.mc m.val with hot := false }).follow) ∧
      (90 < temp.val → temp.val ≤ 93 →
        let s2 := s1.setFld (.memc m) 0 3 3 1
        let s3 : State := { s2 with
          steps := s2.steps.filter (· ≠ (.unthrottle m.val, false)), granted := s2.granted.filter (·.1 ≠ .unthrottle m.val) }
        s3.rbit (.memc m) 0 2 = false →
        let s4 := (s3.setFld (.memc m) 0 2 2 1).fault (.memc m) 4 (BitVec.ofNat 36 temp.val)
        exec (.stackTempSample m temp) s = .next (s4.setMc m.val { s4.mc m.val with hot := false }).follow))

/-- R409-R415: a granted access to an Easel bank writes its word or returns it, with an error after two bit errors; the master served goes
last in the rotation; two writes of a dual-ported word in one cycle leave port B's; a read beside a write is BUSY; a bank in retention
makes an access wait and serves it when it has woken; and a scrub reports what it corrects. That port B is served beside port A's grant is
the model's reading (log entry 41). -/
def Obligations.EaselCommands : Prop :=
  ∀ (t : TileId) (s : State), s.alive = true →
    (∀ (b : Fin 32) (r : EaselReq), r.addr.val % 32 = b.val →
      let s1 : State := { s with easelRot := Tab.set (fun _ => 14) s.easelRot (t.val * 32 + b.val) r.slot.val }
      s.retained t.val b.val = false →
      (∀ w, r.write = some w → exec (.easelAccess t b [r] none 0) s = .next (s1.setEasel t.val r.addr.val w).follow) ∧
      (r.write = none →
        exec (.easelAccess t b [r] none 0) s = .next
          (s1.emit (.easelWord r.slot.val (s1.easelWord t.val r.addr.val) false false)).follow ∧
        exec (.easelAccess t b [r] none 1) s = .next
          ((s1.fault (.easel t) 0 (BitVec.ofNat 36 r.addr.val)).emit
            (.easelWord r.slot.val (s1.easelWord t.val r.addr.val) false false)).follow ∧
        (8 ≤ r.slot.val → r.slot.val ≤ 9 → exec (.easelAccess t b [r] none 2) s = .next
          ((s1.fault (.easel t) 1 (BitVec.ofNat 36 r.addr.val)).emit (.easelWord r.slot.val 0 false true)).follow)) ∧
      (∀ p : EaselPortB, ∀ v, p.addr = r.addr → r.addr.val % 32 = 0 → r.addr.val / 32 < 65536 →
        (∀ w, r.write = some w → p.write = some v →
          let s2 := ((s1.setEasel t.val r.addr.val w).setEasel t.val r.addr.val v).count (.easel t) 1 18 35
          exec (.easelAccess t b [r] (some p) 0) s = .next (if t.val = 0 then s2.setFld (.easel t) 1 1 1 1 else s2).follow) ∧
        (r.write = none → p.write = some v →
          let s2 := (s1.setEasel t.val r.addr.val v).count (.easel t) 1 18 35
          exec (.easelAccess t b [r] (some p) 0) s = .next
            (((s2.free 36).2.count (.easel t) (0o20 + r.slot.val) 0 35).emit
              (.easelWord r.slot.val (BitVec.ofNat 36 (s2.free 36).1) true false)).follow) ∧
        (r.write = some v → p.write = none →
          let s2 := (s1.setEasel t.val r.addr.val v).count (.easel t) 1 18 35
          let port := if t.val = 0 then 15 else 8
          let s3 := ((s2.free 36).2.count (.easel t) (0o20 + port) 0 35).emit
            (.easelWord port (BitVec.ofNat 36 (s2.free 36).1) true false)
          exec (.easelAccess t b [r] (some p) 0) s = .next
            (if t.val = 0 then (s3.setFld (.easel t) 1 0 0 1).fault (.easel t) 2 (BitVec.ofNat 36 r.addr.val) else s3).follow))) ∧
    (∀ (b : Fin 32) (r : EaselReq), r.addr.val % 32 = b.val → s.retained t.val b.val = true →
      exec (.easelAccess t b [r] none 0) s = .next ({ s with
        easelWait := Tab.set (fun _ => []) s.easelWait (t.val * 32 + b.val)
          (Tab.get (fun _ => []) s.easelWait (t.val * 32 + b.val) ++ [r]) } : State).follow) ∧
    (∀ e, exec (.easelScrub t e 0) s = .next s.follow ∧
      exec (.easelScrub t e 1) s = .next (s.fault (.easel t) 0 (BitVec.ofNat 36 e.val)).follow ∧
      exec (.easelScrub t e 2) s = .next (s.fault (.easel t) 1 (BitVec.ofNat 36 e.val)).follow) ∧
    (∀ v, (∀ b < 32, Tab.get (fun _ => []) s.easelWait (t.val * 32 + b) = []) →
      exec (.easelRetention t v) s = .next (s.setFld (.easel t) 0 1 31 v.toNat).follow) ∧
    (∀ (b : Fin 32) (r : EaselReq) w, r.write = some w → Tab.get (fun _ => []) s.easelWait (t.val * 32 + b.val) = [r] →
      let s1 := s.setFld (.easel t) 0 b.val b.val 0
      exec (.easelWakeDone t b) s = .next (({ s1 with
        easelWait := Tab.set (fun _ => []) s1.easelWait (t.val * 32 + b.val) [] } : State).setEasel t.val r.addr.val w).follow)

/-- R424, R425, R428, R432, R434, R436-R447, R450-R458: what the vats do beside the channel instructions. A waiting subchannel takes the
lowest free slot; a packet is fetched and its command leaves, with the data before a format error; a failing packet ends the exchange; an
acknowledgement ends a command, an abandoned one too; paths that fail, time out or change lead to a re-drive, a wait or an end; halts and
clears are resolved by the partner's record; an idle subchannel moves; and a vat that leaves reset goes on. The slot taken, RESID of a
packet that was not read, and the path failure of an abandoned command are the model's choices (log entries 83 to 85). -/
def Obligations.ExchangeEvents : Prop :=
  (∀ (v : VatId) (s : State) (n x : Nat) (rest : List Nat), s.alive = true → .vat v ∉ s.inReset →
    Tab.get (fun _ => []) s.vatWait v.val = n :: rest → (List.range 1024).find? (fun x => !dbit (s.jw v.val x 0) 0) = some x →
    let s1 : State := { s with vatWait := Tab.set (fun _ => []) s.vatWait v rest }
    let s2 := (s1.setCbF n 6 20 29 x).setSubSt n 2
    let s3 := s2.setEasel (v.val / 2) (jAt v.val x 0) (BitVec.ofNat 36 (2 ^ 35 + n % 2 ^ 16 * 2 ^ 17))
    let s4 := s3.setEasel (v.val / 2) (jAt v.val x 1) (setField (0 : Word) 0 19 (s3.subGen n))
    let s5 := s4.setEasel (v.val / 2) (jAt v.val x 2) (setField (0 : Word) 0 11 (s4.cbF n 4 4 15))
    exec (.slotGrant v) s = .next (s5.setEasel (v.val / 2) (jAt v.val x 3) 0).follow) ∧
  (∀ (n : SubId) (s s1 : State), s.alive = true → s.mayFetch n.val = true →
    (∀ e, (fetchNext n.val).run s = some (.error e, s1) → exec (.packetFetch n) s = .next (s1.chanFail n.val e).follow) ∧
    ((fetchNext n.val).run s = some (.ok .suspend, s1) → exec (.packetFetch n) s = .next (s1.chanEnd n.val 0 0 true false).follow) ∧
    (∀ data, (fetchNext n.val).run s = some (.ok (.added data none), s1) → (s1.xc n.val).sent = false →
      ((s1.xc n.val).isIn = true ∨ (s1.xc n.val).xf = 0) →
      exec (.packetFetch n) s = .next ((s1.setXc n.val { s1.xc n.val with ready := true }).commandSend n.val).follow) ∧
    (∀ data i p, (fetchNext n.val).run s = some (.ok (.added data (some i)), s1) → (s1.xc n.val).xf = 0 →
      ((s1.xc n.val).sent = false → exec (.packetFetch n) s = .next
        (((s1.setXc n.val { s1.xc n.val with ready := true }).commandSend n.val).chanFail n.val (.fmt i)).follow) ∧
      ((s1.xc n.val).sent = true → (s1.xc n.val).path = some p → exec (.packetFetch n) s = .next
        ((s1.sendData n.val p data false).chanFail n.val (.fmt i)).follow))) ∧
  (∀ (m : FeltHdr) (status : Octet) (ds : BitVec 16) (moved : Nat) (s : State) (p : Pkt), s.alive = true →
    s.openFor m [2, 4, 5] = true → s.subSt m.xid.val = 2 →
    let n := m.xid.val
    let x := s.xc n
    x.xf = 0 →
    (∀ st, x.err = some st → exec (.xack m status ds moved) s = .next
      ((s.setXc n { x with dstat := ds.toNat, moved := moved }).chanEnd n 1 st false (st == 0o005)).follow) ∧
    (x.err = none → status ≠ 0 → x.op ≠ 4 → exec (.xack m status ds moved) s = .next ((s.setXc n { x with
      dstat := if ds = 0 then status.toNat else ds.toNat, moved := moved }).chanEnd n 1 1 false false).follow) ∧
    (x.err = none → x.packets.getLast? = some p → p.link ≠ 2 →
      let s1 := s.setXc n { x with dstat := ds.toNat, moved := moved }
      exec (.xack m 0 ds moved) s = .next
        (if moved ≠ (x.packets.map (·.count)).sum ∧ p.lenok = false then s1.chanEnd n 1 2 false false
        else if p.link = 1 then s1.advance n else s1.chanEnd n 0 0 false false).follow)) ∧
  (∀ (m : FeltHdr) (ds : BitVec 16) (moved : Nat) (s : State), s.alive = true → s.openFor m [2, 4, 5] = true →
    let n := m.xid.val
    s.subSt n ≠ 2 → (s.xc n).xf = 0 → exec (.xack m 0 ds moved) s = .next
      ((s.setXc n { s.xc n with dstat := ds.toNat, moved := moved }).resolve n .ok).follow) ∧
  (∀ (m : FeltHdr) (os : List Octet) (last : Bool) (s s1 s2 : State), s.alive = true → s.openFor m [2, 4] = true →
    let n := m.xid.val
    let x := s.xc n
    let all := x.inb ++ os
    x.isIn = true → x.err = none → x.xf = 0 → (fetchRoom 4096 n all.length).run s = some (.ok (), s1) →
    (fillPackets (s1.xc n) all x.inb.length last).run (s1.setXc n { s1.xc n with inb := all, moved := all.length }) = some (.ok (), s2) →
    exec (.xdata m os last false) s = .next s2.follow) ∧
  (∀ (m : FeltHdr) (found : Bool) (g : Fin 1048576) (hi : Fin 4096) (status : Octet) (s : State), s.alive = true →
    let n := m.xid.val
    s.subV n = true → (s.subSt n = 4 ∨ s.subSt n = 5) → (s.xc n).queried = true → s.subGen n = m.gen.val →
    exec (.record m found g hi status) s = .next
      (s.resolve n (if found = true ∧ g.val = s.subGen n ∧ s.cseqOf n ≤ hi.val then
        (if status = 0 then .ok else .error status.toNat 0) else .no)).follow) ∧
  (∀ (n : SubId) (s : State), s.alive = true →
    let x := s.xc n.val
    (∀ p, s.subSt n.val = 2 → x.sent = true → s.subV n.val = true → x.path = some p →
      (x.err = none →
        exec (.ackTimeout n) s = .next ((s.setPst n.val p 3).afterFailure n.val (s.pathVer n.val p)).follow) ∧
      (∀ st, x.err = some st → (st ≠ 7 ∨ x.isIn = false) →
        exec (.ackTimeout n) s = .next ((s.setPst n.val p 3).chanEnd n.val 1 st false (st == 0o005)).follow)) ∧
    (s.pathChoice n.val = none →
      (s.subSt n.val = 6 → exec (.pathWaitTimeout n) s = .next (s.chanEnd n.val 3 0o013 false false).follow) ∧
      (s.subSt n.val = 2 → x.ready = true → x.path = none →
        (s.phaseOf n.val = 0 → exec (.pathWaitTimeout n) s = .next (s.chanEnd n.val 2 0o013 false false).follow) ∧
        (s.phaseOf n.val ≠ 0 → exec (.pathWaitTimeout n) s = .next ((s.setSubSt n.val 6).setJF n.val 0 1 2 2).follow))) ∧
    ((s.subSt n.val = 4 ∨ s.subSt n.val = 5) →
      ((s.pathChoice n.val = none ∨ x.queried = true) →
        exec (.haltTimeout n) s = .next (s.resolve n.val .unknown).follow) ∧
      (∀ p p0, s.pathChoice n.val = some p → x.path = some p0 → x.sent = true → x.queried = false → 2 ≤ s.pathVer n.val p0 →
        exec (.haltTimeout n) s = .next
          ((s.setXc n.val { x with queried := true, path := some p }).chanMsg n.val p 7 0 .none false).follow)) ∧
    (∀ a v k b, s.moves = a ++ (n.val, v, k) :: b → (∀ y ∈ a, y.1 ≠ n.val) → (s.subSt n.val = 0 ∨ s.subSt n.val = 3) →
      let v2 := s.fld .deckle (subAt n.val) 7 10
      let k2 := s.fld .deckle (subAt n.val) 23 35
      let s1 := (List.range 16).foldl (fun s w => s.setEasel (v2 / 2) (cbAt k2 w) (s.easelWord (v / 2) (cbAt k w))) s
      exec (.subchannelMove n) s = .next ({ s1 with moves := s1.moves.filter fun y => y.1 ≠ n.val } : State).follow)) ∧
  (∀ (l : LinkId) (s : State), s.alive = true → s.acts (.tile l.tile) = true → s.isLink (linkNo l) = true →
    let n := linkNo l
    let s1 := s.pathWords n (s.linkUp n) (s.lnk n).cameUp (s.lver n)
    let s2 := s1.setLnk n { s1.lnk n with cameUp := false }
    let s3 := if s2.linkUp n then s2.exchanges.foldl (fun s x => s.pathWake x) s2 else s2
    exec (.pathUpdate l) s = .next ((s3.runningSheets.filter fun sh => s3.groupHas n sh).foldl (fun s sh => s.pathNotice n sh) s3).follow) ∧
  (∀ (v : VatId) (s : State), s.alive = true → .vat v ∉ s.inReset →
    exec (.vatRestart v) s = .next ((List.range 1024).foldl (fun (s : State) j =>
      let n := field (s.jw v.val j 0) 3 18
      let x := s.xc n
      if dbit (s.jw v.val j 0) 0 = false ∨ s.subSt n ≠ 2 then s
      else if field (s.jw v.val j 0) 1 2 = 0 then if x.ready then (s.setXc n { x with path := none }).commandSend n else s
      else if x.sent then s.afterFailure n (match x.path with | some p => s.pathVer n p | none => 0) else s) s).follow)

/-- R466, R470-R476: a flit that arrives on the lane of an active link whose turn it is. One with a bad CRC is counted and answered by one
NAK; a good header's ACK and credits are taken; a DATA flit with the expected SEQ and a credit is accepted; a flit that is early on its
lane is held, and those held follow in turn. An unacknowledged flit is acknowledged after a microsecond, and a replay buffer without
progress is sent again, eight times at most. R467, R479-R485, R489, R495: how a felt link trains, identifies its partner, sleeps, wakes
and goes down. How flits that are early on their lane are held, and which channel's credits a header returns, are the model's choices (log
entries 7 and 83). -/
def Obligations.LinkEvents : Prop :=
  (∀ (l : LinkId) (lane : Fin 8) (h : FlitHdr) (s : State), s.alive = true →
     let n := linkNo l
     s.isLink n = true → s.lstate n = 5 →
     (∀ good, lane.val < s.lwidth n → lane.val ≠ (s.lnk n).rxFlit % s.lwidth n →
       (∀ x ∈ (s.lnk n).rxHeld, x.1 ≠ (s.lnk n).rxFlit % s.lwidth n) →
       ∀ q ∈ [Instr.dataFlit, Instr.idleFlit], exec (q l lane h good) s = .next
         (s.setLnk n { s.lnk n with rxHeld := (s.lnk n).rxHeld ++ [(lane.val, h, good)] }).follow) ∧
     (lane.val < s.lwidth n → lane.val = (s.lnk n).rxFlit % s.lwidth n → (s.lnk n).rxHeld = [] →
       let s0 := s.setLnk n { s.lnk n with rxFlit := (s.lnk n).rxFlit + 1, rxHeld := [] }
       (∀ q ∈ [Instr.dataFlit, Instr.idleFlit], exec (q l lane h false) s = .next
         ((s0.count (linkBlk n) (lcntAt n 2) 0 35).nakFlit n).follow) ∧
       (∀ q ∈ [Instr.dataFlit, Instr.idleFlit], h.nak = false → 2 ≤ h.type.val → h.type.val ≤ 5 →
         exec (q l lane h true) s = .next ((s0.takeAck n h).feltFlush n).follow) ∧
       (∀ q ∈ [Instr.dataFlit, Instr.idleFlit], h.nak = false → h.type.val = 1 →
         let s1 := s0.takeAck n h
         let k := s1.lnk n
         h.seq.val = k.rxNext → vget k.rxCred h.vc.val 0 ≠ 0 → k.unacked + 1 < 32 →
         exec (q l lane h true) s = .next ((s1.setLnk n { k with
           rxNext := (k.rxNext + 1) % 1024, nakSent := false, sleepReq := false, unacked := k.unacked + 1
           rxCred := vset k.rxCred h.vc.val (vget k.rxCred h.vc.val 0 - 1)
           owed := vset k.owed h.vc.val (vget k.owed h.vc.val 0 + 1) }).feltFlush n).follow) ∧
       (∀ q ∈ [Instr.dataFlit, Instr.idleFlit], (h.type.val = 0 ∨ 5 < h.type.val) →
         exec (q l lane h true) s = .next (s0.linkDown n 4).follow) ∧
       ∀ (h2 : FlitHdr) (good2 : Bool), 2 ≤ s.lwidth n → h.nak = false → 2 ≤ h.type.val → h.type.val ≤ 5 →
         let s1 := s.setLnk n { s.lnk n with rxHeld := [(((s.lnk n).rxFlit + 1) % s.lwidth n, h2, good2)] }
         let s2 := s.setLnk n { s.lnk n with
           rxFlit := (s.lnk n).rxFlit + 1, rxHeld := [(((s.lnk n).rxFlit + 1) % s.lwidth n, h2, good2)] }
         exec (.dataFlit l lane h true) s1 = .next (((s2.takeAck n h).feltFlush n).flitTurn n 1).follow) ∧
     ((s.lnk n).inFlight ≠ 0 → exec (.replayTimeout l) s = .next
       (if 8 ≤ (s.lnk n).replays then s.linkDown n 2
       else (((s.setLnk n { s.lnk n with replays := (s.lnk n).replays + 1 }).count (linkBlk n) (lcntAt n 3) 0 35).resend n)).follow) ∧
     ((s.lnk n).unacked ≠ 0 → exec (.ackTimer l) s = .next (s.flitOut n 2 0 0 false).follow)) ∧
  (∀ (l : LinkId) (s : State), s.alive = true →
     let n := linkNo l
     let b := linkBlk n
     let turned (s : State) := if s.lstate n = 5 then s.setLnk n { s.lnk n with rxFlit := (s.lnk n).rxFlit + 1 } else s
     let sent (s : State) := s.setLnk n { s.lnk n with txFlit := (s.lnk n).txFlit + 1 }
     s.isLink n = true →
     (∀ ws : Vector Word 8, s.lstate n = 4 → field ws[0] 0 8 = 1 → laneGroup n ≠ 2 →
       let ver := if dbit ws[0] 14 then 3 else if dbit ws[0] 13 then 2 else if dbit ws[0] 12 then 1 else 0
       let s1 := ((s.setReg b (pidAt n 0) ws[1]).setReg b (pidAt n 1) ws[2]).setReg b (pidAt n 2) ws[3]
       let s2 := s1.setReg b (pidAt n 3) (setField (setField (0 : Word) 0 2 (field ws[4] 0 2)) 3 5 (field ws[0] 12 14))
       let s3 := (s2.setFld b (lstatAt n) 10 11 ver).setFld b (lstatAt n) 12 14 (field ws[0] 9 11)
       let k := s3.lnk n
       exec (.linkIdentify l ws) s = .next
         (if ver = 0 then (s3.setLstate n 7).fault b 2 (BitVec.ofNat 36 n)
         else (s3.setLnk n { linkReset with
           rate := k.rate, serial := dword ws[1] ws[2], session := ws[3], seen := true, cameUp := true
           changed := k.seen && (k.serial != dword ws[1] ws[2] || k.session != ws[3])
           txCred := #v[field ws[5] 0 17, field ws[5] 18 35, field ws[6] 0 17, field ws[6] 18 35]
           maxb := field ws[7] 0 12 }).setLstate n 5).follow) ∧
     (s.maySleep n = true → s.quietEnd n = true →
       exec (.sleepIdle l) s = .next ((sent (s.setLnk n { s.lnk n with sleepReq := true })).emit (.ctrl n 2 [])).follow) ∧
     (let s1 := turned s;
       s1.maySleep n = true →
       (s1.quietEnd n = true → exec (.sleep l) s = .next (((sent s1).emit (.ctrl n 3 [])).setLstate n 6).follow) ∧
       ((s1.lnk n).sleepReq = true →
         exec (.sleepAck l) s = .next ((s1.setLnk n { s1.lnk n with sleepReq := false }).setLstate n 6).follow)) ∧
     (s.lstate n = 6 → exec (.linkWake l) s = .next ((s.setLstate n 5).feltFlush n).follow) ∧
     (∀ lane : Fin 8, ∀ a w, s.lstate n = 5 → s.laneBlock n = some (a, w) → a ≤ lane.val → lane.val < a + w →
       (w < 2 ∨ s.rbit b (0o40 + laneIdx n) 4 = false) → exec (.laneLoss l lane) s = .next (s.linkDown n 1).follow) ∧
     ((l.group.val = 2 ∨ s.isRootPort l.tile.val l.group.val = false) → s.acts (.tile l.tile) = true →
       (s.lstate n = 1 →
         let r := s.fld b (0o40 + laneIdx n) 0 1
         exec (.detectPoll l true) s = .next
           (((s.setLnk n { s.lnk n with rate := if r = 3 then 0 else r }).setLstate n 2).setFld b (lstatAt n) 4 7 (s.linkWidth n)).follow) ∧
       (s.lstate n = 2 → s.fld b (0o40 + laneIdx n) 0 1 = 3 → (s.lnk n).rate < 2 →
         exec (.trainingTimeout l) s = .next (s.setLnk n { s.lnk n with rate := (s.lnk n).rate + 1 }).follow) ∧
       ((s.lstate n = 3 ∨ s.lstate n = 4) →
         exec (.trainingTimeout l) s = .next ((s.setLstate n 1).setFld b (lstatAt n) 19 26 0).follow) ∧
       (s.lstate n = 2 → exec (.trainingDone l) s = .next ((s.setFld b (lstatAt n) 8 9 (s.lnk n).rate).setLstate n 3).follow) ∧
       (s.lstate n = 3 → exec (.trainingDone l) s = .next
         ((sent (s.setLstate n 4)).emit (.ctrl n 1 ((s.setLstate n 4).identifyOut n))).follow)) ∧
     (let s1 := s.setFld b (0o40 + laneIdx n) 2 2 0;
       exec (.linkEnWrite l false) s = .next (if s1.linkUp n then s1.linkDown n 6 else s1.setLstate n 0).follow) ∧
     (let s1 := s.setFld b (0o40 + laneIdx n) 2 2 1;
       s1.isLink n = true → s1.lstate n = 0 → s1.rbit b (0o40 + laneIdx n) 2 = true → b ∉ s1.inReset →
       exec (.linkEnWrite l true) s = .next ((s1.setLstate n 1).setFld b (lstatAt n) 19 26 0).follow) ∧
     (s.linkUp n = true → s.lver n = 3 → exec (.partnerLeave l) s = .next (s.linkDown n 5).follow))

/-- R456, R460, R489-R492: the module as recipient on group C. A WWRITE through a valid inbound window whose lines are free writes its words
and is recorded and answered; a session SENSE is answered with the sender's previous session and its record; any other request and any
request on a group A or B link is answered with status 1; ARM makes a window's shadow active. That a record word of zero is no record is
the model's reading (log entry 40). -/
def Obligations.RecipientRows : Prop :=
  (∀ (m : FeltHdr) (s : State), s.alive = true → s.reqUp m = true →
    (s.recipient m = false → ∀ dev os code bad,
      exec (.wwrite m dev os bad) s = .next (s.answer m 64 3 1 (.ack 0 0) false).follow ∧
      exec (.sessionSense m) s = .next (s.answer m 64 3 1 (.ack 0 0) false).follow ∧
      exec (.xreqReject m code) s = .next (s.answer m 64 3 1 (.ack 0 0) false).follow) ∧
    (s.recipient m = true → s.seen m = .act →
      (∀ dev os bad st sh s1, s.winWrite m dev (unpack os) bad = some (st, sh, s1) →
        exec (.wwrite m dev os bad) s = .next (s1.acted m sh st (if st = 0 ∨ st = 4 then os.length else 0)).follow) ∧
      (∀ p prev serial sess, s.recOf (s.lnk (linkNo m.link)).serial = some p →
        Tab.get (fun _ => none) s.recTabs p = some (serial, sess, some prev) →
        exec (.sessionSense m) s = .next
          ((s.answer m 64 2 0 (.data (packOf [prev, setField (s.recWord m) 32 35 0])) true).acted m 64 0 9).follow) ∧
      (∀ code : Octet, code ≠ 0o100 → code ≠ 0o376 → exec (.xreqReject m code) s = .next (s.acted m 64 1 0).follow)) ∧
    (s.recipient m = true → ∀ st dev os, s.seen m = .again st →
      exec (.wwrite m dev os false) s = .next (s.answer m 64 3 st (.ack 0 0) false).follow)) ∧
  (∀ (t : TileId) (w : Fin 16) (s : State), s.alive = true →
    let b := Blk.linkgrp t 2
    let copy (s : State) (i : Nat) : State := s.setReg b (0o1000 + 4 * w.val + i) (s.reg b (0o1100 + 4 * w.val + i))
    exec (.windowArm t w) s = .next (copy (copy (copy s 0) 1) 2).follow)

/-- R276, R568-R573: the root ports. A configuration request goes out and its completion gives the data; an inbound request of an unknown
function is refused; a port is contained for a cause that contains, and released after REL; ARM makes a window's shadow active; and its
link detects, trains and is disabled. What a containment ends with, and what a link trains to, are the model's readings (log entry 44). -/
def Obligations.RootPortRows : Prop :=
  ∀ (p : RootId) (s : State), s.alive = true →
    let b := rpBlk p.tile.val p.inst.val
    let t := p.tile.val
    let i := p.inst.val
    (∀ v : Word,
      let s1 := s.setReg b 3 (v &&& maskOf 1 31)
      (dbit v 0 = false → exec (.rootpConfigIssue p v) s = .next s1.follow) ∧
      (dbit v 0 = true → s1.rbit b 4 0 = false → s1.contained t i = false →
        let s2 := s1.setFld b 4 0 0 1
        exec (.rootpConfigIssue p v) s = .next
          (s2.emit (.rootConfig t i (field v 5 12 != s2.fld b 0 12 19) (v &&& maskOf 1 31) (s2.reg b 5))).follow) ∧
      (dbit v 0 = true → s1.rbit b 4 0 = false → s1.contained t i = true →
        exec (.rootpConfigIssue p v) s = .next (s1.setFld b 4 1 3 5).follow)) ∧
    (∀ (stat : Fin 8) (data : BitVec 32), s.rbit b 4 0 = true → stat.val ≠ 7 →
      let s1 := (s.setFld b 4 0 0 0).setFld b 4 1 3 stat.val
      exec (.rootpConfigCompletion p stat data) s = .next
        (if stat.val = 0 ∧ s1.rbit b 3 31 = false then s1.setFld b 5 4 35 data.toNat else s1).follow) ∧
    (∀ r : InboundReq, s.rpUp t i = true →
      (∀ k < 64, ¬ (s.rbit b (0o100 + k) 0 = true ∧ s.fld b (0o100 + k) 20 35 = r.rid.toNat)) →
      exec (.inboundRequest p r) s = .next
        (if r.write = none then (s.setFld b 1 13 13 1).emit (.rootUnsupported t i) else s.setFld b 1 13 13 1).follow) ∧
    (∀ cause : Fin 16, ∀ hdr : Vector Word 4, s.isRootPort t i = true → s.contained t i = false →
      (cause.val = 1 ∨ cause.val = 2 ∨ cause.val = 4) → (∀ w ∈ hdr.toList, w = 0) →
      let s1 := ((s.setFld b 2 0 0 1).setFld b 2 1 4 cause.val).setFld b 1 0 2 4
      s1.rbit b 4 0 = false →
      exec (.containment p cause hdr) s = .next ((s1.fault b 0 (BitVec.ofNat 36 cause.val)).rpRelease t i).follow) ∧
    (s.contained t i = true → 2 * t + i ∈ s.relHeld →
      let s1 : State := { s with relHeld := s.relHeld.filter (· ≠ 2 * t + i) }
      let s2 := (s1.setFld b 2 0 0 0).setFld b 2 1 4 0
      exec (.containmentRelease p) s = .next (s2.setFld b 1 0 2 (if s2.rbit b 0 0 then 1 else 0)).follow) ∧
    (∀ w : Fin 16,
      let s1 := s.setReg b (0o200 + 4 * w.val) (s.reg b (0o300 + 4 * w.val) &&& ~~~maskOf 2 2)
      exec (.rootpWindowArm p w) s = .next
        ((List.range 3).foldl (fun s k => s.setReg b (0o201 + 4 * w.val + k) (s.reg b (0o301 + 4 * w.val + k))) s1).follow) ∧
    (∀ en : Bool,
      let s1 := s.setFld b 0 0 0 (if en then 1 else 0)
      s1.isRootPort t i = true → s1.contained t i = false →
      exec (.rootpLinkEnable p en) s = .next
        (if en then (if s1.fld b 1 0 2 = 0 then s1.setFld b 1 0 2 1 else s1) else s1.setFld b 1 0 2 0).follow)

/-- R499-R501, R506, R507, R514, R522-R524, R532, R538, R372: the engines take and end jobs, in every state out of reset in which the tile's
triptych does its duty. A free run position or AES core takes the first job not yet taken of a ready queue that the round robin's free
pick names, and runs it; a job that has run ends once its status words are written, last its word 12, 14 or 6, counted, and out of its
queue; the end of a key operation makes its slot READY or frees it. 224 µs or 28 µs into a sealed slot the engine's slot is over; a sealed
slot that begins is noted, and the stopped jobs of its sheet continue. The free pick, and that a job's data are processed whole at its
start, are the model's choices (log entries 9 and 36). -/
def Obligations.EngineEvents : Prop :=
  ∀ (t : TileId) (s : State), s.alive = true →
    (∀ sh i j r s1, s.acts (.tile t) = true → calBlk t.val ∉ s.inReset → s.calRunning t.val < 4 →
      (s.calReady t.val)[(s.free 36).1 % (s.calReady t.val).length]? = some sh →
      (s.calQueue t.val sh).findIdx? (fun x => !x.running) = some i → (s.calQueue t.val sh)[i]? = some j →
      (j.result = none → (calRun t.val j).run (s.free 36).2 = some (.ok r, s1) →
        exec (.calJobStart t) s = .next (s1.setCalJob t.val sh i { j with running := true, result := some r }).follow) ∧
      (j.result ≠ none → exec (.calJobStart t) s = .next ((s.free 36).2.setCalJob t.val sh i { j with running := true }).follow)) ∧
    (∀ (q : SheetId) a j b r s1, s.calQueue t.val q.val = a ++ j :: b → (∀ x ∈ a, x.running = false ∨ x.result = none) →
      j.running = true → j.result = some r → j.console = none →
      s.writeStatus false t.val q.val j.block 13 [vget r 1 0, vget r 2 0, vget r 3 0] (vget r 0 0) 12 = some s1 →
      let s2 := s1.count (calBlk t.val) 0o200 0 35
      let s3 := if field (vget r 0 0) 1 8 = 2 then s2.count (calBlk t.val) 0o201 0 35 else s2
      exec (.calJobEnd t q) s =
        .next ((s3.countOct (calBlk t.val) 0o202 t.val (vget r 1 0).toNat).setCalQueue t.val q.val (a ++ b)).follow) ∧
    (s.acts (.tile t) = true → s.rbit (calBlk t.val) 0 0 = true → (∀ sh < 64, ∀ j ∈ s.calQueue t.val sh, j.running = false) →
      exec (.calSlotPreempt t) s = .next ({ s with calSlot := Tab.set (fun _ => none) s.calSlot t.val none } : State).follow) ∧
    (∀ k : Fin 64, s.acts (.tile t) = true → s.rbit (calBlk t.val) 0 0 = true → s.rbit (calBlk t.val) (0o20 + k.val / 4) (9 * (k.val % 4)) = true →
      ∀ sh, sh = s.fld (calBlk t.val) (0o20 + k.val / 4) (9 * (k.val % 4) + 3) (9 * (k.val % 4) + 8) →
      exec (.calSlotStart t k) s = .next
        (({ s with calSlot := Tab.set (fun _ => none) s.calSlot t.val (some k.val) } : State).setCalQueue t.val sh
          ((s.calQueue t.val sh).map fun j => { j with running := j.running || j.result.isSome })).follow) ∧
    (∀ sh i j r s1, s.acts (.tile t) = true → varBlk t.val ∉ s.inReset → s.varRunning t.val < 8 →
      (s.varReady t.val)[(s.free 36).1 % (s.varReady t.val).length]? = some sh →
      (s.varQueue t.val sh).findIdx? (fun x => !x.running) = some i → (s.varQueue t.val sh)[i]? = some j → j.result = none →
      (if j.key then xkeyRun t.val j else cipRun t.val j).run (s.free 36).2 = some (.ok r, s1) →
      exec (.varJobStart t) s = .next (s1.setVarJob t.val sh i { j with running := true, result := some r }).follow) ∧
    (∀ (q : SheetId) j b r s1, s.varQueue t.val q.val = j :: b → j.running = true → j.result = some r → j.key = false →
      s.writeStatus true t.val q.val j.block 15 [w36 r.2] (w36 r.1) 14 = some s1 →
      let s2 := s1.count (varBlk t.val) 0o300 0 35
      let s3 := if field (w36 r.1) 1 8 = 2 then s2.count (varBlk t.val) 0o301 0 35 else s2
      exec (.varJobEnd t q) s =
        .next ((s3.countOct (varBlk t.val) 0o302 (8 + t.val) (blkN j.words 4)).setVarQueue t.val q.val b).follow) ∧
    (∀ (q : SheetId) j b r k s1, s.varQueue t.val q.val = j :: b → j.running = true → j.result = some r → j.key = true →
      j.slot = some k →
      let len := if field (vget j.words 0 0) 0 2 = 2 then (r.2, s) else s.free 36
      len.2.writeStatus true t.val q.val j.block 7 [w36 len.1] (w36 r.1) 6 = some s1 →
      let s2 := if field (w36 r.1) 1 8 = 1 then s1.setKeySlot t.val k { s1.keySlot t.val k with st := .ready } else s1.freeKey t.val k
      let s3 := s2.count (varBlk t.val) 0o300 0 35
      let s4 := if field (w36 r.1) 1 8 = 2 then s3.count (varBlk t.val) 0o301 0 35 else s3
      exec (.varJobEnd t q) s = .next (s4.setVarQueue t.val q.val b).follow) ∧
    (s.acts (.tile t) = true → s.rbit (varBlk t.val) 0 0 = true → (∀ sh < 64, s.varQueue t.val sh = []) →
      exec (.varSlotPreempt t) s = .next ({ s with varSlot := Tab.set (fun _ => none) s.varSlot t.val none } : State).follow) ∧
    (∀ k : Fin 64, s.acts (.tile t) = true → s.rbit (varBlk t.val) 0 0 = true → s.rbit (varBlk t.val) (0o20 + k.val / 4) (9 * (k.val % 4)) = true →
      ∀ sh, sh = s.fld (varBlk t.val) (0o20 + k.val / 4) (9 * (k.val % 4) + 3) (9 * (k.val % 4) + 8) →
      exec (.varSlotStart t k) s = .next
        (({ s with varSlot := Tab.set (fun _ => none) s.varSlot t.val (some k.val) } : State).setVarQueue t.val sh
          ((s.varQueue t.val sh).map fun j => { j with running := j.running || j.result.isSome })).follow)

/-- R547, R551-R555, R558, R565-R567, R642: what PF0, configuration space and the host link take from a host, in every state out of reset:
configuration reads and writes, the console's tail, a keyed write of SVRST, mailbox reads and writes (poisoned ones are dropped and
logged), the loss of Bus Master Enable, function-level, hot and fundamental reset, and the link's entry into L1 and L0s. R382, R553, R566,
R567: two writes of SVRST, 0xA5 and then 0x5A within 1 ms, reset the module triptych unless a reset of it runs; a pair that is late does
nothing; PERST_N low for at least 100 ns resets both functions, and the endpoint that leaves it is ready when the module is. The layout of
configuration space and when the endpoint is ready are the model's readings (log entries 10 and 11). -/
def Obligations.HostLinkEvents : Prop :=
  (∀ s : State, s.alive = true →
     (∀ (f : Fin 2) (r : Fin 1024) be v, s.endpt.perst = false → (s.endpt.ready = true ∨ s.staging ≠ none) →
       exec (.configRequest f r none be) s =
         .next (s.hostTraffic.emit (.configReply (s.hostTraffic.cfgRead f.val r.val))).follow ∧
       exec (.configRequest f r (some v) be) s = .next ((s.hostTraffic.cfgWrite f.val r.val v be).emit .configDone).follow) ∧
     (s.endpt.perst = false → s.endpt.ready = false → s.staging = none → ∀ f r w be,
       exec (.configRequest f r w be) s = .next (s.hostTraffic.emit .configRetry).follow) ∧
     (s.memOk 0 = true →
       (∀ t, exec (.crtailDoorbell t) s = .next (s.hostTraffic.setBar 0 0xC (t.setWidth 32)).follow) ∧
       (s.endpt.ready = true →
         (∀ t, exec (.bar0Write 0 0xC t) s = .next (s.hostTraffic.setBar 0 0xC (t &&& 0xFFFF#32)).follow) ∧
         (∀ v, exec (.bar0Write 0 0x28 v) s = .next (s.hostTraffic.setBar 0 0x28 (v &&& 0xF#32)).follow)) ∧
       (s.endpt.ready = true → easelBlk 0 ∉ s.inReset →
         (∀ (i : Fin 65536) (n : Fin 513) bad, exec (.bar2Read i n false bad) s = .next
           (s.hostTraffic.emit (.bar2Reply ((List.range n.val).map fun k =>
             hostForm (s.easelWord 0 (32 * ((i.val + k) % 65536)))) bad)).follow) ∧
         (∀ (off : Fin 524288) os en, exec (.bar2Write off os en false) s = .next (s.hostTraffic.bar2Store off.val os en).follow) ∧
         (∀ (off : Fin 524288) os en, exec (.bar2Write off os en true) s = .next (s.hostTraffic.aer 0 12 false).follow))) ∧
     (∀ f : Fin 2, s.bme f.val = true → exec (.busMasterEnableClear f) s = .next
       (((if f.val = 1 ∧ (∃ q < 64, s.h2sReady q = true) then s.setBar 0 0x20 (s.bar 0 0x20 ||| 0x10#32) else s).setCfg f.val 1
         (s.cfg f.val 1 &&& ~~~4#32)).flipEpoch f.val).follow) ∧
     (∀ f : Fin 2, exec (.flr f) s = .next (s.flr f.val).follow) ∧
     exec .hotReset s = .next ((s.free 36).2.bothFlr.fault .endpt 1 (w36 (s.free 36).1)).follow ∧
     (s.endpt.ready = true → s.endpt.perst = false →
       ((s.cfg 0 0x20).getLsbD 1 = true →
         exec .aspmL1Entry s = .next ({ s with endpt := { s.endpt with linkState := 2 } } : State).follow) ∧
       ((s.cfg 0 0x20).getLsbD 0 = true → s.endpt.linkState = 0 →
         exec .aspmL0sEntry s = .next ({ s with endpt := { s.endpt with linkState := 1 } } : State).follow))) ∧
  (∀ s : State,
     (s.alive = true → s.memOk 0 = true →
       let u : State := { s.hostTraffic with endpt := { s.hostTraffic.endpt with svArm := none } }
       exec (.svrst 0xA5 0x5A true) s = .next (if u.bar 0 0x20 &&& 8#32 = 8#32 then u else u.superReset false).follow ∧
       exec (.svrst 0xA5 0x5A false) s = .next u.follow) ∧
     (∀ ns, ns < 100 → exec (.perstNAssert ns) s = .next s.follow) ∧
     (∀ ns, 100 ≤ ns → exec (.perstNAssert ns) s = .next ({ s.bothFlr with
       endpt := { s.bothFlr.endpt with perst := true, ready := false }, pins := { s.bothFlr.pins with perstN := false } } : State).follow) ∧
     exec .perstNDeassert s = .next ({ s with
       endpt := { s.endpt with perst := false, ready := s.phase == .ready }, pins := { s.pins with perstN := true } } : State).follow)

/-- R557-R562, R564: the queues of PF1. A host's tail and a program's tail are stored; a host message becomes a line of the sheet ring,
poisoned where its data were, and a sheet line becomes a host message, with both counts advanced and an interrupt message due; a read that
times out marks its queue and is logged; a due interrupt message is sent by MSI-X unless the function is masked. That the entries of the
MSI-X table count as unmasked is the model's reading (log entry 12). -/
def Obligations.HostQueueEvents : Prop :=
  ∀ (s : State), s.alive = true →
    (∀ (q : SheetId) t, s.memOk 1 = true → exec (.htailDoorbell q t) s = .next (s.hostTraffic.setPf1 q.val 0xC t.toNat).follow) ∧
    (∀ (q : SheetId) os ep mp s1, s.h2sReady q.val = true →
      s.deckleMap (s.qSheet q.val) (s.qBase q.val + 16 * (s.sq q.val 0 % s.qSlots q.val)) = some mp →
      s.ncWrite (ncIndex 0) (mp / 16) (fun _ => if ep then poisonLine else
        { words := Vector.ofFn fun (i : Fin 16) => (unpack ((os ++ List.replicate 72 0).take 72)).getD i.val 0, poison := false }) = some s1 →
      (s1.sq q.val 0 ≠ s1.sq q.val 1) →
      let s2 := (s1.setSq q.val 0 (s.sq q.val 0 + 1))
      let s3 := s2.setPf1 q.val 0x10 ((s1.pf1 q.val 0x10 + 1) % 65536)
      exec (.h2sMove q os ep) s = .next
        (if ep then s3.setPf1 q.val 0x1C (s3.pf1 q.val 0x1C % 8 + 8) else s3).follow) ∧
    (∀ (q : SheetId) mp x s1, s.qMoves q.val = true → s.sq q.val 2 ≠ s.sq q.val 3 →
      (s.pf1 q.val 0x14 + 65536 - s.pf1 q.val 0x18) % 65536 < s.qSlots q.val →
      s.deckleMap (s.qSheet q.val) (s.qBase q.val + 16 * (s.qSlots q.val + s.sq q.val 3 % s.qSlots q.val)) = some mp →
      s.ncRead (ncIndex 0) (mp / 16) = some (x, s1) →
      let h := s1.pf1 q.val 0x14
      let s2 := s1.hostTraffic.emit (.hostWrite (s1.qHost q.val + 128 * (s1.qSlots q.val + h % s1.qSlots q.val))
        (packOf x.words.toList ++ List.replicate 56 0) x.poison)
      exec (.s2hMove q) s = .next (((s2.setPf1 q.val 0x14 ((h + 1) % 65536)).setSq q.val 3 (s.sq q.val 3 + 1)).msiDue 1 q.val).follow) ∧
    (∀ (q : SheetId) t, exec (.stailDoorbell q t) s = .next (s.queueOut q.val 2 (w36 t.toNat)).follow) ∧
    (∀ q : SheetId, s.h2sReady q.val = true →
      exec (.completionTimeout q) s = .next ((s.setPf1 q.val 0x1C (s.pf1 q.val 0x1C % 8 + 8)).aer 1 14 false).follow) ∧
    (∀ (f : Fin 2) (v : Fin 64), (f.val, v.val) ∈ s.endpt.msi → s.mayMaster f.val = true → (s.cfg f.val 0x2C).getLsbD 31 = true →
      (s.cfg f.val 0x2C).getLsbD 30 = false →
      exec (.msiSend f v) s = .next
        ((({ s with endpt := { s.endpt with msi := s.endpt.msi.filter (· ≠ (f.val, v.val)) } } : State).hostTraffic).emit
          (.msi f.val v.val)).follow)

/-- R576, R579-R581, R583, R585, R586, R594, R598, R602, R670: firmware's console. It takes the next packet of the ring and answers a poisoned
or undefined one; a command that it hears is carried out and answered: IDENTIFY, SET_VERSION, MODULE_STATUS, OP_RELEASE (which frees a
done slot of its token only), OP_ABORT (of a memory transfer that waits or of a Calender job), SHEET_NOTICE, WM_QUERY and AUTH_NONCE; a
version, parameter or signature that fails ends it with its code. Firmware raises its heartbeat. The order of the checks of a command is
the model's choice (log entry 59). -/
def Obligations.ConsoleRows : Prop :=
  (∀ (s : State) os ep, s.consoleUp = true → s.mayMaster 0 = true → s.taken = none → s.bar 0 0x10 ≠ s.bar 0 0xC →
    let i := (s.bar 0 0x10).toNat
    let tag : BitVec 16 := BitVec.ofNat 16 (packetU32 os 0 / 65536)
    let s1 : State := { s.setBar 0 0x10 (BitVec.ofNat 32 ((i + 1) % 65536)) with
      taken := some { opcode := packetU32 os 0 % 256, tag := tag.toNat, index := i } }
    (ep = true → exec (.consolePacketTake os ep) s = .next (s1.reply tag 0xB 0 []).follow) ∧
    (ep = false → opInfo (packetU32 os 0 % 256) = none → packetU32 os 4 % 2 = 0 →
      exec (.consolePacketTake os ep) s = .next (s1.reply tag 2 0 []).follow) ∧
    (ep = false → ∀ v n, opInfo (packetU32 os 0 % 256) = some (v, some n) → v ≤ s.conVer → packetU32 os 0 / 256 % 256 = 0 →
      packetU32 os 4 < 2 → packetU32 os 12 = 0 → packetU32 os 8 = n → n ≤ 0x70 → exec (.consolePacketTake os ep) s = .next s1.follow)) ∧
  (∀ h (s s1 : State), Hears h 0x01 1 s s1 → exec (.identify h) s = .next (s1.conAns h 0
    (replyWords [s1.reg .ident 0, s1.reg .ident 1, s1.reg .ident 2, w36 (Config.dunulRelease.toNat % 2 ^ 24), 3, w36 (256 * s1.conVer)])).follow) ∧
  (∀ h (s s1 : State) (v : BitVec 32), Hears h 0x02 1 s s1 → exec (.setVersion h v) s = .next
    (if v ≠ 0x100 ∧ v ≠ 0x200 then s1.conAns h 3 []
    else if s1.longOps ≠ [] then s1.conAns h 6 []
    else (({ s1 with conVer := v.toNat / 256 } : State).setMail 5 (w36 v.toNat)).conAns h 0 []).follow) ∧
  (∀ h (s s1 : State), Hears h 0x03 1 s s1 → exec (.moduleStatus h) s = .next (s1.conAns h 0 (replyWords
    ((s1.portView true .mtrip 0).1 :: ((List.range 8).map fun t => (s1.portView true (.ttrip (tileFin t)) 0).1) ++
      [w36 s1.mstatBits]))).follow) ∧
  (∀ h (s s1 : State) (tok : BitVec 32), Hears h 0x04 1 s s1 →
    let k := tok.toNat % 256
    let st := s1.slotStat k
    exec (.opRelease h tok) s = .next
      (if 65536 ≤ tok.toNat then s1.reply h.tag 4 0 []
      else if st.2.1 = 0 ∨ st.1 ≠ tok.toNat / 256 then s1.conAns h 7 []
      else if st.2.1 = 1 then s1.conAns h 6 []
      else (s1.setSlot k st.1 0 0 0).conAns h 0 []).follow) ∧
  (∀ h (s s1 : State) (tok : BitVec 32), Hears h 0x05 2 s s1 → tok.toNat < 65536 →
    let k := tok.toNat % 256
    ((s1.slotStat k).1 ≠ tok.toNat / 256 → exec (.opAbort h tok) s = .next (s1.conAns h 7 []).follow) ∧
    (s1.svcOf k = none → (∀ o ∈ s1.longOps, o.slot = k → o.op ≠ 0x73) → exec (.opAbort h tok) s = .next (s1.conAns h 7 []).follow) ∧
    (∀ j, (s1.slotStat k).1 = tok.toNat / 256 → s1.svcOf k = some j → exec (.opAbort h tok) s = .next
      (((({ s1 with waits := s1.waits.filter (· ≠ .svc j) } : State).conAns h 0 []).svcEnd j 0xD).follow)) ∧
    (∀ o, (s1.slotStat k).1 = tok.toNat / 256 → s1.svcOf k = none → (s1.longOps.find? fun o => o.slot == k && o.op == 0x73) = some o →
      let s2 := s1.setCalQueue (o.target / 64) (o.target % 64)
        ((s1.calQueue (o.target / 64) (o.target % 64)).filter fun j => j.console != some k)
      exec (.opAbort h tok) s = .next ((s2.conAns h 0 []).slotDone k 0xD).follow)) ∧
  (∀ h (s s1 : State) (sh v : BitVec 32), Hears h 0x15 1 s s1 → sh.toNat < 64 → v.toNat < 2 ^ 27 →
    exec (.sheetNotice h sh v) s = .next
      (if s1.validSheet sh.toNat = false then s1.conAns h 7 []
      else if s1.sheetHeld sh.toNat ∨ s1.hostPending sh.toNat then s1.conAns h 6 []
      else (s1.notice sh.toNat 5 v.toNat 0).conAns h 0 []).follow) ∧
  (∀ h (s s1 : State), Hears h 0x20 1 s s1 →
    exec (.wmQuery h) s = .next (s1.conAns h 0 (replyWords ((List.range 5).map fun o => s1.reg .wmark o))).follow) ∧
  (∀ h (s s1 : State), Hears h 0x21 1 s s1 → exec (.authNonce h) s = .next
    (({ (freeOctets s1 48).2 with nonce := some (numOf (freeOctets s1 48).1) } : State).conAns h 0 (freeOctets s1 48).1).follow) ∧
  (∀ h (s : State) (v : BitVec 32), s.consoleUp = true → s.taken = none → h.sig = .invalid → 1 ≤ s.conVer →
    exec (.setVersion h v) s = .next (({ s with nonce := none } : State).reply h.tag 5 0 []).follow) ∧
  (∀ h (s : State) (tok : BitVec 32), s.consoleUp = true → s.taken = none → h.sig = .none → s.conVer < 2 →
    exec (.opAbort h tok) s = .next (s.reply h.tag 3 0 []).follow) ∧
  (∀ s : State, s.consoleUp = true → exec .heartbeat s = .next (s.setMail 7 (s.mail 7 + 1)).follow)

/-- R66, R67, R357, R359, R379, R577, R581, R583, R600: the console's commands on sheets and frozen masters. SHEET_START, SHEET_STOP and
SHEET_RESET take a token slot, answer PENDING with its token, and end in it; SHEET_RESET waits for a couching of its sheet; without a free
slot they end with NO_SLOT, and at a sheet that a long command holds with BUSY. MASTER_RELEASE ends with STATE for a master that is not
frozen, and discards or delivers one that is. Which commands look at their target before they take a slot is the model's reading (log entry 60), and the run state
of SHEET_QUERY its choice (log entry 14). -/
def Obligations.ConsoleSheetRows : Prop :=
  ∀ h (s s1 : State) (sh : BitVec 32), sh.toNat < 64 →
    (∀ c, Hears h 0x10 1 s s1 → s1.serviceCore sh.toNat = some c → exec (.sheetQuery h sh) s = .next (s1.conAns h 0 (replyWords
      [(s1.portView true .deckle (0o100 + sh.toNat)).1, w36 (b2n (s1.sheet sh.toNat).running), w36 c,
        ((s1.sheet sh.toNat).start).getD 0])).follow) ∧
    (s1.sheetHeld sh.toNat = true → ∀ (w : HostWord) (fl : BitVec 32), w.toNat < 2 ^ 36 → fl.toNat < 2 →
      (Hears h 0x11 1 s s1 → exec (.sheetStart h sh w) s = .next (s1.conAns h 6 []).follow) ∧
      (Hears h 0x12 1 s s1 → exec (.sheetStop h sh) s = .next (s1.conAns h 6 []).follow) ∧
      (Hears h 0x13 1 s s1 → exec (.sheetReset h sh fl) s = .next (s1.conAns h 6 []).follow)) ∧
    (∀ (w : HostWord) k, Hears h 0x11 1 s s1 → s1.sheetHeld sh.toNat = false → w.toNat < 2 ^ 36 → s1.tokenSlot = some k →
      let s2 := s1.started h 0x11 sh.toNat k
      exec (.sheetStart h sh w) s = .next
        (if s2.mayStart sh.toNat then (s2.startSheet sh.toNat (devWord w)).slotDone k 0 else s2.slotDone k 7).follow) ∧
    (∀ w : HostWord, Hears h 0x11 1 s s1 → s1.sheetHeld sh.toNat = false → w.toNat < 2 ^ 36 → s1.tokenSlot = none →
      exec (.sheetStart h sh w) s = .next (s1.reply h.tag 0xE 0 []).follow) ∧
    (∀ k, Hears h 0x12 1 s s1 → s1.sheetHeld sh.toNat = false → s1.tokenSlot = some k →
      let s2 := s1.started h 0x12 sh.toNat k
      let paused := (List.range 192).foldl (fun s c =>
        if (s.core c).sheet == some sh.toNat && (s.core c).active then s.pauseCore c else s) s2
      exec (.sheetStop h sh) s = .next
        (if (s2.sheet sh.toNat).running = false then s2.slotDone k 7
        else (paused.setSheet sh.toNat { paused.sheet sh.toNat with running := false }).slotDone k 0).follow) ∧
    (∀ (fl : BitVec 32) k, Hears h 0x13 1 s s1 → s1.sheetHeld sh.toNat = false → fl.toNat < 2 → s1.tokenSlot = some k →
      let s2 := s1.started h 0x13 (sh.toNat + 64 * fl.toNat) k
      exec (.sheetReset h sh fl) s = .next
        (if s2.validSheet sh.toNat = false ∨ (fl = 1 ∧ (s2.sheet sh.toNat).start = none) then s2.slotDone k 7
        else if s2.couches sh.toNat then s2 else s2.sheetResetOp sh.toNat (decide (fl = 1)) k).follow) ∧
    (∀ (ty id mode : BitVec 32), Hears h 0x14 1 s s1 → 1 ≤ ty.toNat → ty.toNat ≤ 5 → id.toNat < 2 ^ 18 → mode.toNat < 2 →
      ((∀ f ∈ s1.frozen, ¬ (f.type = ty.toNat ∧ f.ident = id.toNat)) →
        exec (.masterRelease h ty id mode) s = .next (s1.conAns h 7 []).follow) ∧
      (∀ f r, s1.frozen = f :: r → f.type = ty.toNat → f.ident = id.toNat →
        (s1.sheetHeld f.sheet = true → exec (.masterRelease h ty id mode) s = .next (s1.conAns h 6 []).follow) ∧
        (s1.sheetHeld f.sheet = false → mode = 1 →
          exec (.masterRelease h ty id mode) s = .next ((s1.discardMaster f false).conAns h 0 []).follow) ∧
        (∀ s2, s1.sheetHeld f.sheet = false → mode = 0 → s1.deliver f = some s2 →
          exec (.masterRelease h ty id mode) s = .next (s2.conAns h 0 []).follow)))

/-- R357, R359, R379, R403, R479, R581, R605, R608, R611, R671, R672: the console's commands on cores, triptychs, fault registers and links. A
core is queried, restarted from its checkpoint, retested, or its checkpoint read; a halted triptych is reloaded; a block's faults are
scanned, injected or cleared; a link is read, or disabled and enabled; what is for a block in reset is held there. Which commands look at
their target before they take a slot is the model's reading (log entry 60). -/
def Obligations.ConsoleCoreRows : Prop :=
  ∀ h (s s1 : State),
    (∀ c : BitVec 32, c.toNat < 192 →
      (Hears h 0x30 1 s s1 → exec (.coreQuery h c) s = .next
        (s1.conAns h 0 (replyWords [w36 (s1.core c.toNat).cstate.digit, (s1.portView true (retryBlk c.toNat) 0).1])).follow) ∧
      (Hears h 0x31 1 s s1 →
        ((s1.core c.toNat).cstate ≠ .stopped → exec (.coreRestart h c) s = .next (s1.conAns h 7 []).follow) ∧
        (∀ sh, (s1.core c.toNat).cstate = .stopped → (s1.core c.toNat).discard = false → (s1.core c.toNat).sheet = some sh →
          (s1.sheet sh).running = true → (s1.sheet sh).checkstop = false → s1.sheetHeld sh = false →
          exec (.coreRestart h c) s = .next ((s1.setCore c.toNat { s1.core c.toNat with
            cstate := .active, gesso := false
            run := if (s1.core c.toNat).run = .stopped true then .wait else .running }).conAns h 0 []).follow)) ∧
      (Hears h 0x32 1 s s1 →
        (((s1.core c.toNat).cstate ≠ .failed ∨ (s1.core c.toNat).couch ≠ none) → ∀ p,
          exec (.coreRetest h c p) s = .next (s1.conAns h 7 []).follow) ∧
        (∀ k, (s1.core c.toNat).cstate = .failed → (s1.core c.toNat).couch = none → s1.tokenSlot = some k →
          let s2 := s1.started h 0x32 c.toNat k
          let q := quireOf c.toNat
          let s3 := (s2.resetAll (retryBlk c.toNat)).resetAll (coreBlk c.toNat)
          exec (.coreRetest h c false) s = .next (s2.slotDone k 0xF).follow ∧
          ((∃ i < 6, (s2.core (6 * q + i)).cstate = .spare ∨ (s2.core (6 * q + i)).cstate = .couching) →
            exec (.coreRetest h c true) s = .next ((s3.setCore c.toNat coreReset).slotDone k 0).follow) ∧
          ((∀ i < 6, (s2.core (6 * q + i)).cstate ≠ .spare ∧ (s2.core (6 * q + i)).cstate ≠ .couching) →
            let s4 := s3.setCore c.toNat { coreReset with cstate := .spare }
            exec (.coreRetest h c true) s = .next
              ((({ s4 with spareOf := Tab.set (fun _ => 5) s4.spareOf q (c.toNat % 6) } : State).setHave q true).slotDone k 0).follow))) ∧
      (∀ kind (sel : HostWord) d, Hears h 0x34 1 s s1 → kind.toNat ≤ 4 → sel.toNat < 2 ^ 36 →
        s1.ckptReg c.toNat kind.toNat (devWord sel) = some d → (h.sig = .valid ∨ (s1.core c.toNat).sheet = none) →
        exec (.ckptRead h c kind sel) s = .next
          (if (s1.core c.toNat).cstate ≠ .failed then s1.conAns h 7 [] else s1.conAns h 0 (replyWords [dhi d, dlo d])).follow)) ∧
    (∀ q : BitVec 32, q.toNat < 32 → Hears h 0x33 1 s s1 →
      (∀ o ∈ s1.longOps, ¬ (o.op = 0x33 ∧ o.target = tripSubject (.quire (quireFin q.toNat)))) →
      (s1.tmode (.quire (quireFin q.toNat)) ≠ 3 → exec (.supervisorRestart h 1 q) s = .next (s1.conAns h 7 []).follow) ∧
      (∀ k, s1.tmode (.quire (quireFin q.toNat)) = 3 → s1.tokenSlot = some k →
        exec (.supervisorRestart h 1 q) s = .next ((s1.started h 0x33 (tripSubject (.quire (quireFin q.toNat))) k).tripReload
          (.quire (quireFin q.toNat))).follow)) ∧
    (∀ (scope tile : BitVec 32) k, scope.toNat ≤ 3 → tile.toNat ≤ 7 → Hears h 0x40 1 s s1 → s1.tokenSlot = some k →
      let s2 := s1.started h 0x40 0 k
      (∀ b ∈ scanBlks scope.toNat tile.toNat, s2.reg b 0o777700 = 0) →
      exec (.faultScan h scope tile) s = .next (((s2.setPartial k 1 0).slotProgress k 0).slotDone k 0).follow) ∧
    (∀ (a mask : HostWord) (core src : BitVec 32) b o, conAddr a core.toNat = some (b, o) →
      (Hears h 0x41 1 s s1 → src.toNat ≤ 17 →
        let v := setField (setField (setField (0 : Word) 0 4 src.toNat) 5 5 1) 6 8 7
        exec (.faultInject h a core src) s = .next (if b ∈ s1.inReset then s1.heldAtPort (.write h b [(0o777704, v)])
          else (s1.finjWrite b v).conAns h 0 []).follow) ∧
      (Hears h 0x42 1 s s1 → mask.toNat < 2 ^ 36 → exec (.faultClear h a core mask) s = .next
        (if b ∈ s1.inReset then s1.heldAtPort (.write h b [(0o777700, devWord mask)])
        else (s1.portWrite true b 0o777700 (devWord mask)).conAns h 0 []).follow)) ∧
    (∀ (t g i : BitVec 32), t.toNat ≤ 7 → g.toNat ≤ 2 → i.toNat < (if g.toNat = 2 then 2 else 8) →
      ∀ n, n = laneNo (tileFin t.toNat) (Fin.ofNat 3 g.toNat) i.toNat →
      (Hears h 0x50 1 s s1 → linkBlk n ∉ s1.inReset →
        let r := s1.readRegs (linkBlk n) (lstatAt n :: ((List.range 4).map (pidAt n)) ++ (List.range 4).map (lcntAt n))
        exec (.linkQuery h t g i) s = .next (r.2.conAns h 0 (replyWords r.1)).follow) ∧
      (Hears h 0x51 1 s s1 → linkBlk n ∉ s1.inReset →
        let o := 0o40 + laneIdx n
        let w := s1.reg (linkBlk n) o
        exec (.linkReset h t g i) s = .next
          (((s1.portWrite true (linkBlk n) o (setField w 2 2 0)).portWrite true (linkBlk n) o (setField w 2 2 1)).conAns h 0 []).follow) ∧
      (linkBlk n ∈ s1.inReset →
        let o := 0o40 + laneIdx n
        let w := s1.reg (linkBlk n) o
        (Hears h 0x50 1 s s1 → exec (.linkQuery h t g i) s = .next (s1.heldAtPort
          (.read h (linkBlk n) (lstatAt n :: ((List.range 4).map (pidAt n)) ++ (List.range 4).map (lcntAt n)))).follow) ∧
        (Hears h 0x51 1 s s1 → exec (.linkReset h t g i) s = .next (s1.heldAtPort
          (.write h (linkBlk n) [(o, setField w 2 2 0), (o, setField w 2 2 1)])).follow))) ∧
    (∀ (t i die : BitVec 32), t.toNat ≤ 7 → i.toNat ≤ 1 → die.toNat ≤ 15 → Hears h 0x74 2 s s1 →
      (h.sig = .valid ∨ s1.regConf (stackBlk (2 * t.toNat + i.toNat)) 1 1 = false) →
      let b := stackBlk (2 * t.toNat + i.toNat)
      let v := setField (setField (0 : Word) 0 0 1) 6 9 die.toNat
      exec (.dieMigrate h t i die) s = .next
        (if b ∈ s1.inReset then s1.heldAtPort (.write h b [(1, v)]) else (s1.portWrite true b 1 v).conAns h 0 []).follow)

/-- R519, R581, R582, R588, R590: the console's accesses to registers and memory. Registers of a block out of reset are read, or written in
ascending order, and an access that needs a signature for a confidential sheet ends with NOT_AUTHORISED; one to a block in reset is held.
A memory-service command on words of one line moves them through the home protocol, waits while the line is busy, and ends with ADDRESS
outside the sheet, with DATA_POISONED at a poisoned line and with HOST_ACCESS_REVOKED where it needs the host and may not reach it;
CAL_JOB queues its job and answers when that ends. That a memory-service command moves its words within its command up to a busy line, and
the direction of CAL_JOB, are the model's choices (log entries 14 and 43). -/
def Obligations.ConsoleAccessRows : Prop :=
  ∀ h (s s1 : State),
    (∀ (a : HostWord) (n core : BitVec 32) b o, conAddr a core.toNat = some (b, o) → 1 ≤ n.toNat → o + n.toNat ≤ 2 ^ 18 →
      (Hears h 0x60 1 s s1 → n.toNat ≤ 14 → exec (.regRead h a n core) s = .next
        (if h.sig ≠ .valid ∧ s1.regConf b o n.toNat = true then s1.conAns h 5 []
        else if b ∈ s1.inReset then s1.heldAtPort (.read h b ((List.range n.toNat).map (o + ·)))
        else (s1.readRegs b ((List.range n.toNat).map (o + ·))).2.conAns h 0
          (replyWords (s1.readRegs b ((List.range n.toNat).map (o + ·))).1)).follow) ∧
      (∀ vs : List HostWord, Hears h 0x61 1 s s1 → n.toNat ≤ 12 → vs.length = n.toNat → (∀ v ∈ vs, v.toNat < 2 ^ 36) →
        exec (.regWrite h a n core vs) s = .next
          (if h.sig ≠ .valid ∧ s1.regConf b o n.toNat = true then s1.conAns h 5 []
          else if b ∈ s1.inReset then s1.heldAtPort (.write h b ((vs.zipIdx).map fun x => (o + x.2, devWord x.1)))
          else ((vs.zipIdx).foldl (fun s x => s.portWrite true b (o + x.2) (devWord x.1)) s1).conAns h 0 []).follow)) ∧
    (∀ (a : HostWord) (n : BitVec 32) b o, conAddr a 0 = some (b, o) → 1 ≤ n.toNat → n.toNat ≤ 14 → o + n.toNat ≤ 2 ^ 18 →
      Hears h 0x62 1 s s1 → (h.sig = .valid ∨ s1.regConf b o n.toNat = false) →
      let os := (List.range n.toNat).map (o + ·)
      exec (.shadowRead h a n) s = .next (if b ∈ s1.inReset then s1.heldAtPort (.shadow h b os) else (s1.readRegs b os).2.conAns h 0 (replyWords ((os.zip (s1.readRegs b os).1).map fun x =>
        mergeBits (regFields b x.1) (fun f => f.cls == .s) x.2 (s1.shadowReg b x.1)))).follow) ∧
    (∀ (sh : BitVec 32) (a : HostWord) (n im : BitVec 32) k, sh.toNat < 64 → a.toNat < 2 ^ 36 → im.toNat ≤ 2 →
      (h.sig = .valid ∨ s1.confid sh.toNat = false) → s1.sheetHeld sh.toNat = false → s1.tokenSlot = some k →
      (∀ buf : BitVec 64, Hears h 0x70 1 s s1 →
        let s2 := (s1.started h 0x70 sh.toNat k).setPartial k 1 (w36 n.toNat)
        (s2.inSheet sh.toNat a.toNat n.toNat = false →
          exec (.memRead h sh a n buf im) s = .next (s2.slotDone k 8).follow) ∧
        (s2.inSheet sh.toNat a.toNat n.toNat = true →
          (s2.mayMaster 0 = false → exec (.memRead h sh a n buf im) s = .next (s2.slotDone k 0xA).follow) ∧
          (∀ mp, s2.mayMaster 0 = true → s2.moduleOut = false → s2.deckleMap sh.toNat a.toNat = some mp → n ≠ 0 →
            (s2.ncRead (ncIndex 0) (mp / 16) = none → exec (.memRead h sh a n buf im) s = .next ((s2.slotProgress k 0).addWait
              (.svc { slot := k, sheet := sh.toNat, write := false, addr := a.toNat, left := n.toNat, put := [], got := [], done := 0,
                      reply := 0, buffer := buf.toNat, image := im.toNat })).follow) ∧
            (∀ x s3, s2.ncRead (ncIndex 0) (mp / 16) = some (x, s3) → x.poison = true →
              exec (.memRead h sh a n buf im) s = .next ((s3.slotProgress k 0).slotDone k 0xC).follow) ∧
            (∀ x s3 os, s2.ncRead (ncIndex 0) (mp / 16) = some (x, s3) → x.poison = false → mp % 16 + n.toNat ≤ 16 →
              s3.mayMaster 0 = true → s3.moduleOut = false →
              (imageOf im.toNat).ofWords ((List.range n.toNat).map fun i => vget x.words (mp % 16 + i) 0) = (os, none) → os ≠ [] →
              exec (.memRead h sh a n buf im) s =
                .next (((s3.emit (.hostWrite buf.toNat os false)).slotProgress k n.toNat).slotDone k 0).follow)))) ∧
      (∀ os, Hears h 0x71 1 s s1 →
        let s2 := (s1.started h 0x71 sh.toNat k).setPartial k 1 (w36 n.toNat)
        s2.inSheet sh.toNat a.toNat n.toNat = true → s2.mayMaster 0 = true → s2.moduleOut = false →
        exec (.memWrite h sh a n os true im) s = .next ((s2.slotProgress k 0).slotDone k 0xB).follow ∧
        (∀ ws mp s3, (imageOf im.toNat).toWords os = (ws, none) → ws.length = n.toNat → n ≠ 0 →
          s2.deckleMap sh.toNat a.toNat = some mp → mp % 16 + n.toNat ≤ 16 →
          s2.ncWrite (ncIndex 0) (mp / 16) (fun x => linePutWords x (mp % 16) ws) = some s3 → s3.moduleOut = false →
          exec (.memWrite h sh a n os false im) s = .next ((s3.slotProgress k n.toNat).slotDone k 0).follow)) ∧
      (Hears h 0x72 1 s s1 → ∀ mp s3,
        let s2 := (s1.started h 0x72 sh.toNat k).setPartial k 1 (w36 n.toNat)
        s2.inSheet sh.toNat a.toNat n.toNat = true → s2.moduleOut = false → n ≠ 0 →
        s2.deckleMap sh.toNat a.toNat = some mp → mp % 16 + n.toNat ≤ 16 →
        s2.ncWrite (ncIndex 0) (mp / 16) (fun x => linePutWords x (mp % 16) (List.replicate n.toNat 0)) = some s3 → s3.moduleOut = false →
        exec (.memZero h sh a n) s = .next ((s3.slotProgress k n.toNat).slotDone k 0).follow)) ∧
    (∀ (sh : BitVec 32) (ex : Bool) (blk : Vector HostWord 12) k, Hears h 0x73 2 s s1 → sh.toNat < 64 →
      (∀ w ∈ blk.toList, w.toNat < 2 ^ 36) → calBad 0 (blk.map devWord) ex = false →
      (h.sig = .valid ∨ s1.confid sh.toNat = false) → s1.sheetHeld sh.toNat = false → s1.tokenSlot = some k →
      let ws := blk.map devWord
      let t := field ws[0] 24 26
      let s2 := s1.started h 0x73 (sh.toNat + 64 * t) k
      s2.inSheet sh.toNat (ptrAddr (blkDw ws 2)) (calRanges ws ex).1 = true →
      s2.inSheet sh.toNat (ptrAddr (blkDw ws 6)) (calRanges ws ex).2 = true →
      s2.inSheet sh.toNat (ptrAddr (blkDw ws 10)) 65792 = true →
      exec (.calJob h sh ex blk) s = .next
        (if s2.calCc t sh.toNat = 0 then s2.setCalQueue t sh.toNat (s2.calQueue t sh.toNat ++ [
          { block := 0, words := ws, expand := ex, ctx := { tile := t, sheet := sh.toNat, dat := false, prob := false, org := 0, asn := 0 },
            running := false, console := some k, result := none }])
        else if s2.calCc t sh.toNat = 2 then s2.slotDone k 6 else s2.slotDone k 7).follow)

/-- R591-R595: a watermark commit. A commit whose snapshot breaks no rule is prepared with the next version; a revert needs a pentimento;
while one runs, commits, reverts and discards end with BUSY. Its flash write stamps it or ends it with FAILED; its waves apply where they
can, the second at the quiesce point of a running sheet and of those that give to it; a discard gives every shadow the value in effect.
The assignment of cores and windows as an operand is the model's choice (log entry 4), the register named by a failing validation and the
point at which a stopped sheet changes its readings (log entries 34 and 35). -/
def Obligations.WatermarkRows : Prop :=
  (∀ h (as : Assign) (s s1 : State),
    (Hears h 0x22 1 s s1 → s1.wmHeld = true → exec (.watermarkCommit h as) s = .next (s1.conAns h 6 []).follow) ∧
    (∀ k, Hears h 0x22 1 s s1 → s1.wmHeld = false → s1.tokenSlot = some k →
      let s2 := s1.started h 0x22 0 k
      s2.firstBreak s2.takeSnapshot as = none →
      exec (.watermarkCommit h as) s = .next ({ s2.setFld .wmark 4 0 2 2 with commit := some {
        snapshot := s2.takeSnapshot, slot := k, auth := decide (h.sig = .valid), stamped := false, wave := 1
        version := (s2.records.foldl (fun m r => Nat.max m r.version) 0 + 1) % 2 ^ 32
        crc := imageCrc s2.takeSnapshot, waiting := [], assign := as } } : State).follow) ∧
    (∀ k, Hears h 0x23 1 s s1 → s1.wmHeld = false → s1.tokenSlot = some k → pentimento (s1.started h 0x23 0 k).records = none →
      exec (.watermarkRevert h) s = .next ((s1.started h 0x23 0 k).slotDone k 7).follow) ∧
    (∀ k r, Hears h 0x23 1 s s1 → s1.wmHeld = false → s1.tokenSlot = some k →
      let s2 := s1.started h 0x23 0 k
      pentimento s2.records = some r → (s2.stageImage r.image).firstBreak (s2.stageImage r.image).takeSnapshot r.assign = none →
      exec (.watermarkRevert h) s = .next ((s2.stageImage r.image).beginCommit k (decide (h.sig = .valid))
        (s2.stageImage r.image).takeSnapshot r.assign (some (r.version, r.crc))).follow) ∧
    (Hears h 0x24 1 s s1 → exec (.stageDiscard h) s = .next
      (if s1.wmHeld then s1.conAns h 6 []
      else ({ s1 with shadow := s1.regs.filter fun e => keyStaged e.1 ≠ 0 } : State).conAns h 0 []).follow)) ∧
  (∀ (s : State) (c : Commit), s.consoleUp = true → s.commit = some c →
    (c.stamped = false →
      exec (.flashWriteDone true) s = .next (s.stampCommit c).follow ∧
      exec (.flashWriteDone false) s = .next (((({ s with commit := none, records := s.recordsLess } : State).setFld .wmark 4 0 2 0).fault
        .wmark 0 0).slotDone c.slot 0xF).follow) ∧
    (c.stamped = true →
      (c.wave = 1 →
        let n := ((s.applyAll (s.waveOne c)).confidAll false).commitProgress c s
        n.waveOne c ≠ [] → exec .commitWave s = .next n.follow) ∧
      (c.wave = 2 → exec .commitWave s = .next s.idleSheets.follow) ∧
      (c.wave = 3 →
        let n := ((s.applyAll (s.waveThree c)).confidAll false).commitProgress c s
        exec .commitWave s = .next (if n.waveThree c = [] then n.endCommit c else n).follow) ∧
      (∀ (sh : SheetId) n, c.wave = 2 → sh.val ∈ c.waiting →
        let ns := s.together c sh.val
        (∀ x ∈ ns, s.quiet c x = true) → ns.foldlM (fun s x => s.drainSheet x) s = some n →
        exec (.quiescePoint sh) s = .next (if ∃ x ∈ ns, n.outsWait c x = true then n
          else ((n.sheetApply c ns).commitProgress c n).sheetDone c ns).follow)))

/-- R586: the use count of a token slot rises by 1, modulo 256, each time a long command starts in it, and no other slot's status changes.
OP_RELEASE frees the slot its token names when that is done and the counts agree; it answers BUSY when the slot runs with that count, and
STATE, changing nothing, when the slot is free or the counts differ. So a token kept across fewer than 256 later uses of its slot frees no
later command. -/
def Obligations.TokensNameOneUse : Prop :=
  (∀ (s : State) (h : ConHdr) (op target k : Nat), k < 256 →
    (s.started h op target k).slotStat k = (((s.slotStat k).1 + 1) % 256, 1, 0, 0) ∧
    ∀ j < 256, j ≠ k → (s.started h op target k).slotStat j = s.slotStat j) ∧
  (∀ h (s s1 : State) (tok : BitVec 32), Hears h 0x04 1 s s1 → tok.toNat < 65536 →
    let k := tok.toNat % 256
    let st := s1.slotStat k
    (st.2.1 = 2 → st.1 = tok.toNat / 256 →
      exec (.opRelease h tok) s = .next ((s1.setSlot k st.1 0 0 0).conAns h 0 []).follow ∧
      ((s1.setSlot k st.1 0 0 0).slotStat k).2.1 = 0) ∧
    (st.2.1 = 1 → st.1 = tok.toNat / 256 → exec (.opRelease h tok) s = .next (s1.conAns h 6 []).follow) ∧
    ((st.2.1 = 0 ∨ st.1 ≠ tok.toNat / 256) → exec (.opRelease h tok) s = .next (s1.conAns h 7 []).follow) ∧
    (∀ n, 1 ≤ n → n ≤ 255 → st.1 = (tok.toNat / 256 + n) % 256 → exec (.opRelease h tok) s = .next (s1.conAns h 7 []).follow))

/-- R605-R609, R612, R618: a source that is not shadowed records a real event: its REAL bit is set and every other status bit stays, FCNT
counts it saturating, and FFIRST and FINFO take it only where they hold none. The reaction is taken once: only where the source's status was
clear and its mask bit is 0, with its FREACT code. A shadowed source records nothing. -/
def Obligations.FaultRecording : Prop :=
  ∀ (s : State) (b : Blk) (src : Nat) (info : Word), src < 18 →
    (s.shadowed b src = true → s.fault b src info = s) ∧
    (s.shadowed b src = false →
      let t := s.fault b src info
      t.rbit b 0o777700 src = true ∧
      (∀ i < 36, i ≠ src → t.rbit b 0o777700 i = s.rbit b 0o777700 i) ∧
      (t.reg b 0o777705).toNat = Nat.min (2 ^ 36 - 1) ((s.reg b 0o777705).toNat + 1) ∧
      (s.rbit b 0o777706 0 = true → t.reg b 0o777706 = s.reg b 0o777706 ∧ t.reg b 0o777707 = s.reg b 0o777707) ∧
      (s.rbit b 0o777706 0 = false → t.reg b 0o777707 = info ∧ t.rbit b 0o777706 0 = true ∧ t.rbit b 0o777706 1 = false ∧
        t.rbit b 0o777706 2 = true ∧ t.fld b 0o777706 3 7 = src) ∧
      t.reacts = s.reacts ++
        (if s.rbit b 0o777700 src = false ∧ s.rbit b 0o777700 (18 + src) = false ∧ s.rbit b 0o777701 src = false ∧
            1 ≤ (s.react b src).2 ∧ (s.react b src).2 ≤ 4 then [(b, (s.react b src).2)] else []))


/-- R17, R43, R44, R290, R291, R293, R343, R590, R610, R612, R613, R620, R621: fault events, injections and the register port, in every state
out of reset. An event records at its source, of two in one cycle the lower first; one in a cached line corrects, poisons or drops it, or
sheds the core that has it dirty; and one that shows a quire or home dead kills it. An injection armed by FINJ fires once, alone or
together with a real fault, or waits for its shadow's end. A block leaves reset and what was held at it is made in the order it came; an
access held too long ends; registers are read and written. What records in one cycle is an operand by the model's choice (log entry 93);
when a held access ends is its reading (log entry 18). -/
def Obligations.FaultRows : Prop :=
  ∀ s : State, s.alive = true →
    (∀ b (src : Fin 18) info l fs, (faultSources b).length ≤ src.val → exec (.faultEvent b src info l fs []) s = .next s.follow) ∧
    (∀ b (src src2 : Fin 18) info info2 l fs, src.val < (faultSources b).length → plainSource b src.val = true →
      exec (.faultEvent b src info l fs []) s = .next (s.fault b src.val info).follow ∧
      (src.val < src2.val → src2.val < (faultSources b).length → plainSource b src2.val = true →
        exec (.faultEvent b src info l fs [(src2, info2)]) s = .next ((s.fault b src.val info).fault b src2.val info2).follow ∧
        exec (.faultEvent b src2 info2 l fs [(src, info)]) s = .next ((s.fault b src.val info).fault b src2.val info2).follow)) ∧
    (∀ (q : QuireId) info l fs,
      exec (.faultEvent (.l2 q) 2 info l fs []) s = .next ((s.fault (.l2 q) 2 info).quireDead q.val 2).follow ∧
      exec (.faultEvent (.dir q) 2 info l fs []) s = .next ((s.fault (.dir q) 2 info).homeDead q.val 2).follow ∧
      exec (.faultEvent (.quire q) 0 info l fs []) s = .next ((s.fault (.quire q) 0 info).homeDead (info.toNat % 32) 0).follow ∧
      exec (.faultEvent (.quire q) 1 info l fs []) s = .next ((s.fault (.quire q) 1 info).homeDead (info.toNat % 32) 1).follow ∧
      exec (.faultEvent (.dir q) 3 info l fs []) s = .next
        (if info.toNat < 32 then (s.fault (.dir q) 3 info).quireDead info.toNat 3 else s.fault (.dir q) 3 info).follow) ∧
    (∀ (c : CoreId) (q : QuireId) (h : HomeId) info (l : LineAddr) fs, ∀ src ∈ [(0 : Fin 18), 1],
      (((s.qline (quireOf c.val) l.val).l1dirty = some c.val →
          exec (.faultEvent (.core c) (src + 1) info l fs []) s = .next (s.recover c.val 4 l.val).follow) ∧
        ((s.qline (quireOf c.val) l.val).l1dirty ≠ some c.val → exec (.faultEvent (.core c) (src + 1) info l fs []) s = .next
          ((s.l1Parity c.val l.val).fault (.core c) 1 (w36 (l.val % 256))).follow)) ∧
      (let x := s.qline q.val l.val;
        (x.st = .i → exec (.faultEvent (.l2 q) src info l fs []) s = .next s.follow) ∧
        (∀ d, x.st ≠ .i → arrayRead l.val x.data (fs.map (·.val)) = some d → exec (.faultEvent (.l2 q) src info l fs []) s = .next
          ((s.setQline q.val l.val { x with data := d }).fault (.l2 q) 0 (w36 (l2SetOf l.val))).follow) ∧
        (x.st ≠ .i → arrayRead l.val x.data (fs.map (·.val)) = none → exec (.faultEvent (.l2 q) src info l fs []) s = .next
          ((s.setQline q.val l.val { x with data := poisonLine }).fault (.l2 q) 1 (w36 l.val)).follow)) ∧
      (s.l3Line h.val l.val = none → exec (.faultEvent (.home h) src info l fs []) s = .next s.follow) ∧
      ∀ x, s.l3Line h.val l.val = some x →
        (∀ d, arrayRead l.val x.data (fs.map (·.val)) = some d → exec (.faultEvent (.home h) src info l fs []) s = .next
          ((s.setL3 h.val l.val (some { x with data := d })).fault (.home h) 0 (w36 l.val)).follow) ∧
        (arrayRead l.val x.data (fs.map (·.val)) = none → exec (.faultEvent (.home h) src info l fs []) s = .next
          ((s.setL3 h.val l.val (some { x with data := poisonLine })).fault (.home h) 1 (w36 l.val)).follow)) ∧
    (∀ b v, exec (.finjWrite b v) s = .next
      (if (faultSources b).length ≤ field v 0 4 ∨ field v 6 8 = 6 then s
      else ({ s with injWait := s.injWait.filter (· ≠ b) } : State).setReg b 0o777704 (setField v 9 17 0)).follow) ∧
    (∀ b,
      let src := s.fld b 0o777704 0 4
      (s.rbit b 0o777704 5 = false → exec (.injectionFire b none) s = .next s.follow) ∧
      (s.rbit b 0o777704 5 = true → s.shadowed b src = false →
        exec (.injectionFire b none) s = .next ((({ s with injWait := s.injWait.filter (· ≠ b) } : State).setFld b 0o777704 5 5 0).fault b
          src (s.reg b 0o777704) (some (s.fld b 0o777704 6 8))).follow ∧
        ∀ info l fs, src < (faultSources b).length → plainSource b src = true →
          let s1 := s.fault b src info
          let s2 := (({ s1 with injWait := s1.injWait.filter (· ≠ b) } : State).setFld b 0o777704 5 5 0).setFld b 0o777700
            (18 + src) (18 + src) 1
          exec (.injectionFire b (some (info, l, fs))) s = .next
            (if s.rbit b 0o777706 0 = false ∧ s2.fld b 0o777706 3 7 = src then s2.setFld b 0o777706 1 1 1 else s2).follow) ∧
      (s.rbit b 0o777704 5 = true → s.shadowed b src = true → b ∉ s.injWait →
        exec (.injectionFire b none) s = .next ({ s with injWait := s.injWait ++ [b] } : State).follow)) ∧
    (∀ b, s.shadowHeld b = false → s.injWait = [] →
      exec (.resetShadowEnd b) s = .next ({ s with shadows := s.shadows.filter fun x => x.1 ≠ b } : State).follow) ∧
    (∀ b, b ∈ s.inReset →
      let s0 := s.leaveReset b
      let s1 : State := { s0 with portHeld := [] }
      (s0.heldAt b = [] → (∀ e ∈ s0.portHeld, heldBlk e.1 ≠ b) → exec (.blockResetEnd b) s = .next s0.follow) ∧
      (∀ h vs t k, s0.heldAt b = [] → s0.portHeld = [(.write h b vs, t, k)] →
        exec (.blockResetEnd b) s = .next
          (if t + 65536 < s1.clock.toNat then s1.conAns h 7 (replyWords [0]) else s1.regWriteGo h b vs).follow) ∧
      (∀ k c i e, s0.heldAt b = [(k, c, i)] → s0.portHeld = [e] → heldBlk e.1 = b →
        exec (.blockResetEnd b) s = .next
          (if k ≤ e.2.2 then (s1.heldAgain c i).portAgain e else (s1.portAgain e).heldAgain c i).follow)) ∧
    (∀ r, s.mtUp = true →
      (r.blk ∈ s.inReset → r ∉ s.heldFw → exec (.heldAccessRetry r) s = .next
        ({ s.logEvent 8 0 (blkDigits r.blk) (w36 r.off.val) with
          heldFw := (s.logEvent 8 0 (blkDigits r.blk) (w36 r.off.val)).heldFw ++ [r] } : State).follow) ∧
      (∀ v con t k, r.blk ∉ s.inReset → s.portHeld = [(.single r v con, t, k)] → exec (.heldAccessRetry r) s = .next
        ((({ s with heldFw := s.heldFw.filter (· ≠ r), portHeld := [] } : State).portWrite con r.blk r.off.val v).follow))) ∧
    (∀ (c : CoreId) i b n t k s1, (s.core c.val).run = .held i b t k → b ∈ s.inReset → (s.core c.val).active = true →
      (i = .ioIn n ∨ i = .ioOut n) →
      (s.setCore c.val { s.core c.val with run := .running }).takeTrap c.val (.check 5 []) = some s1 →
      exec (.accessTimeout c) s = .next (s1.paused c.val).follow) ∧
    (∀ r : RegAt,
      (r.blk ∉ s.inReset →
        let x := s.portRead true r.blk r.off.val
        exec (.readClear r) s = .next (x.2.emit (.regValue r.blk r.off.val x.1)).follow) ∧
      (∀ v con, exec (.registerWrite r v con) s = .next
        (if r.blk ∈ s.inReset then s.heldAtPort (.single r v con) else s.portWrite con r.blk r.off.val v).follow))

/-- R625, R640-R642, R645-R649, R660: resets and the gesso sequence. A quire, tile, module or cold reset has its effect, and a pulse on a pin
that is too short has none; a module reset holds with its cause in RST until the hold ends, and the gesso sequence then starts; each step
of the sequence leads to the next, the last to READY; a staged image is taken chunk by chunk in their order and accepted or refused after
the last by its header, key and signature. The designated spares and the header of an image as operands, and the clock from PWROK's fall
on, are the model's choices and readings (log entries 56, 87 and 95). -/
def Obligations.ResetRows : Prop :=
  (∀ s : State,
    (∀ q, s.alive = true → exec (.quireReset q) s = .next (((s.free 36).2.resetQuire q.val 5).quireDead q.val (s.free 36).1).follow) ∧
    (∀ t, s.alive = true → exec (.tileReset t) s = .next (s.tileReset t.val).follow) ∧
    (∀ ns, (200 ≤ ns → s.pins.pwrok = true → exec (.pwrokFall ns) s = .next (s.coldReset true).follow) ∧
      (ns < 200 → exec (.pwrokFall ns) s = .next s.follow) ∧ (ns < 1000 → exec (.modResetNAssert ns) s = .next s.follow)) ∧
    exec .vauxLoss s = .next (s.coldReset false).follow ∧
    (∀ b : Fin 4, s.pins.pwrok = false → exec (.pwrokRise b) s = .next
      ({ (s.setReg .rst 0 (setField (setField (0 : Word) 0 3 1) 4 8 1)).setReg .rst 2 (setField (0 : Word) 0 1 b.val) with
        phase := .gesso 1 true, pins := { s.pins with pwrok := true } } : State).follow) ∧
    (s.phase = .ready →
      let held (s : State) (cause : Nat) (why : List Nat) : State :=
        { s.resetModule.setReg .rst 0 (setField (setField (0 : Word) 0 3 2) 4 8 cause) with phase := .hold false, holdFor := why }
      (∀ ns, 1000 ≤ ns →
        exec (.modResetNAssert ns) s = .next (held { s with pins := { s.pins with modResetN := false } } 2 []).follow) ∧
      (∀ mv : Fin 4096, exec (.vinFault mv) s = .next ((held s 6 [2]).fault .pwr 0 (w36 mv)).follow) ∧
      exec (.rstModKey 0o525 0o252 true) s = .next (held { s with rstArm := none } 4 []).follow ∧
      exec (.rstModKey 0o525 0o252 false) s = .next ({ s with rstArm := none } : State).follow) ∧
    (∀ cold, s.phase = .hold cold → s.jtagFree = true →
      let s1 := if 1 ∈ s.holdFor then s.setReg .clk 0 (setField (0 : Word) 0 1 3) else s
      exec .moduleResetHoldEnd s = .next
        ({ s1 with phase := .gesso 1 cold, holdFor := [], pins := { s1.pins with modResetN := true } } : State).follow)) ∧
  (∀ (s : State) a b fails cores ports spares,
    let go (s : State) (k : Nat) (cold : Bool) : State := { s with phase := .gesso k cold }
    let ended := exec (.gessoStepEnd a b fails cores ports spares) s
    (s.phase = .gesso 1 true → s.fld .rst 2 0 1 ≠ 1 →
      ended = .next (go (s.setReg .clk 0 (setField (0 : Word) 0 1 3)).powerSample 2 true).follow) ∧
    (s.phase = .gesso 1 false →
      ended = .next (go ((List.range 64).foldl (fun s n => s.clearSheetIo n 0o020 2) s).powerSample 2 false).follow) ∧
    (s.phase = .gesso 2 true → s.fld .rst 2 2 3 = 0 → s.staging = none → s.tripOut .module = false →
      (dunulOk a = true → ended = .next (go (s.setFld .rst 2 2 3 1) 3 true).follow) ∧
      (dunulOk a = false → dunulOk b = true → ended = .next (go (s.setFld .rst 2 2 3 2) 3 true).follow) ∧
      (dunulOk a = false → dunulOk b = false → ended = .next
        (if s.fld .rst 2 0 1 = 0 then s.stage 0 else s.tripHalt .module).follow)) ∧
    (s.phase = .gesso 2 false → ended = .next (go s 3 false).follow) ∧
    (s.phase = .gesso 3 false →
      let r := currentRec s.records
      let s1 := s.loadImage ((r.map (·.image)).getD []) false
      let s2 : State := { s1 with assign := (r.map (·.assign)).getD assignReset }
      ended = .next (go ((List.range 16).foldl (fun s v => s.setReg (vatBlk v) 1 s.session) s2) 4 false).follow) ∧
    (∀ cold, s.phase = .gesso 4 cold → ended = .next (go s 5 cold).follow) ∧
    (∀ cold, s.phase = .gesso 5 cold → ended =
      .next (go (s.gessoMemory cold (fails.map fun x => (x.1.val, x.2.val))) 6 cold).follow) ∧
    (∀ cold, s.phase = .gesso 6 cold →
      let s1 := cores.foldl (fun (s : State) c => s.setCore c.val { coreReset with cstate := .failed }) s
      ended = .next (go (ports.foldl (fun (s : State) x => s.webFence x.1.val x.2.val) s1) 7 cold).follow) ∧
    (∀ cold, s.phase = .gesso 7 cold → ended = .next (go (s.gessoBuild (spares.map fun x => (x.1.val, x.2.val))) 8 cold).follow) ∧
    (∀ cold, s.phase = .gesso 8 cold → s.endpt.perst = false → ended =
      .next ({ s.endLong.mailHeader with
        phase := .ready, endpt := { s.endLong.mailHeader.endpt with ready := true } } : State).follow)) ∧
  (∀ (s : State) n, s.staging = some n → field (s.mail 1) 4 19 = n % 65536 → field (s.mail 1) 20 35 ≠ 0 →
    field (s.mail 1) 20 35 ≤ 0xFC00 →
    let seq := n % 65536 * 2 ^ 16
    let s0 : State := if n = 0 then { s with stageHdr := (packOf ((List.range 4).map fun i => s.mail (1024 + i))).take 12 } else s
    let num (i : Nat) : BitVec 32 := BitVec.ofNat 32 (numOf ((s0.stageHdr.drop (4 * i)).take 4))
    (dbit (s.mail 1) 0 = false → ∀ key sig, exec (.stagingChunk key sig) s = .next
      (({ s0.setMail 2 (w36 (2 ^ 34 + seq)) with staging := some (n + 1) } : State).istat 1).follow) ∧
    (dbit (s.mail 1) 0 = true → ∀ key sig,
      (num 0 = 0x444E554C ∧ num 1 = 1 ∧ (num 2).toNat + 0x200 ≤ 2 ^ 23 ∧ key = true ∧ sig = true →
        exec (.stagingChunk key sig) s = .next ({ ((s0.setMail 2 (w36 (2 * 2 ^ 34 + seq))).istat 1).setFld .rst 2 2 3 3 with
          staging := none, phase := .gesso 3 true } : State).follow) ∧
      ((num 0 ≠ 0x444E554C ∨ num 1 ≠ 1 ∨ 2 ^ 23 < (num 2).toNat + 0x200 ∨ key = false ∨ sig = false) →
        exec (.stagingChunk key sig) s = .next
          ({ (s0.setMail 2 (w36 (3 * 2 ^ 34 + seq))).istat 1 with staging := some 0 } : State).follow)))

/-- R629-R632, R635-R637, R639: clocks, large steps and temperature. A lost reference or unlocked PLL is recorded; a frame carries the
forecast, no more than ICAP after 1 ms above it, its urgency, a sequence bit and odd parity; steps are granted one at a time, couching
wakes first, and begin once a frame has included them; a quire steps down at once and up by a large step, one change at a time; the
stretcher is counted; THERM shows the hottest sensor, and trips at 105. The readings are free values (log entry 13) and the limit of a
surge is the model's choice (log entry 92). -/
def Obligations.PowerRows : Prop :=
  (∀ s : State, s.phase = .ready →
    exec .refclkLoss s = .next (((s.setFld .clk 0 1 1 0).setFld .clk 0 2 2 1).fault .clk 1 0).follow ∧
    exec .pllUnlock s = .next ((s.setFld .clk 0 0 0 0).fault .clk 0 0).follow ∧
    (∀ (amps : Fin 2048) shed, s.frames = true →
      let shown (s : State) (amps : Nat) : State :=
        let a := Nat.min 0xFF ((amps + 4) / 8)
        let urg := if shed then 3 else if s.fld .lfi 1 0 7 < a then 1 else if a < s.fld .lfi 1 0 7 then 2 else 0
        let s1 := s.emit (.frame (frameOf a urg s.frameSeq))
        let s2 : State := { s1 with
          frameSeq := !s.frameSeq, granted := s.granted.map fun g => (g.1, true)
          reserve := (List.range 8).foldl (fun r t =>
            if Tab.get (fun _ => 0) r t = 1 then Tab.set (fun _ => 0) r t (s.clock.toNat + 1300)
            else if s1.reserveFree t then Tab.set (fun _ => 0) r t 0 else r) s.reserve }
        (s2.setFld .lfi 1 0 7 a).setFld .lfi 1 8 9 urg
      let cap := s.fld .pwr 0 7 17
      let now := s.clock.toNat
      (amps.val ≤ cap → s.surge.1 = none → exec (.lfiFrame amps shed) s = .next (shown s amps.val).follow) ∧
      (cap < amps.val → s.surge = (none, none) → exec (.lfiFrame amps shed) s = .next
        (shown { s with surge := (some now, none) } (Nat.min amps.val 1300)).follow) ∧
      (∀ t e, cap < amps.val → s.surge = (some t, e) → t + 650000 < now → exec (.lfiFrame amps shed) s = .next
        (shown { s with surge := (none, some now) } cap).follow)) ∧
    (∀ a x b, s.granted = none → s.steps = a ++ x :: b →
      ((x.2 = true ∧ ∀ y ∈ a, y.2 = false) ∨ (a = [] ∧ ∀ y ∈ x :: b, y.2 = false)) →
      exec .largeStepGrant s = .next ({ s with steps := s.steps.erase x, granted := some (x.1, false) } : State).follow) ∧
    (∀ k, s.granted = some (k, true) →
      let s1 : State := { s with granted := none }
      exec .largeStepBegin s = .next (match k with
        | .coreWake c => s1.setCore c { s1.core c with cold := false }
        | .unthrottle m => s1.setFld (.memc (Fin.ofNat 16 m)) 0 2 2 0
        | _ => s1).follow) ∧
    (∀ temps : Vector (Fin 512) 64,
      let sensors := (List.range 8).flatMap fun t => (List.range 8).map fun k => (16 * t + k, (vget temps (8 * t + k) 0).val)
      ((∀ x ∈ sensors, x.2 < s.fld .therm 0 0 8 ∧ x.2 < 95) → s.warned = [] → (∀ t < 8, s.rbit .therm 1 (18 + t) = false) →
        (∀ m < 16, (s.mc m).hot = false) →
        exec (.thermalSample temps) s =
          .next ((s.powerSample.setFld .therm 1 0 8 (hottest sensors).2).setFld .therm 1 9 17 (hottest sensors).1).follow) ∧
      (105 ≤ (hottest sensors).2 → ∃ s1 : State,
        exec (.thermalSample temps) s = .next ((s1.fault .therm 1 (w36 (hottest sensors).1)).thermTrip).follow))) ∧
  (∀ (q : QuireId) (s : State), s.alive = true →
    let b := qpwrBlk q.val
    (∀ n : Fin 4,
      (Tab.get (fun _ => none) s.stepGoing q.val ≠ none →
        exec (.stepChange q n) s = .next ({ s with stepHeld := Tab.set (fun _ => none) s.stepHeld q.val (some n.val) } : State).follow) ∧
      (Tab.get (fun _ => none) s.stepGoing q.val = none → q.val ∉ s.forced →
        let s1 := s.setFld b 0 0 1 n.val
        let s2 : State := { s1 with stepGoing := Tab.set (fun _ => none) s1.stepGoing q.val (some n.val) }
        exec (.stepChange q n) s = .next
          (if s1.acts (.quire q) = false ∨ n.val = s.fld b 1 0 1 then s1
          else if n.val < s.fld b 1 0 1 then s2.askStep (.stepUp q.val n.val) false
          else (s2.setFld b 1 0 1 n.val).setFld b 1 2 12 (Config.setPoint q.val n.val)).follow)) ∧
    (∀ n, Tab.get (fun _ => none) s.stepGoing q.val = some n → s.stepOpen (.stepUp q.val n) = false → q.val ∉ s.forced →
      Tab.get (fun _ => none) s.stepHeld q.val = none →
      let s1 := (s.setFld b 1 0 1 n).setFld b 1 2 12 (Config.setPoint q.val n)
      exec (.stepChangeDone q) s =
        .next (({ s1 with stepGoing := Tab.set (fun _ => none) s1.stepGoing q.val none } : State).chase q.val).follow) ∧
    (q.val ∉ s.stretched →
      let s1 := ({ s with stretched := s.stretched ++ [q.val] } : State).count b 2 0 35
      exec (.clockStretch q) s = .next (s1.fault b 0 (s1.reg b 2)).follow) ∧
    exec (.stretchEnd q) s = .next ({ s with stretched := s.stretched.filter (· ≠ q.val) } : State).follow)

/-- R662, R665, R667, R668: the SMBus target samples its address once, and then answers IDENT, STATUS, TEMP, VIN, IIN and LASTRST, the
readings 0xFFFF while it has none; the test access port loads its instruction, shifts the identity code or one 0 bit, and leaves the pins
alone while MOD_RESET_N is high. What is read before there is a reading, and the boundary register left out, are the model's readings (log
entry 47). -/
def Obligations.PinRows : Prop :=
  ∀ s : State,
    let ir (c : BitVec 8) : State := { s with jtagIr := c }
    (∀ a : Fin 8, exec (.smbaddrSample a) s = .next (if s.smbAddr = none then { s with smbAddr := some a.val } else s).follow) ∧
    (s.smbAddr ≠ none →
      exec .smbusIdent s = .next (s.emit (.smbus smbIdentOctets)).follow ∧
      exec .smbusStatus s = .next (s.emit (.smbus [s.smbStatusOctet])).follow ∧
      exec .smbusLastrst s = .next (s.emit (.smbus (smbWord (s.fld .rst 0 0 3 + 16 * s.fld .rst 0 4 8)))).follow ∧
      (s.readings = false →
        exec .smbusTemp s = .next (s.emit (.smbus [0xFF, 0xFF])).follow ∧ exec .smbusVin s = .next (s.emit (.smbus [0xFF, 0xFF])).follow ∧
        exec .smbusIin s = .next (s.emit (.smbus [0xFF, 0xFF])).follow) ∧
      (s.readings = true →
        exec .smbusTemp s = .next (s.emit (.smbus (smbWord (s.fld .therm 1 0 8)))).follow ∧
        exec .smbusVin s = .next (s.emit (.smbus (smbWord (s.fld .pwr 1 0 11)))).follow ∧
        exec .smbusIin s = .next (s.emit (.smbus (smbWord (s.fld .pwr 1 12 22)))).follow)) ∧
    (s.smbAddr = none → exec .smbusIdent s = .next s.follow) ∧
    (exec .bypass s = .next ((ir 0xFF).emit (.jtag 0 1)).follow ∧
      exec .idcode s = .next ((ir 1).emit (.jtag (Config.stepping.toNat % 16 * 2 ^ 28 + 0xC383E7) 32)).follow ∧
      exec .samplePreload s = .next (ir 2).follow ∧
      (∀ p ∈ [(Instr.extest, (3 : BitVec 8)), (.extestPulse, 4), (.extestTrain, 5), (.highz, 6), (.clamp, 7)],
        exec p.1 s = .next (if s.pins.modResetN then (ir p.2).emit (.jtag 0 1) else ir p.2).follow))
end

