-- ==== Sys2Proof/Laws/Exec.lean ====
section
/-! SUPPORT. The meaning that each command calls, one lemma a constructor, so that no proof unfolds the dispatch. -/

namespace Sys2Proof.Machine

open Sys2Proof

@[simp] theorem exec_mov (n : Insn) (s : State) : exec (.mov n) s = execMov n s := rfl
@[simp] theorem exec_movz (n : Insn) (s : State) : exec (.movz n) s = execMovz n s := rfl
@[simp] theorem exec_movx (n : Insn) (s : State) : exec (.movx n) s = execMovx n s := rfl
@[simp] theorem exec_xchg (n : Insn) (s : State) : exec (.xchg n) s = execXchg n s := rfl
@[simp] theorem exec_cas (n : Insn) (s : State) : exec (.cas n) s = execCas n s := rfl
@[simp] theorem exec_lda (n : Insn) (s : State) : exec (.lda n) s = execLda n s := rfl
@[simp] theorem exec_movp (n : Insn) (s : State) : exec (.movp n) s = execMovp n s := rfl
@[simp] theorem exec_ptag (n : Insn) (s : State) : exec (.ptag n) s = execPtag n s := rfl
@[simp] theorem exec_padd (n : Insn) (s : State) : exec (.padd n) s = execPadd n s := rfl
@[simp] theorem exec_psub (n : Insn) (s : State) : exec (.psub n) s = execPsub n s := rfl
@[simp] theorem exec_pcmp (n : Insn) (s : State) : exec (.pcmp n) s = execPcmp n s := rfl
@[simp] theorem exec_add (n : Insn) (s : State) : exec (.add n) s = execAdd n s := rfl
@[simp] theorem exec_adc (n : Insn) (s : State) : exec (.adc n) s = execAdc n s := rfl
@[simp] theorem exec_sub (n : Insn) (s : State) : exec (.sub n) s = execSub n s := rfl
@[simp] theorem exec_sbc (n : Insn) (s : State) : exec (.sbc n) s = execSbc n s := rfl
@[simp] theorem exec_neg (n : Insn) (s : State) : exec (.neg n) s = execNeg n s := rfl
@[simp] theorem exec_cmp (n : Insn) (s : State) : exec (.cmp n) s = execCmp n s := rfl
@[simp] theorem exec_inc (n : Insn) (s : State) : exec (.inc n) s = execInc n s := rfl
@[simp] theorem exec_dec (n : Insn) (s : State) : exec (.dec n) s = execDec n s := rfl
@[simp] theorem exec_mul (n : Insn) (s : State) : exec (.mul n) s = execMul n s := rfl
@[simp] theorem exec_mulu (n : Insn) (s : State) : exec (.mulu n) s = execMulu n s := rfl
@[simp] theorem exec_mulh (n : Insn) (s : State) : exec (.mulh n) s = execMulh n s := rfl
@[simp] theorem exec_mulhu (n : Insn) (s : State) : exec (.mulhu n) s = execMulhu n s := rfl
@[simp] theorem exec_muld (n : Insn) (s : State) : exec (.muld n) s = execMuld n s := rfl
@[simp] theorem exec_muldu (n : Insn) (s : State) : exec (.muldu n) s = execMuldu n s := rfl
@[simp] theorem exec_div (n : Insn) (s : State) : exec (.div n) s = execDiv n s := rfl
@[simp] theorem exec_divu (n : Insn) (s : State) : exec (.divu n) s = execDivu n s := rfl
@[simp] theorem exec_rem (n : Insn) (s : State) : exec (.rem n) s = execRem n s := rfl
@[simp] theorem exec_remu (n : Insn) (s : State) : exec (.remu n) s = execRemu n s := rfl
@[simp] theorem exec_divd (n : Insn) (s : State) : exec (.divd n) s = execDivd n s := rfl
@[simp] theorem exec_divdu (n : Insn) (s : State) : exec (.divdu n) s = execDivdu n s := rfl
@[simp] theorem exec_abs (n : Insn) (s : State) : exec (.abs n) s = execAbs n s := rfl
@[simp] theorem exec_min (n : Insn) (s : State) : exec (.min n) s = execMin n s := rfl
@[simp] theorem exec_max (n : Insn) (s : State) : exec (.max n) s = execMax n s := rfl
@[simp] theorem exec_minu (n : Insn) (s : State) : exec (.minu n) s = execMinu n s := rfl
@[simp] theorem exec_maxu (n : Insn) (s : State) : exec (.maxu n) s = execMaxu n s := rfl
@[simp] theorem exec_and (n : Insn) (s : State) : exec (.and n) s = execAnd n s := rfl
@[simp] theorem exec_or (n : Insn) (s : State) : exec (.or n) s = execOr n s := rfl
@[simp] theorem exec_xor (n : Insn) (s : State) : exec (.xor n) s = execXor n s := rfl
@[simp] theorem exec_not (n : Insn) (s : State) : exec (.not n) s = execNot n s := rfl
@[simp] theorem exec_andn (n : Insn) (s : State) : exec (.andn n) s = execAndn n s := rfl
@[simp] theorem exec_test (n : Insn) (s : State) : exec (.test n) s = execTest n s := rfl
@[simp] theorem exec_shl (n : Insn) (s : State) : exec (.shl n) s = execShl n s := rfl
@[simp] theorem exec_shr (n : Insn) (s : State) : exec (.shr n) s = execShr n s := rfl
@[simp] theorem exec_sar (n : Insn) (s : State) : exec (.sar n) s = execSar n s := rfl
@[simp] theorem exec_rol (n : Insn) (s : State) : exec (.rol n) s = execRol n s := rfl
@[simp] theorem exec_ror (n : Insn) (s : State) : exec (.ror n) s = execRor n s := rfl
@[simp] theorem exec_shld (n : Insn) (s : State) : exec (.shld n) s = execShld n s := rfl
@[simp] theorem exec_shrd (n : Insn) (s : State) : exec (.shrd n) s = execShrd n s := rfl
@[simp] theorem exec_btst (n : Insn) (s : State) : exec (.btst n) s = execBtst n s := rfl
@[simp] theorem exec_bset (n : Insn) (s : State) : exec (.bset n) s = execBset n s := rfl
@[simp] theorem exec_bclr (n : Insn) (s : State) : exec (.bclr n) s = execBclr n s := rfl
@[simp] theorem exec_bflip (n : Insn) (s : State) : exec (.bflip n) s = execBflip n s := rfl
@[simp] theorem exec_clz (n : Insn) (s : State) : exec (.clz n) s = execClz n s := rfl
@[simp] theorem exec_ctz (n : Insn) (s : State) : exec (.ctz n) s = execCtz n s := rfl
@[simp] theorem exec_popc (n : Insn) (s : State) : exec (.popc n) s = execPopc n s := rfl
@[simp] theorem exec_bext (n : Insn) (s : State) : exec (.bext n) s = execBext n s := rfl
@[simp] theorem exec_bins (n : Insn) (s : State) : exec (.bins n) s = execBins n s := rfl
@[simp] theorem exec_beq (n : Insn) (s : State) : exec (.beq n) s = execBeq n s := rfl
@[simp] theorem exec_bne (n : Insn) (s : State) : exec (.bne n) s = execBne n s := rfl
@[simp] theorem exec_blt (n : Insn) (s : State) : exec (.blt n) s = execBlt n s := rfl
@[simp] theorem exec_bge (n : Insn) (s : State) : exec (.bge n) s = execBge n s := rfl
@[simp] theorem exec_ble (n : Insn) (s : State) : exec (.ble n) s = execBle n s := rfl
@[simp] theorem exec_bgt (n : Insn) (s : State) : exec (.bgt n) s = execBgt n s := rfl
@[simp] theorem exec_blo (n : Insn) (s : State) : exec (.blo n) s = execBlo n s := rfl
@[simp] theorem exec_bhs (n : Insn) (s : State) : exec (.bhs n) s = execBhs n s := rfl
@[simp] theorem exec_bls (n : Insn) (s : State) : exec (.bls n) s = execBls n s := rfl
@[simp] theorem exec_bhi (n : Insn) (s : State) : exec (.bhi n) s = execBhi n s := rfl
@[simp] theorem exec_bvs (n : Insn) (s : State) : exec (.bvs n) s = execBvs n s := rfl
@[simp] theorem exec_bvc (n : Insn) (s : State) : exec (.bvc n) s = execBvc n s := rfl
@[simp] theorem exec_bmi (n : Insn) (s : State) : exec (.bmi n) s = execBmi n s := rfl
@[simp] theorem exec_bpl (n : Insn) (s : State) : exec (.bpl n) s = execBpl n s := rfl
@[simp] theorem exec_br (n : Insn) (s : State) : exec (.br n) s = execBr n s := rfl
@[simp] theorem exec_loop (n : Insn) (s : State) : exec (.loop n) s = execLoop n s := rfl
@[simp] theorem exec_loopu (n : Insn) (s : State) : exec (.loopu n) s = execLoopu n s := rfl
@[simp] theorem exec_loopg (n : Insn) (s : State) : exec (.loopg n) s = execLoopg n s := rfl
@[simp] theorem exec_call (n : Insn) (s : State) : exec (.call n) s = execCall n s := rfl
@[simp] theorem exec_ret (n : Insn) (s : State) : exec (.ret n) s = execRet n s := rfl
@[simp] theorem exec_retn (n : Insn) (s : State) : exec (.retn n) s = execRetn n s := rfl
@[simp] theorem exec_push (n : Insn) (s : State) : exec (.push n) s = execPush n s := rfl
@[simp] theorem exec_pop (n : Insn) (s : State) : exec (.pop n) s = execPop n s := rfl
@[simp] theorem exec_enter (n : Insn) (s : State) : exec (.enter n) s = execEnter n s := rfl
@[simp] theorem exec_leave (n : Insn) (s : State) : exec (.leave n) s = execLeave n s := rfl
@[simp] theorem exec_smov (n : Insn) (s : State) : exec (.smov n) s = execSmov n s := rfl
@[simp] theorem exec_scmp (n : Insn) (s : State) : exec (.scmp n) s = execScmp n s := rfl
@[simp] theorem exec_sscan (n : Insn) (s : State) : exec (.sscan n) s = execSscan n s := rfl
@[simp] theorem exec_ssto (n : Insn) (s : State) : exec (.ssto n) s = execSsto n s := rfl
@[simp] theorem exec_slod (n : Insn) (s : State) : exec (.slod n) s = execSlod n s := rfl
@[simp] theorem exec_xcmp (n : Insn) (s : State) : exec (.xcmp n) s = execXcmp n s := rfl
@[simp] theorem exec_xexp (n : Insn) (s : State) : exec (.xexp n) s = execXexp n s := rfl
@[simp] theorem exec_xcip (n : Insn) (s : State) : exec (.xcip n) s = execXcip n s := rfl
@[simp] theorem exec_xkeyUnwrap (n : Insn) (s : State) : exec (.xkeyUnwrap n) s = execXkeyUnwrap n s := rfl
@[simp] theorem exec_xkeyGenerate (n : Insn) (s : State) : exec (.xkeyGenerate n) s = execXkeyGenerate n s := rfl
@[simp] theorem exec_xkeyFree (n : Insn) (s : State) : exec (.xkeyFree n) s = execXkeyFree n s := rfl
@[simp] theorem exec_fadd (n : Insn) (s : State) : exec (.fadd n) s = execFadd n s := rfl
@[simp] theorem exec_fsub (n : Insn) (s : State) : exec (.fsub n) s = execFsub n s := rfl
@[simp] theorem exec_fmul (n : Insn) (s : State) : exec (.fmul n) s = execFmul n s := rfl
@[simp] theorem exec_fdiv (n : Insn) (s : State) : exec (.fdiv n) s = execFdiv n s := rfl
@[simp] theorem exec_fsqrt (n : Insn) (s : State) : exec (.fsqrt n) s = execFsqrt n s := rfl
@[simp] theorem exec_fma (n : Insn) (s : State) : exec (.fma n) s = execFma n s := rfl
@[simp] theorem exec_fms (n : Insn) (s : State) : exec (.fms n) s = execFms n s := rfl
@[simp] theorem exec_fnma (n : Insn) (s : State) : exec (.fnma n) s = execFnma n s := rfl
@[simp] theorem exec_fnms (n : Insn) (s : State) : exec (.fnms n) s = execFnms n s := rfl
@[simp] theorem exec_fmin (n : Insn) (s : State) : exec (.fmin n) s = execFmin n s := rfl
@[simp] theorem exec_fmax (n : Insn) (s : State) : exec (.fmax n) s = execFmax n s := rfl
@[simp] theorem exec_fabs (n : Insn) (s : State) : exec (.fabs n) s = execFabs n s := rfl
@[simp] theorem exec_fneg (n : Insn) (s : State) : exec (.fneg n) s = execFneg n s := rfl
@[simp] theorem exec_fcpys (n : Insn) (s : State) : exec (.fcpys n) s = execFcpys n s := rfl
@[simp] theorem exec_fcmp (n : Insn) (s : State) : exec (.fcmp n) s = execFcmp n s := rfl
@[simp] theorem exec_fcmps (n : Insn) (s : State) : exec (.fcmps n) s = execFcmps n s := rfl
@[simp] theorem exec_fmov (n : Insn) (s : State) : exec (.fmov n) s = execFmov n s := rfl
@[simp] theorem exec_fclass (n : Insn) (s : State) : exec (.fclass n) s = execFclass n s := rfl
@[simp] theorem exec_frnd (n : Insn) (s : State) : exec (.frnd n) s = execFrnd n s := rfl
@[simp] theorem exec_lfpc (n : Insn) (s : State) : exec (.lfpc n) s = execLfpc n s := rfl
@[simp] theorem exec_sfpc (n : Insn) (s : State) : exec (.sfpc n) s = execSfpc n s := rfl
@[simp] theorem exec_cvtws (n : Insn) (s : State) : exec (.cvtws n) s = execCvtws n s := rfl
@[simp] theorem exec_cvtwd (n : Insn) (s : State) : exec (.cvtwd n) s = execCvtwd n s := rfl
@[simp] theorem exec_cvtls (n : Insn) (s : State) : exec (.cvtls n) s = execCvtls n s := rfl
@[simp] theorem exec_cvtld (n : Insn) (s : State) : exec (.cvtld n) s = execCvtld n s := rfl
@[simp] theorem exec_cvtsw (n : Insn) (s : State) : exec (.cvtsw n) s = execCvtsw n s := rfl
@[simp] theorem exec_cvtdw (n : Insn) (s : State) : exec (.cvtdw n) s = execCvtdw n s := rfl
@[simp] theorem exec_cvtsl (n : Insn) (s : State) : exec (.cvtsl n) s = execCvtsl n s := rfl
@[simp] theorem exec_cvtdl (n : Insn) (s : State) : exec (.cvtdl n) s = execCvtdl n s := rfl
@[simp] theorem exec_cvtsd (n : Insn) (s : State) : exec (.cvtsd n) s = execCvtsd n s := rfl
@[simp] theorem exec_cvtds (n : Insn) (s : State) : exec (.cvtds n) s = execCvtds n s := rfl
@[simp] theorem exec_fence (n : Insn) (s : State) : exec (.fence n) s = execFence n s := rfl
@[simp] theorem exec_fenceLl (n : Insn) (s : State) : exec (.fenceLl n) s = execFenceLl n s := rfl
@[simp] theorem exec_fenceSs (n : Insn) (s : State) : exec (.fenceSs n) s = execFenceSs n s := rfl
@[simp] theorem exec_fenceLs (n : Insn) (s : State) : exec (.fenceLs n) s = execFenceLs n s := rfl
@[simp] theorem exec_fenceC (n : Insn) (s : State) : exec (.fenceC n) s = execFenceC n s := rfl
@[simp] theorem exec_preload (n : Insn) (s : State) : exec (.preload n) s = execPreload n s := rfl
@[simp] theorem exec_isync (n : Insn) (s : State) : exec (.isync n) s = execIsync n s := rfl
@[simp] theorem exec_cwb (n : Insn) (s : State) : exec (.cwb n) s = execCwb n s := rfl
@[simp] theorem exec_czero (n : Insn) (s : State) : exec (.czero n) s = execCzero n s := rfl
@[simp] theorem exec_svc (n : Insn) (s : State) : exec (.svc n) s = execSvc n s := rfl
@[simp] theorem exec_brk (n : Insn) (s : State) : exec (.brk n) s = execBrk n s := rfl
@[simp] theorem exec_rdclk (n : Insn) (s : State) : exec (.rdclk n) s = execRdclk n s := rfl
@[simp] theorem exec_getf (n : Insn) (s : State) : exec (.getf n) s = execGetf n s := rfl
@[simp] theorem exec_setf (n : Insn) (s : State) : exec (.setf n) s = execSetf n s := rfl
@[simp] theorem exec_ioIn (n : Insn) (s : State) : exec (.ioIn n) s = execIoIn n s := rfl
@[simp] theorem exec_ioOut (n : Insn) (s : State) : exec (.ioOut n) s = execIoOut n s := rfl
@[simp] theorem exec_ssch (n : Insn) (s : State) : exec (.ssch n) s = execSsch n s := rfl
@[simp] theorem exec_tsch (n : Insn) (s : State) : exec (.tsch n) s = execTsch n s := rfl
@[simp] theorem exec_hsch (n : Insn) (s : State) : exec (.hsch n) s = execHsch n s := rfl
@[simp] theorem exec_csch (n : Insn) (s : State) : exec (.csch n) s = execCsch n s := rfl
@[simp] theorem exec_msch (n : Insn) (s : State) : exec (.msch n) s = execMsch n s := rfl
@[simp] theorem exec_rsch (n : Insn) (s : State) : exec (.rsch n) s = execRsch n s := rfl
@[simp] theorem exec_stsch (n : Insn) (s : State) : exec (.stsch n) s = execStsch n s := rfl
@[simp] theorem exec_tinvA (n : Insn) (s : State) : exec (.tinvA n) s = execTinvA n s := rfl
@[simp] theorem exec_tinvS (n : Insn) (s : State) : exec (.tinvS n) s = execTinvS n s := rfl
@[simp] theorem exec_tinvV (n : Insn) (s : State) : exec (.tinvV n) s = execTinvV n s := rfl
@[simp] theorem exec_tinvbA (n : Insn) (s : State) : exec (.tinvbA n) s = execTinvbA n s := rfl
@[simp] theorem exec_tinvbS (n : Insn) (s : State) : exec (.tinvbS n) s = execTinvbS n s := rfl
@[simp] theorem exec_tinvbV (n : Insn) (s : State) : exec (.tinvbV n) s = execTinvbV n s := rfl
@[simp] theorem exec_cinv (n : Insn) (s : State) : exec (.cinv n) s = execCinv n s := rfl
@[simp] theorem exec_cinvAll (n : Insn) (s : State) : exec (.cinvAll n) s = execCinvAll n s := rfl
@[simp] theorem exec_cwbi (n : Insn) (s : State) : exec (.cwbi n) s = execCwbi n s := rfl
@[simp] theorem exec_cwbAll (n : Insn) (s : State) : exec (.cwbAll n) s = execCwbAll n s := rfl
@[simp] theorem exec_preloadL (n : Insn) (s : State) : exec (.preloadL n) s = execPreloadL n s := rfl
@[simp] theorem exec_cunlk (n : Insn) (s : State) : exec (.cunlk n) s = execCunlk n s := rfl
@[simp] theorem exec_savu (n : Insn) (s : State) : exec (.savu n) s = execSavu n s := rfl
@[simp] theorem exec_savl (n : Insn) (s : State) : exec (.savl n) s = execSavl n s := rfl
@[simp] theorem exec_rstu (n : Insn) (s : State) : exec (.rstu n) s = execRstu n s := rfl
@[simp] theorem exec_rstl (n : Insn) (s : State) : exec (.rstl n) s = execRstl n s := rfl
@[simp] theorem exec_iret (n : Insn) (s : State) : exec (.iret n) s = execIret n s := rfl
@[simp] theorem exec_lpsw (n : Insn) (s : State) : exec (.lpsw n) s = execLpsw n s := rfl
@[simp] theorem exec_spsw (n : Insn) (s : State) : exec (.spsw n) s = execSpsw n s := rfl
@[simp] theorem exec_wait (n : Insn) (s : State) : exec (.wait n) s = execWait n s := rfl
@[simp] theorem exec_xcoreQuery (n : Insn) (s : State) : exec (.xcoreQuery n) s = execXcoreQuery n s := rfl
@[simp] theorem exec_xcorePost (n : Insn) (s : State) : exec (.xcorePost n) s = execXcorePost n s := rfl
@[simp] theorem exec_xcorePause (n : Insn) (s : State) : exec (.xcorePause n) s = execXcorePause n s := rfl
@[simp] theorem exec_xcoreResume (n : Insn) (s : State) : exec (.xcoreResume n) s = execXcoreResume n s := rfl
@[simp] theorem exec_xcoreWake (n : Insn) (s : State) : exec (.xcoreWake n) s = execXcoreWake n s := rfl
@[simp] theorem exec_spri (n : Insn) (s : State) : exec (.spri n) s = execSpri n s := rfl
@[simp] theorem exec_lctl (n : Insn) (s : State) : exec (.lctl n) s = execLctl n s := rfl
@[simp] theorem exec_sctl (n : Insn) (s : State) : exec (.sctl n) s = execSctl n s := rfl
@[simp] theorem exec_lbnk (n : Insn) (s : State) : exec (.lbnk n) s = execLbnk n s := rfl
@[simp] theorem exec_sbnk (n : Insn) (s : State) : exec (.sbnk n) s = execSbnk n s := rfl
@[simp] theorem exec_lslim (n : Insn) (s : State) : exec (.lslim n) s = execLslim n s := rfl
@[simp] theorem exec_sslim (n : Insn) (s : State) : exec (.sslim n) s = execSslim n s := rfl
@[simp] theorem exec_interruptionAccept (c : CoreId) (s : State) : exec (.interruptionAccept c) s = execInterruptionAccept c s := rfl
@[simp] theorem exec_clockComparator (c : CoreId) (s : State) : exec (.clockComparator c) s = execClockComparator c s := rfl
@[simp] theorem exec_storeBufferDrain (c : CoreId) (s : State) : exec (.storeBufferDrain c) s = execStoreBufferDrain c s := rfl
@[simp] theorem exec_gatherTimeout (c : CoreId) (s : State) : exec (.gatherTimeout c) s = execGatherTimeout c s := rfl
@[simp] theorem exec_windowZeroLengthReadDone (c : CoreId) (s : State) : exec (.windowZeroLengthReadDone c) s = execWindowZeroLengthReadDone c s := rfl
@[simp] theorem exec_deviceInCompletion (c : CoreId) (data : Word) (ep : Bool) (s : State) : exec (.deviceInCompletion c data ep) s = execDeviceInCompletion c data ep s := rfl
@[simp] theorem exec_quiescePoint (sh : SheetId) (s : State) : exec (.quiescePoint sh) s = execQuiescePoint sh s := rfl
@[simp] theorem exec_residencyClean (c : CoreId) (line : LineAddr) (parityError : Bool) (s : State) : exec (.residencyClean c line parityError) s = execResidencyClean c line parityError s := rfl
@[simp] theorem exec_cacheDisable (x : CacheSel) (s : State) : exec (.cacheDisable x) s = execCacheDisable x s := rfl
@[simp] theorem exec_cacheEnable (x : CacheSel) (s : State) : exec (.cacheEnable x) s = execCacheEnable x s := rfl
@[simp] theorem exec_cacheDrainDone (x : CacheSel) (s : State) : exec (.cacheDrainDone x) s = execCacheDrainDone x s := rfl
@[simp] theorem exec_gets (h : HomeId) (q : QuireId) (line : LineAddr) (count : Fin 65) (ask : Ask) (s : State) : exec (.gets h q line count ask) s = execGets h q line count ask s := rfl
@[simp] theorem exec_getm (h : HomeId) (q : QuireId) (line : LineAddr) (count : Fin 65) (ask : Ask) (s : State) : exec (.getm h q line count ask) s = execGetm h q line count ask s := rfl
@[simp] theorem exec_getz (h : HomeId) (q : QuireId) (line : LineAddr) (count : Fin 65) (ask : Ask) (s : State) : exec (.getz h q line count ask) s = execGetz h q line count ask s := rfl
@[simp] theorem exec_putm (h : HomeId) (q : QuireId) (line : LineAddr) (data : Line) (ask : Ask) (s : State) : exec (.putm h q line data ask) s = execPutm h q line data ask s := rfl
@[simp] theorem exec_pute (h : HomeId) (q : QuireId) (line : LineAddr) (ask : Ask) (s : State) : exec (.pute h q line ask) s = execPute h q line ask s := rfl
@[simp] theorem exec_mclean (h : HomeId) (q : QuireId) (line : LineAddr) (count : Fin 65) (ask : Ask) (s : State) : exec (.mclean h q line count ask) s = execMclean h q line count ask s := rfl
@[simp] theorem exec_mflush (h : HomeId) (q : QuireId) (line : LineAddr) (count : Fin 65) (ask : Ask) (s : State) : exec (.mflush h q line count ask) s = execMflush h q line count ask s := rfl
@[simp] theorem exec_mpurge (h : HomeId) (q : QuireId) (line : LineAddr) (count : Fin 65) (ask : Ask) (s : State) : exec (.mpurge h q line count ask) s = execMpurge h q line count ask s := rfl
@[simp] theorem exec_readnc (h : HomeId) (r : ReqIdx) (line : LineAddr) (count : Fin 65) (ask : Ask) (s : State) : exec (.readnc h r line count ask) s = execReadnc h r line count ask s := rfl
@[simp] theorem exec_writenc (h : HomeId) (r : ReqIdx) (line : LineAddr) (count : Fin 65) (mask : BitVec 16) (words : Vector Word 16) (ask : Ask) (s : State) : exec (.writenc h r line count mask words ask) s = execWritenc h r line count mask words ask s := rfl
@[simp] theorem exec_atomnc (h : HomeId) (r : ReqIdx) (line : LineAddr) (count : Fin 65) (op : AtomOp) (dbl : Bool) (word : Fin 16) (operand : DWord) (ask : Ask) (s : State) : exec (.atomnc h r line count op dbl word operand ask) s = execAtomnc h r line count op dbl word operand ask s := rfl
@[simp] theorem exec_done (h : HomeId) (q : QuireId) (line : LineAddr) (final : FinalState) (s : State) : exec (.done h q line final) s = execDone h q line final s := rfl
@[simp] theorem exec_sdata (h : HomeId) (q : QuireId) (line : LineAddr) (data : Line) (dirty : Bool) (s : State) : exec (.sdata h q line data dirty) s = execSdata h q line data dirty s := rfl
@[simp] theorem exec_rdata (h : HomeId) (q : QuireId) (line : LineAddr) (data : Line) (dirty : Bool) (s : State) : exec (.rdata h q line data dirty) s = execRdata h q line data dirty s := rfl
@[simp] theorem exec_homeInvack (h : HomeId) (q : QuireId) (line : LineAddr) (s : State) : exec (.homeInvack h q line) s = execHomeInvack h q line s := rfl
@[simp] theorem exec_datas (q : QuireId) (line : LineAddr) (data : Line) (exclusive : Bool) (s : State) : exec (.datas q line data exclusive) s = execDatas q line data exclusive s := rfl
@[simp] theorem exec_datam (q : QuireId) (line : LineAddr) (data : Line) (n : Fin 33) (s : State) : exec (.datam q line data n) s = execDatam q line data n s := rfl
@[simp] theorem exec_grantm (q : QuireId) (line : LineAddr) (n : Fin 33) (s : State) : exec (.grantm q line n) s = execGrantm q line n s := rfl
@[simp] theorem exec_invack (q : QuireId) (line : LineAddr) (s : State) : exec (.invack q line) s = execInvack q line s := rfl
@[simp] theorem exec_putack (q : QuireId) (line : LineAddr) (s : State) : exec (.putack q line) s = execPutack q line s := rfl
@[simp] theorem exec_staleack (q : QuireId) (line : LineAddr) (s : State) : exec (.staleack q line) s = execStaleack q line s := rfl
@[simp] theorem exec_retry (r : ReqIdx) (line : LineAddr) (count : Fin 65) (s : State) : exec (.retry r line count) s = execRetry r line count s := rfl
@[simp] theorem exec_requestReissue (r : ReqIdx) (line : LineAddr) (s : State) : exec (.requestReissue r line) s = execRequestReissue r line s := rfl
@[simp] theorem exec_fwdgets (q : QuireId) (line : LineAddr) (requester : QuireId) (s : State) : exec (.fwdgets q line requester) s = execFwdgets q line requester s := rfl
@[simp] theorem exec_fwdgetm (q : QuireId) (line : LineAddr) (requester : QuireId) (n : Fin 33) (s : State) : exec (.fwdgetm q line requester n) s = execFwdgetm q line requester n s := rfl
@[simp] theorem exec_inv (q : QuireId) (line : LineAddr) (collector : Collector) (s : State) : exec (.inv q line collector) s = execInv q line collector s := rfl
@[simp] theorem exec_recall (q : QuireId) (line : LineAddr) (s : State) : exec (.recall q line) s = execRecall q line s := rfl
@[simp] theorem exec_snp (q : QuireId) (line : LineAddr) (clean : Bool) (s : State) : exec (.snp q line clean) s = execSnp q line clean s := rfl
@[simp] theorem exec_datanc (r : ReqIdx) (line : LineAddr) (data : Line) (s : State) : exec (.datanc r line data) s = execDatanc r line data s := rfl
@[simp] theorem exec_cmpnc (r : ReqIdx) (line : LineAddr) (old : DWord) (s : State) : exec (.cmpnc r line old) s = execCmpnc r line old s := rfl
@[simp] theorem exec_homeTimeout (h : HomeId) (line : LineAddr) (s : State) : exec (.homeTimeout h line) s = execHomeTimeout h line s := rfl
@[simp] theorem exec_quireTimeout (q : QuireId) (line : LineAddr) (s : State) : exec (.quireTimeout q line) s = execQuireTimeout q line s := rfl
@[simp] theorem exec_l2RetentionWake (q : QuireId) (s : State) : exec (.l2RetentionWake q) s = execL2RetentionWake q s := rfl
@[simp] theorem exec_webPortFail (t : TileId) (p : Fin 7) (s : State) : exec (.webPortFail t p) s = execWebPortFail t p s := rfl
@[simp] theorem exec_instructionRetry (c : CoreId) (cause : Fin 64) (line : LineAddr) (s : State) : exec (.instructionRetry c cause line) s = execInstructionRetry c cause line s := rfl
@[simp] theorem exec_attemptsClear (c : CoreId) (s : State) : exec (.attemptsClear c) s = execAttemptsClear c s := rfl
@[simp] theorem exec_shed (c : CoreId) (cause : Fin 64) (line : LineAddr) (s : State) : exec (.shed c cause line) s = execShed c cause line s := rfl
@[simp] theorem exec_couchFenced (c : CoreId) (s : State) : exec (.couchFenced c) s = execCouchFenced c s := rfl
@[simp] theorem exec_spareWakeDone (c : CoreId) (pass : Bool) (s : State) : exec (.spareWakeDone c pass) s = execSpareWakeDone c pass s := rfl
@[simp] theorem exec_stateTransferDone (c : CoreId) (s : State) : exec (.stateTransferDone c) s = execStateTransferDone c s := rfl
@[simp] theorem exec_spareRelease (c : CoreId) (s : State) : exec (.spareRelease c) s = execSpareRelease c s := rfl
@[simp] theorem exec_panelOutvote (t : Trip) (a b c : Word) (test : PanelTest) (s : State) : exec (.panelOutvote t a b c test) s = execPanelOutvote t a b c test s := rfl
@[simp] theorem exec_panelReloadDone (t : Trip) (upset : Option (Fin 3 × Fin 4194304 × Word)) (test : PanelTest) (s : State) : exec (.panelReloadDone t upset test) s = execPanelReloadDone t upset test s := rfl
@[simp] theorem exec_triptychTakeover (t : Trip) (s : State) : exec (.triptychTakeover t) s = execTriptychTakeover t s := rfl
@[simp] theorem exec_triptychRestart (t : Trip) (s : State) : exec (.triptychRestart t) s = execTriptychRestart t s := rfl
@[simp] theorem exec_triptychRestartDone (t : Trip) (pass : Bool) (s : State) : exec (.triptychRestartDone t pass) s = execTriptychRestartDone t pass s := rfl
@[simp] theorem exec_supervisorOnlyReset (s : State) : exec (.supervisorOnlyReset) s = execSupervisorOnlyReset s := rfl
@[simp] theorem exec_supervisorOnlyResetDone (pass : Bool) (s : State) : exec (.supervisorOnlyResetDone pass) s = execSupervisorOnlyResetDone pass s := rfl
@[simp] theorem exec_memcRead (m : McId) (ls : StackLine) (first : RawRead) (second : RawRead) (s : State) : exec (.memcRead m ls first second) s = execMemcRead m ls first second s := rfl
@[simp] theorem exec_memcWrite (m : McId) (ls : StackLine) (data : Line) (s : State) : exec (.memcWrite m ls data) s = execMemcWrite m ls data s := rfl
@[simp] theorem exec_deferredPoison (m : McId) (s : State) : exec (.deferredPoison m) s = execDeferredPoison m s := rfl
@[simp] theorem exec_patrolScrub (m : McId) (first : RawRead) (second : RawRead) (s : State) : exec (.patrolScrub m first second) s = execPatrolScrub m first second s := rfl
@[simp] theorem exec_patrolRepair (m : McId) (ls : StackLine) (data : Line) (s : State) : exec (.patrolRepair m ls data) s = execPatrolRepair m ls data s := rfl
@[simp] theorem exec_rowSpareDone (m : McId) (pc : Fin 32) (bank : Fin 32) (row : Fin 32768) (errs : Vector (Vector (BitVec 80) 9) 32) (s : State) : exec (.rowSpareDone m pc bank row errs) s = execRowSpareDone m pc bank row errs s := rfl
@[simp] theorem exec_migrationStart (m : McId) (die : Fin 16) (s : State) : exec (.migrationStart m die) s = execMigrationStart m die s := rfl
@[simp] theorem exec_migrationCopy (m : McId) (half : Fin 2) (first : RawRead) (second : RawRead) (spareFails : Bool) (s : State) : exec (.migrationCopy m half first second spareFails) s = execMigrationCopy m half first second spareFails s := rfl
@[simp] theorem exec_recalibration (m : McId) (pc : Fin 32) (fails : Bool) (s : State) : exec (.recalibration m pc fails) s = execRecalibration m pc fails s := rfl
@[simp] theorem exec_refresh (m : McId) (pc : Fin 32) (bank : Fin 32) (row : Fin 32768) (s : State) : exec (.refresh m pc bank row) s = execRefresh m pc bank row s := rfl
@[simp] theorem exec_stackTempSample (m : McId) (temp : Fin 512) (s : State) : exec (.stackTempSample m temp) s = execStackTempSample m temp s := rfl
@[simp] theorem exec_easelAccess (t : TileId) (bank : Fin 32) (reqs : List EaselReq) (portB : Option EaselPortB) (errors : Fin 3) (s : State) : exec (.easelAccess t bank reqs portB errors) s = execEaselAccess t bank reqs portB errors s := rfl
@[simp] theorem exec_easelScrub (t : TileId) (addr : Fin 4194304) (errors : Fin 3) (s : State) : exec (.easelScrub t addr errors) s = execEaselScrub t addr errors s := rfl
@[simp] theorem exec_easelRetention (t : TileId) (ret : BitVec 32) (s : State) : exec (.easelRetention t ret) s = execEaselRetention t ret s := rfl
@[simp] theorem exec_easelWakeDone (t : TileId) (bank : Fin 32) (s : State) : exec (.easelWakeDone t bank) s = execEaselWakeDone t bank s := rfl
@[simp] theorem exec_slotGrant (v : VatId) (s : State) : exec (.slotGrant v) s = execSlotGrant v s := rfl
@[simp] theorem exec_packetFetch (n : SubId) (s : State) : exec (.packetFetch n) s = execPacketFetch n s := rfl
@[simp] theorem exec_xack (m : FeltHdr) (status : Octet) (dstat : BitVec 16) (moved : Nat) (s : State) : exec (.xack m status dstat moved) s = execXack m status dstat moved s := rfl
@[simp] theorem exec_xdata (m : FeltHdr) (octets : List Octet) (last : Bool) (poison : Bool) (s : State) : exec (.xdata m octets last poison) s = execXdata m octets last poison s := rfl
@[simp] theorem exec_record (m : FeltHdr) (found : Bool) (lastGen : Fin 1048576) (highCseq : Fin 4096) (status : Octet) (s : State) : exec (.record m found lastGen highCseq status) s = execRecord m found lastGen highCseq status s := rfl
@[simp] theorem exec_ackTimeout (n : SubId) (s : State) : exec (.ackTimeout n) s = execAckTimeout n s := rfl
@[simp] theorem exec_pathWaitTimeout (n : SubId) (s : State) : exec (.pathWaitTimeout n) s = execPathWaitTimeout n s := rfl
@[simp] theorem exec_haltTimeout (n : SubId) (s : State) : exec (.haltTimeout n) s = execHaltTimeout n s := rfl
@[simp] theorem exec_subchannelMove (n : SubId) (s : State) : exec (.subchannelMove n) s = execSubchannelMove n s := rfl
@[simp] theorem exec_pathUpdate (l : LinkId) (s : State) : exec (.pathUpdate l) s = execPathUpdate l s := rfl
@[simp] theorem exec_vatRestart (v : VatId) (s : State) : exec (.vatRestart v) s = execVatRestart v s := rfl
@[simp] theorem exec_dataFlit (l : LinkId) (lane : Fin 8) (h : FlitHdr) (crcGood : Bool) (s : State) : exec (.dataFlit l lane h crcGood) s = execDataFlit l lane h crcGood s := rfl
@[simp] theorem exec_idleFlit (l : LinkId) (lane : Fin 8) (h : FlitHdr) (crcGood : Bool) (s : State) : exec (.idleFlit l lane h crcGood) s = execIdleFlit l lane h crcGood s := rfl
@[simp] theorem exec_replayTimeout (l : LinkId) (s : State) : exec (.replayTimeout l) s = execReplayTimeout l s := rfl
@[simp] theorem exec_ackTimer (l : LinkId) (s : State) : exec (.ackTimer l) s = execAckTimer l s := rfl
@[simp] theorem exec_linkIdentify (l : LinkId) (words : Vector Word 8) (s : State) : exec (.linkIdentify l words) s = execLinkIdentify l words s := rfl
@[simp] theorem exec_sleep (l : LinkId) (s : State) : exec (.sleep l) s = execSleep l s := rfl
@[simp] theorem exec_sleepAck (l : LinkId) (s : State) : exec (.sleepAck l) s = execSleepAck l s := rfl
@[simp] theorem exec_sleepIdle (l : LinkId) (s : State) : exec (.sleepIdle l) s = execSleepIdle l s := rfl
@[simp] theorem exec_linkWake (l : LinkId) (s : State) : exec (.linkWake l) s = execLinkWake l s := rfl
@[simp] theorem exec_laneLoss (l : LinkId) (lane : Fin 8) (s : State) : exec (.laneLoss l lane) s = execLaneLoss l lane s := rfl
@[simp] theorem exec_detectPoll (l : LinkId) (found : Bool) (s : State) : exec (.detectPoll l found) s = execDetectPoll l found s := rfl
@[simp] theorem exec_trainingTimeout (l : LinkId) (s : State) : exec (.trainingTimeout l) s = execTrainingTimeout l s := rfl
@[simp] theorem exec_trainingDone (l : LinkId) (s : State) : exec (.trainingDone l) s = execTrainingDone l s := rfl
@[simp] theorem exec_linkEnWrite (l : LinkId) (en : Bool) (s : State) : exec (.linkEnWrite l en) s = execLinkEnWrite l en s := rfl
@[simp] theorem exec_wwrite (m : FeltHdr) (devaddr : BitVec 16) (octets : List Octet) (poison : Bool) (s : State) : exec (.wwrite m devaddr octets poison) s = execWwrite m devaddr octets poison s := rfl
@[simp] theorem exec_sessionSense (m : FeltHdr) (s : State) : exec (.sessionSense m) s = execSessionSense m s := rfl
@[simp] theorem exec_xreqReject (m : FeltHdr) (code : Octet) (s : State) : exec (.xreqReject m code) s = execXreqReject m code s := rfl
@[simp] theorem exec_windowArm (t : TileId) (w : Fin 16) (s : State) : exec (.windowArm t w) s = execWindowArm t w s := rfl
@[simp] theorem exec_calJobStart (t : TileId) (s : State) : exec (.calJobStart t) s = execCalJobStart t s := rfl
@[simp] theorem exec_calJobEnd (t : TileId) (queue : SheetId) (s : State) : exec (.calJobEnd t queue) s = execCalJobEnd t queue s := rfl
@[simp] theorem exec_calSlotPreempt (t : TileId) (s : State) : exec (.calSlotPreempt t) s = execCalSlotPreempt t s := rfl
@[simp] theorem exec_calSlotStart (t : TileId) (slot : Fin 64) (s : State) : exec (.calSlotStart t slot) s = execCalSlotStart t slot s := rfl
@[simp] theorem exec_varJobStart (t : TileId) (s : State) : exec (.varJobStart t) s = execVarJobStart t s := rfl
@[simp] theorem exec_varJobEnd (t : TileId) (queue : SheetId) (s : State) : exec (.varJobEnd t queue) s = execVarJobEnd t queue s := rfl
@[simp] theorem exec_varSlotPreempt (t : TileId) (s : State) : exec (.varSlotPreempt t) s = execVarSlotPreempt t s := rfl
@[simp] theorem exec_varSlotStart (t : TileId) (slot : Fin 64) (s : State) : exec (.varSlotStart t slot) s = execVarSlotStart t slot s := rfl
@[simp] theorem exec_configRequest (f : Fin 2) (reg : Fin 1024) (write : Option (BitVec 32)) (be : BitVec 4) (s : State) : exec (.configRequest f reg write be) s = execConfigRequest f reg write be s := rfl
@[simp] theorem exec_bar0Write (f : Fin 2) (off : Fin 262144) (value : BitVec 32) (s : State) : exec (.bar0Write f off value) s = execBar0Write f off value s := rfl
@[simp] theorem exec_crtailDoorbell (tail : BitVec 16) (s : State) : exec (.crtailDoorbell tail) s = execCrtailDoorbell tail s := rfl
@[simp] theorem exec_svrst (first second : Octet) (within : Bool) (s : State) : exec (.svrst first second within) s = execSvrst first second within s := rfl
@[simp] theorem exec_bar2Read (word : Fin 65536) (count : Fin 513) (portAWrites : Bool) (uncorrectable : Bool) (s : State) : exec (.bar2Read word count portAWrites uncorrectable) s = execBar2Read word count portAWrites uncorrectable s := rfl
@[simp] theorem exec_bar2Write (off : Fin 524288) (octets : List Octet) (enables : List Bool) (ep : Bool) (s : State) : exec (.bar2Write off octets enables ep) s = execBar2Write off octets enables ep s := rfl
@[simp] theorem exec_htailDoorbell (q : SheetId) (tail : BitVec 16) (s : State) : exec (.htailDoorbell q tail) s = execHtailDoorbell q tail s := rfl
@[simp] theorem exec_h2sMove (q : SheetId) (octets : List Octet) (ep : Bool) (s : State) : exec (.h2sMove q octets ep) s = execH2sMove q octets ep s := rfl
@[simp] theorem exec_s2hMove (q : SheetId) (s : State) : exec (.s2hMove q) s = execS2hMove q s := rfl
@[simp] theorem exec_stailDoorbell (q : SheetId) (tail : BitVec 16) (s : State) : exec (.stailDoorbell q tail) s = execStailDoorbell q tail s := rfl
@[simp] theorem exec_completionTimeout (q : SheetId) (s : State) : exec (.completionTimeout q) s = execCompletionTimeout q s := rfl
@[simp] theorem exec_msiSend (f : Fin 2) (vector : Fin 64) (s : State) : exec (.msiSend f vector) s = execMsiSend f vector s := rfl
@[simp] theorem exec_busMasterEnableClear (f : Fin 2) (s : State) : exec (.busMasterEnableClear f) s = execBusMasterEnableClear f s := rfl
@[simp] theorem exec_flr (f : Fin 2) (s : State) : exec (.flr f) s = execFlr f s := rfl
@[simp] theorem exec_hotReset (s : State) : exec (.hotReset) s = execHotReset s := rfl
@[simp] theorem exec_perstNAssert (ns : Nat) (s : State) : exec (.perstNAssert ns) s = execPerstNAssert ns s := rfl
@[simp] theorem exec_perstNDeassert (s : State) : exec (.perstNDeassert) s = execPerstNDeassert s := rfl
@[simp] theorem exec_aspmL1Entry (s : State) : exec (.aspmL1Entry) s = execAspmL1Entry s := rfl
@[simp] theorem exec_aspmL0sEntry (s : State) : exec (.aspmL0sEntry) s = execAspmL0sEntry s := rfl
@[simp] theorem exec_rootpConfigIssue (p : RootId) (v : Word) (s : State) : exec (.rootpConfigIssue p v) s = execRootpConfigIssue p v s := rfl
@[simp] theorem exec_rootpConfigCompletion (p : RootId) (stat : Fin 8) (data : BitVec 32) (s : State) : exec (.rootpConfigCompletion p stat data) s = execRootpConfigCompletion p stat data s := rfl
@[simp] theorem exec_inboundRequest (p : RootId) (r : InboundReq) (s : State) : exec (.inboundRequest p r) s = execInboundRequest p r s := rfl
@[simp] theorem exec_containment (p : RootId) (cause : Fin 16) (hdr : Vector Word 4) (s : State) : exec (.containment p cause hdr) s = execContainment p cause hdr s := rfl
@[simp] theorem exec_containmentRelease (p : RootId) (s : State) : exec (.containmentRelease p) s = execContainmentRelease p s := rfl
@[simp] theorem exec_rootpWindowArm (p : RootId) (w : Fin 16) (s : State) : exec (.rootpWindowArm p w) s = execRootpWindowArm p w s := rfl
@[simp] theorem exec_rootpLinkEnable (p : RootId) (en : Bool) (s : State) : exec (.rootpLinkEnable p en) s = execRootpLinkEnable p en s := rfl
@[simp] theorem exec_consolePacketTake (octets : List Octet) (ep : Bool) (s : State) : exec (.consolePacketTake octets ep) s = execConsolePacketTake octets ep s := rfl
@[simp] theorem exec_identify (h : ConHdr) (s : State) : exec (.identify h) s = execIdentify h s := rfl
@[simp] theorem exec_setVersion (h : ConHdr) (version : BitVec 32) (s : State) : exec (.setVersion h version) s = execSetVersion h version s := rfl
@[simp] theorem exec_moduleStatus (h : ConHdr) (s : State) : exec (.moduleStatus h) s = execModuleStatus h s := rfl
@[simp] theorem exec_opRelease (h : ConHdr) (token : BitVec 32) (s : State) : exec (.opRelease h token) s = execOpRelease h token s := rfl
@[simp] theorem exec_opAbort (h : ConHdr) (token : BitVec 32) (s : State) : exec (.opAbort h token) s = execOpAbort h token s := rfl
@[simp] theorem exec_sheetQuery (h : ConHdr) (sheet : BitVec 32) (s : State) : exec (.sheetQuery h sheet) s = execSheetQuery h sheet s := rfl
@[simp] theorem exec_sheetStart (h : ConHdr) (sheet : BitVec 32) (start : HostWord) (s : State) : exec (.sheetStart h sheet start) s = execSheetStart h sheet start s := rfl
@[simp] theorem exec_sheetStop (h : ConHdr) (sheet : BitVec 32) (s : State) : exec (.sheetStop h sheet) s = execSheetStop h sheet s := rfl
@[simp] theorem exec_sheetReset (h : ConHdr) (sheet : BitVec 32) (flags : BitVec 32) (s : State) : exec (.sheetReset h sheet flags) s = execSheetReset h sheet flags s := rfl
@[simp] theorem exec_masterRelease (h : ConHdr) (type ident mode : BitVec 32) (s : State) : exec (.masterRelease h type ident mode) s = execMasterRelease h type ident mode s := rfl
@[simp] theorem exec_sheetNotice (h : ConHdr) (sheet value : BitVec 32) (s : State) : exec (.sheetNotice h sheet value) s = execSheetNotice h sheet value s := rfl
@[simp] theorem exec_wmQuery (h : ConHdr) (s : State) : exec (.wmQuery h) s = execWmQuery h s := rfl
@[simp] theorem exec_authNonce (h : ConHdr) (s : State) : exec (.authNonce h) s = execAuthNonce h s := rfl
@[simp] theorem exec_watermarkCommit (h : ConHdr) (assign : Assign) (s : State) : exec (.watermarkCommit h assign) s = execWatermarkCommit h assign s := rfl
@[simp] theorem exec_watermarkRevert (h : ConHdr) (s : State) : exec (.watermarkRevert h) s = execWatermarkRevert h s := rfl
@[simp] theorem exec_stageDiscard (h : ConHdr) (s : State) : exec (.stageDiscard h) s = execStageDiscard h s := rfl
@[simp] theorem exec_flashWriteDone (ok : Bool) (s : State) : exec (.flashWriteDone ok) s = execFlashWriteDone ok s := rfl
@[simp] theorem exec_commitWave (s : State) : exec (.commitWave) s = execCommitWave s := rfl
@[simp] theorem exec_coreQuery (h : ConHdr) (core : BitVec 32) (s : State) : exec (.coreQuery h core) s = execCoreQuery h core s := rfl
@[simp] theorem exec_coreRestart (h : ConHdr) (core : BitVec 32) (s : State) : exec (.coreRestart h core) s = execCoreRestart h core s := rfl
@[simp] theorem exec_coreRetest (h : ConHdr) (core : BitVec 32) (pass : Bool) (s : State) : exec (.coreRetest h core pass) s = execCoreRetest h core pass s := rfl
@[simp] theorem exec_supervisorRestart (h : ConHdr) (level number : BitVec 32) (s : State) : exec (.supervisorRestart h level number) s = execSupervisorRestart h level number s := rfl
@[simp] theorem exec_ckptRead (h : ConHdr) (core kind : BitVec 32) (selector : HostWord) (s : State) : exec (.ckptRead h core kind selector) s = execCkptRead h core kind selector s := rfl
@[simp] theorem exec_faultScan (h : ConHdr) (scope tile : BitVec 32) (s : State) : exec (.faultScan h scope tile) s = execFaultScan h scope tile s := rfl
@[simp] theorem exec_faultInject (h : ConHdr) (addr : HostWord) (core source : BitVec 32) (s : State) : exec (.faultInject h addr core source) s = execFaultInject h addr core source s := rfl
@[simp] theorem exec_faultClear (h : ConHdr) (addr : HostWord) (core : BitVec 32) (mask : HostWord) (s : State) : exec (.faultClear h addr core mask) s = execFaultClear h addr core mask s := rfl
@[simp] theorem exec_linkQuery (h : ConHdr) (tile group lane : BitVec 32) (s : State) : exec (.linkQuery h tile group lane) s = execLinkQuery h tile group lane s := rfl
@[simp] theorem exec_linkReset (h : ConHdr) (tile group lane : BitVec 32) (s : State) : exec (.linkReset h tile group lane) s = execLinkReset h tile group lane s := rfl
@[simp] theorem exec_regRead (h : ConHdr) (addr : HostWord) (count core : BitVec 32) (s : State) : exec (.regRead h addr count core) s = execRegRead h addr count core s := rfl
@[simp] theorem exec_regWrite (h : ConHdr) (addr : HostWord) (count core : BitVec 32) (values : List HostWord) (s : State) : exec (.regWrite h addr count core values) s = execRegWrite h addr count core values s := rfl
@[simp] theorem exec_shadowRead (h : ConHdr) (addr : HostWord) (count : BitVec 32) (s : State) : exec (.shadowRead h addr count) s = execShadowRead h addr count s := rfl
@[simp] theorem exec_memRead (h : ConHdr) (sheet : BitVec 32) (addr : HostWord) (words : BitVec 32) (buffer : BitVec 64) (image : BitVec 32) (s : State) : exec (.memRead h sheet addr words buffer image) s = execMemRead h sheet addr words buffer image s := rfl
@[simp] theorem exec_memWrite (h : ConHdr) (sheet : BitVec 32) (addr : HostWord) (words : BitVec 32) (octets : List Octet) (ep : Bool) (image : BitVec 32) (s : State) : exec (.memWrite h sheet addr words octets ep image) s = execMemWrite h sheet addr words octets ep image s := rfl
@[simp] theorem exec_memZero (h : ConHdr) (sheet : BitVec 32) (addr : HostWord) (words : BitVec 32) (s : State) : exec (.memZero h sheet addr words) s = execMemZero h sheet addr words s := rfl
@[simp] theorem exec_calJob (h : ConHdr) (sheet : BitVec 32) (expand : Bool) (block : Vector HostWord 12) (s : State) : exec (.calJob h sheet expand block) s = execCalJob h sheet expand block s := rfl
@[simp] theorem exec_dieMigrate (h : ConHdr) (tile controller die : BitVec 32) (s : State) : exec (.dieMigrate h tile controller die) s = execDieMigrate h tile controller die s := rfl
@[simp] theorem exec_heldAccessRetry (a : RegAt) (s : State) : exec (.heldAccessRetry a) s = execHeldAccessRetry a s := rfl
@[simp] theorem exec_accessTimeout (c : CoreId) (s : State) : exec (.accessTimeout c) s = execAccessTimeout c s := rfl
@[simp] theorem exec_heartbeat (s : State) : exec (.heartbeat) s = execHeartbeat s := rfl
@[simp] theorem exec_stagingChunk (keyMatches sigValid : Bool) (s : State) : exec (.stagingChunk keyMatches sigValid) s = execStagingChunk keyMatches sigValid s := rfl
@[simp] theorem exec_faultEvent (b : Blk) (src : Fin 18) (info : Word) (line : LineAddr) (flips : List (Fin 720)) (others : List (Fin 18 × Word)) (s : State) : exec (.faultEvent b src info line flips others) s = execFaultEvent b src info line flips others s := rfl
@[simp] theorem exec_finjWrite (b : Blk) (v : Word) (s : State) : exec (.finjWrite b v) s = execFinjWrite b v s := rfl
@[simp] theorem exec_injectionFire (b : Blk) (real : Option (Word × LineAddr × List (Fin 720))) (s : State) : exec (.injectionFire b real) s = execInjectionFire b real s := rfl
@[simp] theorem exec_resetShadowEnd (b : Blk) (s : State) : exec (.resetShadowEnd b) s = execResetShadowEnd b s := rfl
@[simp] theorem exec_blockResetEnd (b : Blk) (s : State) : exec (.blockResetEnd b) s = execBlockResetEnd b s := rfl
@[simp] theorem exec_quireReset (q : QuireId) (s : State) : exec (.quireReset q) s = execQuireReset q s := rfl
@[simp] theorem exec_tileReset (t : TileId) (s : State) : exec (.tileReset t) s = execTileReset t s := rfl
@[simp] theorem exec_pwrokRise (bootsrc : Fin 4) (s : State) : exec (.pwrokRise bootsrc) s = execPwrokRise bootsrc s := rfl
@[simp] theorem exec_pwrokFall (ns : Nat) (s : State) : exec (.pwrokFall ns) s = execPwrokFall ns s := rfl
@[simp] theorem exec_vauxLoss (s : State) : exec (.vauxLoss) s = execVauxLoss s := rfl
@[simp] theorem exec_vinFault (millivolts : Fin 4096) (s : State) : exec (.vinFault millivolts) s = execVinFault millivolts s := rfl
@[simp] theorem exec_modResetNAssert (ns : Nat) (s : State) : exec (.modResetNAssert ns) s = execModResetNAssert ns s := rfl
@[simp] theorem exec_moduleResetHoldEnd (s : State) : exec (.moduleResetHoldEnd) s = execModuleResetHoldEnd s := rfl
@[simp] theorem exec_rstModKey (first second : Nonet) (within : Bool) (s : State) : exec (.rstModKey first second within) s = execRstModKey first second within s := rfl
@[simp] theorem exec_refclkLoss (s : State) : exec (.refclkLoss) s = execRefclkLoss s := rfl
@[simp] theorem exec_pllUnlock (s : State) : exec (.pllUnlock) s = execPllUnlock s := rfl
@[simp] theorem exec_gessoStepEnd (copyA copyB : DunulHdr) (trainFails : List (McId × Fin 32)) (failedCores : List CoreId) (failedPorts : List (TileId × Fin 7)) (spares : List (QuireId × Fin 6)) (s : State) : exec (.gessoStepEnd copyA copyB trainFails failedCores failedPorts spares) s = execGessoStepEnd copyA copyB trainFails failedCores failedPorts spares s := rfl
@[simp] theorem exec_thermalSample (temps : Vector (Fin 512) 64) (s : State) : exec (.thermalSample temps) s = execThermalSample temps s := rfl
@[simp] theorem exec_lfiFrame (amps : Fin 2048) (shedding : Bool) (s : State) : exec (.lfiFrame amps shedding) s = execLfiFrame amps shedding s := rfl
@[simp] theorem exec_largeStepGrant (s : State) : exec (.largeStepGrant) s = execLargeStepGrant s := rfl
@[simp] theorem exec_largeStepBegin (s : State) : exec (.largeStepBegin) s = execLargeStepBegin s := rfl
@[simp] theorem exec_stepChange (q : QuireId) (step : Fin 4) (s : State) : exec (.stepChange q step) s = execStepChange q step s := rfl
@[simp] theorem exec_stepChangeDone (q : QuireId) (s : State) : exec (.stepChangeDone q) s = execStepChangeDone q s := rfl
@[simp] theorem exec_clockStretch (q : QuireId) (s : State) : exec (.clockStretch q) s = execClockStretch q s := rfl
@[simp] theorem exec_stretchEnd (q : QuireId) (s : State) : exec (.stretchEnd q) s = execStretchEnd q s := rfl
@[simp] theorem exec_powerGateTimeout (c : CoreId) (s : State) : exec (.powerGateTimeout c) s = execPowerGateTimeout c s := rfl
@[simp] theorem exec_smbaddrSample (addr : Fin 8) (s : State) : exec (.smbaddrSample addr) s = execSmbaddrSample addr s := rfl
@[simp] theorem exec_smbusIdent (s : State) : exec (.smbusIdent) s = execSmbusIdent s := rfl
@[simp] theorem exec_smbusStatus (s : State) : exec (.smbusStatus) s = execSmbusStatus s := rfl
@[simp] theorem exec_smbusTemp (s : State) : exec (.smbusTemp) s = execSmbusTemp s := rfl
@[simp] theorem exec_smbusVin (s : State) : exec (.smbusVin) s = execSmbusVin s := rfl
@[simp] theorem exec_smbusIin (s : State) : exec (.smbusIin) s = execSmbusIin s := rfl
@[simp] theorem exec_smbusLastrst (s : State) : exec (.smbusLastrst) s = execSmbusLastrst s := rfl
@[simp] theorem exec_bypass (s : State) : exec (.bypass) s = execBypass s := rfl
@[simp] theorem exec_idcode (s : State) : exec (.idcode) s = execIdcode s := rfl
@[simp] theorem exec_samplePreload (s : State) : exec (.samplePreload) s = execSamplePreload s := rfl
@[simp] theorem exec_extest (s : State) : exec (.extest) s = execExtest s := rfl
@[simp] theorem exec_extestPulse (s : State) : exec (.extestPulse) s = execExtestPulse s := rfl
@[simp] theorem exec_extestTrain (s : State) : exec (.extestTrain) s = execExtestTrain s := rfl
@[simp] theorem exec_highz (s : State) : exec (.highz) s = execHighz s := rfl
@[simp] theorem exec_clamp (s : State) : exec (.clamp) s = execClamp s := rfl
@[simp] theorem exec_readClear (r : RegAt) (s : State) : exec (.readClear r) s = execReadClear r s := rfl
@[simp] theorem exec_registerWrite (r : RegAt) (value : Word) (console : Bool) (s : State) : exec (.registerWrite r value console) s = execRegisterWrite r value console s := rfl
@[simp] theorem exec_quireCmp (q : QuireId) (line : LineAddr) (s : State) : exec (.quireCmp q line) s = execQuireCmp q line s := rfl
@[simp] theorem exec_partnerLeave (l : LinkId) (s : State) : exec (.partnerLeave l) s = execPartnerLeave l s := rfl

end Sys2Proof.Machine
end

