-- ==== Sys2Proof/Laws/State.lean ====
section
/-! SUPPORT. One lemma per field per update of the state, true by unfolding, so that no proof unfolds a record update; the reads of
each update; and the laws of the sparse table: a read after a write, and the canonical form kept. -/

namespace Sys2Proof

/-- What a table without a key reads. -/
theorem Tab.get_erase {α : Type} (d : Nat → α) (t : Tab α) (k j : Nat) :
    Tab.get d (Tab.erase t k) j = if j = k then d k else Tab.get d t j := by
  fun_induction Tab.erase t k <;> grind [Tab.get]

/-- What a table with an entry put in reads, where it lacked the key. -/
theorem Tab.get_insert {α : Type} (d : Nat → α) (k : Nat) (v : α) (t : Tab α) (j : Nat) (h : ∀ x ∈ t, x.1 ≠ k) :
    Tab.get d (Tab.insert k v t) j = if j = k then v else Tab.get d t j := by
  fun_induction Tab.insert k v t with
  | case1 => simp only [Tab.get, eq_comm]
  | case2 k' v' t hlt => simp only [Tab.get, eq_comm]
  | case3 k' v' t hge ih =>
    have hk := h (k', v') List.mem_cons_self
    have ih := ih fun x hx => h x (List.mem_cons_of_mem _ hx)
    simp only [Tab.get, ih]
    grind

/-- The entries left when a key is dropped. -/
theorem Tab.mem_erase {α : Type} (t : Tab α) (k : Nat) (x : Nat × α) : x ∈ Tab.erase t k ↔ x ∈ t ∧ x.1 ≠ k := by
  fun_induction Tab.erase t k <;> grind

/-- The entries when one is put in. -/
theorem Tab.mem_insert {α : Type} (k : Nat) (v : α) (t : Tab α) (x : Nat × α) : x ∈ Tab.insert k v t ↔ x = (k, v) ∨ x ∈ t := by
  fun_induction Tab.insert k v t <;> grind

/-- What a written table reads: the value at its key, and every other key as before. -/
theorem Tab.get_set {α : Type} [DecidableEq α] (d : Nat → α) (t : Tab α) (k j : Nat) (v : α) :
    Tab.get d (Tab.set d t k v) j = if j = k then v else Tab.get d t j := by
  have hk : ∀ x ∈ Tab.erase t k, x.1 ≠ k := fun x hx => ((Tab.mem_erase t k x).1 hx).2
  by_cases hv : v = d k
  · rw [Tab.set, if_pos hv, Tab.get_erase, hv]
  · rw [Tab.set, if_neg hv, Tab.get_insert d k v _ j hk, Tab.get_erase]
    grind

/-- A read after a write to the same key gives the value written. -/
@[simp] theorem Tab.get_set_self {α : Type} [DecidableEq α] (d : Nat → α) (t : Tab α) (k : Nat) (v : α) :
    Tab.get d (Tab.set d t k v) k = v := by rw [Tab.get_set, if_pos rfl]

/-- A write leaves every other key alone. -/
theorem Tab.get_set_ne {α : Type} [DecidableEq α] (d : Nat → α) (t : Tab α) {k j : Nat} (v : α) (h : j ≠ k) :
    Tab.get d (Tab.set d t k v) j = Tab.get d t j := by rw [Tab.get_set, if_neg h]

/-- The canonical form by its head. -/
theorem Tab.wf_cons {α : Type} [DecidableEq α] (d : Nat → α) (k : Nat) (v : α) (t : Tab α) :
    Tab.wf d ((k, v) :: t) = true ↔ v ≠ d k ∧ (∀ x ∈ t, k < x.1) ∧ Tab.wf d t = true := by
  induction t generalizing k v with
  | nil => simp [Tab.wf]
  | cons a t ih =>
    have ha := ih a.1 a.2
    simp only [Tab.wf, Bool.and_eq_true, decide_eq_true_eq, List.mem_cons, forall_eq_or_imp]
    constructor
    · exact fun h => ⟨h.1.1, ⟨h.1.2, fun x hx => h.1.2.trans ((ha.1 h.2).2.1 x hx)⟩, h.2⟩
    · exact fun h => ⟨⟨h.1, h.2.1.1⟩, h.2.2⟩

/-- Dropping a key keeps the canonical form. -/
theorem Tab.wf_erase {α : Type} [DecidableEq α] (d : Nat → α) (t : Tab α) (k : Nat) (h : Tab.wf d t = true) :
    Tab.wf d (Tab.erase t k) = true := by
  fun_induction Tab.erase t k <;> grind [Tab.wf_cons, Tab.mem_erase]

/-- Putting an entry in a table that lacks its key keeps the canonical form. -/
theorem Tab.wf_insert {α : Type} [DecidableEq α] (d : Nat → α) (t : Tab α) (k : Nat) (v : α) (hv : v ≠ d k)
    (hk : ∀ x ∈ t, x.1 ≠ k) (h : Tab.wf d t = true) : Tab.wf d (Tab.insert k v t) = true := by
  fun_induction Tab.insert k v t with
  | case1 => simpa [Tab.wf] using hv
  | case2 k' v' t hlt =>
    rw [Tab.wf_cons] at h ⊢
    rw [Tab.wf_cons]
    grind
  | case3 k' v' t hge ih =>
    rw [Tab.wf_cons] at h ⊢
    refine ⟨h.1, fun x hx => ?_, ih (fun x hx => hk x (List.mem_cons_of_mem _ hx)) h.2.2⟩
    rcases (Tab.mem_insert k v t x).1 hx with hx | hx
    · have := hk (k', v') List.mem_cons_self
      rw [hx]
      omega
    · exact h.2.1 x hx

/-- A write keeps the canonical form. -/
theorem Tab.wf_set {α : Type} [DecidableEq α] (d : Nat → α) (t : Tab α) (k : Nat) (v : α) (h : Tab.wf d t = true) :
    Tab.wf d (Tab.set d t k v) = true := by
  by_cases hv : v = d k
  · rw [Tab.set, if_pos hv]
    exact Tab.wf_erase d t k h
  · rw [Tab.set, if_neg hv]
    exact Tab.wf_insert d _ k v hv (fun x hx => ((Tab.mem_erase t k x).1 hx).2) (Tab.wf_erase d t k h)

end Sys2Proof

namespace Sys2Proof.Machine

open Sys2Proof

/-! A named update leaves every field of the state but its own: one lemma a field. -/

@[simp] theorem State.setCore_pending (s : State) (c : Nat) (k : Core) : (s.setCore c k).pending = s.pending := rfl
@[simp] theorem State.setCore_clock (s : State) (c : Nat) (k : Core) : (s.setCore c k).clock = s.clock := rfl
@[simp] theorem State.setCore_regs (s : State) (c : Nat) (k : Core) : (s.setCore c k).regs = s.regs := rfl
@[simp] theorem State.setCore_shadow (s : State) (c : Nat) (k : Core) : (s.setCore c k).shadow = s.shadow := rfl
@[simp] theorem State.setCore_bEff (s : State) (c : Nat) (k : Core) : (s.setCore c k).bEff = s.bEff := rfl
@[simp] theorem State.setCore_qlines (s : State) (c : Nat) (k : Core) : (s.setCore c k).qlines = s.qlines := rfl
@[simp] theorem State.setCore_dir (s : State) (c : Nat) (k : Core) : (s.setCore c k).dir = s.dir := rfl
@[simp] theorem State.setCore_l3 (s : State) (c : Nat) (k : Core) : (s.setCore c k).l3 = s.l3 := rfl
@[simp] theorem State.setCore_homes (s : State) (c : Nat) (k : Core) : (s.setCore c k).homes = s.homes := rfl
@[simp] theorem State.setCore_dram (s : State) (c : Nat) (k : Core) : (s.setCore c k).dram = s.dram := rfl
@[simp] theorem State.setCore_poisoned (s : State) (c : Nat) (k : Core) : (s.setCore c k).poisoned = s.poisoned := rfl
@[simp] theorem State.setCore_lastOwner (s : State) (c : Nat) (k : Core) : (s.setCore c k).lastOwner = s.lastOwner := rfl
@[simp] theorem State.setCore_order64 (s : State) (c : Nat) (k : Core) : (s.setCore c k).order64 = s.order64 := rfl
@[simp] theorem State.setCore_l2Wait (s : State) (c : Nat) (k : Core) : (s.setCore c k).l2Wait = s.l2Wait := rfl
@[simp] theorem State.setCore_locks (s : State) (c : Nat) (k : Core) : (s.setCore c k).locks = s.locks := rfl
@[simp] theorem State.setCore_heldEn (s : State) (c : Nat) (k : Core) : (s.setCore c k).heldEn = s.heldEn := rfl
@[simp] theorem State.setCore_arrays (s : State) (c : Nat) (k : Core) : (s.setCore c k).arrays = s.arrays := rfl
@[simp] theorem State.setCore_openReqs (s : State) (c : Nat) (k : Core) : (s.setCore c k).openReqs = s.openReqs := rfl
@[simp] theorem State.setCore_sheets (s : State) (c : Nat) (k : Core) : (s.setCore c k).sheets = s.sheets := rfl
@[simp] theorem State.setCore_frozen (s : State) (c : Nat) (k : Core) : (s.setCore c k).frozen = s.frozen := rfl
@[simp] theorem State.setCore_windows (s : State) (c : Nat) (k : Core) : (s.setCore c k).windows = s.windows := rfl
@[simp] theorem State.setCore_easel (s : State) (c : Nat) (k : Core) : (s.setCore c k).easel = s.easel := rfl
@[simp] theorem State.setCore_keptBanks (s : State) (c : Nat) (k : Core) : (s.setCore c k).keptBanks = s.keptBanks := rfl
@[simp] theorem State.setCore_easelRot (s : State) (c : Nat) (k : Core) : (s.setCore c k).easelRot = s.easelRot := rfl
@[simp] theorem State.setCore_easelWait (s : State) (c : Nat) (k : Core) : (s.setCore c k).easelWait = s.easelWait := rfl
@[simp] theorem State.setCore_memctl (s : State) (c : Nat) (k : Core) : (s.setCore c k).memctl = s.memctl := rfl
@[simp] theorem State.setCore_vatWait (s : State) (c : Nat) (k : Core) : (s.setCore c k).vatWait = s.vatWait := rfl
@[simp] theorem State.setCore_xch (s : State) (c : Nat) (k : Core) : (s.setCore c k).xch = s.xch := rfl
@[simp] theorem State.setCore_moves (s : State) (c : Nat) (k : Core) : (s.setCore c k).moves = s.moves := rfl
@[simp] theorem State.setCore_links (s : State) (c : Nat) (k : Core) : (s.setCore c k).links = s.links := rfl
@[simp] theorem State.setCore_recTabs (s : State) (c : Nat) (k : Core) : (s.setCore c k).recTabs = s.recTabs := rfl
@[simp] theorem State.setCore_calq (s : State) (c : Nat) (k : Core) : (s.setCore c k).calq = s.calq := rfl
@[simp] theorem State.setCore_calSaved (s : State) (c : Nat) (k : Core) : (s.setCore c k).calSaved = s.calSaved := rfl
@[simp] theorem State.setCore_octRem (s : State) (c : Nat) (k : Core) : (s.setCore c k).octRem = s.octRem := rfl
@[simp] theorem State.setCore_calSlot (s : State) (c : Nat) (k : Core) : (s.setCore c k).calSlot = s.calSlot := rfl
@[simp] theorem State.setCore_varq (s : State) (c : Nat) (k : Core) : (s.setCore c k).varq = s.varq := rfl
@[simp] theorem State.setCore_varSlot (s : State) (c : Nat) (k : Core) : (s.setCore c k).varSlot = s.varSlot := rfl
@[simp] theorem State.setCore_keys (s : State) (c : Nat) (k : Core) : (s.setCore c k).keys = s.keys := rfl
@[simp] theorem State.setCore_pcicfg (s : State) (c : Nat) (k : Core) : (s.setCore c k).pcicfg = s.pcicfg := rfl
@[simp] theorem State.setCore_bar0 (s : State) (c : Nat) (k : Core) : (s.setCore c k).bar0 = s.bar0 := rfl
@[simp] theorem State.setCore_endpt (s : State) (c : Nat) (k : Core) : (s.setCore c k).endpt = s.endpt := rfl
@[simp] theorem State.setCore_relHeld (s : State) (c : Nat) (k : Core) : (s.setCore c k).relHeld = s.relHeld := rfl
@[simp] theorem State.setCore_taken (s : State) (c : Nat) (k : Core) : (s.setCore c k).taken = s.taken := rfl
@[simp] theorem State.setCore_conVer (s : State) (c : Nat) (k : Core) : (s.setCore c k).conVer = s.conVer := rfl
@[simp] theorem State.setCore_nonce (s : State) (c : Nat) (k : Core) : (s.setCore c k).nonce = s.nonce := rfl
@[simp] theorem State.setCore_longOps (s : State) (c : Nat) (k : Core) : (s.setCore c k).longOps = s.longOps := rfl
@[simp] theorem State.setCore_portHeld (s : State) (c : Nat) (k : Core) : (s.setCore c k).portHeld = s.portHeld := rfl
@[simp] theorem State.setCore_heldSeq (s : State) (c : Nat) (k : Core) : (s.setCore c k).heldSeq = s.heldSeq := rfl
@[simp] theorem State.setCore_waits (s : State) (c : Nat) (k : Core) : (s.setCore c k).waits = s.waits := rfl
@[simp] theorem State.setCore_assign (s : State) (c : Nat) (k : Core) : (s.setCore c k).assign = s.assign := rfl
@[simp] theorem State.setCore_panels (s : State) (c : Nat) (k : Core) : (s.setCore c k).panels = s.panels := rfl
@[simp] theorem State.setCore_heldFw (s : State) (c : Nat) (k : Core) : (s.setCore c k).heldFw = s.heldFw := rfl
@[simp] theorem State.setCore_records (s : State) (c : Nat) (k : Core) : (s.setCore c k).records = s.records := rfl
@[simp] theorem State.setCore_commit (s : State) (c : Nat) (k : Core) : (s.setCore c k).commit = s.commit := rfl
@[simp] theorem State.setCore_session (s : State) (c : Nat) (k : Core) : (s.setCore c k).session = s.session := rfl
@[simp] theorem State.setCore_webDown (s : State) (c : Nat) (k : Core) : (s.setCore c k).webDown = s.webDown := rfl
@[simp] theorem State.setCore_spareOf (s : State) (c : Nat) (k : Core) : (s.setCore c k).spareOf = s.spareOf := rfl
@[simp] theorem State.setCore_inReset (s : State) (c : Nat) (k : Core) : (s.setCore c k).inReset = s.inReset := rfl
@[simp] theorem State.setCore_shadows (s : State) (c : Nat) (k : Core) : (s.setCore c k).shadows = s.shadows := rfl
@[simp] theorem State.setCore_injWait (s : State) (c : Nat) (k : Core) : (s.setCore c k).injWait = s.injWait := rfl
@[simp] theorem State.setCore_outvotes (s : State) (c : Nat) (k : Core) : (s.setCore c k).outvotes = s.outvotes := rfl
@[simp] theorem State.setCore_restarted (s : State) (c : Nat) (k : Core) : (s.setCore c k).restarted = s.restarted := rfl
@[simp] theorem State.setCore_carried (s : State) (c : Nat) (k : Core) : (s.setCore c k).carried = s.carried := rfl
@[simp] theorem State.setCore_steps (s : State) (c : Nat) (k : Core) : (s.setCore c k).steps = s.steps := rfl
@[simp] theorem State.setCore_granted (s : State) (c : Nat) (k : Core) : (s.setCore c k).granted = s.granted := rfl
@[simp] theorem State.setCore_reserve (s : State) (c : Nat) (k : Core) : (s.setCore c k).reserve = s.reserve := rfl
@[simp] theorem State.setCore_warned (s : State) (c : Nat) (k : Core) : (s.setCore c k).warned = s.warned := rfl
@[simp] theorem State.setCore_stepHeld (s : State) (c : Nat) (k : Core) : (s.setCore c k).stepHeld = s.stepHeld := rfl
@[simp] theorem State.setCore_stepGoing (s : State) (c : Nat) (k : Core) : (s.setCore c k).stepGoing = s.stepGoing := rfl
@[simp] theorem State.setCore_stretched (s : State) (c : Nat) (k : Core) : (s.setCore c k).stretched = s.stretched := rfl
@[simp] theorem State.setCore_forced (s : State) (c : Nat) (k : Core) : (s.setCore c k).forced = s.forced := rfl
@[simp] theorem State.setCore_frameSeq (s : State) (c : Nat) (k : Core) : (s.setCore c k).frameSeq = s.frameSeq := rfl
@[simp] theorem State.setCore_pins (s : State) (c : Nat) (k : Core) : (s.setCore c k).pins = s.pins := rfl
@[simp] theorem State.setCore_smbAddr (s : State) (c : Nat) (k : Core) : (s.setCore c k).smbAddr = s.smbAddr := rfl
@[simp] theorem State.setCore_jtagIr (s : State) (c : Nat) (k : Core) : (s.setCore c k).jtagIr = s.jtagIr := rfl
@[simp] theorem State.setCore_phase (s : State) (c : Nat) (k : Core) : (s.setCore c k).phase = s.phase := rfl
@[simp] theorem State.setCore_holdFor (s : State) (c : Nat) (k : Core) : (s.setCore c k).holdFor = s.holdFor := rfl
@[simp] theorem State.setCore_rstArm (s : State) (c : Nat) (k : Core) : (s.setCore c k).rstArm = s.rstArm := rfl
@[simp] theorem State.setCore_staging (s : State) (c : Nat) (k : Core) : (s.setCore c k).staging = s.staging := rfl
@[simp] theorem State.setCore_stageHdr (s : State) (c : Nat) (k : Core) : (s.setCore c k).stageHdr = s.stageHdr := rfl
@[simp] theorem State.setCore_surge (s : State) (c : Nat) (k : Core) : (s.setCore c k).surge = s.surge := rfl
@[simp] theorem State.setCore_sent (s : State) (c : Nat) (k : Core) : (s.setCore c k).sent = s.sent := rfl
@[simp] theorem State.setCore_reacts (s : State) (c : Nat) (k : Core) : (s.setCore c k).reacts = s.reacts := rfl
@[simp] theorem State.setCore_freeCtr (s : State) (c : Nat) (k : Core) : (s.setCore c k).freeCtr = s.freeCtr := rfl

@[simp] theorem State.setReg_pending (s : State) (b : Blk) (o : Nat) (v : Word) : (s.setReg b o v).pending = s.pending := by rw [State.setReg]
@[simp] theorem State.setReg_clock (s : State) (b : Blk) (o : Nat) (v : Word) : (s.setReg b o v).clock = s.clock := by rw [State.setReg]
@[simp] theorem State.setReg_cores (s : State) (b : Blk) (o : Nat) (v : Word) : (s.setReg b o v).cores = s.cores := by rw [State.setReg]
@[simp] theorem State.setReg_shadow (s : State) (b : Blk) (o : Nat) (v : Word) : (s.setReg b o v).shadow = s.shadow := by rw [State.setReg]
@[simp] theorem State.setReg_bEff (s : State) (b : Blk) (o : Nat) (v : Word) : (s.setReg b o v).bEff = s.bEff := by rw [State.setReg]
@[simp] theorem State.setReg_qlines (s : State) (b : Blk) (o : Nat) (v : Word) : (s.setReg b o v).qlines = s.qlines := by rw [State.setReg]
@[simp] theorem State.setReg_dir (s : State) (b : Blk) (o : Nat) (v : Word) : (s.setReg b o v).dir = s.dir := by rw [State.setReg]
@[simp] theorem State.setReg_l3 (s : State) (b : Blk) (o : Nat) (v : Word) : (s.setReg b o v).l3 = s.l3 := by rw [State.setReg]
@[simp] theorem State.setReg_homes (s : State) (b : Blk) (o : Nat) (v : Word) : (s.setReg b o v).homes = s.homes := by rw [State.setReg]
@[simp] theorem State.setReg_dram (s : State) (b : Blk) (o : Nat) (v : Word) : (s.setReg b o v).dram = s.dram := by rw [State.setReg]
@[simp] theorem State.setReg_poisoned (s : State) (b : Blk) (o : Nat) (v : Word) : (s.setReg b o v).poisoned = s.poisoned := by rw [State.setReg]
@[simp] theorem State.setReg_lastOwner (s : State) (b : Blk) (o : Nat) (v : Word) : (s.setReg b o v).lastOwner = s.lastOwner := by rw [State.setReg]
@[simp] theorem State.setReg_order64 (s : State) (b : Blk) (o : Nat) (v : Word) : (s.setReg b o v).order64 = s.order64 := by rw [State.setReg]
@[simp] theorem State.setReg_l2Wait (s : State) (b : Blk) (o : Nat) (v : Word) : (s.setReg b o v).l2Wait = s.l2Wait := by rw [State.setReg]
@[simp] theorem State.setReg_locks (s : State) (b : Blk) (o : Nat) (v : Word) : (s.setReg b o v).locks = s.locks := by rw [State.setReg]
@[simp] theorem State.setReg_heldEn (s : State) (b : Blk) (o : Nat) (v : Word) : (s.setReg b o v).heldEn = s.heldEn := by rw [State.setReg]
@[simp] theorem State.setReg_arrays (s : State) (b : Blk) (o : Nat) (v : Word) : (s.setReg b o v).arrays = s.arrays := by rw [State.setReg]
@[simp] theorem State.setReg_openReqs (s : State) (b : Blk) (o : Nat) (v : Word) : (s.setReg b o v).openReqs = s.openReqs := by rw [State.setReg]
@[simp] theorem State.setReg_sheets (s : State) (b : Blk) (o : Nat) (v : Word) : (s.setReg b o v).sheets = s.sheets := by rw [State.setReg]
@[simp] theorem State.setReg_frozen (s : State) (b : Blk) (o : Nat) (v : Word) : (s.setReg b o v).frozen = s.frozen := by rw [State.setReg]
@[simp] theorem State.setReg_windows (s : State) (b : Blk) (o : Nat) (v : Word) : (s.setReg b o v).windows = s.windows := by rw [State.setReg]
@[simp] theorem State.setReg_easel (s : State) (b : Blk) (o : Nat) (v : Word) : (s.setReg b o v).easel = s.easel := by rw [State.setReg]
@[simp] theorem State.setReg_keptBanks (s : State) (b : Blk) (o : Nat) (v : Word) : (s.setReg b o v).keptBanks = s.keptBanks := by rw [State.setReg]
@[simp] theorem State.setReg_easelRot (s : State) (b : Blk) (o : Nat) (v : Word) : (s.setReg b o v).easelRot = s.easelRot := by rw [State.setReg]
@[simp] theorem State.setReg_easelWait (s : State) (b : Blk) (o : Nat) (v : Word) : (s.setReg b o v).easelWait = s.easelWait := by rw [State.setReg]
@[simp] theorem State.setReg_memctl (s : State) (b : Blk) (o : Nat) (v : Word) : (s.setReg b o v).memctl = s.memctl := by rw [State.setReg]
@[simp] theorem State.setReg_vatWait (s : State) (b : Blk) (o : Nat) (v : Word) : (s.setReg b o v).vatWait = s.vatWait := by rw [State.setReg]
@[simp] theorem State.setReg_xch (s : State) (b : Blk) (o : Nat) (v : Word) : (s.setReg b o v).xch = s.xch := by rw [State.setReg]
@[simp] theorem State.setReg_moves (s : State) (b : Blk) (o : Nat) (v : Word) : (s.setReg b o v).moves = s.moves := by rw [State.setReg]
@[simp] theorem State.setReg_links (s : State) (b : Blk) (o : Nat) (v : Word) : (s.setReg b o v).links = s.links := by rw [State.setReg]
@[simp] theorem State.setReg_recTabs (s : State) (b : Blk) (o : Nat) (v : Word) : (s.setReg b o v).recTabs = s.recTabs := by rw [State.setReg]
@[simp] theorem State.setReg_calq (s : State) (b : Blk) (o : Nat) (v : Word) : (s.setReg b o v).calq = s.calq := by rw [State.setReg]
@[simp] theorem State.setReg_calSaved (s : State) (b : Blk) (o : Nat) (v : Word) : (s.setReg b o v).calSaved = s.calSaved := by rw [State.setReg]
@[simp] theorem State.setReg_octRem (s : State) (b : Blk) (o : Nat) (v : Word) : (s.setReg b o v).octRem = s.octRem := by rw [State.setReg]
@[simp] theorem State.setReg_calSlot (s : State) (b : Blk) (o : Nat) (v : Word) : (s.setReg b o v).calSlot = s.calSlot := by rw [State.setReg]
@[simp] theorem State.setReg_varq (s : State) (b : Blk) (o : Nat) (v : Word) : (s.setReg b o v).varq = s.varq := by rw [State.setReg]
@[simp] theorem State.setReg_varSlot (s : State) (b : Blk) (o : Nat) (v : Word) : (s.setReg b o v).varSlot = s.varSlot := by rw [State.setReg]
@[simp] theorem State.setReg_keys (s : State) (b : Blk) (o : Nat) (v : Word) : (s.setReg b o v).keys = s.keys := by rw [State.setReg]
@[simp] theorem State.setReg_pcicfg (s : State) (b : Blk) (o : Nat) (v : Word) : (s.setReg b o v).pcicfg = s.pcicfg := by rw [State.setReg]
@[simp] theorem State.setReg_bar0 (s : State) (b : Blk) (o : Nat) (v : Word) : (s.setReg b o v).bar0 = s.bar0 := by rw [State.setReg]
@[simp] theorem State.setReg_endpt (s : State) (b : Blk) (o : Nat) (v : Word) : (s.setReg b o v).endpt = s.endpt := by rw [State.setReg]
@[simp] theorem State.setReg_relHeld (s : State) (b : Blk) (o : Nat) (v : Word) : (s.setReg b o v).relHeld = s.relHeld := by rw [State.setReg]
@[simp] theorem State.setReg_taken (s : State) (b : Blk) (o : Nat) (v : Word) : (s.setReg b o v).taken = s.taken := by rw [State.setReg]
@[simp] theorem State.setReg_conVer (s : State) (b : Blk) (o : Nat) (v : Word) : (s.setReg b o v).conVer = s.conVer := by rw [State.setReg]
@[simp] theorem State.setReg_nonce (s : State) (b : Blk) (o : Nat) (v : Word) : (s.setReg b o v).nonce = s.nonce := by rw [State.setReg]
@[simp] theorem State.setReg_longOps (s : State) (b : Blk) (o : Nat) (v : Word) : (s.setReg b o v).longOps = s.longOps := by rw [State.setReg]
@[simp] theorem State.setReg_portHeld (s : State) (b : Blk) (o : Nat) (v : Word) : (s.setReg b o v).portHeld = s.portHeld := by rw [State.setReg]
@[simp] theorem State.setReg_heldSeq (s : State) (b : Blk) (o : Nat) (v : Word) : (s.setReg b o v).heldSeq = s.heldSeq := by rw [State.setReg]
@[simp] theorem State.setReg_waits (s : State) (b : Blk) (o : Nat) (v : Word) : (s.setReg b o v).waits = s.waits := by rw [State.setReg]
@[simp] theorem State.setReg_assign (s : State) (b : Blk) (o : Nat) (v : Word) : (s.setReg b o v).assign = s.assign := by rw [State.setReg]
@[simp] theorem State.setReg_panels (s : State) (b : Blk) (o : Nat) (v : Word) : (s.setReg b o v).panels = s.panels := by rw [State.setReg]
@[simp] theorem State.setReg_heldFw (s : State) (b : Blk) (o : Nat) (v : Word) : (s.setReg b o v).heldFw = s.heldFw := by rw [State.setReg]
@[simp] theorem State.setReg_records (s : State) (b : Blk) (o : Nat) (v : Word) : (s.setReg b o v).records = s.records := by rw [State.setReg]
@[simp] theorem State.setReg_commit (s : State) (b : Blk) (o : Nat) (v : Word) : (s.setReg b o v).commit = s.commit := by rw [State.setReg]
@[simp] theorem State.setReg_session (s : State) (b : Blk) (o : Nat) (v : Word) : (s.setReg b o v).session = s.session := by rw [State.setReg]
@[simp] theorem State.setReg_webDown (s : State) (b : Blk) (o : Nat) (v : Word) : (s.setReg b o v).webDown = s.webDown := by rw [State.setReg]
@[simp] theorem State.setReg_spareOf (s : State) (b : Blk) (o : Nat) (v : Word) : (s.setReg b o v).spareOf = s.spareOf := by rw [State.setReg]
@[simp] theorem State.setReg_inReset (s : State) (b : Blk) (o : Nat) (v : Word) : (s.setReg b o v).inReset = s.inReset := by rw [State.setReg]
@[simp] theorem State.setReg_shadows (s : State) (b : Blk) (o : Nat) (v : Word) : (s.setReg b o v).shadows = s.shadows := by rw [State.setReg]
@[simp] theorem State.setReg_injWait (s : State) (b : Blk) (o : Nat) (v : Word) : (s.setReg b o v).injWait = s.injWait := by rw [State.setReg]
@[simp] theorem State.setReg_outvotes (s : State) (b : Blk) (o : Nat) (v : Word) : (s.setReg b o v).outvotes = s.outvotes := by rw [State.setReg]
@[simp] theorem State.setReg_restarted (s : State) (b : Blk) (o : Nat) (v : Word) : (s.setReg b o v).restarted = s.restarted := by rw [State.setReg]
@[simp] theorem State.setReg_carried (s : State) (b : Blk) (o : Nat) (v : Word) : (s.setReg b o v).carried = s.carried := by rw [State.setReg]
@[simp] theorem State.setReg_steps (s : State) (b : Blk) (o : Nat) (v : Word) : (s.setReg b o v).steps = s.steps := by rw [State.setReg]
@[simp] theorem State.setReg_granted (s : State) (b : Blk) (o : Nat) (v : Word) : (s.setReg b o v).granted = s.granted := by rw [State.setReg]
@[simp] theorem State.setReg_reserve (s : State) (b : Blk) (o : Nat) (v : Word) : (s.setReg b o v).reserve = s.reserve := by rw [State.setReg]
@[simp] theorem State.setReg_warned (s : State) (b : Blk) (o : Nat) (v : Word) : (s.setReg b o v).warned = s.warned := by rw [State.setReg]
@[simp] theorem State.setReg_stepHeld (s : State) (b : Blk) (o : Nat) (v : Word) : (s.setReg b o v).stepHeld = s.stepHeld := by rw [State.setReg]
@[simp] theorem State.setReg_stepGoing (s : State) (b : Blk) (o : Nat) (v : Word) : (s.setReg b o v).stepGoing = s.stepGoing := by rw [State.setReg]
@[simp] theorem State.setReg_stretched (s : State) (b : Blk) (o : Nat) (v : Word) : (s.setReg b o v).stretched = s.stretched := by rw [State.setReg]
@[simp] theorem State.setReg_forced (s : State) (b : Blk) (o : Nat) (v : Word) : (s.setReg b o v).forced = s.forced := by rw [State.setReg]
@[simp] theorem State.setReg_frameSeq (s : State) (b : Blk) (o : Nat) (v : Word) : (s.setReg b o v).frameSeq = s.frameSeq := by rw [State.setReg]
@[simp] theorem State.setReg_pins (s : State) (b : Blk) (o : Nat) (v : Word) : (s.setReg b o v).pins = s.pins := by rw [State.setReg]
@[simp] theorem State.setReg_smbAddr (s : State) (b : Blk) (o : Nat) (v : Word) : (s.setReg b o v).smbAddr = s.smbAddr := by rw [State.setReg]
@[simp] theorem State.setReg_jtagIr (s : State) (b : Blk) (o : Nat) (v : Word) : (s.setReg b o v).jtagIr = s.jtagIr := by rw [State.setReg]
@[simp] theorem State.setReg_phase (s : State) (b : Blk) (o : Nat) (v : Word) : (s.setReg b o v).phase = s.phase := by rw [State.setReg]
@[simp] theorem State.setReg_holdFor (s : State) (b : Blk) (o : Nat) (v : Word) : (s.setReg b o v).holdFor = s.holdFor := by rw [State.setReg]
@[simp] theorem State.setReg_rstArm (s : State) (b : Blk) (o : Nat) (v : Word) : (s.setReg b o v).rstArm = s.rstArm := by rw [State.setReg]
@[simp] theorem State.setReg_staging (s : State) (b : Blk) (o : Nat) (v : Word) : (s.setReg b o v).staging = s.staging := by rw [State.setReg]
@[simp] theorem State.setReg_stageHdr (s : State) (b : Blk) (o : Nat) (v : Word) : (s.setReg b o v).stageHdr = s.stageHdr := by rw [State.setReg]
@[simp] theorem State.setReg_surge (s : State) (b : Blk) (o : Nat) (v : Word) : (s.setReg b o v).surge = s.surge := by rw [State.setReg]
@[simp] theorem State.setReg_sent (s : State) (b : Blk) (o : Nat) (v : Word) : (s.setReg b o v).sent = s.sent := by rw [State.setReg]
@[simp] theorem State.setReg_reacts (s : State) (b : Blk) (o : Nat) (v : Word) : (s.setReg b o v).reacts = s.reacts := by rw [State.setReg]
@[simp] theorem State.setReg_freeCtr (s : State) (b : Blk) (o : Nat) (v : Word) : (s.setReg b o v).freeCtr = s.freeCtr := by rw [State.setReg]

@[simp] theorem State.setQline_pending (s : State) (q l : Nat) (x : QLine) : (s.setQline q l x).pending = s.pending := rfl
@[simp] theorem State.setQline_clock (s : State) (q l : Nat) (x : QLine) : (s.setQline q l x).clock = s.clock := rfl
@[simp] theorem State.setQline_cores (s : State) (q l : Nat) (x : QLine) : (s.setQline q l x).cores = s.cores := rfl
@[simp] theorem State.setQline_regs (s : State) (q l : Nat) (x : QLine) : (s.setQline q l x).regs = s.regs := rfl
@[simp] theorem State.setQline_shadow (s : State) (q l : Nat) (x : QLine) : (s.setQline q l x).shadow = s.shadow := rfl
@[simp] theorem State.setQline_bEff (s : State) (q l : Nat) (x : QLine) : (s.setQline q l x).bEff = s.bEff := rfl
@[simp] theorem State.setQline_dir (s : State) (q l : Nat) (x : QLine) : (s.setQline q l x).dir = s.dir := rfl
@[simp] theorem State.setQline_l3 (s : State) (q l : Nat) (x : QLine) : (s.setQline q l x).l3 = s.l3 := rfl
@[simp] theorem State.setQline_homes (s : State) (q l : Nat) (x : QLine) : (s.setQline q l x).homes = s.homes := rfl
@[simp] theorem State.setQline_dram (s : State) (q l : Nat) (x : QLine) : (s.setQline q l x).dram = s.dram := rfl
@[simp] theorem State.setQline_poisoned (s : State) (q l : Nat) (x : QLine) : (s.setQline q l x).poisoned = s.poisoned := rfl
@[simp] theorem State.setQline_lastOwner (s : State) (q l : Nat) (x : QLine) : (s.setQline q l x).lastOwner = s.lastOwner := rfl
@[simp] theorem State.setQline_order64 (s : State) (q l : Nat) (x : QLine) : (s.setQline q l x).order64 = s.order64 := rfl
@[simp] theorem State.setQline_l2Wait (s : State) (q l : Nat) (x : QLine) : (s.setQline q l x).l2Wait = s.l2Wait := rfl
@[simp] theorem State.setQline_locks (s : State) (q l : Nat) (x : QLine) : (s.setQline q l x).locks = s.locks := rfl
@[simp] theorem State.setQline_heldEn (s : State) (q l : Nat) (x : QLine) : (s.setQline q l x).heldEn = s.heldEn := rfl
@[simp] theorem State.setQline_arrays (s : State) (q l : Nat) (x : QLine) : (s.setQline q l x).arrays = s.arrays := rfl
@[simp] theorem State.setQline_openReqs (s : State) (q l : Nat) (x : QLine) : (s.setQline q l x).openReqs = s.openReqs := rfl
@[simp] theorem State.setQline_sheets (s : State) (q l : Nat) (x : QLine) : (s.setQline q l x).sheets = s.sheets := rfl
@[simp] theorem State.setQline_frozen (s : State) (q l : Nat) (x : QLine) : (s.setQline q l x).frozen = s.frozen := rfl
@[simp] theorem State.setQline_windows (s : State) (q l : Nat) (x : QLine) : (s.setQline q l x).windows = s.windows := rfl
@[simp] theorem State.setQline_easel (s : State) (q l : Nat) (x : QLine) : (s.setQline q l x).easel = s.easel := rfl
@[simp] theorem State.setQline_keptBanks (s : State) (q l : Nat) (x : QLine) : (s.setQline q l x).keptBanks = s.keptBanks := rfl
@[simp] theorem State.setQline_easelRot (s : State) (q l : Nat) (x : QLine) : (s.setQline q l x).easelRot = s.easelRot := rfl
@[simp] theorem State.setQline_easelWait (s : State) (q l : Nat) (x : QLine) : (s.setQline q l x).easelWait = s.easelWait := rfl
@[simp] theorem State.setQline_memctl (s : State) (q l : Nat) (x : QLine) : (s.setQline q l x).memctl = s.memctl := rfl
@[simp] theorem State.setQline_vatWait (s : State) (q l : Nat) (x : QLine) : (s.setQline q l x).vatWait = s.vatWait := rfl
@[simp] theorem State.setQline_xch (s : State) (q l : Nat) (x : QLine) : (s.setQline q l x).xch = s.xch := rfl
@[simp] theorem State.setQline_moves (s : State) (q l : Nat) (x : QLine) : (s.setQline q l x).moves = s.moves := rfl
@[simp] theorem State.setQline_links (s : State) (q l : Nat) (x : QLine) : (s.setQline q l x).links = s.links := rfl
@[simp] theorem State.setQline_recTabs (s : State) (q l : Nat) (x : QLine) : (s.setQline q l x).recTabs = s.recTabs := rfl
@[simp] theorem State.setQline_calq (s : State) (q l : Nat) (x : QLine) : (s.setQline q l x).calq = s.calq := rfl
@[simp] theorem State.setQline_calSaved (s : State) (q l : Nat) (x : QLine) : (s.setQline q l x).calSaved = s.calSaved := rfl
@[simp] theorem State.setQline_octRem (s : State) (q l : Nat) (x : QLine) : (s.setQline q l x).octRem = s.octRem := rfl
@[simp] theorem State.setQline_calSlot (s : State) (q l : Nat) (x : QLine) : (s.setQline q l x).calSlot = s.calSlot := rfl
@[simp] theorem State.setQline_varq (s : State) (q l : Nat) (x : QLine) : (s.setQline q l x).varq = s.varq := rfl
@[simp] theorem State.setQline_varSlot (s : State) (q l : Nat) (x : QLine) : (s.setQline q l x).varSlot = s.varSlot := rfl
@[simp] theorem State.setQline_keys (s : State) (q l : Nat) (x : QLine) : (s.setQline q l x).keys = s.keys := rfl
@[simp] theorem State.setQline_pcicfg (s : State) (q l : Nat) (x : QLine) : (s.setQline q l x).pcicfg = s.pcicfg := rfl
@[simp] theorem State.setQline_bar0 (s : State) (q l : Nat) (x : QLine) : (s.setQline q l x).bar0 = s.bar0 := rfl
@[simp] theorem State.setQline_endpt (s : State) (q l : Nat) (x : QLine) : (s.setQline q l x).endpt = s.endpt := rfl
@[simp] theorem State.setQline_relHeld (s : State) (q l : Nat) (x : QLine) : (s.setQline q l x).relHeld = s.relHeld := rfl
@[simp] theorem State.setQline_taken (s : State) (q l : Nat) (x : QLine) : (s.setQline q l x).taken = s.taken := rfl
@[simp] theorem State.setQline_conVer (s : State) (q l : Nat) (x : QLine) : (s.setQline q l x).conVer = s.conVer := rfl
@[simp] theorem State.setQline_nonce (s : State) (q l : Nat) (x : QLine) : (s.setQline q l x).nonce = s.nonce := rfl
@[simp] theorem State.setQline_longOps (s : State) (q l : Nat) (x : QLine) : (s.setQline q l x).longOps = s.longOps := rfl
@[simp] theorem State.setQline_portHeld (s : State) (q l : Nat) (x : QLine) : (s.setQline q l x).portHeld = s.portHeld := rfl
@[simp] theorem State.setQline_heldSeq (s : State) (q l : Nat) (x : QLine) : (s.setQline q l x).heldSeq = s.heldSeq := rfl
@[simp] theorem State.setQline_waits (s : State) (q l : Nat) (x : QLine) : (s.setQline q l x).waits = s.waits := rfl
@[simp] theorem State.setQline_assign (s : State) (q l : Nat) (x : QLine) : (s.setQline q l x).assign = s.assign := rfl
@[simp] theorem State.setQline_panels (s : State) (q l : Nat) (x : QLine) : (s.setQline q l x).panels = s.panels := rfl
@[simp] theorem State.setQline_heldFw (s : State) (q l : Nat) (x : QLine) : (s.setQline q l x).heldFw = s.heldFw := rfl
@[simp] theorem State.setQline_records (s : State) (q l : Nat) (x : QLine) : (s.setQline q l x).records = s.records := rfl
@[simp] theorem State.setQline_commit (s : State) (q l : Nat) (x : QLine) : (s.setQline q l x).commit = s.commit := rfl
@[simp] theorem State.setQline_session (s : State) (q l : Nat) (x : QLine) : (s.setQline q l x).session = s.session := rfl
@[simp] theorem State.setQline_webDown (s : State) (q l : Nat) (x : QLine) : (s.setQline q l x).webDown = s.webDown := rfl
@[simp] theorem State.setQline_spareOf (s : State) (q l : Nat) (x : QLine) : (s.setQline q l x).spareOf = s.spareOf := rfl
@[simp] theorem State.setQline_inReset (s : State) (q l : Nat) (x : QLine) : (s.setQline q l x).inReset = s.inReset := rfl
@[simp] theorem State.setQline_shadows (s : State) (q l : Nat) (x : QLine) : (s.setQline q l x).shadows = s.shadows := rfl
@[simp] theorem State.setQline_injWait (s : State) (q l : Nat) (x : QLine) : (s.setQline q l x).injWait = s.injWait := rfl
@[simp] theorem State.setQline_outvotes (s : State) (q l : Nat) (x : QLine) : (s.setQline q l x).outvotes = s.outvotes := rfl
@[simp] theorem State.setQline_restarted (s : State) (q l : Nat) (x : QLine) : (s.setQline q l x).restarted = s.restarted := rfl
@[simp] theorem State.setQline_carried (s : State) (q l : Nat) (x : QLine) : (s.setQline q l x).carried = s.carried := rfl
@[simp] theorem State.setQline_steps (s : State) (q l : Nat) (x : QLine) : (s.setQline q l x).steps = s.steps := rfl
@[simp] theorem State.setQline_granted (s : State) (q l : Nat) (x : QLine) : (s.setQline q l x).granted = s.granted := rfl
@[simp] theorem State.setQline_reserve (s : State) (q l : Nat) (x : QLine) : (s.setQline q l x).reserve = s.reserve := rfl
@[simp] theorem State.setQline_warned (s : State) (q l : Nat) (x : QLine) : (s.setQline q l x).warned = s.warned := rfl
@[simp] theorem State.setQline_stepHeld (s : State) (q l : Nat) (x : QLine) : (s.setQline q l x).stepHeld = s.stepHeld := rfl
@[simp] theorem State.setQline_stepGoing (s : State) (q l : Nat) (x : QLine) : (s.setQline q l x).stepGoing = s.stepGoing := rfl
@[simp] theorem State.setQline_stretched (s : State) (q l : Nat) (x : QLine) : (s.setQline q l x).stretched = s.stretched := rfl
@[simp] theorem State.setQline_forced (s : State) (q l : Nat) (x : QLine) : (s.setQline q l x).forced = s.forced := rfl
@[simp] theorem State.setQline_frameSeq (s : State) (q l : Nat) (x : QLine) : (s.setQline q l x).frameSeq = s.frameSeq := rfl
@[simp] theorem State.setQline_pins (s : State) (q l : Nat) (x : QLine) : (s.setQline q l x).pins = s.pins := rfl
@[simp] theorem State.setQline_smbAddr (s : State) (q l : Nat) (x : QLine) : (s.setQline q l x).smbAddr = s.smbAddr := rfl
@[simp] theorem State.setQline_jtagIr (s : State) (q l : Nat) (x : QLine) : (s.setQline q l x).jtagIr = s.jtagIr := rfl
@[simp] theorem State.setQline_phase (s : State) (q l : Nat) (x : QLine) : (s.setQline q l x).phase = s.phase := rfl
@[simp] theorem State.setQline_holdFor (s : State) (q l : Nat) (x : QLine) : (s.setQline q l x).holdFor = s.holdFor := rfl
@[simp] theorem State.setQline_rstArm (s : State) (q l : Nat) (x : QLine) : (s.setQline q l x).rstArm = s.rstArm := rfl
@[simp] theorem State.setQline_staging (s : State) (q l : Nat) (x : QLine) : (s.setQline q l x).staging = s.staging := rfl
@[simp] theorem State.setQline_stageHdr (s : State) (q l : Nat) (x : QLine) : (s.setQline q l x).stageHdr = s.stageHdr := rfl
@[simp] theorem State.setQline_surge (s : State) (q l : Nat) (x : QLine) : (s.setQline q l x).surge = s.surge := rfl
@[simp] theorem State.setQline_sent (s : State) (q l : Nat) (x : QLine) : (s.setQline q l x).sent = s.sent := rfl
@[simp] theorem State.setQline_reacts (s : State) (q l : Nat) (x : QLine) : (s.setQline q l x).reacts = s.reacts := rfl
@[simp] theorem State.setQline_freeCtr (s : State) (q l : Nat) (x : QLine) : (s.setQline q l x).freeCtr = s.freeCtr := rfl

@[simp] theorem State.setDirE_pending (s : State) (h l : Nat) (x : DirEntry) : (s.setDirE h l x).pending = s.pending := rfl
@[simp] theorem State.setDirE_clock (s : State) (h l : Nat) (x : DirEntry) : (s.setDirE h l x).clock = s.clock := rfl
@[simp] theorem State.setDirE_cores (s : State) (h l : Nat) (x : DirEntry) : (s.setDirE h l x).cores = s.cores := rfl
@[simp] theorem State.setDirE_regs (s : State) (h l : Nat) (x : DirEntry) : (s.setDirE h l x).regs = s.regs := rfl
@[simp] theorem State.setDirE_shadow (s : State) (h l : Nat) (x : DirEntry) : (s.setDirE h l x).shadow = s.shadow := rfl
@[simp] theorem State.setDirE_bEff (s : State) (h l : Nat) (x : DirEntry) : (s.setDirE h l x).bEff = s.bEff := rfl
@[simp] theorem State.setDirE_qlines (s : State) (h l : Nat) (x : DirEntry) : (s.setDirE h l x).qlines = s.qlines := rfl
@[simp] theorem State.setDirE_l3 (s : State) (h l : Nat) (x : DirEntry) : (s.setDirE h l x).l3 = s.l3 := rfl
@[simp] theorem State.setDirE_homes (s : State) (h l : Nat) (x : DirEntry) : (s.setDirE h l x).homes = s.homes := rfl
@[simp] theorem State.setDirE_dram (s : State) (h l : Nat) (x : DirEntry) : (s.setDirE h l x).dram = s.dram := rfl
@[simp] theorem State.setDirE_poisoned (s : State) (h l : Nat) (x : DirEntry) : (s.setDirE h l x).poisoned = s.poisoned := rfl
@[simp] theorem State.setDirE_lastOwner (s : State) (h l : Nat) (x : DirEntry) : (s.setDirE h l x).lastOwner = s.lastOwner := rfl
@[simp] theorem State.setDirE_order64 (s : State) (h l : Nat) (x : DirEntry) : (s.setDirE h l x).order64 = s.order64 := rfl
@[simp] theorem State.setDirE_l2Wait (s : State) (h l : Nat) (x : DirEntry) : (s.setDirE h l x).l2Wait = s.l2Wait := rfl
@[simp] theorem State.setDirE_locks (s : State) (h l : Nat) (x : DirEntry) : (s.setDirE h l x).locks = s.locks := rfl
@[simp] theorem State.setDirE_heldEn (s : State) (h l : Nat) (x : DirEntry) : (s.setDirE h l x).heldEn = s.heldEn := rfl
@[simp] theorem State.setDirE_arrays (s : State) (h l : Nat) (x : DirEntry) : (s.setDirE h l x).arrays = s.arrays := rfl
@[simp] theorem State.setDirE_openReqs (s : State) (h l : Nat) (x : DirEntry) : (s.setDirE h l x).openReqs = s.openReqs := rfl
@[simp] theorem State.setDirE_sheets (s : State) (h l : Nat) (x : DirEntry) : (s.setDirE h l x).sheets = s.sheets := rfl
@[simp] theorem State.setDirE_frozen (s : State) (h l : Nat) (x : DirEntry) : (s.setDirE h l x).frozen = s.frozen := rfl
@[simp] theorem State.setDirE_windows (s : State) (h l : Nat) (x : DirEntry) : (s.setDirE h l x).windows = s.windows := rfl
@[simp] theorem State.setDirE_easel (s : State) (h l : Nat) (x : DirEntry) : (s.setDirE h l x).easel = s.easel := rfl
@[simp] theorem State.setDirE_keptBanks (s : State) (h l : Nat) (x : DirEntry) : (s.setDirE h l x).keptBanks = s.keptBanks := rfl
@[simp] theorem State.setDirE_easelRot (s : State) (h l : Nat) (x : DirEntry) : (s.setDirE h l x).easelRot = s.easelRot := rfl
@[simp] theorem State.setDirE_easelWait (s : State) (h l : Nat) (x : DirEntry) : (s.setDirE h l x).easelWait = s.easelWait := rfl
@[simp] theorem State.setDirE_memctl (s : State) (h l : Nat) (x : DirEntry) : (s.setDirE h l x).memctl = s.memctl := rfl
@[simp] theorem State.setDirE_vatWait (s : State) (h l : Nat) (x : DirEntry) : (s.setDirE h l x).vatWait = s.vatWait := rfl
@[simp] theorem State.setDirE_xch (s : State) (h l : Nat) (x : DirEntry) : (s.setDirE h l x).xch = s.xch := rfl
@[simp] theorem State.setDirE_moves (s : State) (h l : Nat) (x : DirEntry) : (s.setDirE h l x).moves = s.moves := rfl
@[simp] theorem State.setDirE_links (s : State) (h l : Nat) (x : DirEntry) : (s.setDirE h l x).links = s.links := rfl
@[simp] theorem State.setDirE_recTabs (s : State) (h l : Nat) (x : DirEntry) : (s.setDirE h l x).recTabs = s.recTabs := rfl
@[simp] theorem State.setDirE_calq (s : State) (h l : Nat) (x : DirEntry) : (s.setDirE h l x).calq = s.calq := rfl
@[simp] theorem State.setDirE_calSaved (s : State) (h l : Nat) (x : DirEntry) : (s.setDirE h l x).calSaved = s.calSaved := rfl
@[simp] theorem State.setDirE_octRem (s : State) (h l : Nat) (x : DirEntry) : (s.setDirE h l x).octRem = s.octRem := rfl
@[simp] theorem State.setDirE_calSlot (s : State) (h l : Nat) (x : DirEntry) : (s.setDirE h l x).calSlot = s.calSlot := rfl
@[simp] theorem State.setDirE_varq (s : State) (h l : Nat) (x : DirEntry) : (s.setDirE h l x).varq = s.varq := rfl
@[simp] theorem State.setDirE_varSlot (s : State) (h l : Nat) (x : DirEntry) : (s.setDirE h l x).varSlot = s.varSlot := rfl
@[simp] theorem State.setDirE_keys (s : State) (h l : Nat) (x : DirEntry) : (s.setDirE h l x).keys = s.keys := rfl
@[simp] theorem State.setDirE_pcicfg (s : State) (h l : Nat) (x : DirEntry) : (s.setDirE h l x).pcicfg = s.pcicfg := rfl
@[simp] theorem State.setDirE_bar0 (s : State) (h l : Nat) (x : DirEntry) : (s.setDirE h l x).bar0 = s.bar0 := rfl
@[simp] theorem State.setDirE_endpt (s : State) (h l : Nat) (x : DirEntry) : (s.setDirE h l x).endpt = s.endpt := rfl
@[simp] theorem State.setDirE_relHeld (s : State) (h l : Nat) (x : DirEntry) : (s.setDirE h l x).relHeld = s.relHeld := rfl
@[simp] theorem State.setDirE_taken (s : State) (h l : Nat) (x : DirEntry) : (s.setDirE h l x).taken = s.taken := rfl
@[simp] theorem State.setDirE_conVer (s : State) (h l : Nat) (x : DirEntry) : (s.setDirE h l x).conVer = s.conVer := rfl
@[simp] theorem State.setDirE_nonce (s : State) (h l : Nat) (x : DirEntry) : (s.setDirE h l x).nonce = s.nonce := rfl
@[simp] theorem State.setDirE_longOps (s : State) (h l : Nat) (x : DirEntry) : (s.setDirE h l x).longOps = s.longOps := rfl
@[simp] theorem State.setDirE_portHeld (s : State) (h l : Nat) (x : DirEntry) : (s.setDirE h l x).portHeld = s.portHeld := rfl
@[simp] theorem State.setDirE_heldSeq (s : State) (h l : Nat) (x : DirEntry) : (s.setDirE h l x).heldSeq = s.heldSeq := rfl
@[simp] theorem State.setDirE_waits (s : State) (h l : Nat) (x : DirEntry) : (s.setDirE h l x).waits = s.waits := rfl
@[simp] theorem State.setDirE_assign (s : State) (h l : Nat) (x : DirEntry) : (s.setDirE h l x).assign = s.assign := rfl
@[simp] theorem State.setDirE_panels (s : State) (h l : Nat) (x : DirEntry) : (s.setDirE h l x).panels = s.panels := rfl
@[simp] theorem State.setDirE_heldFw (s : State) (h l : Nat) (x : DirEntry) : (s.setDirE h l x).heldFw = s.heldFw := rfl
@[simp] theorem State.setDirE_records (s : State) (h l : Nat) (x : DirEntry) : (s.setDirE h l x).records = s.records := rfl
@[simp] theorem State.setDirE_commit (s : State) (h l : Nat) (x : DirEntry) : (s.setDirE h l x).commit = s.commit := rfl
@[simp] theorem State.setDirE_session (s : State) (h l : Nat) (x : DirEntry) : (s.setDirE h l x).session = s.session := rfl
@[simp] theorem State.setDirE_webDown (s : State) (h l : Nat) (x : DirEntry) : (s.setDirE h l x).webDown = s.webDown := rfl
@[simp] theorem State.setDirE_spareOf (s : State) (h l : Nat) (x : DirEntry) : (s.setDirE h l x).spareOf = s.spareOf := rfl
@[simp] theorem State.setDirE_inReset (s : State) (h l : Nat) (x : DirEntry) : (s.setDirE h l x).inReset = s.inReset := rfl
@[simp] theorem State.setDirE_shadows (s : State) (h l : Nat) (x : DirEntry) : (s.setDirE h l x).shadows = s.shadows := rfl
@[simp] theorem State.setDirE_injWait (s : State) (h l : Nat) (x : DirEntry) : (s.setDirE h l x).injWait = s.injWait := rfl
@[simp] theorem State.setDirE_outvotes (s : State) (h l : Nat) (x : DirEntry) : (s.setDirE h l x).outvotes = s.outvotes := rfl
@[simp] theorem State.setDirE_restarted (s : State) (h l : Nat) (x : DirEntry) : (s.setDirE h l x).restarted = s.restarted := rfl
@[simp] theorem State.setDirE_carried (s : State) (h l : Nat) (x : DirEntry) : (s.setDirE h l x).carried = s.carried := rfl
@[simp] theorem State.setDirE_steps (s : State) (h l : Nat) (x : DirEntry) : (s.setDirE h l x).steps = s.steps := rfl
@[simp] theorem State.setDirE_granted (s : State) (h l : Nat) (x : DirEntry) : (s.setDirE h l x).granted = s.granted := rfl
@[simp] theorem State.setDirE_reserve (s : State) (h l : Nat) (x : DirEntry) : (s.setDirE h l x).reserve = s.reserve := rfl
@[simp] theorem State.setDirE_warned (s : State) (h l : Nat) (x : DirEntry) : (s.setDirE h l x).warned = s.warned := rfl
@[simp] theorem State.setDirE_stepHeld (s : State) (h l : Nat) (x : DirEntry) : (s.setDirE h l x).stepHeld = s.stepHeld := rfl
@[simp] theorem State.setDirE_stepGoing (s : State) (h l : Nat) (x : DirEntry) : (s.setDirE h l x).stepGoing = s.stepGoing := rfl
@[simp] theorem State.setDirE_stretched (s : State) (h l : Nat) (x : DirEntry) : (s.setDirE h l x).stretched = s.stretched := rfl
@[simp] theorem State.setDirE_forced (s : State) (h l : Nat) (x : DirEntry) : (s.setDirE h l x).forced = s.forced := rfl
@[simp] theorem State.setDirE_frameSeq (s : State) (h l : Nat) (x : DirEntry) : (s.setDirE h l x).frameSeq = s.frameSeq := rfl
@[simp] theorem State.setDirE_pins (s : State) (h l : Nat) (x : DirEntry) : (s.setDirE h l x).pins = s.pins := rfl
@[simp] theorem State.setDirE_smbAddr (s : State) (h l : Nat) (x : DirEntry) : (s.setDirE h l x).smbAddr = s.smbAddr := rfl
@[simp] theorem State.setDirE_jtagIr (s : State) (h l : Nat) (x : DirEntry) : (s.setDirE h l x).jtagIr = s.jtagIr := rfl
@[simp] theorem State.setDirE_phase (s : State) (h l : Nat) (x : DirEntry) : (s.setDirE h l x).phase = s.phase := rfl
@[simp] theorem State.setDirE_holdFor (s : State) (h l : Nat) (x : DirEntry) : (s.setDirE h l x).holdFor = s.holdFor := rfl
@[simp] theorem State.setDirE_rstArm (s : State) (h l : Nat) (x : DirEntry) : (s.setDirE h l x).rstArm = s.rstArm := rfl
@[simp] theorem State.setDirE_staging (s : State) (h l : Nat) (x : DirEntry) : (s.setDirE h l x).staging = s.staging := rfl
@[simp] theorem State.setDirE_stageHdr (s : State) (h l : Nat) (x : DirEntry) : (s.setDirE h l x).stageHdr = s.stageHdr := rfl
@[simp] theorem State.setDirE_surge (s : State) (h l : Nat) (x : DirEntry) : (s.setDirE h l x).surge = s.surge := rfl
@[simp] theorem State.setDirE_sent (s : State) (h l : Nat) (x : DirEntry) : (s.setDirE h l x).sent = s.sent := rfl
@[simp] theorem State.setDirE_reacts (s : State) (h l : Nat) (x : DirEntry) : (s.setDirE h l x).reacts = s.reacts := rfl
@[simp] theorem State.setDirE_freeCtr (s : State) (h l : Nat) (x : DirEntry) : (s.setDirE h l x).freeCtr = s.freeCtr := rfl

@[simp] theorem State.setL3_pending (s : State) (h l : Nat) (x : Option L3Line) : (s.setL3 h l x).pending = s.pending := rfl
@[simp] theorem State.setL3_clock (s : State) (h l : Nat) (x : Option L3Line) : (s.setL3 h l x).clock = s.clock := rfl
@[simp] theorem State.setL3_cores (s : State) (h l : Nat) (x : Option L3Line) : (s.setL3 h l x).cores = s.cores := rfl
@[simp] theorem State.setL3_regs (s : State) (h l : Nat) (x : Option L3Line) : (s.setL3 h l x).regs = s.regs := rfl
@[simp] theorem State.setL3_shadow (s : State) (h l : Nat) (x : Option L3Line) : (s.setL3 h l x).shadow = s.shadow := rfl
@[simp] theorem State.setL3_bEff (s : State) (h l : Nat) (x : Option L3Line) : (s.setL3 h l x).bEff = s.bEff := rfl
@[simp] theorem State.setL3_qlines (s : State) (h l : Nat) (x : Option L3Line) : (s.setL3 h l x).qlines = s.qlines := rfl
@[simp] theorem State.setL3_dir (s : State) (h l : Nat) (x : Option L3Line) : (s.setL3 h l x).dir = s.dir := rfl
@[simp] theorem State.setL3_homes (s : State) (h l : Nat) (x : Option L3Line) : (s.setL3 h l x).homes = s.homes := rfl
@[simp] theorem State.setL3_dram (s : State) (h l : Nat) (x : Option L3Line) : (s.setL3 h l x).dram = s.dram := rfl
@[simp] theorem State.setL3_poisoned (s : State) (h l : Nat) (x : Option L3Line) : (s.setL3 h l x).poisoned = s.poisoned := rfl
@[simp] theorem State.setL3_lastOwner (s : State) (h l : Nat) (x : Option L3Line) : (s.setL3 h l x).lastOwner = s.lastOwner := rfl
@[simp] theorem State.setL3_order64 (s : State) (h l : Nat) (x : Option L3Line) : (s.setL3 h l x).order64 = s.order64 := rfl
@[simp] theorem State.setL3_l2Wait (s : State) (h l : Nat) (x : Option L3Line) : (s.setL3 h l x).l2Wait = s.l2Wait := rfl
@[simp] theorem State.setL3_locks (s : State) (h l : Nat) (x : Option L3Line) : (s.setL3 h l x).locks = s.locks := rfl
@[simp] theorem State.setL3_heldEn (s : State) (h l : Nat) (x : Option L3Line) : (s.setL3 h l x).heldEn = s.heldEn := rfl
@[simp] theorem State.setL3_arrays (s : State) (h l : Nat) (x : Option L3Line) : (s.setL3 h l x).arrays = s.arrays := rfl
@[simp] theorem State.setL3_openReqs (s : State) (h l : Nat) (x : Option L3Line) : (s.setL3 h l x).openReqs = s.openReqs := rfl
@[simp] theorem State.setL3_sheets (s : State) (h l : Nat) (x : Option L3Line) : (s.setL3 h l x).sheets = s.sheets := rfl
@[simp] theorem State.setL3_frozen (s : State) (h l : Nat) (x : Option L3Line) : (s.setL3 h l x).frozen = s.frozen := rfl
@[simp] theorem State.setL3_windows (s : State) (h l : Nat) (x : Option L3Line) : (s.setL3 h l x).windows = s.windows := rfl
@[simp] theorem State.setL3_easel (s : State) (h l : Nat) (x : Option L3Line) : (s.setL3 h l x).easel = s.easel := rfl
@[simp] theorem State.setL3_keptBanks (s : State) (h l : Nat) (x : Option L3Line) : (s.setL3 h l x).keptBanks = s.keptBanks := rfl
@[simp] theorem State.setL3_easelRot (s : State) (h l : Nat) (x : Option L3Line) : (s.setL3 h l x).easelRot = s.easelRot := rfl
@[simp] theorem State.setL3_easelWait (s : State) (h l : Nat) (x : Option L3Line) : (s.setL3 h l x).easelWait = s.easelWait := rfl
@[simp] theorem State.setL3_memctl (s : State) (h l : Nat) (x : Option L3Line) : (s.setL3 h l x).memctl = s.memctl := rfl
@[simp] theorem State.setL3_vatWait (s : State) (h l : Nat) (x : Option L3Line) : (s.setL3 h l x).vatWait = s.vatWait := rfl
@[simp] theorem State.setL3_xch (s : State) (h l : Nat) (x : Option L3Line) : (s.setL3 h l x).xch = s.xch := rfl
@[simp] theorem State.setL3_moves (s : State) (h l : Nat) (x : Option L3Line) : (s.setL3 h l x).moves = s.moves := rfl
@[simp] theorem State.setL3_links (s : State) (h l : Nat) (x : Option L3Line) : (s.setL3 h l x).links = s.links := rfl
@[simp] theorem State.setL3_recTabs (s : State) (h l : Nat) (x : Option L3Line) : (s.setL3 h l x).recTabs = s.recTabs := rfl
@[simp] theorem State.setL3_calq (s : State) (h l : Nat) (x : Option L3Line) : (s.setL3 h l x).calq = s.calq := rfl
@[simp] theorem State.setL3_calSaved (s : State) (h l : Nat) (x : Option L3Line) : (s.setL3 h l x).calSaved = s.calSaved := rfl
@[simp] theorem State.setL3_octRem (s : State) (h l : Nat) (x : Option L3Line) : (s.setL3 h l x).octRem = s.octRem := rfl
@[simp] theorem State.setL3_calSlot (s : State) (h l : Nat) (x : Option L3Line) : (s.setL3 h l x).calSlot = s.calSlot := rfl
@[simp] theorem State.setL3_varq (s : State) (h l : Nat) (x : Option L3Line) : (s.setL3 h l x).varq = s.varq := rfl
@[simp] theorem State.setL3_varSlot (s : State) (h l : Nat) (x : Option L3Line) : (s.setL3 h l x).varSlot = s.varSlot := rfl
@[simp] theorem State.setL3_keys (s : State) (h l : Nat) (x : Option L3Line) : (s.setL3 h l x).keys = s.keys := rfl
@[simp] theorem State.setL3_pcicfg (s : State) (h l : Nat) (x : Option L3Line) : (s.setL3 h l x).pcicfg = s.pcicfg := rfl
@[simp] theorem State.setL3_bar0 (s : State) (h l : Nat) (x : Option L3Line) : (s.setL3 h l x).bar0 = s.bar0 := rfl
@[simp] theorem State.setL3_endpt (s : State) (h l : Nat) (x : Option L3Line) : (s.setL3 h l x).endpt = s.endpt := rfl
@[simp] theorem State.setL3_relHeld (s : State) (h l : Nat) (x : Option L3Line) : (s.setL3 h l x).relHeld = s.relHeld := rfl
@[simp] theorem State.setL3_taken (s : State) (h l : Nat) (x : Option L3Line) : (s.setL3 h l x).taken = s.taken := rfl
@[simp] theorem State.setL3_conVer (s : State) (h l : Nat) (x : Option L3Line) : (s.setL3 h l x).conVer = s.conVer := rfl
@[simp] theorem State.setL3_nonce (s : State) (h l : Nat) (x : Option L3Line) : (s.setL3 h l x).nonce = s.nonce := rfl
@[simp] theorem State.setL3_longOps (s : State) (h l : Nat) (x : Option L3Line) : (s.setL3 h l x).longOps = s.longOps := rfl
@[simp] theorem State.setL3_portHeld (s : State) (h l : Nat) (x : Option L3Line) : (s.setL3 h l x).portHeld = s.portHeld := rfl
@[simp] theorem State.setL3_heldSeq (s : State) (h l : Nat) (x : Option L3Line) : (s.setL3 h l x).heldSeq = s.heldSeq := rfl
@[simp] theorem State.setL3_waits (s : State) (h l : Nat) (x : Option L3Line) : (s.setL3 h l x).waits = s.waits := rfl
@[simp] theorem State.setL3_assign (s : State) (h l : Nat) (x : Option L3Line) : (s.setL3 h l x).assign = s.assign := rfl
@[simp] theorem State.setL3_panels (s : State) (h l : Nat) (x : Option L3Line) : (s.setL3 h l x).panels = s.panels := rfl
@[simp] theorem State.setL3_heldFw (s : State) (h l : Nat) (x : Option L3Line) : (s.setL3 h l x).heldFw = s.heldFw := rfl
@[simp] theorem State.setL3_records (s : State) (h l : Nat) (x : Option L3Line) : (s.setL3 h l x).records = s.records := rfl
@[simp] theorem State.setL3_commit (s : State) (h l : Nat) (x : Option L3Line) : (s.setL3 h l x).commit = s.commit := rfl
@[simp] theorem State.setL3_session (s : State) (h l : Nat) (x : Option L3Line) : (s.setL3 h l x).session = s.session := rfl
@[simp] theorem State.setL3_webDown (s : State) (h l : Nat) (x : Option L3Line) : (s.setL3 h l x).webDown = s.webDown := rfl
@[simp] theorem State.setL3_spareOf (s : State) (h l : Nat) (x : Option L3Line) : (s.setL3 h l x).spareOf = s.spareOf := rfl
@[simp] theorem State.setL3_inReset (s : State) (h l : Nat) (x : Option L3Line) : (s.setL3 h l x).inReset = s.inReset := rfl
@[simp] theorem State.setL3_shadows (s : State) (h l : Nat) (x : Option L3Line) : (s.setL3 h l x).shadows = s.shadows := rfl
@[simp] theorem State.setL3_injWait (s : State) (h l : Nat) (x : Option L3Line) : (s.setL3 h l x).injWait = s.injWait := rfl
@[simp] theorem State.setL3_outvotes (s : State) (h l : Nat) (x : Option L3Line) : (s.setL3 h l x).outvotes = s.outvotes := rfl
@[simp] theorem State.setL3_restarted (s : State) (h l : Nat) (x : Option L3Line) : (s.setL3 h l x).restarted = s.restarted := rfl
@[simp] theorem State.setL3_carried (s : State) (h l : Nat) (x : Option L3Line) : (s.setL3 h l x).carried = s.carried := rfl
@[simp] theorem State.setL3_steps (s : State) (h l : Nat) (x : Option L3Line) : (s.setL3 h l x).steps = s.steps := rfl
@[simp] theorem State.setL3_granted (s : State) (h l : Nat) (x : Option L3Line) : (s.setL3 h l x).granted = s.granted := rfl
@[simp] theorem State.setL3_reserve (s : State) (h l : Nat) (x : Option L3Line) : (s.setL3 h l x).reserve = s.reserve := rfl
@[simp] theorem State.setL3_warned (s : State) (h l : Nat) (x : Option L3Line) : (s.setL3 h l x).warned = s.warned := rfl
@[simp] theorem State.setL3_stepHeld (s : State) (h l : Nat) (x : Option L3Line) : (s.setL3 h l x).stepHeld = s.stepHeld := rfl
@[simp] theorem State.setL3_stepGoing (s : State) (h l : Nat) (x : Option L3Line) : (s.setL3 h l x).stepGoing = s.stepGoing := rfl
@[simp] theorem State.setL3_stretched (s : State) (h l : Nat) (x : Option L3Line) : (s.setL3 h l x).stretched = s.stretched := rfl
@[simp] theorem State.setL3_forced (s : State) (h l : Nat) (x : Option L3Line) : (s.setL3 h l x).forced = s.forced := rfl
@[simp] theorem State.setL3_frameSeq (s : State) (h l : Nat) (x : Option L3Line) : (s.setL3 h l x).frameSeq = s.frameSeq := rfl
@[simp] theorem State.setL3_pins (s : State) (h l : Nat) (x : Option L3Line) : (s.setL3 h l x).pins = s.pins := rfl
@[simp] theorem State.setL3_smbAddr (s : State) (h l : Nat) (x : Option L3Line) : (s.setL3 h l x).smbAddr = s.smbAddr := rfl
@[simp] theorem State.setL3_jtagIr (s : State) (h l : Nat) (x : Option L3Line) : (s.setL3 h l x).jtagIr = s.jtagIr := rfl
@[simp] theorem State.setL3_phase (s : State) (h l : Nat) (x : Option L3Line) : (s.setL3 h l x).phase = s.phase := rfl
@[simp] theorem State.setL3_holdFor (s : State) (h l : Nat) (x : Option L3Line) : (s.setL3 h l x).holdFor = s.holdFor := rfl
@[simp] theorem State.setL3_rstArm (s : State) (h l : Nat) (x : Option L3Line) : (s.setL3 h l x).rstArm = s.rstArm := rfl
@[simp] theorem State.setL3_staging (s : State) (h l : Nat) (x : Option L3Line) : (s.setL3 h l x).staging = s.staging := rfl
@[simp] theorem State.setL3_stageHdr (s : State) (h l : Nat) (x : Option L3Line) : (s.setL3 h l x).stageHdr = s.stageHdr := rfl
@[simp] theorem State.setL3_surge (s : State) (h l : Nat) (x : Option L3Line) : (s.setL3 h l x).surge = s.surge := rfl
@[simp] theorem State.setL3_sent (s : State) (h l : Nat) (x : Option L3Line) : (s.setL3 h l x).sent = s.sent := rfl
@[simp] theorem State.setL3_reacts (s : State) (h l : Nat) (x : Option L3Line) : (s.setL3 h l x).reacts = s.reacts := rfl
@[simp] theorem State.setL3_freeCtr (s : State) (h l : Nat) (x : Option L3Line) : (s.setL3 h l x).freeCtr = s.freeCtr := rfl

@[simp] theorem State.setDram_pending (s : State) (l : Nat) (x : Line) : (s.setDram l x).pending = s.pending := rfl
@[simp] theorem State.setDram_clock (s : State) (l : Nat) (x : Line) : (s.setDram l x).clock = s.clock := rfl
@[simp] theorem State.setDram_cores (s : State) (l : Nat) (x : Line) : (s.setDram l x).cores = s.cores := rfl
@[simp] theorem State.setDram_regs (s : State) (l : Nat) (x : Line) : (s.setDram l x).regs = s.regs := rfl
@[simp] theorem State.setDram_shadow (s : State) (l : Nat) (x : Line) : (s.setDram l x).shadow = s.shadow := rfl
@[simp] theorem State.setDram_bEff (s : State) (l : Nat) (x : Line) : (s.setDram l x).bEff = s.bEff := rfl
@[simp] theorem State.setDram_qlines (s : State) (l : Nat) (x : Line) : (s.setDram l x).qlines = s.qlines := rfl
@[simp] theorem State.setDram_dir (s : State) (l : Nat) (x : Line) : (s.setDram l x).dir = s.dir := rfl
@[simp] theorem State.setDram_l3 (s : State) (l : Nat) (x : Line) : (s.setDram l x).l3 = s.l3 := rfl
@[simp] theorem State.setDram_homes (s : State) (l : Nat) (x : Line) : (s.setDram l x).homes = s.homes := rfl
@[simp] theorem State.setDram_poisoned (s : State) (l : Nat) (x : Line) : (s.setDram l x).poisoned = s.poisoned := rfl
@[simp] theorem State.setDram_lastOwner (s : State) (l : Nat) (x : Line) : (s.setDram l x).lastOwner = s.lastOwner := rfl
@[simp] theorem State.setDram_order64 (s : State) (l : Nat) (x : Line) : (s.setDram l x).order64 = s.order64 := rfl
@[simp] theorem State.setDram_l2Wait (s : State) (l : Nat) (x : Line) : (s.setDram l x).l2Wait = s.l2Wait := rfl
@[simp] theorem State.setDram_locks (s : State) (l : Nat) (x : Line) : (s.setDram l x).locks = s.locks := rfl
@[simp] theorem State.setDram_heldEn (s : State) (l : Nat) (x : Line) : (s.setDram l x).heldEn = s.heldEn := rfl
@[simp] theorem State.setDram_arrays (s : State) (l : Nat) (x : Line) : (s.setDram l x).arrays = s.arrays := rfl
@[simp] theorem State.setDram_openReqs (s : State) (l : Nat) (x : Line) : (s.setDram l x).openReqs = s.openReqs := rfl
@[simp] theorem State.setDram_sheets (s : State) (l : Nat) (x : Line) : (s.setDram l x).sheets = s.sheets := rfl
@[simp] theorem State.setDram_frozen (s : State) (l : Nat) (x : Line) : (s.setDram l x).frozen = s.frozen := rfl
@[simp] theorem State.setDram_windows (s : State) (l : Nat) (x : Line) : (s.setDram l x).windows = s.windows := rfl
@[simp] theorem State.setDram_easel (s : State) (l : Nat) (x : Line) : (s.setDram l x).easel = s.easel := rfl
@[simp] theorem State.setDram_keptBanks (s : State) (l : Nat) (x : Line) : (s.setDram l x).keptBanks = s.keptBanks := rfl
@[simp] theorem State.setDram_easelRot (s : State) (l : Nat) (x : Line) : (s.setDram l x).easelRot = s.easelRot := rfl
@[simp] theorem State.setDram_easelWait (s : State) (l : Nat) (x : Line) : (s.setDram l x).easelWait = s.easelWait := rfl
@[simp] theorem State.setDram_memctl (s : State) (l : Nat) (x : Line) : (s.setDram l x).memctl = s.memctl := rfl
@[simp] theorem State.setDram_vatWait (s : State) (l : Nat) (x : Line) : (s.setDram l x).vatWait = s.vatWait := rfl
@[simp] theorem State.setDram_xch (s : State) (l : Nat) (x : Line) : (s.setDram l x).xch = s.xch := rfl
@[simp] theorem State.setDram_moves (s : State) (l : Nat) (x : Line) : (s.setDram l x).moves = s.moves := rfl
@[simp] theorem State.setDram_links (s : State) (l : Nat) (x : Line) : (s.setDram l x).links = s.links := rfl
@[simp] theorem State.setDram_recTabs (s : State) (l : Nat) (x : Line) : (s.setDram l x).recTabs = s.recTabs := rfl
@[simp] theorem State.setDram_calq (s : State) (l : Nat) (x : Line) : (s.setDram l x).calq = s.calq := rfl
@[simp] theorem State.setDram_calSaved (s : State) (l : Nat) (x : Line) : (s.setDram l x).calSaved = s.calSaved := rfl
@[simp] theorem State.setDram_octRem (s : State) (l : Nat) (x : Line) : (s.setDram l x).octRem = s.octRem := rfl
@[simp] theorem State.setDram_calSlot (s : State) (l : Nat) (x : Line) : (s.setDram l x).calSlot = s.calSlot := rfl
@[simp] theorem State.setDram_varq (s : State) (l : Nat) (x : Line) : (s.setDram l x).varq = s.varq := rfl
@[simp] theorem State.setDram_varSlot (s : State) (l : Nat) (x : Line) : (s.setDram l x).varSlot = s.varSlot := rfl
@[simp] theorem State.setDram_keys (s : State) (l : Nat) (x : Line) : (s.setDram l x).keys = s.keys := rfl
@[simp] theorem State.setDram_pcicfg (s : State) (l : Nat) (x : Line) : (s.setDram l x).pcicfg = s.pcicfg := rfl
@[simp] theorem State.setDram_bar0 (s : State) (l : Nat) (x : Line) : (s.setDram l x).bar0 = s.bar0 := rfl
@[simp] theorem State.setDram_endpt (s : State) (l : Nat) (x : Line) : (s.setDram l x).endpt = s.endpt := rfl
@[simp] theorem State.setDram_relHeld (s : State) (l : Nat) (x : Line) : (s.setDram l x).relHeld = s.relHeld := rfl
@[simp] theorem State.setDram_taken (s : State) (l : Nat) (x : Line) : (s.setDram l x).taken = s.taken := rfl
@[simp] theorem State.setDram_conVer (s : State) (l : Nat) (x : Line) : (s.setDram l x).conVer = s.conVer := rfl
@[simp] theorem State.setDram_nonce (s : State) (l : Nat) (x : Line) : (s.setDram l x).nonce = s.nonce := rfl
@[simp] theorem State.setDram_longOps (s : State) (l : Nat) (x : Line) : (s.setDram l x).longOps = s.longOps := rfl
@[simp] theorem State.setDram_portHeld (s : State) (l : Nat) (x : Line) : (s.setDram l x).portHeld = s.portHeld := rfl
@[simp] theorem State.setDram_heldSeq (s : State) (l : Nat) (x : Line) : (s.setDram l x).heldSeq = s.heldSeq := rfl
@[simp] theorem State.setDram_waits (s : State) (l : Nat) (x : Line) : (s.setDram l x).waits = s.waits := rfl
@[simp] theorem State.setDram_assign (s : State) (l : Nat) (x : Line) : (s.setDram l x).assign = s.assign := rfl
@[simp] theorem State.setDram_panels (s : State) (l : Nat) (x : Line) : (s.setDram l x).panels = s.panels := rfl
@[simp] theorem State.setDram_heldFw (s : State) (l : Nat) (x : Line) : (s.setDram l x).heldFw = s.heldFw := rfl
@[simp] theorem State.setDram_records (s : State) (l : Nat) (x : Line) : (s.setDram l x).records = s.records := rfl
@[simp] theorem State.setDram_commit (s : State) (l : Nat) (x : Line) : (s.setDram l x).commit = s.commit := rfl
@[simp] theorem State.setDram_session (s : State) (l : Nat) (x : Line) : (s.setDram l x).session = s.session := rfl
@[simp] theorem State.setDram_webDown (s : State) (l : Nat) (x : Line) : (s.setDram l x).webDown = s.webDown := rfl
@[simp] theorem State.setDram_spareOf (s : State) (l : Nat) (x : Line) : (s.setDram l x).spareOf = s.spareOf := rfl
@[simp] theorem State.setDram_inReset (s : State) (l : Nat) (x : Line) : (s.setDram l x).inReset = s.inReset := rfl
@[simp] theorem State.setDram_shadows (s : State) (l : Nat) (x : Line) : (s.setDram l x).shadows = s.shadows := rfl
@[simp] theorem State.setDram_injWait (s : State) (l : Nat) (x : Line) : (s.setDram l x).injWait = s.injWait := rfl
@[simp] theorem State.setDram_outvotes (s : State) (l : Nat) (x : Line) : (s.setDram l x).outvotes = s.outvotes := rfl
@[simp] theorem State.setDram_restarted (s : State) (l : Nat) (x : Line) : (s.setDram l x).restarted = s.restarted := rfl
@[simp] theorem State.setDram_carried (s : State) (l : Nat) (x : Line) : (s.setDram l x).carried = s.carried := rfl
@[simp] theorem State.setDram_steps (s : State) (l : Nat) (x : Line) : (s.setDram l x).steps = s.steps := rfl
@[simp] theorem State.setDram_granted (s : State) (l : Nat) (x : Line) : (s.setDram l x).granted = s.granted := rfl
@[simp] theorem State.setDram_reserve (s : State) (l : Nat) (x : Line) : (s.setDram l x).reserve = s.reserve := rfl
@[simp] theorem State.setDram_warned (s : State) (l : Nat) (x : Line) : (s.setDram l x).warned = s.warned := rfl
@[simp] theorem State.setDram_stepHeld (s : State) (l : Nat) (x : Line) : (s.setDram l x).stepHeld = s.stepHeld := rfl
@[simp] theorem State.setDram_stepGoing (s : State) (l : Nat) (x : Line) : (s.setDram l x).stepGoing = s.stepGoing := rfl
@[simp] theorem State.setDram_stretched (s : State) (l : Nat) (x : Line) : (s.setDram l x).stretched = s.stretched := rfl
@[simp] theorem State.setDram_forced (s : State) (l : Nat) (x : Line) : (s.setDram l x).forced = s.forced := rfl
@[simp] theorem State.setDram_frameSeq (s : State) (l : Nat) (x : Line) : (s.setDram l x).frameSeq = s.frameSeq := rfl
@[simp] theorem State.setDram_pins (s : State) (l : Nat) (x : Line) : (s.setDram l x).pins = s.pins := rfl
@[simp] theorem State.setDram_smbAddr (s : State) (l : Nat) (x : Line) : (s.setDram l x).smbAddr = s.smbAddr := rfl
@[simp] theorem State.setDram_jtagIr (s : State) (l : Nat) (x : Line) : (s.setDram l x).jtagIr = s.jtagIr := rfl
@[simp] theorem State.setDram_phase (s : State) (l : Nat) (x : Line) : (s.setDram l x).phase = s.phase := rfl
@[simp] theorem State.setDram_holdFor (s : State) (l : Nat) (x : Line) : (s.setDram l x).holdFor = s.holdFor := rfl
@[simp] theorem State.setDram_rstArm (s : State) (l : Nat) (x : Line) : (s.setDram l x).rstArm = s.rstArm := rfl
@[simp] theorem State.setDram_staging (s : State) (l : Nat) (x : Line) : (s.setDram l x).staging = s.staging := rfl
@[simp] theorem State.setDram_stageHdr (s : State) (l : Nat) (x : Line) : (s.setDram l x).stageHdr = s.stageHdr := rfl
@[simp] theorem State.setDram_surge (s : State) (l : Nat) (x : Line) : (s.setDram l x).surge = s.surge := rfl
@[simp] theorem State.setDram_sent (s : State) (l : Nat) (x : Line) : (s.setDram l x).sent = s.sent := rfl
@[simp] theorem State.setDram_reacts (s : State) (l : Nat) (x : Line) : (s.setDram l x).reacts = s.reacts := rfl
@[simp] theorem State.setDram_freeCtr (s : State) (l : Nat) (x : Line) : (s.setDram l x).freeCtr = s.freeCtr := rfl

@[simp] theorem State.setHome_pending (s : State) (h : Nat) (x : Home) : (s.setHome h x).pending = s.pending := rfl
@[simp] theorem State.setHome_clock (s : State) (h : Nat) (x : Home) : (s.setHome h x).clock = s.clock := rfl
@[simp] theorem State.setHome_cores (s : State) (h : Nat) (x : Home) : (s.setHome h x).cores = s.cores := rfl
@[simp] theorem State.setHome_regs (s : State) (h : Nat) (x : Home) : (s.setHome h x).regs = s.regs := rfl
@[simp] theorem State.setHome_shadow (s : State) (h : Nat) (x : Home) : (s.setHome h x).shadow = s.shadow := rfl
@[simp] theorem State.setHome_bEff (s : State) (h : Nat) (x : Home) : (s.setHome h x).bEff = s.bEff := rfl
@[simp] theorem State.setHome_qlines (s : State) (h : Nat) (x : Home) : (s.setHome h x).qlines = s.qlines := rfl
@[simp] theorem State.setHome_dir (s : State) (h : Nat) (x : Home) : (s.setHome h x).dir = s.dir := rfl
@[simp] theorem State.setHome_l3 (s : State) (h : Nat) (x : Home) : (s.setHome h x).l3 = s.l3 := rfl
@[simp] theorem State.setHome_dram (s : State) (h : Nat) (x : Home) : (s.setHome h x).dram = s.dram := rfl
@[simp] theorem State.setHome_poisoned (s : State) (h : Nat) (x : Home) : (s.setHome h x).poisoned = s.poisoned := rfl
@[simp] theorem State.setHome_lastOwner (s : State) (h : Nat) (x : Home) : (s.setHome h x).lastOwner = s.lastOwner := rfl
@[simp] theorem State.setHome_order64 (s : State) (h : Nat) (x : Home) : (s.setHome h x).order64 = s.order64 := rfl
@[simp] theorem State.setHome_l2Wait (s : State) (h : Nat) (x : Home) : (s.setHome h x).l2Wait = s.l2Wait := rfl
@[simp] theorem State.setHome_locks (s : State) (h : Nat) (x : Home) : (s.setHome h x).locks = s.locks := rfl
@[simp] theorem State.setHome_heldEn (s : State) (h : Nat) (x : Home) : (s.setHome h x).heldEn = s.heldEn := rfl
@[simp] theorem State.setHome_arrays (s : State) (h : Nat) (x : Home) : (s.setHome h x).arrays = s.arrays := rfl
@[simp] theorem State.setHome_openReqs (s : State) (h : Nat) (x : Home) : (s.setHome h x).openReqs = s.openReqs := rfl
@[simp] theorem State.setHome_sheets (s : State) (h : Nat) (x : Home) : (s.setHome h x).sheets = s.sheets := rfl
@[simp] theorem State.setHome_frozen (s : State) (h : Nat) (x : Home) : (s.setHome h x).frozen = s.frozen := rfl
@[simp] theorem State.setHome_windows (s : State) (h : Nat) (x : Home) : (s.setHome h x).windows = s.windows := rfl
@[simp] theorem State.setHome_easel (s : State) (h : Nat) (x : Home) : (s.setHome h x).easel = s.easel := rfl
@[simp] theorem State.setHome_keptBanks (s : State) (h : Nat) (x : Home) : (s.setHome h x).keptBanks = s.keptBanks := rfl
@[simp] theorem State.setHome_easelRot (s : State) (h : Nat) (x : Home) : (s.setHome h x).easelRot = s.easelRot := rfl
@[simp] theorem State.setHome_easelWait (s : State) (h : Nat) (x : Home) : (s.setHome h x).easelWait = s.easelWait := rfl
@[simp] theorem State.setHome_memctl (s : State) (h : Nat) (x : Home) : (s.setHome h x).memctl = s.memctl := rfl
@[simp] theorem State.setHome_vatWait (s : State) (h : Nat) (x : Home) : (s.setHome h x).vatWait = s.vatWait := rfl
@[simp] theorem State.setHome_xch (s : State) (h : Nat) (x : Home) : (s.setHome h x).xch = s.xch := rfl
@[simp] theorem State.setHome_moves (s : State) (h : Nat) (x : Home) : (s.setHome h x).moves = s.moves := rfl
@[simp] theorem State.setHome_links (s : State) (h : Nat) (x : Home) : (s.setHome h x).links = s.links := rfl
@[simp] theorem State.setHome_recTabs (s : State) (h : Nat) (x : Home) : (s.setHome h x).recTabs = s.recTabs := rfl
@[simp] theorem State.setHome_calq (s : State) (h : Nat) (x : Home) : (s.setHome h x).calq = s.calq := rfl
@[simp] theorem State.setHome_calSaved (s : State) (h : Nat) (x : Home) : (s.setHome h x).calSaved = s.calSaved := rfl
@[simp] theorem State.setHome_octRem (s : State) (h : Nat) (x : Home) : (s.setHome h x).octRem = s.octRem := rfl
@[simp] theorem State.setHome_calSlot (s : State) (h : Nat) (x : Home) : (s.setHome h x).calSlot = s.calSlot := rfl
@[simp] theorem State.setHome_varq (s : State) (h : Nat) (x : Home) : (s.setHome h x).varq = s.varq := rfl
@[simp] theorem State.setHome_varSlot (s : State) (h : Nat) (x : Home) : (s.setHome h x).varSlot = s.varSlot := rfl
@[simp] theorem State.setHome_keys (s : State) (h : Nat) (x : Home) : (s.setHome h x).keys = s.keys := rfl
@[simp] theorem State.setHome_pcicfg (s : State) (h : Nat) (x : Home) : (s.setHome h x).pcicfg = s.pcicfg := rfl
@[simp] theorem State.setHome_bar0 (s : State) (h : Nat) (x : Home) : (s.setHome h x).bar0 = s.bar0 := rfl
@[simp] theorem State.setHome_endpt (s : State) (h : Nat) (x : Home) : (s.setHome h x).endpt = s.endpt := rfl
@[simp] theorem State.setHome_relHeld (s : State) (h : Nat) (x : Home) : (s.setHome h x).relHeld = s.relHeld := rfl
@[simp] theorem State.setHome_taken (s : State) (h : Nat) (x : Home) : (s.setHome h x).taken = s.taken := rfl
@[simp] theorem State.setHome_conVer (s : State) (h : Nat) (x : Home) : (s.setHome h x).conVer = s.conVer := rfl
@[simp] theorem State.setHome_nonce (s : State) (h : Nat) (x : Home) : (s.setHome h x).nonce = s.nonce := rfl
@[simp] theorem State.setHome_longOps (s : State) (h : Nat) (x : Home) : (s.setHome h x).longOps = s.longOps := rfl
@[simp] theorem State.setHome_portHeld (s : State) (h : Nat) (x : Home) : (s.setHome h x).portHeld = s.portHeld := rfl
@[simp] theorem State.setHome_heldSeq (s : State) (h : Nat) (x : Home) : (s.setHome h x).heldSeq = s.heldSeq := rfl
@[simp] theorem State.setHome_waits (s : State) (h : Nat) (x : Home) : (s.setHome h x).waits = s.waits := rfl
@[simp] theorem State.setHome_assign (s : State) (h : Nat) (x : Home) : (s.setHome h x).assign = s.assign := rfl
@[simp] theorem State.setHome_panels (s : State) (h : Nat) (x : Home) : (s.setHome h x).panels = s.panels := rfl
@[simp] theorem State.setHome_heldFw (s : State) (h : Nat) (x : Home) : (s.setHome h x).heldFw = s.heldFw := rfl
@[simp] theorem State.setHome_records (s : State) (h : Nat) (x : Home) : (s.setHome h x).records = s.records := rfl
@[simp] theorem State.setHome_commit (s : State) (h : Nat) (x : Home) : (s.setHome h x).commit = s.commit := rfl
@[simp] theorem State.setHome_session (s : State) (h : Nat) (x : Home) : (s.setHome h x).session = s.session := rfl
@[simp] theorem State.setHome_webDown (s : State) (h : Nat) (x : Home) : (s.setHome h x).webDown = s.webDown := rfl
@[simp] theorem State.setHome_spareOf (s : State) (h : Nat) (x : Home) : (s.setHome h x).spareOf = s.spareOf := rfl
@[simp] theorem State.setHome_inReset (s : State) (h : Nat) (x : Home) : (s.setHome h x).inReset = s.inReset := rfl
@[simp] theorem State.setHome_shadows (s : State) (h : Nat) (x : Home) : (s.setHome h x).shadows = s.shadows := rfl
@[simp] theorem State.setHome_injWait (s : State) (h : Nat) (x : Home) : (s.setHome h x).injWait = s.injWait := rfl
@[simp] theorem State.setHome_outvotes (s : State) (h : Nat) (x : Home) : (s.setHome h x).outvotes = s.outvotes := rfl
@[simp] theorem State.setHome_restarted (s : State) (h : Nat) (x : Home) : (s.setHome h x).restarted = s.restarted := rfl
@[simp] theorem State.setHome_carried (s : State) (h : Nat) (x : Home) : (s.setHome h x).carried = s.carried := rfl
@[simp] theorem State.setHome_steps (s : State) (h : Nat) (x : Home) : (s.setHome h x).steps = s.steps := rfl
@[simp] theorem State.setHome_granted (s : State) (h : Nat) (x : Home) : (s.setHome h x).granted = s.granted := rfl
@[simp] theorem State.setHome_reserve (s : State) (h : Nat) (x : Home) : (s.setHome h x).reserve = s.reserve := rfl
@[simp] theorem State.setHome_warned (s : State) (h : Nat) (x : Home) : (s.setHome h x).warned = s.warned := rfl
@[simp] theorem State.setHome_stepHeld (s : State) (h : Nat) (x : Home) : (s.setHome h x).stepHeld = s.stepHeld := rfl
@[simp] theorem State.setHome_stepGoing (s : State) (h : Nat) (x : Home) : (s.setHome h x).stepGoing = s.stepGoing := rfl
@[simp] theorem State.setHome_stretched (s : State) (h : Nat) (x : Home) : (s.setHome h x).stretched = s.stretched := rfl
@[simp] theorem State.setHome_forced (s : State) (h : Nat) (x : Home) : (s.setHome h x).forced = s.forced := rfl
@[simp] theorem State.setHome_frameSeq (s : State) (h : Nat) (x : Home) : (s.setHome h x).frameSeq = s.frameSeq := rfl
@[simp] theorem State.setHome_pins (s : State) (h : Nat) (x : Home) : (s.setHome h x).pins = s.pins := rfl
@[simp] theorem State.setHome_smbAddr (s : State) (h : Nat) (x : Home) : (s.setHome h x).smbAddr = s.smbAddr := rfl
@[simp] theorem State.setHome_jtagIr (s : State) (h : Nat) (x : Home) : (s.setHome h x).jtagIr = s.jtagIr := rfl
@[simp] theorem State.setHome_phase (s : State) (h : Nat) (x : Home) : (s.setHome h x).phase = s.phase := rfl
@[simp] theorem State.setHome_holdFor (s : State) (h : Nat) (x : Home) : (s.setHome h x).holdFor = s.holdFor := rfl
@[simp] theorem State.setHome_rstArm (s : State) (h : Nat) (x : Home) : (s.setHome h x).rstArm = s.rstArm := rfl
@[simp] theorem State.setHome_staging (s : State) (h : Nat) (x : Home) : (s.setHome h x).staging = s.staging := rfl
@[simp] theorem State.setHome_stageHdr (s : State) (h : Nat) (x : Home) : (s.setHome h x).stageHdr = s.stageHdr := rfl
@[simp] theorem State.setHome_surge (s : State) (h : Nat) (x : Home) : (s.setHome h x).surge = s.surge := rfl
@[simp] theorem State.setHome_sent (s : State) (h : Nat) (x : Home) : (s.setHome h x).sent = s.sent := rfl
@[simp] theorem State.setHome_reacts (s : State) (h : Nat) (x : Home) : (s.setHome h x).reacts = s.reacts := rfl
@[simp] theorem State.setHome_freeCtr (s : State) (h : Nat) (x : Home) : (s.setHome h x).freeCtr = s.freeCtr := rfl

@[simp] theorem State.setSheet_pending (s : State) (n : Nat) (x : Sheet) : (s.setSheet n x).pending = s.pending := rfl
@[simp] theorem State.setSheet_clock (s : State) (n : Nat) (x : Sheet) : (s.setSheet n x).clock = s.clock := rfl
@[simp] theorem State.setSheet_cores (s : State) (n : Nat) (x : Sheet) : (s.setSheet n x).cores = s.cores := rfl
@[simp] theorem State.setSheet_regs (s : State) (n : Nat) (x : Sheet) : (s.setSheet n x).regs = s.regs := rfl
@[simp] theorem State.setSheet_shadow (s : State) (n : Nat) (x : Sheet) : (s.setSheet n x).shadow = s.shadow := rfl
@[simp] theorem State.setSheet_bEff (s : State) (n : Nat) (x : Sheet) : (s.setSheet n x).bEff = s.bEff := rfl
@[simp] theorem State.setSheet_qlines (s : State) (n : Nat) (x : Sheet) : (s.setSheet n x).qlines = s.qlines := rfl
@[simp] theorem State.setSheet_dir (s : State) (n : Nat) (x : Sheet) : (s.setSheet n x).dir = s.dir := rfl
@[simp] theorem State.setSheet_l3 (s : State) (n : Nat) (x : Sheet) : (s.setSheet n x).l3 = s.l3 := rfl
@[simp] theorem State.setSheet_homes (s : State) (n : Nat) (x : Sheet) : (s.setSheet n x).homes = s.homes := rfl
@[simp] theorem State.setSheet_dram (s : State) (n : Nat) (x : Sheet) : (s.setSheet n x).dram = s.dram := rfl
@[simp] theorem State.setSheet_poisoned (s : State) (n : Nat) (x : Sheet) : (s.setSheet n x).poisoned = s.poisoned := rfl
@[simp] theorem State.setSheet_lastOwner (s : State) (n : Nat) (x : Sheet) : (s.setSheet n x).lastOwner = s.lastOwner := rfl
@[simp] theorem State.setSheet_order64 (s : State) (n : Nat) (x : Sheet) : (s.setSheet n x).order64 = s.order64 := rfl
@[simp] theorem State.setSheet_l2Wait (s : State) (n : Nat) (x : Sheet) : (s.setSheet n x).l2Wait = s.l2Wait := rfl
@[simp] theorem State.setSheet_locks (s : State) (n : Nat) (x : Sheet) : (s.setSheet n x).locks = s.locks := rfl
@[simp] theorem State.setSheet_heldEn (s : State) (n : Nat) (x : Sheet) : (s.setSheet n x).heldEn = s.heldEn := rfl
@[simp] theorem State.setSheet_arrays (s : State) (n : Nat) (x : Sheet) : (s.setSheet n x).arrays = s.arrays := rfl
@[simp] theorem State.setSheet_openReqs (s : State) (n : Nat) (x : Sheet) : (s.setSheet n x).openReqs = s.openReqs := rfl
@[simp] theorem State.setSheet_frozen (s : State) (n : Nat) (x : Sheet) : (s.setSheet n x).frozen = s.frozen := rfl
@[simp] theorem State.setSheet_windows (s : State) (n : Nat) (x : Sheet) : (s.setSheet n x).windows = s.windows := rfl
@[simp] theorem State.setSheet_easel (s : State) (n : Nat) (x : Sheet) : (s.setSheet n x).easel = s.easel := rfl
@[simp] theorem State.setSheet_keptBanks (s : State) (n : Nat) (x : Sheet) : (s.setSheet n x).keptBanks = s.keptBanks := rfl
@[simp] theorem State.setSheet_easelRot (s : State) (n : Nat) (x : Sheet) : (s.setSheet n x).easelRot = s.easelRot := rfl
@[simp] theorem State.setSheet_easelWait (s : State) (n : Nat) (x : Sheet) : (s.setSheet n x).easelWait = s.easelWait := rfl
@[simp] theorem State.setSheet_memctl (s : State) (n : Nat) (x : Sheet) : (s.setSheet n x).memctl = s.memctl := rfl
@[simp] theorem State.setSheet_vatWait (s : State) (n : Nat) (x : Sheet) : (s.setSheet n x).vatWait = s.vatWait := rfl
@[simp] theorem State.setSheet_xch (s : State) (n : Nat) (x : Sheet) : (s.setSheet n x).xch = s.xch := rfl
@[simp] theorem State.setSheet_moves (s : State) (n : Nat) (x : Sheet) : (s.setSheet n x).moves = s.moves := rfl
@[simp] theorem State.setSheet_links (s : State) (n : Nat) (x : Sheet) : (s.setSheet n x).links = s.links := rfl
@[simp] theorem State.setSheet_recTabs (s : State) (n : Nat) (x : Sheet) : (s.setSheet n x).recTabs = s.recTabs := rfl
@[simp] theorem State.setSheet_calq (s : State) (n : Nat) (x : Sheet) : (s.setSheet n x).calq = s.calq := rfl
@[simp] theorem State.setSheet_calSaved (s : State) (n : Nat) (x : Sheet) : (s.setSheet n x).calSaved = s.calSaved := rfl
@[simp] theorem State.setSheet_octRem (s : State) (n : Nat) (x : Sheet) : (s.setSheet n x).octRem = s.octRem := rfl
@[simp] theorem State.setSheet_calSlot (s : State) (n : Nat) (x : Sheet) : (s.setSheet n x).calSlot = s.calSlot := rfl
@[simp] theorem State.setSheet_varq (s : State) (n : Nat) (x : Sheet) : (s.setSheet n x).varq = s.varq := rfl
@[simp] theorem State.setSheet_varSlot (s : State) (n : Nat) (x : Sheet) : (s.setSheet n x).varSlot = s.varSlot := rfl
@[simp] theorem State.setSheet_keys (s : State) (n : Nat) (x : Sheet) : (s.setSheet n x).keys = s.keys := rfl
@[simp] theorem State.setSheet_pcicfg (s : State) (n : Nat) (x : Sheet) : (s.setSheet n x).pcicfg = s.pcicfg := rfl
@[simp] theorem State.setSheet_bar0 (s : State) (n : Nat) (x : Sheet) : (s.setSheet n x).bar0 = s.bar0 := rfl
@[simp] theorem State.setSheet_endpt (s : State) (n : Nat) (x : Sheet) : (s.setSheet n x).endpt = s.endpt := rfl
@[simp] theorem State.setSheet_relHeld (s : State) (n : Nat) (x : Sheet) : (s.setSheet n x).relHeld = s.relHeld := rfl
@[simp] theorem State.setSheet_taken (s : State) (n : Nat) (x : Sheet) : (s.setSheet n x).taken = s.taken := rfl
@[simp] theorem State.setSheet_conVer (s : State) (n : Nat) (x : Sheet) : (s.setSheet n x).conVer = s.conVer := rfl
@[simp] theorem State.setSheet_nonce (s : State) (n : Nat) (x : Sheet) : (s.setSheet n x).nonce = s.nonce := rfl
@[simp] theorem State.setSheet_longOps (s : State) (n : Nat) (x : Sheet) : (s.setSheet n x).longOps = s.longOps := rfl
@[simp] theorem State.setSheet_portHeld (s : State) (n : Nat) (x : Sheet) : (s.setSheet n x).portHeld = s.portHeld := rfl
@[simp] theorem State.setSheet_heldSeq (s : State) (n : Nat) (x : Sheet) : (s.setSheet n x).heldSeq = s.heldSeq := rfl
@[simp] theorem State.setSheet_waits (s : State) (n : Nat) (x : Sheet) : (s.setSheet n x).waits = s.waits := rfl
@[simp] theorem State.setSheet_assign (s : State) (n : Nat) (x : Sheet) : (s.setSheet n x).assign = s.assign := rfl
@[simp] theorem State.setSheet_panels (s : State) (n : Nat) (x : Sheet) : (s.setSheet n x).panels = s.panels := rfl
@[simp] theorem State.setSheet_heldFw (s : State) (n : Nat) (x : Sheet) : (s.setSheet n x).heldFw = s.heldFw := rfl
@[simp] theorem State.setSheet_records (s : State) (n : Nat) (x : Sheet) : (s.setSheet n x).records = s.records := rfl
@[simp] theorem State.setSheet_commit (s : State) (n : Nat) (x : Sheet) : (s.setSheet n x).commit = s.commit := rfl
@[simp] theorem State.setSheet_session (s : State) (n : Nat) (x : Sheet) : (s.setSheet n x).session = s.session := rfl
@[simp] theorem State.setSheet_webDown (s : State) (n : Nat) (x : Sheet) : (s.setSheet n x).webDown = s.webDown := rfl
@[simp] theorem State.setSheet_spareOf (s : State) (n : Nat) (x : Sheet) : (s.setSheet n x).spareOf = s.spareOf := rfl
@[simp] theorem State.setSheet_inReset (s : State) (n : Nat) (x : Sheet) : (s.setSheet n x).inReset = s.inReset := rfl
@[simp] theorem State.setSheet_shadows (s : State) (n : Nat) (x : Sheet) : (s.setSheet n x).shadows = s.shadows := rfl
@[simp] theorem State.setSheet_injWait (s : State) (n : Nat) (x : Sheet) : (s.setSheet n x).injWait = s.injWait := rfl
@[simp] theorem State.setSheet_outvotes (s : State) (n : Nat) (x : Sheet) : (s.setSheet n x).outvotes = s.outvotes := rfl
@[simp] theorem State.setSheet_restarted (s : State) (n : Nat) (x : Sheet) : (s.setSheet n x).restarted = s.restarted := rfl
@[simp] theorem State.setSheet_carried (s : State) (n : Nat) (x : Sheet) : (s.setSheet n x).carried = s.carried := rfl
@[simp] theorem State.setSheet_steps (s : State) (n : Nat) (x : Sheet) : (s.setSheet n x).steps = s.steps := rfl
@[simp] theorem State.setSheet_granted (s : State) (n : Nat) (x : Sheet) : (s.setSheet n x).granted = s.granted := rfl
@[simp] theorem State.setSheet_reserve (s : State) (n : Nat) (x : Sheet) : (s.setSheet n x).reserve = s.reserve := rfl
@[simp] theorem State.setSheet_warned (s : State) (n : Nat) (x : Sheet) : (s.setSheet n x).warned = s.warned := rfl
@[simp] theorem State.setSheet_stepHeld (s : State) (n : Nat) (x : Sheet) : (s.setSheet n x).stepHeld = s.stepHeld := rfl
@[simp] theorem State.setSheet_stepGoing (s : State) (n : Nat) (x : Sheet) : (s.setSheet n x).stepGoing = s.stepGoing := rfl
@[simp] theorem State.setSheet_stretched (s : State) (n : Nat) (x : Sheet) : (s.setSheet n x).stretched = s.stretched := rfl
@[simp] theorem State.setSheet_forced (s : State) (n : Nat) (x : Sheet) : (s.setSheet n x).forced = s.forced := rfl
@[simp] theorem State.setSheet_frameSeq (s : State) (n : Nat) (x : Sheet) : (s.setSheet n x).frameSeq = s.frameSeq := rfl
@[simp] theorem State.setSheet_pins (s : State) (n : Nat) (x : Sheet) : (s.setSheet n x).pins = s.pins := rfl
@[simp] theorem State.setSheet_smbAddr (s : State) (n : Nat) (x : Sheet) : (s.setSheet n x).smbAddr = s.smbAddr := rfl
@[simp] theorem State.setSheet_jtagIr (s : State) (n : Nat) (x : Sheet) : (s.setSheet n x).jtagIr = s.jtagIr := rfl
@[simp] theorem State.setSheet_phase (s : State) (n : Nat) (x : Sheet) : (s.setSheet n x).phase = s.phase := rfl
@[simp] theorem State.setSheet_holdFor (s : State) (n : Nat) (x : Sheet) : (s.setSheet n x).holdFor = s.holdFor := rfl
@[simp] theorem State.setSheet_rstArm (s : State) (n : Nat) (x : Sheet) : (s.setSheet n x).rstArm = s.rstArm := rfl
@[simp] theorem State.setSheet_staging (s : State) (n : Nat) (x : Sheet) : (s.setSheet n x).staging = s.staging := rfl
@[simp] theorem State.setSheet_stageHdr (s : State) (n : Nat) (x : Sheet) : (s.setSheet n x).stageHdr = s.stageHdr := rfl
@[simp] theorem State.setSheet_surge (s : State) (n : Nat) (x : Sheet) : (s.setSheet n x).surge = s.surge := rfl
@[simp] theorem State.setSheet_sent (s : State) (n : Nat) (x : Sheet) : (s.setSheet n x).sent = s.sent := rfl
@[simp] theorem State.setSheet_reacts (s : State) (n : Nat) (x : Sheet) : (s.setSheet n x).reacts = s.reacts := rfl
@[simp] theorem State.setSheet_freeCtr (s : State) (n : Nat) (x : Sheet) : (s.setSheet n x).freeCtr = s.freeCtr := rfl

@[simp] theorem State.setEasel_pending (s : State) (t e : Nat) (w : Word) : (s.setEasel t e w).pending = s.pending := by rw [State.setEasel]
@[simp] theorem State.setEasel_clock (s : State) (t e : Nat) (w : Word) : (s.setEasel t e w).clock = s.clock := by rw [State.setEasel]
@[simp] theorem State.setEasel_cores (s : State) (t e : Nat) (w : Word) : (s.setEasel t e w).cores = s.cores := by rw [State.setEasel]
@[simp] theorem State.setEasel_regs (s : State) (t e : Nat) (w : Word) : (s.setEasel t e w).regs = s.regs := by rw [State.setEasel]
@[simp] theorem State.setEasel_shadow (s : State) (t e : Nat) (w : Word) : (s.setEasel t e w).shadow = s.shadow := by rw [State.setEasel]
@[simp] theorem State.setEasel_bEff (s : State) (t e : Nat) (w : Word) : (s.setEasel t e w).bEff = s.bEff := by rw [State.setEasel]
@[simp] theorem State.setEasel_qlines (s : State) (t e : Nat) (w : Word) : (s.setEasel t e w).qlines = s.qlines := by rw [State.setEasel]
@[simp] theorem State.setEasel_dir (s : State) (t e : Nat) (w : Word) : (s.setEasel t e w).dir = s.dir := by rw [State.setEasel]
@[simp] theorem State.setEasel_l3 (s : State) (t e : Nat) (w : Word) : (s.setEasel t e w).l3 = s.l3 := by rw [State.setEasel]
@[simp] theorem State.setEasel_homes (s : State) (t e : Nat) (w : Word) : (s.setEasel t e w).homes = s.homes := by rw [State.setEasel]
@[simp] theorem State.setEasel_dram (s : State) (t e : Nat) (w : Word) : (s.setEasel t e w).dram = s.dram := by rw [State.setEasel]
@[simp] theorem State.setEasel_poisoned (s : State) (t e : Nat) (w : Word) : (s.setEasel t e w).poisoned = s.poisoned := by rw [State.setEasel]
@[simp] theorem State.setEasel_lastOwner (s : State) (t e : Nat) (w : Word) : (s.setEasel t e w).lastOwner = s.lastOwner := by rw [State.setEasel]
@[simp] theorem State.setEasel_order64 (s : State) (t e : Nat) (w : Word) : (s.setEasel t e w).order64 = s.order64 := by rw [State.setEasel]
@[simp] theorem State.setEasel_l2Wait (s : State) (t e : Nat) (w : Word) : (s.setEasel t e w).l2Wait = s.l2Wait := by rw [State.setEasel]
@[simp] theorem State.setEasel_locks (s : State) (t e : Nat) (w : Word) : (s.setEasel t e w).locks = s.locks := by rw [State.setEasel]
@[simp] theorem State.setEasel_heldEn (s : State) (t e : Nat) (w : Word) : (s.setEasel t e w).heldEn = s.heldEn := by rw [State.setEasel]
@[simp] theorem State.setEasel_arrays (s : State) (t e : Nat) (w : Word) : (s.setEasel t e w).arrays = s.arrays := by rw [State.setEasel]
@[simp] theorem State.setEasel_openReqs (s : State) (t e : Nat) (w : Word) : (s.setEasel t e w).openReqs = s.openReqs := by rw [State.setEasel]
@[simp] theorem State.setEasel_sheets (s : State) (t e : Nat) (w : Word) : (s.setEasel t e w).sheets = s.sheets := by rw [State.setEasel]
@[simp] theorem State.setEasel_frozen (s : State) (t e : Nat) (w : Word) : (s.setEasel t e w).frozen = s.frozen := by rw [State.setEasel]
@[simp] theorem State.setEasel_windows (s : State) (t e : Nat) (w : Word) : (s.setEasel t e w).windows = s.windows := by rw [State.setEasel]
@[simp] theorem State.setEasel_keptBanks (s : State) (t e : Nat) (w : Word) : (s.setEasel t e w).keptBanks = s.keptBanks := by rw [State.setEasel]
@[simp] theorem State.setEasel_easelRot (s : State) (t e : Nat) (w : Word) : (s.setEasel t e w).easelRot = s.easelRot := by rw [State.setEasel]
@[simp] theorem State.setEasel_easelWait (s : State) (t e : Nat) (w : Word) : (s.setEasel t e w).easelWait = s.easelWait := by rw [State.setEasel]
@[simp] theorem State.setEasel_memctl (s : State) (t e : Nat) (w : Word) : (s.setEasel t e w).memctl = s.memctl := by rw [State.setEasel]
@[simp] theorem State.setEasel_vatWait (s : State) (t e : Nat) (w : Word) : (s.setEasel t e w).vatWait = s.vatWait := by rw [State.setEasel]
@[simp] theorem State.setEasel_xch (s : State) (t e : Nat) (w : Word) : (s.setEasel t e w).xch = s.xch := by rw [State.setEasel]
@[simp] theorem State.setEasel_moves (s : State) (t e : Nat) (w : Word) : (s.setEasel t e w).moves = s.moves := by rw [State.setEasel]
@[simp] theorem State.setEasel_links (s : State) (t e : Nat) (w : Word) : (s.setEasel t e w).links = s.links := by rw [State.setEasel]
@[simp] theorem State.setEasel_recTabs (s : State) (t e : Nat) (w : Word) : (s.setEasel t e w).recTabs = s.recTabs := by rw [State.setEasel]
@[simp] theorem State.setEasel_calq (s : State) (t e : Nat) (w : Word) : (s.setEasel t e w).calq = s.calq := by rw [State.setEasel]
@[simp] theorem State.setEasel_calSaved (s : State) (t e : Nat) (w : Word) : (s.setEasel t e w).calSaved = s.calSaved := by rw [State.setEasel]
@[simp] theorem State.setEasel_octRem (s : State) (t e : Nat) (w : Word) : (s.setEasel t e w).octRem = s.octRem := by rw [State.setEasel]
@[simp] theorem State.setEasel_calSlot (s : State) (t e : Nat) (w : Word) : (s.setEasel t e w).calSlot = s.calSlot := by rw [State.setEasel]
@[simp] theorem State.setEasel_varq (s : State) (t e : Nat) (w : Word) : (s.setEasel t e w).varq = s.varq := by rw [State.setEasel]
@[simp] theorem State.setEasel_varSlot (s : State) (t e : Nat) (w : Word) : (s.setEasel t e w).varSlot = s.varSlot := by rw [State.setEasel]
@[simp] theorem State.setEasel_keys (s : State) (t e : Nat) (w : Word) : (s.setEasel t e w).keys = s.keys := by rw [State.setEasel]
@[simp] theorem State.setEasel_pcicfg (s : State) (t e : Nat) (w : Word) : (s.setEasel t e w).pcicfg = s.pcicfg := by rw [State.setEasel]
@[simp] theorem State.setEasel_bar0 (s : State) (t e : Nat) (w : Word) : (s.setEasel t e w).bar0 = s.bar0 := by rw [State.setEasel]
@[simp] theorem State.setEasel_endpt (s : State) (t e : Nat) (w : Word) : (s.setEasel t e w).endpt = s.endpt := by rw [State.setEasel]
@[simp] theorem State.setEasel_relHeld (s : State) (t e : Nat) (w : Word) : (s.setEasel t e w).relHeld = s.relHeld := by rw [State.setEasel]
@[simp] theorem State.setEasel_taken (s : State) (t e : Nat) (w : Word) : (s.setEasel t e w).taken = s.taken := by rw [State.setEasel]
@[simp] theorem State.setEasel_conVer (s : State) (t e : Nat) (w : Word) : (s.setEasel t e w).conVer = s.conVer := by rw [State.setEasel]
@[simp] theorem State.setEasel_nonce (s : State) (t e : Nat) (w : Word) : (s.setEasel t e w).nonce = s.nonce := by rw [State.setEasel]
@[simp] theorem State.setEasel_longOps (s : State) (t e : Nat) (w : Word) : (s.setEasel t e w).longOps = s.longOps := by rw [State.setEasel]
@[simp] theorem State.setEasel_portHeld (s : State) (t e : Nat) (w : Word) : (s.setEasel t e w).portHeld = s.portHeld := by rw [State.setEasel]
@[simp] theorem State.setEasel_heldSeq (s : State) (t e : Nat) (w : Word) : (s.setEasel t e w).heldSeq = s.heldSeq := by rw [State.setEasel]
@[simp] theorem State.setEasel_waits (s : State) (t e : Nat) (w : Word) : (s.setEasel t e w).waits = s.waits := by rw [State.setEasel]
@[simp] theorem State.setEasel_assign (s : State) (t e : Nat) (w : Word) : (s.setEasel t e w).assign = s.assign := by rw [State.setEasel]
@[simp] theorem State.setEasel_panels (s : State) (t e : Nat) (w : Word) : (s.setEasel t e w).panels = s.panels := by rw [State.setEasel]
@[simp] theorem State.setEasel_heldFw (s : State) (t e : Nat) (w : Word) : (s.setEasel t e w).heldFw = s.heldFw := by rw [State.setEasel]
@[simp] theorem State.setEasel_records (s : State) (t e : Nat) (w : Word) : (s.setEasel t e w).records = s.records := by rw [State.setEasel]
@[simp] theorem State.setEasel_commit (s : State) (t e : Nat) (w : Word) : (s.setEasel t e w).commit = s.commit := by rw [State.setEasel]
@[simp] theorem State.setEasel_session (s : State) (t e : Nat) (w : Word) : (s.setEasel t e w).session = s.session := by rw [State.setEasel]
@[simp] theorem State.setEasel_webDown (s : State) (t e : Nat) (w : Word) : (s.setEasel t e w).webDown = s.webDown := by rw [State.setEasel]
@[simp] theorem State.setEasel_spareOf (s : State) (t e : Nat) (w : Word) : (s.setEasel t e w).spareOf = s.spareOf := by rw [State.setEasel]
@[simp] theorem State.setEasel_inReset (s : State) (t e : Nat) (w : Word) : (s.setEasel t e w).inReset = s.inReset := by rw [State.setEasel]
@[simp] theorem State.setEasel_shadows (s : State) (t e : Nat) (w : Word) : (s.setEasel t e w).shadows = s.shadows := by rw [State.setEasel]
@[simp] theorem State.setEasel_injWait (s : State) (t e : Nat) (w : Word) : (s.setEasel t e w).injWait = s.injWait := by rw [State.setEasel]
@[simp] theorem State.setEasel_outvotes (s : State) (t e : Nat) (w : Word) : (s.setEasel t e w).outvotes = s.outvotes := by rw [State.setEasel]
@[simp] theorem State.setEasel_restarted (s : State) (t e : Nat) (w : Word) : (s.setEasel t e w).restarted = s.restarted := by rw [State.setEasel]
@[simp] theorem State.setEasel_carried (s : State) (t e : Nat) (w : Word) : (s.setEasel t e w).carried = s.carried := by rw [State.setEasel]
@[simp] theorem State.setEasel_steps (s : State) (t e : Nat) (w : Word) : (s.setEasel t e w).steps = s.steps := by rw [State.setEasel]
@[simp] theorem State.setEasel_granted (s : State) (t e : Nat) (w : Word) : (s.setEasel t e w).granted = s.granted := by rw [State.setEasel]
@[simp] theorem State.setEasel_reserve (s : State) (t e : Nat) (w : Word) : (s.setEasel t e w).reserve = s.reserve := by rw [State.setEasel]
@[simp] theorem State.setEasel_warned (s : State) (t e : Nat) (w : Word) : (s.setEasel t e w).warned = s.warned := by rw [State.setEasel]
@[simp] theorem State.setEasel_stepHeld (s : State) (t e : Nat) (w : Word) : (s.setEasel t e w).stepHeld = s.stepHeld := by rw [State.setEasel]
@[simp] theorem State.setEasel_stepGoing (s : State) (t e : Nat) (w : Word) : (s.setEasel t e w).stepGoing = s.stepGoing := by rw [State.setEasel]
@[simp] theorem State.setEasel_stretched (s : State) (t e : Nat) (w : Word) : (s.setEasel t e w).stretched = s.stretched := by rw [State.setEasel]
@[simp] theorem State.setEasel_forced (s : State) (t e : Nat) (w : Word) : (s.setEasel t e w).forced = s.forced := by rw [State.setEasel]
@[simp] theorem State.setEasel_frameSeq (s : State) (t e : Nat) (w : Word) : (s.setEasel t e w).frameSeq = s.frameSeq := by rw [State.setEasel]
@[simp] theorem State.setEasel_pins (s : State) (t e : Nat) (w : Word) : (s.setEasel t e w).pins = s.pins := by rw [State.setEasel]
@[simp] theorem State.setEasel_smbAddr (s : State) (t e : Nat) (w : Word) : (s.setEasel t e w).smbAddr = s.smbAddr := by rw [State.setEasel]
@[simp] theorem State.setEasel_jtagIr (s : State) (t e : Nat) (w : Word) : (s.setEasel t e w).jtagIr = s.jtagIr := by rw [State.setEasel]
@[simp] theorem State.setEasel_phase (s : State) (t e : Nat) (w : Word) : (s.setEasel t e w).phase = s.phase := by rw [State.setEasel]
@[simp] theorem State.setEasel_holdFor (s : State) (t e : Nat) (w : Word) : (s.setEasel t e w).holdFor = s.holdFor := by rw [State.setEasel]
@[simp] theorem State.setEasel_rstArm (s : State) (t e : Nat) (w : Word) : (s.setEasel t e w).rstArm = s.rstArm := by rw [State.setEasel]
@[simp] theorem State.setEasel_staging (s : State) (t e : Nat) (w : Word) : (s.setEasel t e w).staging = s.staging := by rw [State.setEasel]
@[simp] theorem State.setEasel_stageHdr (s : State) (t e : Nat) (w : Word) : (s.setEasel t e w).stageHdr = s.stageHdr := by rw [State.setEasel]
@[simp] theorem State.setEasel_surge (s : State) (t e : Nat) (w : Word) : (s.setEasel t e w).surge = s.surge := by rw [State.setEasel]
@[simp] theorem State.setEasel_sent (s : State) (t e : Nat) (w : Word) : (s.setEasel t e w).sent = s.sent := by rw [State.setEasel]
@[simp] theorem State.setEasel_reacts (s : State) (t e : Nat) (w : Word) : (s.setEasel t e w).reacts = s.reacts := by rw [State.setEasel]
@[simp] theorem State.setEasel_freeCtr (s : State) (t e : Nat) (w : Word) : (s.setEasel t e w).freeCtr = s.freeCtr := by rw [State.setEasel]

@[simp] theorem State.setMc_pending (s : State) (m : Nat) (x : MemCtl) : (s.setMc m x).pending = s.pending := rfl
@[simp] theorem State.setMc_clock (s : State) (m : Nat) (x : MemCtl) : (s.setMc m x).clock = s.clock := rfl
@[simp] theorem State.setMc_cores (s : State) (m : Nat) (x : MemCtl) : (s.setMc m x).cores = s.cores := rfl
@[simp] theorem State.setMc_regs (s : State) (m : Nat) (x : MemCtl) : (s.setMc m x).regs = s.regs := rfl
@[simp] theorem State.setMc_shadow (s : State) (m : Nat) (x : MemCtl) : (s.setMc m x).shadow = s.shadow := rfl
@[simp] theorem State.setMc_bEff (s : State) (m : Nat) (x : MemCtl) : (s.setMc m x).bEff = s.bEff := rfl
@[simp] theorem State.setMc_qlines (s : State) (m : Nat) (x : MemCtl) : (s.setMc m x).qlines = s.qlines := rfl
@[simp] theorem State.setMc_dir (s : State) (m : Nat) (x : MemCtl) : (s.setMc m x).dir = s.dir := rfl
@[simp] theorem State.setMc_l3 (s : State) (m : Nat) (x : MemCtl) : (s.setMc m x).l3 = s.l3 := rfl
@[simp] theorem State.setMc_homes (s : State) (m : Nat) (x : MemCtl) : (s.setMc m x).homes = s.homes := rfl
@[simp] theorem State.setMc_dram (s : State) (m : Nat) (x : MemCtl) : (s.setMc m x).dram = s.dram := rfl
@[simp] theorem State.setMc_poisoned (s : State) (m : Nat) (x : MemCtl) : (s.setMc m x).poisoned = s.poisoned := rfl
@[simp] theorem State.setMc_lastOwner (s : State) (m : Nat) (x : MemCtl) : (s.setMc m x).lastOwner = s.lastOwner := rfl
@[simp] theorem State.setMc_order64 (s : State) (m : Nat) (x : MemCtl) : (s.setMc m x).order64 = s.order64 := rfl
@[simp] theorem State.setMc_l2Wait (s : State) (m : Nat) (x : MemCtl) : (s.setMc m x).l2Wait = s.l2Wait := rfl
@[simp] theorem State.setMc_locks (s : State) (m : Nat) (x : MemCtl) : (s.setMc m x).locks = s.locks := rfl
@[simp] theorem State.setMc_heldEn (s : State) (m : Nat) (x : MemCtl) : (s.setMc m x).heldEn = s.heldEn := rfl
@[simp] theorem State.setMc_arrays (s : State) (m : Nat) (x : MemCtl) : (s.setMc m x).arrays = s.arrays := rfl
@[simp] theorem State.setMc_openReqs (s : State) (m : Nat) (x : MemCtl) : (s.setMc m x).openReqs = s.openReqs := rfl
@[simp] theorem State.setMc_sheets (s : State) (m : Nat) (x : MemCtl) : (s.setMc m x).sheets = s.sheets := rfl
@[simp] theorem State.setMc_frozen (s : State) (m : Nat) (x : MemCtl) : (s.setMc m x).frozen = s.frozen := rfl
@[simp] theorem State.setMc_windows (s : State) (m : Nat) (x : MemCtl) : (s.setMc m x).windows = s.windows := rfl
@[simp] theorem State.setMc_easel (s : State) (m : Nat) (x : MemCtl) : (s.setMc m x).easel = s.easel := rfl
@[simp] theorem State.setMc_keptBanks (s : State) (m : Nat) (x : MemCtl) : (s.setMc m x).keptBanks = s.keptBanks := rfl
@[simp] theorem State.setMc_easelRot (s : State) (m : Nat) (x : MemCtl) : (s.setMc m x).easelRot = s.easelRot := rfl
@[simp] theorem State.setMc_easelWait (s : State) (m : Nat) (x : MemCtl) : (s.setMc m x).easelWait = s.easelWait := rfl
@[simp] theorem State.setMc_vatWait (s : State) (m : Nat) (x : MemCtl) : (s.setMc m x).vatWait = s.vatWait := rfl
@[simp] theorem State.setMc_xch (s : State) (m : Nat) (x : MemCtl) : (s.setMc m x).xch = s.xch := rfl
@[simp] theorem State.setMc_moves (s : State) (m : Nat) (x : MemCtl) : (s.setMc m x).moves = s.moves := rfl
@[simp] theorem State.setMc_links (s : State) (m : Nat) (x : MemCtl) : (s.setMc m x).links = s.links := rfl
@[simp] theorem State.setMc_recTabs (s : State) (m : Nat) (x : MemCtl) : (s.setMc m x).recTabs = s.recTabs := rfl
@[simp] theorem State.setMc_calq (s : State) (m : Nat) (x : MemCtl) : (s.setMc m x).calq = s.calq := rfl
@[simp] theorem State.setMc_calSaved (s : State) (m : Nat) (x : MemCtl) : (s.setMc m x).calSaved = s.calSaved := rfl
@[simp] theorem State.setMc_octRem (s : State) (m : Nat) (x : MemCtl) : (s.setMc m x).octRem = s.octRem := rfl
@[simp] theorem State.setMc_calSlot (s : State) (m : Nat) (x : MemCtl) : (s.setMc m x).calSlot = s.calSlot := rfl
@[simp] theorem State.setMc_varq (s : State) (m : Nat) (x : MemCtl) : (s.setMc m x).varq = s.varq := rfl
@[simp] theorem State.setMc_varSlot (s : State) (m : Nat) (x : MemCtl) : (s.setMc m x).varSlot = s.varSlot := rfl
@[simp] theorem State.setMc_keys (s : State) (m : Nat) (x : MemCtl) : (s.setMc m x).keys = s.keys := rfl
@[simp] theorem State.setMc_pcicfg (s : State) (m : Nat) (x : MemCtl) : (s.setMc m x).pcicfg = s.pcicfg := rfl
@[simp] theorem State.setMc_bar0 (s : State) (m : Nat) (x : MemCtl) : (s.setMc m x).bar0 = s.bar0 := rfl
@[simp] theorem State.setMc_endpt (s : State) (m : Nat) (x : MemCtl) : (s.setMc m x).endpt = s.endpt := rfl
@[simp] theorem State.setMc_relHeld (s : State) (m : Nat) (x : MemCtl) : (s.setMc m x).relHeld = s.relHeld := rfl
@[simp] theorem State.setMc_taken (s : State) (m : Nat) (x : MemCtl) : (s.setMc m x).taken = s.taken := rfl
@[simp] theorem State.setMc_conVer (s : State) (m : Nat) (x : MemCtl) : (s.setMc m x).conVer = s.conVer := rfl
@[simp] theorem State.setMc_nonce (s : State) (m : Nat) (x : MemCtl) : (s.setMc m x).nonce = s.nonce := rfl
@[simp] theorem State.setMc_longOps (s : State) (m : Nat) (x : MemCtl) : (s.setMc m x).longOps = s.longOps := rfl
@[simp] theorem State.setMc_portHeld (s : State) (m : Nat) (x : MemCtl) : (s.setMc m x).portHeld = s.portHeld := rfl
@[simp] theorem State.setMc_heldSeq (s : State) (m : Nat) (x : MemCtl) : (s.setMc m x).heldSeq = s.heldSeq := rfl
@[simp] theorem State.setMc_waits (s : State) (m : Nat) (x : MemCtl) : (s.setMc m x).waits = s.waits := rfl
@[simp] theorem State.setMc_assign (s : State) (m : Nat) (x : MemCtl) : (s.setMc m x).assign = s.assign := rfl
@[simp] theorem State.setMc_panels (s : State) (m : Nat) (x : MemCtl) : (s.setMc m x).panels = s.panels := rfl
@[simp] theorem State.setMc_heldFw (s : State) (m : Nat) (x : MemCtl) : (s.setMc m x).heldFw = s.heldFw := rfl
@[simp] theorem State.setMc_records (s : State) (m : Nat) (x : MemCtl) : (s.setMc m x).records = s.records := rfl
@[simp] theorem State.setMc_commit (s : State) (m : Nat) (x : MemCtl) : (s.setMc m x).commit = s.commit := rfl
@[simp] theorem State.setMc_session (s : State) (m : Nat) (x : MemCtl) : (s.setMc m x).session = s.session := rfl
@[simp] theorem State.setMc_webDown (s : State) (m : Nat) (x : MemCtl) : (s.setMc m x).webDown = s.webDown := rfl
@[simp] theorem State.setMc_spareOf (s : State) (m : Nat) (x : MemCtl) : (s.setMc m x).spareOf = s.spareOf := rfl
@[simp] theorem State.setMc_inReset (s : State) (m : Nat) (x : MemCtl) : (s.setMc m x).inReset = s.inReset := rfl
@[simp] theorem State.setMc_shadows (s : State) (m : Nat) (x : MemCtl) : (s.setMc m x).shadows = s.shadows := rfl
@[simp] theorem State.setMc_injWait (s : State) (m : Nat) (x : MemCtl) : (s.setMc m x).injWait = s.injWait := rfl
@[simp] theorem State.setMc_outvotes (s : State) (m : Nat) (x : MemCtl) : (s.setMc m x).outvotes = s.outvotes := rfl
@[simp] theorem State.setMc_restarted (s : State) (m : Nat) (x : MemCtl) : (s.setMc m x).restarted = s.restarted := rfl
@[simp] theorem State.setMc_carried (s : State) (m : Nat) (x : MemCtl) : (s.setMc m x).carried = s.carried := rfl
@[simp] theorem State.setMc_steps (s : State) (m : Nat) (x : MemCtl) : (s.setMc m x).steps = s.steps := rfl
@[simp] theorem State.setMc_granted (s : State) (m : Nat) (x : MemCtl) : (s.setMc m x).granted = s.granted := rfl
@[simp] theorem State.setMc_reserve (s : State) (m : Nat) (x : MemCtl) : (s.setMc m x).reserve = s.reserve := rfl
@[simp] theorem State.setMc_warned (s : State) (m : Nat) (x : MemCtl) : (s.setMc m x).warned = s.warned := rfl
@[simp] theorem State.setMc_stepHeld (s : State) (m : Nat) (x : MemCtl) : (s.setMc m x).stepHeld = s.stepHeld := rfl
@[simp] theorem State.setMc_stepGoing (s : State) (m : Nat) (x : MemCtl) : (s.setMc m x).stepGoing = s.stepGoing := rfl
@[simp] theorem State.setMc_stretched (s : State) (m : Nat) (x : MemCtl) : (s.setMc m x).stretched = s.stretched := rfl
@[simp] theorem State.setMc_forced (s : State) (m : Nat) (x : MemCtl) : (s.setMc m x).forced = s.forced := rfl
@[simp] theorem State.setMc_frameSeq (s : State) (m : Nat) (x : MemCtl) : (s.setMc m x).frameSeq = s.frameSeq := rfl
@[simp] theorem State.setMc_pins (s : State) (m : Nat) (x : MemCtl) : (s.setMc m x).pins = s.pins := rfl
@[simp] theorem State.setMc_smbAddr (s : State) (m : Nat) (x : MemCtl) : (s.setMc m x).smbAddr = s.smbAddr := rfl
@[simp] theorem State.setMc_jtagIr (s : State) (m : Nat) (x : MemCtl) : (s.setMc m x).jtagIr = s.jtagIr := rfl
@[simp] theorem State.setMc_phase (s : State) (m : Nat) (x : MemCtl) : (s.setMc m x).phase = s.phase := rfl
@[simp] theorem State.setMc_holdFor (s : State) (m : Nat) (x : MemCtl) : (s.setMc m x).holdFor = s.holdFor := rfl
@[simp] theorem State.setMc_rstArm (s : State) (m : Nat) (x : MemCtl) : (s.setMc m x).rstArm = s.rstArm := rfl
@[simp] theorem State.setMc_staging (s : State) (m : Nat) (x : MemCtl) : (s.setMc m x).staging = s.staging := rfl
@[simp] theorem State.setMc_stageHdr (s : State) (m : Nat) (x : MemCtl) : (s.setMc m x).stageHdr = s.stageHdr := rfl
@[simp] theorem State.setMc_surge (s : State) (m : Nat) (x : MemCtl) : (s.setMc m x).surge = s.surge := rfl
@[simp] theorem State.setMc_sent (s : State) (m : Nat) (x : MemCtl) : (s.setMc m x).sent = s.sent := rfl
@[simp] theorem State.setMc_reacts (s : State) (m : Nat) (x : MemCtl) : (s.setMc m x).reacts = s.reacts := rfl
@[simp] theorem State.setMc_freeCtr (s : State) (m : Nat) (x : MemCtl) : (s.setMc m x).freeCtr = s.freeCtr := rfl

@[simp] theorem State.setLock_pending (s : State) (q n w : Nat) (x : LockSlot) : (s.setLock q n w x).pending = s.pending := rfl
@[simp] theorem State.setLock_clock (s : State) (q n w : Nat) (x : LockSlot) : (s.setLock q n w x).clock = s.clock := rfl
@[simp] theorem State.setLock_cores (s : State) (q n w : Nat) (x : LockSlot) : (s.setLock q n w x).cores = s.cores := rfl
@[simp] theorem State.setLock_regs (s : State) (q n w : Nat) (x : LockSlot) : (s.setLock q n w x).regs = s.regs := rfl
@[simp] theorem State.setLock_shadow (s : State) (q n w : Nat) (x : LockSlot) : (s.setLock q n w x).shadow = s.shadow := rfl
@[simp] theorem State.setLock_bEff (s : State) (q n w : Nat) (x : LockSlot) : (s.setLock q n w x).bEff = s.bEff := rfl
@[simp] theorem State.setLock_qlines (s : State) (q n w : Nat) (x : LockSlot) : (s.setLock q n w x).qlines = s.qlines := rfl
@[simp] theorem State.setLock_dir (s : State) (q n w : Nat) (x : LockSlot) : (s.setLock q n w x).dir = s.dir := rfl
@[simp] theorem State.setLock_l3 (s : State) (q n w : Nat) (x : LockSlot) : (s.setLock q n w x).l3 = s.l3 := rfl
@[simp] theorem State.setLock_homes (s : State) (q n w : Nat) (x : LockSlot) : (s.setLock q n w x).homes = s.homes := rfl
@[simp] theorem State.setLock_dram (s : State) (q n w : Nat) (x : LockSlot) : (s.setLock q n w x).dram = s.dram := rfl
@[simp] theorem State.setLock_poisoned (s : State) (q n w : Nat) (x : LockSlot) : (s.setLock q n w x).poisoned = s.poisoned := rfl
@[simp] theorem State.setLock_lastOwner (s : State) (q n w : Nat) (x : LockSlot) : (s.setLock q n w x).lastOwner = s.lastOwner := rfl
@[simp] theorem State.setLock_order64 (s : State) (q n w : Nat) (x : LockSlot) : (s.setLock q n w x).order64 = s.order64 := rfl
@[simp] theorem State.setLock_l2Wait (s : State) (q n w : Nat) (x : LockSlot) : (s.setLock q n w x).l2Wait = s.l2Wait := rfl
@[simp] theorem State.setLock_heldEn (s : State) (q n w : Nat) (x : LockSlot) : (s.setLock q n w x).heldEn = s.heldEn := rfl
@[simp] theorem State.setLock_arrays (s : State) (q n w : Nat) (x : LockSlot) : (s.setLock q n w x).arrays = s.arrays := rfl
@[simp] theorem State.setLock_openReqs (s : State) (q n w : Nat) (x : LockSlot) : (s.setLock q n w x).openReqs = s.openReqs := rfl
@[simp] theorem State.setLock_sheets (s : State) (q n w : Nat) (x : LockSlot) : (s.setLock q n w x).sheets = s.sheets := rfl
@[simp] theorem State.setLock_frozen (s : State) (q n w : Nat) (x : LockSlot) : (s.setLock q n w x).frozen = s.frozen := rfl
@[simp] theorem State.setLock_windows (s : State) (q n w : Nat) (x : LockSlot) : (s.setLock q n w x).windows = s.windows := rfl
@[simp] theorem State.setLock_easel (s : State) (q n w : Nat) (x : LockSlot) : (s.setLock q n w x).easel = s.easel := rfl
@[simp] theorem State.setLock_keptBanks (s : State) (q n w : Nat) (x : LockSlot) : (s.setLock q n w x).keptBanks = s.keptBanks := rfl
@[simp] theorem State.setLock_easelRot (s : State) (q n w : Nat) (x : LockSlot) : (s.setLock q n w x).easelRot = s.easelRot := rfl
@[simp] theorem State.setLock_easelWait (s : State) (q n w : Nat) (x : LockSlot) : (s.setLock q n w x).easelWait = s.easelWait := rfl
@[simp] theorem State.setLock_memctl (s : State) (q n w : Nat) (x : LockSlot) : (s.setLock q n w x).memctl = s.memctl := rfl
@[simp] theorem State.setLock_vatWait (s : State) (q n w : Nat) (x : LockSlot) : (s.setLock q n w x).vatWait = s.vatWait := rfl
@[simp] theorem State.setLock_xch (s : State) (q n w : Nat) (x : LockSlot) : (s.setLock q n w x).xch = s.xch := rfl
@[simp] theorem State.setLock_moves (s : State) (q n w : Nat) (x : LockSlot) : (s.setLock q n w x).moves = s.moves := rfl
@[simp] theorem State.setLock_links (s : State) (q n w : Nat) (x : LockSlot) : (s.setLock q n w x).links = s.links := rfl
@[simp] theorem State.setLock_recTabs (s : State) (q n w : Nat) (x : LockSlot) : (s.setLock q n w x).recTabs = s.recTabs := rfl
@[simp] theorem State.setLock_calq (s : State) (q n w : Nat) (x : LockSlot) : (s.setLock q n w x).calq = s.calq := rfl
@[simp] theorem State.setLock_calSaved (s : State) (q n w : Nat) (x : LockSlot) : (s.setLock q n w x).calSaved = s.calSaved := rfl
@[simp] theorem State.setLock_octRem (s : State) (q n w : Nat) (x : LockSlot) : (s.setLock q n w x).octRem = s.octRem := rfl
@[simp] theorem State.setLock_calSlot (s : State) (q n w : Nat) (x : LockSlot) : (s.setLock q n w x).calSlot = s.calSlot := rfl
@[simp] theorem State.setLock_varq (s : State) (q n w : Nat) (x : LockSlot) : (s.setLock q n w x).varq = s.varq := rfl
@[simp] theorem State.setLock_varSlot (s : State) (q n w : Nat) (x : LockSlot) : (s.setLock q n w x).varSlot = s.varSlot := rfl
@[simp] theorem State.setLock_keys (s : State) (q n w : Nat) (x : LockSlot) : (s.setLock q n w x).keys = s.keys := rfl
@[simp] theorem State.setLock_pcicfg (s : State) (q n w : Nat) (x : LockSlot) : (s.setLock q n w x).pcicfg = s.pcicfg := rfl
@[simp] theorem State.setLock_bar0 (s : State) (q n w : Nat) (x : LockSlot) : (s.setLock q n w x).bar0 = s.bar0 := rfl
@[simp] theorem State.setLock_endpt (s : State) (q n w : Nat) (x : LockSlot) : (s.setLock q n w x).endpt = s.endpt := rfl
@[simp] theorem State.setLock_relHeld (s : State) (q n w : Nat) (x : LockSlot) : (s.setLock q n w x).relHeld = s.relHeld := rfl
@[simp] theorem State.setLock_taken (s : State) (q n w : Nat) (x : LockSlot) : (s.setLock q n w x).taken = s.taken := rfl
@[simp] theorem State.setLock_conVer (s : State) (q n w : Nat) (x : LockSlot) : (s.setLock q n w x).conVer = s.conVer := rfl
@[simp] theorem State.setLock_nonce (s : State) (q n w : Nat) (x : LockSlot) : (s.setLock q n w x).nonce = s.nonce := rfl
@[simp] theorem State.setLock_longOps (s : State) (q n w : Nat) (x : LockSlot) : (s.setLock q n w x).longOps = s.longOps := rfl
@[simp] theorem State.setLock_portHeld (s : State) (q n w : Nat) (x : LockSlot) : (s.setLock q n w x).portHeld = s.portHeld := rfl
@[simp] theorem State.setLock_heldSeq (s : State) (q n w : Nat) (x : LockSlot) : (s.setLock q n w x).heldSeq = s.heldSeq := rfl
@[simp] theorem State.setLock_waits (s : State) (q n w : Nat) (x : LockSlot) : (s.setLock q n w x).waits = s.waits := rfl
@[simp] theorem State.setLock_assign (s : State) (q n w : Nat) (x : LockSlot) : (s.setLock q n w x).assign = s.assign := rfl
@[simp] theorem State.setLock_panels (s : State) (q n w : Nat) (x : LockSlot) : (s.setLock q n w x).panels = s.panels := rfl
@[simp] theorem State.setLock_heldFw (s : State) (q n w : Nat) (x : LockSlot) : (s.setLock q n w x).heldFw = s.heldFw := rfl
@[simp] theorem State.setLock_records (s : State) (q n w : Nat) (x : LockSlot) : (s.setLock q n w x).records = s.records := rfl
@[simp] theorem State.setLock_commit (s : State) (q n w : Nat) (x : LockSlot) : (s.setLock q n w x).commit = s.commit := rfl
@[simp] theorem State.setLock_session (s : State) (q n w : Nat) (x : LockSlot) : (s.setLock q n w x).session = s.session := rfl
@[simp] theorem State.setLock_webDown (s : State) (q n w : Nat) (x : LockSlot) : (s.setLock q n w x).webDown = s.webDown := rfl
@[simp] theorem State.setLock_spareOf (s : State) (q n w : Nat) (x : LockSlot) : (s.setLock q n w x).spareOf = s.spareOf := rfl
@[simp] theorem State.setLock_inReset (s : State) (q n w : Nat) (x : LockSlot) : (s.setLock q n w x).inReset = s.inReset := rfl
@[simp] theorem State.setLock_shadows (s : State) (q n w : Nat) (x : LockSlot) : (s.setLock q n w x).shadows = s.shadows := rfl
@[simp] theorem State.setLock_injWait (s : State) (q n w : Nat) (x : LockSlot) : (s.setLock q n w x).injWait = s.injWait := rfl
@[simp] theorem State.setLock_outvotes (s : State) (q n w : Nat) (x : LockSlot) : (s.setLock q n w x).outvotes = s.outvotes := rfl
@[simp] theorem State.setLock_restarted (s : State) (q n w : Nat) (x : LockSlot) : (s.setLock q n w x).restarted = s.restarted := rfl
@[simp] theorem State.setLock_carried (s : State) (q n w : Nat) (x : LockSlot) : (s.setLock q n w x).carried = s.carried := rfl
@[simp] theorem State.setLock_steps (s : State) (q n w : Nat) (x : LockSlot) : (s.setLock q n w x).steps = s.steps := rfl
@[simp] theorem State.setLock_granted (s : State) (q n w : Nat) (x : LockSlot) : (s.setLock q n w x).granted = s.granted := rfl
@[simp] theorem State.setLock_reserve (s : State) (q n w : Nat) (x : LockSlot) : (s.setLock q n w x).reserve = s.reserve := rfl
@[simp] theorem State.setLock_warned (s : State) (q n w : Nat) (x : LockSlot) : (s.setLock q n w x).warned = s.warned := rfl
@[simp] theorem State.setLock_stepHeld (s : State) (q n w : Nat) (x : LockSlot) : (s.setLock q n w x).stepHeld = s.stepHeld := rfl
@[simp] theorem State.setLock_stepGoing (s : State) (q n w : Nat) (x : LockSlot) : (s.setLock q n w x).stepGoing = s.stepGoing := rfl
@[simp] theorem State.setLock_stretched (s : State) (q n w : Nat) (x : LockSlot) : (s.setLock q n w x).stretched = s.stretched := rfl
@[simp] theorem State.setLock_forced (s : State) (q n w : Nat) (x : LockSlot) : (s.setLock q n w x).forced = s.forced := rfl
@[simp] theorem State.setLock_frameSeq (s : State) (q n w : Nat) (x : LockSlot) : (s.setLock q n w x).frameSeq = s.frameSeq := rfl
@[simp] theorem State.setLock_pins (s : State) (q n w : Nat) (x : LockSlot) : (s.setLock q n w x).pins = s.pins := rfl
@[simp] theorem State.setLock_smbAddr (s : State) (q n w : Nat) (x : LockSlot) : (s.setLock q n w x).smbAddr = s.smbAddr := rfl
@[simp] theorem State.setLock_jtagIr (s : State) (q n w : Nat) (x : LockSlot) : (s.setLock q n w x).jtagIr = s.jtagIr := rfl
@[simp] theorem State.setLock_phase (s : State) (q n w : Nat) (x : LockSlot) : (s.setLock q n w x).phase = s.phase := rfl
@[simp] theorem State.setLock_holdFor (s : State) (q n w : Nat) (x : LockSlot) : (s.setLock q n w x).holdFor = s.holdFor := rfl
@[simp] theorem State.setLock_rstArm (s : State) (q n w : Nat) (x : LockSlot) : (s.setLock q n w x).rstArm = s.rstArm := rfl
@[simp] theorem State.setLock_staging (s : State) (q n w : Nat) (x : LockSlot) : (s.setLock q n w x).staging = s.staging := rfl
@[simp] theorem State.setLock_stageHdr (s : State) (q n w : Nat) (x : LockSlot) : (s.setLock q n w x).stageHdr = s.stageHdr := rfl
@[simp] theorem State.setLock_surge (s : State) (q n w : Nat) (x : LockSlot) : (s.setLock q n w x).surge = s.surge := rfl
@[simp] theorem State.setLock_sent (s : State) (q n w : Nat) (x : LockSlot) : (s.setLock q n w x).sent = s.sent := rfl
@[simp] theorem State.setLock_reacts (s : State) (q n w : Nat) (x : LockSlot) : (s.setLock q n w x).reacts = s.reacts := rfl
@[simp] theorem State.setLock_freeCtr (s : State) (q n w : Nat) (x : LockSlot) : (s.setLock q n w x).freeCtr = s.freeCtr := rfl

@[simp] theorem State.setBar_pending (s : State) (f o : Nat) (v : BitVec 32) : (s.setBar f o v).pending = s.pending := by rw [State.setBar]
@[simp] theorem State.setBar_clock (s : State) (f o : Nat) (v : BitVec 32) : (s.setBar f o v).clock = s.clock := by rw [State.setBar]
@[simp] theorem State.setBar_cores (s : State) (f o : Nat) (v : BitVec 32) : (s.setBar f o v).cores = s.cores := by rw [State.setBar]
@[simp] theorem State.setBar_regs (s : State) (f o : Nat) (v : BitVec 32) : (s.setBar f o v).regs = s.regs := by rw [State.setBar]
@[simp] theorem State.setBar_shadow (s : State) (f o : Nat) (v : BitVec 32) : (s.setBar f o v).shadow = s.shadow := by rw [State.setBar]
@[simp] theorem State.setBar_bEff (s : State) (f o : Nat) (v : BitVec 32) : (s.setBar f o v).bEff = s.bEff := by rw [State.setBar]
@[simp] theorem State.setBar_qlines (s : State) (f o : Nat) (v : BitVec 32) : (s.setBar f o v).qlines = s.qlines := by rw [State.setBar]
@[simp] theorem State.setBar_dir (s : State) (f o : Nat) (v : BitVec 32) : (s.setBar f o v).dir = s.dir := by rw [State.setBar]
@[simp] theorem State.setBar_l3 (s : State) (f o : Nat) (v : BitVec 32) : (s.setBar f o v).l3 = s.l3 := by rw [State.setBar]
@[simp] theorem State.setBar_homes (s : State) (f o : Nat) (v : BitVec 32) : (s.setBar f o v).homes = s.homes := by rw [State.setBar]
@[simp] theorem State.setBar_dram (s : State) (f o : Nat) (v : BitVec 32) : (s.setBar f o v).dram = s.dram := by rw [State.setBar]
@[simp] theorem State.setBar_poisoned (s : State) (f o : Nat) (v : BitVec 32) : (s.setBar f o v).poisoned = s.poisoned := by rw [State.setBar]
@[simp] theorem State.setBar_lastOwner (s : State) (f o : Nat) (v : BitVec 32) : (s.setBar f o v).lastOwner = s.lastOwner := by rw [State.setBar]
@[simp] theorem State.setBar_order64 (s : State) (f o : Nat) (v : BitVec 32) : (s.setBar f o v).order64 = s.order64 := by rw [State.setBar]
@[simp] theorem State.setBar_l2Wait (s : State) (f o : Nat) (v : BitVec 32) : (s.setBar f o v).l2Wait = s.l2Wait := by rw [State.setBar]
@[simp] theorem State.setBar_locks (s : State) (f o : Nat) (v : BitVec 32) : (s.setBar f o v).locks = s.locks := by rw [State.setBar]
@[simp] theorem State.setBar_heldEn (s : State) (f o : Nat) (v : BitVec 32) : (s.setBar f o v).heldEn = s.heldEn := by rw [State.setBar]
@[simp] theorem State.setBar_arrays (s : State) (f o : Nat) (v : BitVec 32) : (s.setBar f o v).arrays = s.arrays := by rw [State.setBar]
@[simp] theorem State.setBar_openReqs (s : State) (f o : Nat) (v : BitVec 32) : (s.setBar f o v).openReqs = s.openReqs := by rw [State.setBar]
@[simp] theorem State.setBar_sheets (s : State) (f o : Nat) (v : BitVec 32) : (s.setBar f o v).sheets = s.sheets := by rw [State.setBar]
@[simp] theorem State.setBar_frozen (s : State) (f o : Nat) (v : BitVec 32) : (s.setBar f o v).frozen = s.frozen := by rw [State.setBar]
@[simp] theorem State.setBar_windows (s : State) (f o : Nat) (v : BitVec 32) : (s.setBar f o v).windows = s.windows := by rw [State.setBar]
@[simp] theorem State.setBar_easel (s : State) (f o : Nat) (v : BitVec 32) : (s.setBar f o v).easel = s.easel := by rw [State.setBar]
@[simp] theorem State.setBar_keptBanks (s : State) (f o : Nat) (v : BitVec 32) : (s.setBar f o v).keptBanks = s.keptBanks := by rw [State.setBar]
@[simp] theorem State.setBar_easelRot (s : State) (f o : Nat) (v : BitVec 32) : (s.setBar f o v).easelRot = s.easelRot := by rw [State.setBar]
@[simp] theorem State.setBar_easelWait (s : State) (f o : Nat) (v : BitVec 32) : (s.setBar f o v).easelWait = s.easelWait := by rw [State.setBar]
@[simp] theorem State.setBar_memctl (s : State) (f o : Nat) (v : BitVec 32) : (s.setBar f o v).memctl = s.memctl := by rw [State.setBar]
@[simp] theorem State.setBar_vatWait (s : State) (f o : Nat) (v : BitVec 32) : (s.setBar f o v).vatWait = s.vatWait := by rw [State.setBar]
@[simp] theorem State.setBar_xch (s : State) (f o : Nat) (v : BitVec 32) : (s.setBar f o v).xch = s.xch := by rw [State.setBar]
@[simp] theorem State.setBar_moves (s : State) (f o : Nat) (v : BitVec 32) : (s.setBar f o v).moves = s.moves := by rw [State.setBar]
@[simp] theorem State.setBar_links (s : State) (f o : Nat) (v : BitVec 32) : (s.setBar f o v).links = s.links := by rw [State.setBar]
@[simp] theorem State.setBar_recTabs (s : State) (f o : Nat) (v : BitVec 32) : (s.setBar f o v).recTabs = s.recTabs := by rw [State.setBar]
@[simp] theorem State.setBar_calq (s : State) (f o : Nat) (v : BitVec 32) : (s.setBar f o v).calq = s.calq := by rw [State.setBar]
@[simp] theorem State.setBar_calSaved (s : State) (f o : Nat) (v : BitVec 32) : (s.setBar f o v).calSaved = s.calSaved := by rw [State.setBar]
@[simp] theorem State.setBar_octRem (s : State) (f o : Nat) (v : BitVec 32) : (s.setBar f o v).octRem = s.octRem := by rw [State.setBar]
@[simp] theorem State.setBar_calSlot (s : State) (f o : Nat) (v : BitVec 32) : (s.setBar f o v).calSlot = s.calSlot := by rw [State.setBar]
@[simp] theorem State.setBar_varq (s : State) (f o : Nat) (v : BitVec 32) : (s.setBar f o v).varq = s.varq := by rw [State.setBar]
@[simp] theorem State.setBar_varSlot (s : State) (f o : Nat) (v : BitVec 32) : (s.setBar f o v).varSlot = s.varSlot := by rw [State.setBar]
@[simp] theorem State.setBar_keys (s : State) (f o : Nat) (v : BitVec 32) : (s.setBar f o v).keys = s.keys := by rw [State.setBar]
@[simp] theorem State.setBar_pcicfg (s : State) (f o : Nat) (v : BitVec 32) : (s.setBar f o v).pcicfg = s.pcicfg := by rw [State.setBar]
@[simp] theorem State.setBar_endpt (s : State) (f o : Nat) (v : BitVec 32) : (s.setBar f o v).endpt = s.endpt := by rw [State.setBar]
@[simp] theorem State.setBar_relHeld (s : State) (f o : Nat) (v : BitVec 32) : (s.setBar f o v).relHeld = s.relHeld := by rw [State.setBar]
@[simp] theorem State.setBar_taken (s : State) (f o : Nat) (v : BitVec 32) : (s.setBar f o v).taken = s.taken := by rw [State.setBar]
@[simp] theorem State.setBar_conVer (s : State) (f o : Nat) (v : BitVec 32) : (s.setBar f o v).conVer = s.conVer := by rw [State.setBar]
@[simp] theorem State.setBar_nonce (s : State) (f o : Nat) (v : BitVec 32) : (s.setBar f o v).nonce = s.nonce := by rw [State.setBar]
@[simp] theorem State.setBar_longOps (s : State) (f o : Nat) (v : BitVec 32) : (s.setBar f o v).longOps = s.longOps := by rw [State.setBar]
@[simp] theorem State.setBar_portHeld (s : State) (f o : Nat) (v : BitVec 32) : (s.setBar f o v).portHeld = s.portHeld := by rw [State.setBar]
@[simp] theorem State.setBar_heldSeq (s : State) (f o : Nat) (v : BitVec 32) : (s.setBar f o v).heldSeq = s.heldSeq := by rw [State.setBar]
@[simp] theorem State.setBar_waits (s : State) (f o : Nat) (v : BitVec 32) : (s.setBar f o v).waits = s.waits := by rw [State.setBar]
@[simp] theorem State.setBar_assign (s : State) (f o : Nat) (v : BitVec 32) : (s.setBar f o v).assign = s.assign := by rw [State.setBar]
@[simp] theorem State.setBar_panels (s : State) (f o : Nat) (v : BitVec 32) : (s.setBar f o v).panels = s.panels := by rw [State.setBar]
@[simp] theorem State.setBar_heldFw (s : State) (f o : Nat) (v : BitVec 32) : (s.setBar f o v).heldFw = s.heldFw := by rw [State.setBar]
@[simp] theorem State.setBar_records (s : State) (f o : Nat) (v : BitVec 32) : (s.setBar f o v).records = s.records := by rw [State.setBar]
@[simp] theorem State.setBar_commit (s : State) (f o : Nat) (v : BitVec 32) : (s.setBar f o v).commit = s.commit := by rw [State.setBar]
@[simp] theorem State.setBar_session (s : State) (f o : Nat) (v : BitVec 32) : (s.setBar f o v).session = s.session := by rw [State.setBar]
@[simp] theorem State.setBar_webDown (s : State) (f o : Nat) (v : BitVec 32) : (s.setBar f o v).webDown = s.webDown := by rw [State.setBar]
@[simp] theorem State.setBar_spareOf (s : State) (f o : Nat) (v : BitVec 32) : (s.setBar f o v).spareOf = s.spareOf := by rw [State.setBar]
@[simp] theorem State.setBar_inReset (s : State) (f o : Nat) (v : BitVec 32) : (s.setBar f o v).inReset = s.inReset := by rw [State.setBar]
@[simp] theorem State.setBar_shadows (s : State) (f o : Nat) (v : BitVec 32) : (s.setBar f o v).shadows = s.shadows := by rw [State.setBar]
@[simp] theorem State.setBar_injWait (s : State) (f o : Nat) (v : BitVec 32) : (s.setBar f o v).injWait = s.injWait := by rw [State.setBar]
@[simp] theorem State.setBar_outvotes (s : State) (f o : Nat) (v : BitVec 32) : (s.setBar f o v).outvotes = s.outvotes := by rw [State.setBar]
@[simp] theorem State.setBar_restarted (s : State) (f o : Nat) (v : BitVec 32) : (s.setBar f o v).restarted = s.restarted := by rw [State.setBar]
@[simp] theorem State.setBar_carried (s : State) (f o : Nat) (v : BitVec 32) : (s.setBar f o v).carried = s.carried := by rw [State.setBar]
@[simp] theorem State.setBar_steps (s : State) (f o : Nat) (v : BitVec 32) : (s.setBar f o v).steps = s.steps := by rw [State.setBar]
@[simp] theorem State.setBar_granted (s : State) (f o : Nat) (v : BitVec 32) : (s.setBar f o v).granted = s.granted := by rw [State.setBar]
@[simp] theorem State.setBar_reserve (s : State) (f o : Nat) (v : BitVec 32) : (s.setBar f o v).reserve = s.reserve := by rw [State.setBar]
@[simp] theorem State.setBar_warned (s : State) (f o : Nat) (v : BitVec 32) : (s.setBar f o v).warned = s.warned := by rw [State.setBar]
@[simp] theorem State.setBar_stepHeld (s : State) (f o : Nat) (v : BitVec 32) : (s.setBar f o v).stepHeld = s.stepHeld := by rw [State.setBar]
@[simp] theorem State.setBar_stepGoing (s : State) (f o : Nat) (v : BitVec 32) : (s.setBar f o v).stepGoing = s.stepGoing := by rw [State.setBar]
@[simp] theorem State.setBar_stretched (s : State) (f o : Nat) (v : BitVec 32) : (s.setBar f o v).stretched = s.stretched := by rw [State.setBar]
@[simp] theorem State.setBar_forced (s : State) (f o : Nat) (v : BitVec 32) : (s.setBar f o v).forced = s.forced := by rw [State.setBar]
@[simp] theorem State.setBar_frameSeq (s : State) (f o : Nat) (v : BitVec 32) : (s.setBar f o v).frameSeq = s.frameSeq := by rw [State.setBar]
@[simp] theorem State.setBar_pins (s : State) (f o : Nat) (v : BitVec 32) : (s.setBar f o v).pins = s.pins := by rw [State.setBar]
@[simp] theorem State.setBar_smbAddr (s : State) (f o : Nat) (v : BitVec 32) : (s.setBar f o v).smbAddr = s.smbAddr := by rw [State.setBar]
@[simp] theorem State.setBar_jtagIr (s : State) (f o : Nat) (v : BitVec 32) : (s.setBar f o v).jtagIr = s.jtagIr := by rw [State.setBar]
@[simp] theorem State.setBar_phase (s : State) (f o : Nat) (v : BitVec 32) : (s.setBar f o v).phase = s.phase := by rw [State.setBar]
@[simp] theorem State.setBar_holdFor (s : State) (f o : Nat) (v : BitVec 32) : (s.setBar f o v).holdFor = s.holdFor := by rw [State.setBar]
@[simp] theorem State.setBar_rstArm (s : State) (f o : Nat) (v : BitVec 32) : (s.setBar f o v).rstArm = s.rstArm := by rw [State.setBar]
@[simp] theorem State.setBar_staging (s : State) (f o : Nat) (v : BitVec 32) : (s.setBar f o v).staging = s.staging := by rw [State.setBar]
@[simp] theorem State.setBar_stageHdr (s : State) (f o : Nat) (v : BitVec 32) : (s.setBar f o v).stageHdr = s.stageHdr := by rw [State.setBar]
@[simp] theorem State.setBar_surge (s : State) (f o : Nat) (v : BitVec 32) : (s.setBar f o v).surge = s.surge := by rw [State.setBar]
@[simp] theorem State.setBar_sent (s : State) (f o : Nat) (v : BitVec 32) : (s.setBar f o v).sent = s.sent := by rw [State.setBar]
@[simp] theorem State.setBar_reacts (s : State) (f o : Nat) (v : BitVec 32) : (s.setBar f o v).reacts = s.reacts := by rw [State.setBar]
@[simp] theorem State.setBar_freeCtr (s : State) (f o : Nat) (v : BitVec 32) : (s.setBar f o v).freeCtr = s.freeCtr := by rw [State.setBar]

@[simp] theorem State.setCfg_pending (s : State) (f r : Nat) (v : BitVec 32) : (s.setCfg f r v).pending = s.pending := rfl
@[simp] theorem State.setCfg_clock (s : State) (f r : Nat) (v : BitVec 32) : (s.setCfg f r v).clock = s.clock := rfl
@[simp] theorem State.setCfg_cores (s : State) (f r : Nat) (v : BitVec 32) : (s.setCfg f r v).cores = s.cores := rfl
@[simp] theorem State.setCfg_regs (s : State) (f r : Nat) (v : BitVec 32) : (s.setCfg f r v).regs = s.regs := rfl
@[simp] theorem State.setCfg_shadow (s : State) (f r : Nat) (v : BitVec 32) : (s.setCfg f r v).shadow = s.shadow := rfl
@[simp] theorem State.setCfg_bEff (s : State) (f r : Nat) (v : BitVec 32) : (s.setCfg f r v).bEff = s.bEff := rfl
@[simp] theorem State.setCfg_qlines (s : State) (f r : Nat) (v : BitVec 32) : (s.setCfg f r v).qlines = s.qlines := rfl
@[simp] theorem State.setCfg_dir (s : State) (f r : Nat) (v : BitVec 32) : (s.setCfg f r v).dir = s.dir := rfl
@[simp] theorem State.setCfg_l3 (s : State) (f r : Nat) (v : BitVec 32) : (s.setCfg f r v).l3 = s.l3 := rfl
@[simp] theorem State.setCfg_homes (s : State) (f r : Nat) (v : BitVec 32) : (s.setCfg f r v).homes = s.homes := rfl
@[simp] theorem State.setCfg_dram (s : State) (f r : Nat) (v : BitVec 32) : (s.setCfg f r v).dram = s.dram := rfl
@[simp] theorem State.setCfg_poisoned (s : State) (f r : Nat) (v : BitVec 32) : (s.setCfg f r v).poisoned = s.poisoned := rfl
@[simp] theorem State.setCfg_lastOwner (s : State) (f r : Nat) (v : BitVec 32) : (s.setCfg f r v).lastOwner = s.lastOwner := rfl
@[simp] theorem State.setCfg_order64 (s : State) (f r : Nat) (v : BitVec 32) : (s.setCfg f r v).order64 = s.order64 := rfl
@[simp] theorem State.setCfg_l2Wait (s : State) (f r : Nat) (v : BitVec 32) : (s.setCfg f r v).l2Wait = s.l2Wait := rfl
@[simp] theorem State.setCfg_locks (s : State) (f r : Nat) (v : BitVec 32) : (s.setCfg f r v).locks = s.locks := rfl
@[simp] theorem State.setCfg_heldEn (s : State) (f r : Nat) (v : BitVec 32) : (s.setCfg f r v).heldEn = s.heldEn := rfl
@[simp] theorem State.setCfg_arrays (s : State) (f r : Nat) (v : BitVec 32) : (s.setCfg f r v).arrays = s.arrays := rfl
@[simp] theorem State.setCfg_openReqs (s : State) (f r : Nat) (v : BitVec 32) : (s.setCfg f r v).openReqs = s.openReqs := rfl
@[simp] theorem State.setCfg_sheets (s : State) (f r : Nat) (v : BitVec 32) : (s.setCfg f r v).sheets = s.sheets := rfl
@[simp] theorem State.setCfg_frozen (s : State) (f r : Nat) (v : BitVec 32) : (s.setCfg f r v).frozen = s.frozen := rfl
@[simp] theorem State.setCfg_windows (s : State) (f r : Nat) (v : BitVec 32) : (s.setCfg f r v).windows = s.windows := rfl
@[simp] theorem State.setCfg_easel (s : State) (f r : Nat) (v : BitVec 32) : (s.setCfg f r v).easel = s.easel := rfl
@[simp] theorem State.setCfg_keptBanks (s : State) (f r : Nat) (v : BitVec 32) : (s.setCfg f r v).keptBanks = s.keptBanks := rfl
@[simp] theorem State.setCfg_easelRot (s : State) (f r : Nat) (v : BitVec 32) : (s.setCfg f r v).easelRot = s.easelRot := rfl
@[simp] theorem State.setCfg_easelWait (s : State) (f r : Nat) (v : BitVec 32) : (s.setCfg f r v).easelWait = s.easelWait := rfl
@[simp] theorem State.setCfg_memctl (s : State) (f r : Nat) (v : BitVec 32) : (s.setCfg f r v).memctl = s.memctl := rfl
@[simp] theorem State.setCfg_vatWait (s : State) (f r : Nat) (v : BitVec 32) : (s.setCfg f r v).vatWait = s.vatWait := rfl
@[simp] theorem State.setCfg_xch (s : State) (f r : Nat) (v : BitVec 32) : (s.setCfg f r v).xch = s.xch := rfl
@[simp] theorem State.setCfg_moves (s : State) (f r : Nat) (v : BitVec 32) : (s.setCfg f r v).moves = s.moves := rfl
@[simp] theorem State.setCfg_links (s : State) (f r : Nat) (v : BitVec 32) : (s.setCfg f r v).links = s.links := rfl
@[simp] theorem State.setCfg_recTabs (s : State) (f r : Nat) (v : BitVec 32) : (s.setCfg f r v).recTabs = s.recTabs := rfl
@[simp] theorem State.setCfg_calq (s : State) (f r : Nat) (v : BitVec 32) : (s.setCfg f r v).calq = s.calq := rfl
@[simp] theorem State.setCfg_calSaved (s : State) (f r : Nat) (v : BitVec 32) : (s.setCfg f r v).calSaved = s.calSaved := rfl
@[simp] theorem State.setCfg_octRem (s : State) (f r : Nat) (v : BitVec 32) : (s.setCfg f r v).octRem = s.octRem := rfl
@[simp] theorem State.setCfg_calSlot (s : State) (f r : Nat) (v : BitVec 32) : (s.setCfg f r v).calSlot = s.calSlot := rfl
@[simp] theorem State.setCfg_varq (s : State) (f r : Nat) (v : BitVec 32) : (s.setCfg f r v).varq = s.varq := rfl
@[simp] theorem State.setCfg_varSlot (s : State) (f r : Nat) (v : BitVec 32) : (s.setCfg f r v).varSlot = s.varSlot := rfl
@[simp] theorem State.setCfg_keys (s : State) (f r : Nat) (v : BitVec 32) : (s.setCfg f r v).keys = s.keys := rfl
@[simp] theorem State.setCfg_bar0 (s : State) (f r : Nat) (v : BitVec 32) : (s.setCfg f r v).bar0 = s.bar0 := rfl
@[simp] theorem State.setCfg_endpt (s : State) (f r : Nat) (v : BitVec 32) : (s.setCfg f r v).endpt = s.endpt := rfl
@[simp] theorem State.setCfg_relHeld (s : State) (f r : Nat) (v : BitVec 32) : (s.setCfg f r v).relHeld = s.relHeld := rfl
@[simp] theorem State.setCfg_taken (s : State) (f r : Nat) (v : BitVec 32) : (s.setCfg f r v).taken = s.taken := rfl
@[simp] theorem State.setCfg_conVer (s : State) (f r : Nat) (v : BitVec 32) : (s.setCfg f r v).conVer = s.conVer := rfl
@[simp] theorem State.setCfg_nonce (s : State) (f r : Nat) (v : BitVec 32) : (s.setCfg f r v).nonce = s.nonce := rfl
@[simp] theorem State.setCfg_longOps (s : State) (f r : Nat) (v : BitVec 32) : (s.setCfg f r v).longOps = s.longOps := rfl
@[simp] theorem State.setCfg_portHeld (s : State) (f r : Nat) (v : BitVec 32) : (s.setCfg f r v).portHeld = s.portHeld := rfl
@[simp] theorem State.setCfg_heldSeq (s : State) (f r : Nat) (v : BitVec 32) : (s.setCfg f r v).heldSeq = s.heldSeq := rfl
@[simp] theorem State.setCfg_waits (s : State) (f r : Nat) (v : BitVec 32) : (s.setCfg f r v).waits = s.waits := rfl
@[simp] theorem State.setCfg_assign (s : State) (f r : Nat) (v : BitVec 32) : (s.setCfg f r v).assign = s.assign := rfl
@[simp] theorem State.setCfg_panels (s : State) (f r : Nat) (v : BitVec 32) : (s.setCfg f r v).panels = s.panels := rfl
@[simp] theorem State.setCfg_heldFw (s : State) (f r : Nat) (v : BitVec 32) : (s.setCfg f r v).heldFw = s.heldFw := rfl
@[simp] theorem State.setCfg_records (s : State) (f r : Nat) (v : BitVec 32) : (s.setCfg f r v).records = s.records := rfl
@[simp] theorem State.setCfg_commit (s : State) (f r : Nat) (v : BitVec 32) : (s.setCfg f r v).commit = s.commit := rfl
@[simp] theorem State.setCfg_session (s : State) (f r : Nat) (v : BitVec 32) : (s.setCfg f r v).session = s.session := rfl
@[simp] theorem State.setCfg_webDown (s : State) (f r : Nat) (v : BitVec 32) : (s.setCfg f r v).webDown = s.webDown := rfl
@[simp] theorem State.setCfg_spareOf (s : State) (f r : Nat) (v : BitVec 32) : (s.setCfg f r v).spareOf = s.spareOf := rfl
@[simp] theorem State.setCfg_inReset (s : State) (f r : Nat) (v : BitVec 32) : (s.setCfg f r v).inReset = s.inReset := rfl
@[simp] theorem State.setCfg_shadows (s : State) (f r : Nat) (v : BitVec 32) : (s.setCfg f r v).shadows = s.shadows := rfl
@[simp] theorem State.setCfg_injWait (s : State) (f r : Nat) (v : BitVec 32) : (s.setCfg f r v).injWait = s.injWait := rfl
@[simp] theorem State.setCfg_outvotes (s : State) (f r : Nat) (v : BitVec 32) : (s.setCfg f r v).outvotes = s.outvotes := rfl
@[simp] theorem State.setCfg_restarted (s : State) (f r : Nat) (v : BitVec 32) : (s.setCfg f r v).restarted = s.restarted := rfl
@[simp] theorem State.setCfg_carried (s : State) (f r : Nat) (v : BitVec 32) : (s.setCfg f r v).carried = s.carried := rfl
@[simp] theorem State.setCfg_steps (s : State) (f r : Nat) (v : BitVec 32) : (s.setCfg f r v).steps = s.steps := rfl
@[simp] theorem State.setCfg_granted (s : State) (f r : Nat) (v : BitVec 32) : (s.setCfg f r v).granted = s.granted := rfl
@[simp] theorem State.setCfg_reserve (s : State) (f r : Nat) (v : BitVec 32) : (s.setCfg f r v).reserve = s.reserve := rfl
@[simp] theorem State.setCfg_warned (s : State) (f r : Nat) (v : BitVec 32) : (s.setCfg f r v).warned = s.warned := rfl
@[simp] theorem State.setCfg_stepHeld (s : State) (f r : Nat) (v : BitVec 32) : (s.setCfg f r v).stepHeld = s.stepHeld := rfl
@[simp] theorem State.setCfg_stepGoing (s : State) (f r : Nat) (v : BitVec 32) : (s.setCfg f r v).stepGoing = s.stepGoing := rfl
@[simp] theorem State.setCfg_stretched (s : State) (f r : Nat) (v : BitVec 32) : (s.setCfg f r v).stretched = s.stretched := rfl
@[simp] theorem State.setCfg_forced (s : State) (f r : Nat) (v : BitVec 32) : (s.setCfg f r v).forced = s.forced := rfl
@[simp] theorem State.setCfg_frameSeq (s : State) (f r : Nat) (v : BitVec 32) : (s.setCfg f r v).frameSeq = s.frameSeq := rfl
@[simp] theorem State.setCfg_pins (s : State) (f r : Nat) (v : BitVec 32) : (s.setCfg f r v).pins = s.pins := rfl
@[simp] theorem State.setCfg_smbAddr (s : State) (f r : Nat) (v : BitVec 32) : (s.setCfg f r v).smbAddr = s.smbAddr := rfl
@[simp] theorem State.setCfg_jtagIr (s : State) (f r : Nat) (v : BitVec 32) : (s.setCfg f r v).jtagIr = s.jtagIr := rfl
@[simp] theorem State.setCfg_phase (s : State) (f r : Nat) (v : BitVec 32) : (s.setCfg f r v).phase = s.phase := rfl
@[simp] theorem State.setCfg_holdFor (s : State) (f r : Nat) (v : BitVec 32) : (s.setCfg f r v).holdFor = s.holdFor := rfl
@[simp] theorem State.setCfg_rstArm (s : State) (f r : Nat) (v : BitVec 32) : (s.setCfg f r v).rstArm = s.rstArm := rfl
@[simp] theorem State.setCfg_staging (s : State) (f r : Nat) (v : BitVec 32) : (s.setCfg f r v).staging = s.staging := rfl
@[simp] theorem State.setCfg_stageHdr (s : State) (f r : Nat) (v : BitVec 32) : (s.setCfg f r v).stageHdr = s.stageHdr := rfl
@[simp] theorem State.setCfg_surge (s : State) (f r : Nat) (v : BitVec 32) : (s.setCfg f r v).surge = s.surge := rfl
@[simp] theorem State.setCfg_sent (s : State) (f r : Nat) (v : BitVec 32) : (s.setCfg f r v).sent = s.sent := rfl
@[simp] theorem State.setCfg_reacts (s : State) (f r : Nat) (v : BitVec 32) : (s.setCfg f r v).reacts = s.reacts := rfl
@[simp] theorem State.setCfg_freeCtr (s : State) (f r : Nat) (v : BitVec 32) : (s.setCfg f r v).freeCtr = s.freeCtr := rfl

@[simp] theorem State.emit_pending (s : State) (x : Sent) : (s.emit x).pending = s.pending := rfl
@[simp] theorem State.emit_clock (s : State) (x : Sent) : (s.emit x).clock = s.clock := rfl
@[simp] theorem State.emit_cores (s : State) (x : Sent) : (s.emit x).cores = s.cores := rfl
@[simp] theorem State.emit_regs (s : State) (x : Sent) : (s.emit x).regs = s.regs := rfl
@[simp] theorem State.emit_shadow (s : State) (x : Sent) : (s.emit x).shadow = s.shadow := rfl
@[simp] theorem State.emit_bEff (s : State) (x : Sent) : (s.emit x).bEff = s.bEff := rfl
@[simp] theorem State.emit_qlines (s : State) (x : Sent) : (s.emit x).qlines = s.qlines := rfl
@[simp] theorem State.emit_dir (s : State) (x : Sent) : (s.emit x).dir = s.dir := rfl
@[simp] theorem State.emit_l3 (s : State) (x : Sent) : (s.emit x).l3 = s.l3 := rfl
@[simp] theorem State.emit_homes (s : State) (x : Sent) : (s.emit x).homes = s.homes := rfl
@[simp] theorem State.emit_dram (s : State) (x : Sent) : (s.emit x).dram = s.dram := rfl
@[simp] theorem State.emit_poisoned (s : State) (x : Sent) : (s.emit x).poisoned = s.poisoned := rfl
@[simp] theorem State.emit_lastOwner (s : State) (x : Sent) : (s.emit x).lastOwner = s.lastOwner := rfl
@[simp] theorem State.emit_order64 (s : State) (x : Sent) : (s.emit x).order64 = s.order64 := rfl
@[simp] theorem State.emit_l2Wait (s : State) (x : Sent) : (s.emit x).l2Wait = s.l2Wait := rfl
@[simp] theorem State.emit_locks (s : State) (x : Sent) : (s.emit x).locks = s.locks := rfl
@[simp] theorem State.emit_heldEn (s : State) (x : Sent) : (s.emit x).heldEn = s.heldEn := rfl
@[simp] theorem State.emit_arrays (s : State) (x : Sent) : (s.emit x).arrays = s.arrays := rfl
@[simp] theorem State.emit_openReqs (s : State) (x : Sent) : (s.emit x).openReqs = s.openReqs := rfl
@[simp] theorem State.emit_sheets (s : State) (x : Sent) : (s.emit x).sheets = s.sheets := rfl
@[simp] theorem State.emit_frozen (s : State) (x : Sent) : (s.emit x).frozen = s.frozen := rfl
@[simp] theorem State.emit_windows (s : State) (x : Sent) : (s.emit x).windows = s.windows := rfl
@[simp] theorem State.emit_easel (s : State) (x : Sent) : (s.emit x).easel = s.easel := rfl
@[simp] theorem State.emit_keptBanks (s : State) (x : Sent) : (s.emit x).keptBanks = s.keptBanks := rfl
@[simp] theorem State.emit_easelRot (s : State) (x : Sent) : (s.emit x).easelRot = s.easelRot := rfl
@[simp] theorem State.emit_easelWait (s : State) (x : Sent) : (s.emit x).easelWait = s.easelWait := rfl
@[simp] theorem State.emit_memctl (s : State) (x : Sent) : (s.emit x).memctl = s.memctl := rfl
@[simp] theorem State.emit_vatWait (s : State) (x : Sent) : (s.emit x).vatWait = s.vatWait := rfl
@[simp] theorem State.emit_xch (s : State) (x : Sent) : (s.emit x).xch = s.xch := rfl
@[simp] theorem State.emit_moves (s : State) (x : Sent) : (s.emit x).moves = s.moves := rfl
@[simp] theorem State.emit_links (s : State) (x : Sent) : (s.emit x).links = s.links := rfl
@[simp] theorem State.emit_recTabs (s : State) (x : Sent) : (s.emit x).recTabs = s.recTabs := rfl
@[simp] theorem State.emit_calq (s : State) (x : Sent) : (s.emit x).calq = s.calq := rfl
@[simp] theorem State.emit_calSaved (s : State) (x : Sent) : (s.emit x).calSaved = s.calSaved := rfl
@[simp] theorem State.emit_octRem (s : State) (x : Sent) : (s.emit x).octRem = s.octRem := rfl
@[simp] theorem State.emit_calSlot (s : State) (x : Sent) : (s.emit x).calSlot = s.calSlot := rfl
@[simp] theorem State.emit_varq (s : State) (x : Sent) : (s.emit x).varq = s.varq := rfl
@[simp] theorem State.emit_varSlot (s : State) (x : Sent) : (s.emit x).varSlot = s.varSlot := rfl
@[simp] theorem State.emit_keys (s : State) (x : Sent) : (s.emit x).keys = s.keys := rfl
@[simp] theorem State.emit_pcicfg (s : State) (x : Sent) : (s.emit x).pcicfg = s.pcicfg := rfl
@[simp] theorem State.emit_bar0 (s : State) (x : Sent) : (s.emit x).bar0 = s.bar0 := rfl
@[simp] theorem State.emit_endpt (s : State) (x : Sent) : (s.emit x).endpt = s.endpt := rfl
@[simp] theorem State.emit_relHeld (s : State) (x : Sent) : (s.emit x).relHeld = s.relHeld := rfl
@[simp] theorem State.emit_taken (s : State) (x : Sent) : (s.emit x).taken = s.taken := rfl
@[simp] theorem State.emit_conVer (s : State) (x : Sent) : (s.emit x).conVer = s.conVer := rfl
@[simp] theorem State.emit_nonce (s : State) (x : Sent) : (s.emit x).nonce = s.nonce := rfl
@[simp] theorem State.emit_longOps (s : State) (x : Sent) : (s.emit x).longOps = s.longOps := rfl
@[simp] theorem State.emit_portHeld (s : State) (x : Sent) : (s.emit x).portHeld = s.portHeld := rfl
@[simp] theorem State.emit_heldSeq (s : State) (x : Sent) : (s.emit x).heldSeq = s.heldSeq := rfl
@[simp] theorem State.emit_waits (s : State) (x : Sent) : (s.emit x).waits = s.waits := rfl
@[simp] theorem State.emit_assign (s : State) (x : Sent) : (s.emit x).assign = s.assign := rfl
@[simp] theorem State.emit_panels (s : State) (x : Sent) : (s.emit x).panels = s.panels := rfl
@[simp] theorem State.emit_heldFw (s : State) (x : Sent) : (s.emit x).heldFw = s.heldFw := rfl
@[simp] theorem State.emit_records (s : State) (x : Sent) : (s.emit x).records = s.records := rfl
@[simp] theorem State.emit_commit (s : State) (x : Sent) : (s.emit x).commit = s.commit := rfl
@[simp] theorem State.emit_session (s : State) (x : Sent) : (s.emit x).session = s.session := rfl
@[simp] theorem State.emit_webDown (s : State) (x : Sent) : (s.emit x).webDown = s.webDown := rfl
@[simp] theorem State.emit_spareOf (s : State) (x : Sent) : (s.emit x).spareOf = s.spareOf := rfl
@[simp] theorem State.emit_inReset (s : State) (x : Sent) : (s.emit x).inReset = s.inReset := rfl
@[simp] theorem State.emit_shadows (s : State) (x : Sent) : (s.emit x).shadows = s.shadows := rfl
@[simp] theorem State.emit_injWait (s : State) (x : Sent) : (s.emit x).injWait = s.injWait := rfl
@[simp] theorem State.emit_outvotes (s : State) (x : Sent) : (s.emit x).outvotes = s.outvotes := rfl
@[simp] theorem State.emit_restarted (s : State) (x : Sent) : (s.emit x).restarted = s.restarted := rfl
@[simp] theorem State.emit_carried (s : State) (x : Sent) : (s.emit x).carried = s.carried := rfl
@[simp] theorem State.emit_steps (s : State) (x : Sent) : (s.emit x).steps = s.steps := rfl
@[simp] theorem State.emit_granted (s : State) (x : Sent) : (s.emit x).granted = s.granted := rfl
@[simp] theorem State.emit_reserve (s : State) (x : Sent) : (s.emit x).reserve = s.reserve := rfl
@[simp] theorem State.emit_warned (s : State) (x : Sent) : (s.emit x).warned = s.warned := rfl
@[simp] theorem State.emit_stepHeld (s : State) (x : Sent) : (s.emit x).stepHeld = s.stepHeld := rfl
@[simp] theorem State.emit_stepGoing (s : State) (x : Sent) : (s.emit x).stepGoing = s.stepGoing := rfl
@[simp] theorem State.emit_stretched (s : State) (x : Sent) : (s.emit x).stretched = s.stretched := rfl
@[simp] theorem State.emit_forced (s : State) (x : Sent) : (s.emit x).forced = s.forced := rfl
@[simp] theorem State.emit_frameSeq (s : State) (x : Sent) : (s.emit x).frameSeq = s.frameSeq := rfl
@[simp] theorem State.emit_pins (s : State) (x : Sent) : (s.emit x).pins = s.pins := rfl
@[simp] theorem State.emit_smbAddr (s : State) (x : Sent) : (s.emit x).smbAddr = s.smbAddr := rfl
@[simp] theorem State.emit_jtagIr (s : State) (x : Sent) : (s.emit x).jtagIr = s.jtagIr := rfl
@[simp] theorem State.emit_phase (s : State) (x : Sent) : (s.emit x).phase = s.phase := rfl
@[simp] theorem State.emit_holdFor (s : State) (x : Sent) : (s.emit x).holdFor = s.holdFor := rfl
@[simp] theorem State.emit_rstArm (s : State) (x : Sent) : (s.emit x).rstArm = s.rstArm := rfl
@[simp] theorem State.emit_staging (s : State) (x : Sent) : (s.emit x).staging = s.staging := rfl
@[simp] theorem State.emit_stageHdr (s : State) (x : Sent) : (s.emit x).stageHdr = s.stageHdr := rfl
@[simp] theorem State.emit_surge (s : State) (x : Sent) : (s.emit x).surge = s.surge := rfl
@[simp] theorem State.emit_reacts (s : State) (x : Sent) : (s.emit x).reacts = s.reacts := rfl
@[simp] theorem State.emit_freeCtr (s : State) (x : Sent) : (s.emit x).freeCtr = s.freeCtr := rfl

/-! What a read gives after its own write. -/

@[simp] theorem State.core_setCore (s : State) (c : Nat) (k : Core) : (s.setCore c k).core c = k := by
  rw [State.core, State.setCore, Tab.get_set_self]
@[simp] theorem State.reg_setReg (s : State) (b : Blk) (o : Nat) (v : Word) : (s.setReg b o v).reg b o = v := by
  rw [State.reg, State.setReg, Tab.get_set_self]
@[simp] theorem State.qline_setQline (s : State) (q l : Nat) (x : QLine) : (s.setQline q l x).qline q l = x := by
  rw [State.qline, State.setQline, Tab.get_set_self]
@[simp] theorem State.dirE_setDirE (s : State) (h l : Nat) (x : DirEntry) : (s.setDirE h l x).dirE h l = x := by
  rw [State.dirE, State.setDirE, Tab.get_set_self]
@[simp] theorem State.l3Line_setL3 (s : State) (h l : Nat) (x : Option L3Line) : (s.setL3 h l x).l3Line h l = x := by
  rw [State.l3Line, State.setL3, Tab.get_set_self]
@[simp] theorem State.dramLine_setDram (s : State) (l : Nat) (x : Line) : (s.setDram l x).dramLine l = x := by
  rw [State.dramLine, State.setDram_poisoned, State.setDram, Tab.get_set_self]
@[simp] theorem State.home_setHome (s : State) (h : Nat) (x : Home) : (s.setHome h x).home h = x := by
  rw [State.home, State.setHome, Tab.get_set_self]
@[simp] theorem State.sheet_setSheet (s : State) (n : Nat) (x : Sheet) : (s.setSheet n x).sheet n = x := by
  rw [State.sheet, State.setSheet, Tab.get_set_self]
@[simp] theorem State.easelWord_setEasel (s : State) (t e : Nat) (w : Word) : (s.setEasel t e w).easelWord t e = w := by
  rw [State.easelWord, State.setEasel, Tab.get_set_self]
@[simp] theorem State.mc_setMc (s : State) (m : Nat) (x : MemCtl) : (s.setMc m x).mc m = x := by
  rw [State.mc, State.setMc, Tab.get_set_self]
@[simp] theorem State.lock_setLock (s : State) (q n w : Nat) (x : LockSlot) : (s.setLock q n w x).lock q n w = x := by
  rw [State.lock, State.setLock, Tab.get_set_self]
@[simp] theorem State.bar_setBar (s : State) (f o : Nat) (v : BitVec 32) : (s.setBar f o v).bar f o = v := by
  rw [State.bar, State.setBar, Tab.get_set_self]
@[simp] theorem State.cfg_setCfg (s : State) (f r : Nat) (v : BitVec 32) : (s.setCfg f r v).cfg f r = v := by
  rw [State.cfg, State.setCfg, Tab.get_set_self]

/-- Another core is as it was. -/
theorem State.core_setCore_ne (s : State) (c : Nat) (k : Core) {j : Nat} (h : j ≠ c) : (s.setCore c k).core j = s.core j := by
  rw [State.core, State.setCore, Tab.get_set_ne _ _ _ h, State.core]

/-- Another line of the stacks is as it was. -/
theorem State.dramLine_setDram_ne (s : State) (l : Nat) (x : Line) {j : Nat} (h : j ≠ l) :
    (s.setDram l x).dramLine j = s.dramLine j := by
  rw [State.dramLine, State.setDram_poisoned, State.setDram, Tab.get_set_ne _ _ _ h, State.dramLine]

/-- Another Easel word of the tile is as it was. -/
theorem State.easelWord_setEasel_ne (s : State) (t e : Nat) (w : Word) {j : Nat} (h : j ≠ e) :
    (s.setEasel t e w).easelWord t j = s.easelWord t j := by
  rw [State.easelWord, State.setEasel, Tab.get_set_ne _ _ _ (by omega), State.easelWord]

/-- Writing a core twice leaves the second value. -/
theorem State.core_setCore_setCore (s : State) (c : Nat) (k m : Core) : ((s.setCore c k).setCore c m).core c = m := by
  rw [State.core_setCore]

/-! The reads that a named update leaves alone. -/

@[simp] theorem State.reg_of_setCore (s : State) (c : Nat) (k : Core) (bb : Blk) (oo : Nat) : (s.setCore c k).reg bb oo = s.reg bb oo := by simp only [State.reg, State.setCore_regs]
@[simp] theorem State.qline_of_setCore (s : State) (c : Nat) (k : Core) (qq ll : Nat) : (s.setCore c k).qline qq ll = s.qline qq ll := by simp only [State.qline, State.setCore_qlines]
@[simp] theorem State.dirE_of_setCore (s : State) (c : Nat) (k : Core) (hh ll : Nat) : (s.setCore c k).dirE hh ll = s.dirE hh ll := by simp only [State.dirE, State.setCore_dir]
@[simp] theorem State.l3Line_of_setCore (s : State) (c : Nat) (k : Core) (hh ll : Nat) : (s.setCore c k).l3Line hh ll = s.l3Line hh ll := by simp only [State.l3Line, State.setCore_l3]
@[simp] theorem State.home_of_setCore (s : State) (c : Nat) (k : Core) (hh : Nat) : (s.setCore c k).home hh = s.home hh := by simp only [State.home, State.setCore_homes]
@[simp] theorem State.sheet_of_setCore (s : State) (c : Nat) (k : Core) (nn : Nat) : (s.setCore c k).sheet nn = s.sheet nn := by simp only [State.sheet, State.setCore_sheets]
@[simp] theorem State.easelWord_of_setCore (s : State) (c : Nat) (k : Core) (tt ee : Nat) : (s.setCore c k).easelWord tt ee = s.easelWord tt ee := by simp only [State.easelWord, State.setCore_easel]
@[simp] theorem State.mc_of_setCore (s : State) (c : Nat) (k : Core) (mm : Nat) : (s.setCore c k).mc mm = s.mc mm := by simp only [State.mc, State.setCore_memctl]
@[simp] theorem State.lock_of_setCore (s : State) (c : Nat) (k : Core) (qq ii ww : Nat) : (s.setCore c k).lock qq ii ww = s.lock qq ii ww := by simp only [State.lock, State.setCore_locks]
@[simp] theorem State.bar_of_setCore (s : State) (c : Nat) (k : Core) (ff oo : Nat) : (s.setCore c k).bar ff oo = s.bar ff oo := by simp only [State.bar, State.setCore_bar0]
@[simp] theorem State.cfg_of_setCore (s : State) (c : Nat) (k : Core) (ff rr : Nat) : (s.setCore c k).cfg ff rr = s.cfg ff rr := by simp only [State.cfg, State.setCore_pcicfg]
@[simp] theorem State.dramLine_of_setCore (s : State) (c : Nat) (k : Core) (j : Nat) : (s.setCore c k).dramLine j = s.dramLine j := by simp only [State.dramLine, State.setCore_dram, State.setCore_poisoned]
@[simp] theorem State.fld_of_setCore (s : State) (c : Nat) (k : Core) (bb : Blk) (oo lo hi : Nat) : (s.setCore c k).fld bb oo lo hi = s.fld bb oo lo hi := by simp only [State.fld, State.reg_of_setCore]
@[simp] theorem State.rbit_of_setCore (s : State) (c : Nat) (k : Core) (bb : Blk) (oo i : Nat) : (s.setCore c k).rbit bb oo i = s.rbit bb oo i := by simp only [State.rbit, State.fld_of_setCore]
@[simp] theorem State.tripOut_of_setCore (s : State) (c : Nat) (k : Core) (p : Trip) : (s.setCore c k).tripOut p = s.tripOut p := by simp only [State.tripOut, State.tmode, State.fld_of_setCore]
@[simp] theorem State.acting_of_setCore (s : State) (c : Nat) (k : Core) (p : Trip) : (s.setCore c k).acting p = s.acting p := by cases p <;> simp only [State.acting, State.tripOut_of_setCore]
@[simp] theorem State.acts_of_setCore (s : State) (c : Nat) (k : Core) (p : Trip) : (s.setCore c k).acts p = s.acts p := by simp only [State.acts, State.acting_of_setCore, State.setCore_carried]
@[simp] theorem State.mtUp_of_setCore (s : State) (c : Nat) (k : Core) : (s.setCore c k).mtUp = s.mtUp := by simp only [State.mtUp, State.moduleOut, State.fld_of_setCore]
@[simp] theorem State.alive_of_setCore (s : State) (c : Nat) (k : Core) : (s.setCore c k).alive = s.alive := by simp only [State.alive, State.setCore_phase]

@[simp] theorem State.core_of_setReg (s : State) (b : Blk) (o : Nat) (v : Word) (j : Nat) : (s.setReg b o v).core j = s.core j := by simp only [State.core, State.setReg_cores]
@[simp] theorem State.qline_of_setReg (s : State) (b : Blk) (o : Nat) (v : Word) (qq ll : Nat) : (s.setReg b o v).qline qq ll = s.qline qq ll := by simp only [State.qline, State.setReg_qlines]
@[simp] theorem State.dirE_of_setReg (s : State) (b : Blk) (o : Nat) (v : Word) (hh ll : Nat) : (s.setReg b o v).dirE hh ll = s.dirE hh ll := by simp only [State.dirE, State.setReg_dir]
@[simp] theorem State.l3Line_of_setReg (s : State) (b : Blk) (o : Nat) (v : Word) (hh ll : Nat) : (s.setReg b o v).l3Line hh ll = s.l3Line hh ll := by simp only [State.l3Line, State.setReg_l3]
@[simp] theorem State.home_of_setReg (s : State) (b : Blk) (o : Nat) (v : Word) (hh : Nat) : (s.setReg b o v).home hh = s.home hh := by simp only [State.home, State.setReg_homes]
@[simp] theorem State.sheet_of_setReg (s : State) (b : Blk) (o : Nat) (v : Word) (nn : Nat) : (s.setReg b o v).sheet nn = s.sheet nn := by simp only [State.sheet, State.setReg_sheets]
@[simp] theorem State.easelWord_of_setReg (s : State) (b : Blk) (o : Nat) (v : Word) (tt ee : Nat) : (s.setReg b o v).easelWord tt ee = s.easelWord tt ee := by simp only [State.easelWord, State.setReg_easel]
@[simp] theorem State.mc_of_setReg (s : State) (b : Blk) (o : Nat) (v : Word) (mm : Nat) : (s.setReg b o v).mc mm = s.mc mm := by simp only [State.mc, State.setReg_memctl]
@[simp] theorem State.lock_of_setReg (s : State) (b : Blk) (o : Nat) (v : Word) (qq ii ww : Nat) : (s.setReg b o v).lock qq ii ww = s.lock qq ii ww := by simp only [State.lock, State.setReg_locks]
@[simp] theorem State.bar_of_setReg (s : State) (b : Blk) (o : Nat) (v : Word) (ff oo : Nat) : (s.setReg b o v).bar ff oo = s.bar ff oo := by simp only [State.bar, State.setReg_bar0]
@[simp] theorem State.cfg_of_setReg (s : State) (b : Blk) (o : Nat) (v : Word) (ff rr : Nat) : (s.setReg b o v).cfg ff rr = s.cfg ff rr := by simp only [State.cfg, State.setReg_pcicfg]
@[simp] theorem State.dramLine_of_setReg (s : State) (b : Blk) (o : Nat) (v : Word) (j : Nat) : (s.setReg b o v).dramLine j = s.dramLine j := by simp only [State.dramLine, State.setReg_dram, State.setReg_poisoned]
@[simp] theorem State.alive_of_setReg (s : State) (b : Blk) (o : Nat) (v : Word) : (s.setReg b o v).alive = s.alive := by simp only [State.alive, State.setReg_phase]

@[simp] theorem State.core_of_setQline (s : State) (q l : Nat) (x : QLine) (j : Nat) : (s.setQline q l x).core j = s.core j := by simp only [State.core, State.setQline_cores]
@[simp] theorem State.reg_of_setQline (s : State) (q l : Nat) (x : QLine) (bb : Blk) (oo : Nat) : (s.setQline q l x).reg bb oo = s.reg bb oo := by simp only [State.reg, State.setQline_regs]
@[simp] theorem State.dirE_of_setQline (s : State) (q l : Nat) (x : QLine) (hh ll : Nat) : (s.setQline q l x).dirE hh ll = s.dirE hh ll := by simp only [State.dirE, State.setQline_dir]
@[simp] theorem State.l3Line_of_setQline (s : State) (q l : Nat) (x : QLine) (hh ll : Nat) : (s.setQline q l x).l3Line hh ll = s.l3Line hh ll := by simp only [State.l3Line, State.setQline_l3]
@[simp] theorem State.home_of_setQline (s : State) (q l : Nat) (x : QLine) (hh : Nat) : (s.setQline q l x).home hh = s.home hh := by simp only [State.home, State.setQline_homes]
@[simp] theorem State.sheet_of_setQline (s : State) (q l : Nat) (x : QLine) (nn : Nat) : (s.setQline q l x).sheet nn = s.sheet nn := by simp only [State.sheet, State.setQline_sheets]
@[simp] theorem State.easelWord_of_setQline (s : State) (q l : Nat) (x : QLine) (tt ee : Nat) : (s.setQline q l x).easelWord tt ee = s.easelWord tt ee := by simp only [State.easelWord, State.setQline_easel]
@[simp] theorem State.mc_of_setQline (s : State) (q l : Nat) (x : QLine) (mm : Nat) : (s.setQline q l x).mc mm = s.mc mm := by simp only [State.mc, State.setQline_memctl]
@[simp] theorem State.lock_of_setQline (s : State) (q l : Nat) (x : QLine) (qq ii ww : Nat) : (s.setQline q l x).lock qq ii ww = s.lock qq ii ww := by simp only [State.lock, State.setQline_locks]
@[simp] theorem State.bar_of_setQline (s : State) (q l : Nat) (x : QLine) (ff oo : Nat) : (s.setQline q l x).bar ff oo = s.bar ff oo := by simp only [State.bar, State.setQline_bar0]
@[simp] theorem State.cfg_of_setQline (s : State) (q l : Nat) (x : QLine) (ff rr : Nat) : (s.setQline q l x).cfg ff rr = s.cfg ff rr := by simp only [State.cfg, State.setQline_pcicfg]
@[simp] theorem State.dramLine_of_setQline (s : State) (q l : Nat) (x : QLine) (j : Nat) : (s.setQline q l x).dramLine j = s.dramLine j := by simp only [State.dramLine, State.setQline_dram, State.setQline_poisoned]
@[simp] theorem State.fld_of_setQline (s : State) (q l : Nat) (x : QLine) (bb : Blk) (oo lo hi : Nat) : (s.setQline q l x).fld bb oo lo hi = s.fld bb oo lo hi := by simp only [State.fld, State.reg_of_setQline]
@[simp] theorem State.rbit_of_setQline (s : State) (q l : Nat) (x : QLine) (bb : Blk) (oo i : Nat) : (s.setQline q l x).rbit bb oo i = s.rbit bb oo i := by simp only [State.rbit, State.fld_of_setQline]
@[simp] theorem State.tripOut_of_setQline (s : State) (q l : Nat) (x : QLine) (p : Trip) : (s.setQline q l x).tripOut p = s.tripOut p := by simp only [State.tripOut, State.tmode, State.fld_of_setQline]
@[simp] theorem State.acting_of_setQline (s : State) (q l : Nat) (x : QLine) (p : Trip) : (s.setQline q l x).acting p = s.acting p := by cases p <;> simp only [State.acting, State.tripOut_of_setQline]
@[simp] theorem State.acts_of_setQline (s : State) (q l : Nat) (x : QLine) (p : Trip) : (s.setQline q l x).acts p = s.acts p := by simp only [State.acts, State.acting_of_setQline, State.setQline_carried]
@[simp] theorem State.mtUp_of_setQline (s : State) (q l : Nat) (x : QLine) : (s.setQline q l x).mtUp = s.mtUp := by simp only [State.mtUp, State.moduleOut, State.fld_of_setQline]
@[simp] theorem State.alive_of_setQline (s : State) (q l : Nat) (x : QLine) : (s.setQline q l x).alive = s.alive := by simp only [State.alive, State.setQline_phase]

@[simp] theorem State.core_of_setDirE (s : State) (h l : Nat) (x : DirEntry) (j : Nat) : (s.setDirE h l x).core j = s.core j := by simp only [State.core, State.setDirE_cores]
@[simp] theorem State.reg_of_setDirE (s : State) (h l : Nat) (x : DirEntry) (bb : Blk) (oo : Nat) : (s.setDirE h l x).reg bb oo = s.reg bb oo := by simp only [State.reg, State.setDirE_regs]
@[simp] theorem State.qline_of_setDirE (s : State) (h l : Nat) (x : DirEntry) (qq ll : Nat) : (s.setDirE h l x).qline qq ll = s.qline qq ll := by simp only [State.qline, State.setDirE_qlines]
@[simp] theorem State.l3Line_of_setDirE (s : State) (h l : Nat) (x : DirEntry) (hh ll : Nat) : (s.setDirE h l x).l3Line hh ll = s.l3Line hh ll := by simp only [State.l3Line, State.setDirE_l3]
@[simp] theorem State.home_of_setDirE (s : State) (h l : Nat) (x : DirEntry) (hh : Nat) : (s.setDirE h l x).home hh = s.home hh := by simp only [State.home, State.setDirE_homes]
@[simp] theorem State.sheet_of_setDirE (s : State) (h l : Nat) (x : DirEntry) (nn : Nat) : (s.setDirE h l x).sheet nn = s.sheet nn := by simp only [State.sheet, State.setDirE_sheets]
@[simp] theorem State.easelWord_of_setDirE (s : State) (h l : Nat) (x : DirEntry) (tt ee : Nat) : (s.setDirE h l x).easelWord tt ee = s.easelWord tt ee := by simp only [State.easelWord, State.setDirE_easel]
@[simp] theorem State.mc_of_setDirE (s : State) (h l : Nat) (x : DirEntry) (mm : Nat) : (s.setDirE h l x).mc mm = s.mc mm := by simp only [State.mc, State.setDirE_memctl]
@[simp] theorem State.lock_of_setDirE (s : State) (h l : Nat) (x : DirEntry) (qq ii ww : Nat) : (s.setDirE h l x).lock qq ii ww = s.lock qq ii ww := by simp only [State.lock, State.setDirE_locks]
@[simp] theorem State.bar_of_setDirE (s : State) (h l : Nat) (x : DirEntry) (ff oo : Nat) : (s.setDirE h l x).bar ff oo = s.bar ff oo := by simp only [State.bar, State.setDirE_bar0]
@[simp] theorem State.cfg_of_setDirE (s : State) (h l : Nat) (x : DirEntry) (ff rr : Nat) : (s.setDirE h l x).cfg ff rr = s.cfg ff rr := by simp only [State.cfg, State.setDirE_pcicfg]
@[simp] theorem State.dramLine_of_setDirE (s : State) (h l : Nat) (x : DirEntry) (j : Nat) : (s.setDirE h l x).dramLine j = s.dramLine j := by simp only [State.dramLine, State.setDirE_dram, State.setDirE_poisoned]
@[simp] theorem State.fld_of_setDirE (s : State) (h l : Nat) (x : DirEntry) (bb : Blk) (oo lo hi : Nat) : (s.setDirE h l x).fld bb oo lo hi = s.fld bb oo lo hi := by simp only [State.fld, State.reg_of_setDirE]
@[simp] theorem State.rbit_of_setDirE (s : State) (h l : Nat) (x : DirEntry) (bb : Blk) (oo i : Nat) : (s.setDirE h l x).rbit bb oo i = s.rbit bb oo i := by simp only [State.rbit, State.fld_of_setDirE]
@[simp] theorem State.tripOut_of_setDirE (s : State) (h l : Nat) (x : DirEntry) (p : Trip) : (s.setDirE h l x).tripOut p = s.tripOut p := by simp only [State.tripOut, State.tmode, State.fld_of_setDirE]
@[simp] theorem State.acting_of_setDirE (s : State) (h l : Nat) (x : DirEntry) (p : Trip) : (s.setDirE h l x).acting p = s.acting p := by cases p <;> simp only [State.acting, State.tripOut_of_setDirE]
@[simp] theorem State.acts_of_setDirE (s : State) (h l : Nat) (x : DirEntry) (p : Trip) : (s.setDirE h l x).acts p = s.acts p := by simp only [State.acts, State.acting_of_setDirE, State.setDirE_carried]
@[simp] theorem State.mtUp_of_setDirE (s : State) (h l : Nat) (x : DirEntry) : (s.setDirE h l x).mtUp = s.mtUp := by simp only [State.mtUp, State.moduleOut, State.fld_of_setDirE]
@[simp] theorem State.alive_of_setDirE (s : State) (h l : Nat) (x : DirEntry) : (s.setDirE h l x).alive = s.alive := by simp only [State.alive, State.setDirE_phase]

@[simp] theorem State.core_of_setL3 (s : State) (h l : Nat) (x : Option L3Line) (j : Nat) : (s.setL3 h l x).core j = s.core j := by simp only [State.core, State.setL3_cores]
@[simp] theorem State.reg_of_setL3 (s : State) (h l : Nat) (x : Option L3Line) (bb : Blk) (oo : Nat) : (s.setL3 h l x).reg bb oo = s.reg bb oo := by simp only [State.reg, State.setL3_regs]
@[simp] theorem State.qline_of_setL3 (s : State) (h l : Nat) (x : Option L3Line) (qq ll : Nat) : (s.setL3 h l x).qline qq ll = s.qline qq ll := by simp only [State.qline, State.setL3_qlines]
@[simp] theorem State.dirE_of_setL3 (s : State) (h l : Nat) (x : Option L3Line) (hh ll : Nat) : (s.setL3 h l x).dirE hh ll = s.dirE hh ll := by simp only [State.dirE, State.setL3_dir]
@[simp] theorem State.home_of_setL3 (s : State) (h l : Nat) (x : Option L3Line) (hh : Nat) : (s.setL3 h l x).home hh = s.home hh := by simp only [State.home, State.setL3_homes]
@[simp] theorem State.sheet_of_setL3 (s : State) (h l : Nat) (x : Option L3Line) (nn : Nat) : (s.setL3 h l x).sheet nn = s.sheet nn := by simp only [State.sheet, State.setL3_sheets]
@[simp] theorem State.easelWord_of_setL3 (s : State) (h l : Nat) (x : Option L3Line) (tt ee : Nat) : (s.setL3 h l x).easelWord tt ee = s.easelWord tt ee := by simp only [State.easelWord, State.setL3_easel]
@[simp] theorem State.mc_of_setL3 (s : State) (h l : Nat) (x : Option L3Line) (mm : Nat) : (s.setL3 h l x).mc mm = s.mc mm := by simp only [State.mc, State.setL3_memctl]
@[simp] theorem State.lock_of_setL3 (s : State) (h l : Nat) (x : Option L3Line) (qq ii ww : Nat) : (s.setL3 h l x).lock qq ii ww = s.lock qq ii ww := by simp only [State.lock, State.setL3_locks]
@[simp] theorem State.bar_of_setL3 (s : State) (h l : Nat) (x : Option L3Line) (ff oo : Nat) : (s.setL3 h l x).bar ff oo = s.bar ff oo := by simp only [State.bar, State.setL3_bar0]
@[simp] theorem State.cfg_of_setL3 (s : State) (h l : Nat) (x : Option L3Line) (ff rr : Nat) : (s.setL3 h l x).cfg ff rr = s.cfg ff rr := by simp only [State.cfg, State.setL3_pcicfg]
@[simp] theorem State.dramLine_of_setL3 (s : State) (h l : Nat) (x : Option L3Line) (j : Nat) : (s.setL3 h l x).dramLine j = s.dramLine j := by simp only [State.dramLine, State.setL3_dram, State.setL3_poisoned]
@[simp] theorem State.fld_of_setL3 (s : State) (h l : Nat) (x : Option L3Line) (bb : Blk) (oo lo hi : Nat) : (s.setL3 h l x).fld bb oo lo hi = s.fld bb oo lo hi := by simp only [State.fld, State.reg_of_setL3]
@[simp] theorem State.rbit_of_setL3 (s : State) (h l : Nat) (x : Option L3Line) (bb : Blk) (oo i : Nat) : (s.setL3 h l x).rbit bb oo i = s.rbit bb oo i := by simp only [State.rbit, State.fld_of_setL3]
@[simp] theorem State.tripOut_of_setL3 (s : State) (h l : Nat) (x : Option L3Line) (p : Trip) : (s.setL3 h l x).tripOut p = s.tripOut p := by simp only [State.tripOut, State.tmode, State.fld_of_setL3]
@[simp] theorem State.acting_of_setL3 (s : State) (h l : Nat) (x : Option L3Line) (p : Trip) : (s.setL3 h l x).acting p = s.acting p := by cases p <;> simp only [State.acting, State.tripOut_of_setL3]
@[simp] theorem State.acts_of_setL3 (s : State) (h l : Nat) (x : Option L3Line) (p : Trip) : (s.setL3 h l x).acts p = s.acts p := by simp only [State.acts, State.acting_of_setL3, State.setL3_carried]
@[simp] theorem State.mtUp_of_setL3 (s : State) (h l : Nat) (x : Option L3Line) : (s.setL3 h l x).mtUp = s.mtUp := by simp only [State.mtUp, State.moduleOut, State.fld_of_setL3]
@[simp] theorem State.alive_of_setL3 (s : State) (h l : Nat) (x : Option L3Line) : (s.setL3 h l x).alive = s.alive := by simp only [State.alive, State.setL3_phase]

@[simp] theorem State.core_of_setDram (s : State) (l : Nat) (x : Line) (j : Nat) : (s.setDram l x).core j = s.core j := by simp only [State.core, State.setDram_cores]
@[simp] theorem State.reg_of_setDram (s : State) (l : Nat) (x : Line) (bb : Blk) (oo : Nat) : (s.setDram l x).reg bb oo = s.reg bb oo := by simp only [State.reg, State.setDram_regs]
@[simp] theorem State.qline_of_setDram (s : State) (l : Nat) (x : Line) (qq ll : Nat) : (s.setDram l x).qline qq ll = s.qline qq ll := by simp only [State.qline, State.setDram_qlines]
@[simp] theorem State.dirE_of_setDram (s : State) (l : Nat) (x : Line) (hh ll : Nat) : (s.setDram l x).dirE hh ll = s.dirE hh ll := by simp only [State.dirE, State.setDram_dir]
@[simp] theorem State.l3Line_of_setDram (s : State) (l : Nat) (x : Line) (hh ll : Nat) : (s.setDram l x).l3Line hh ll = s.l3Line hh ll := by simp only [State.l3Line, State.setDram_l3]
@[simp] theorem State.home_of_setDram (s : State) (l : Nat) (x : Line) (hh : Nat) : (s.setDram l x).home hh = s.home hh := by simp only [State.home, State.setDram_homes]
@[simp] theorem State.sheet_of_setDram (s : State) (l : Nat) (x : Line) (nn : Nat) : (s.setDram l x).sheet nn = s.sheet nn := by simp only [State.sheet, State.setDram_sheets]
@[simp] theorem State.easelWord_of_setDram (s : State) (l : Nat) (x : Line) (tt ee : Nat) : (s.setDram l x).easelWord tt ee = s.easelWord tt ee := by simp only [State.easelWord, State.setDram_easel]
@[simp] theorem State.mc_of_setDram (s : State) (l : Nat) (x : Line) (mm : Nat) : (s.setDram l x).mc mm = s.mc mm := by simp only [State.mc, State.setDram_memctl]
@[simp] theorem State.lock_of_setDram (s : State) (l : Nat) (x : Line) (qq ii ww : Nat) : (s.setDram l x).lock qq ii ww = s.lock qq ii ww := by simp only [State.lock, State.setDram_locks]
@[simp] theorem State.bar_of_setDram (s : State) (l : Nat) (x : Line) (ff oo : Nat) : (s.setDram l x).bar ff oo = s.bar ff oo := by simp only [State.bar, State.setDram_bar0]
@[simp] theorem State.cfg_of_setDram (s : State) (l : Nat) (x : Line) (ff rr : Nat) : (s.setDram l x).cfg ff rr = s.cfg ff rr := by simp only [State.cfg, State.setDram_pcicfg]
@[simp] theorem State.fld_of_setDram (s : State) (l : Nat) (x : Line) (bb : Blk) (oo lo hi : Nat) : (s.setDram l x).fld bb oo lo hi = s.fld bb oo lo hi := by simp only [State.fld, State.reg_of_setDram]
@[simp] theorem State.rbit_of_setDram (s : State) (l : Nat) (x : Line) (bb : Blk) (oo i : Nat) : (s.setDram l x).rbit bb oo i = s.rbit bb oo i := by simp only [State.rbit, State.fld_of_setDram]
@[simp] theorem State.tripOut_of_setDram (s : State) (l : Nat) (x : Line) (p : Trip) : (s.setDram l x).tripOut p = s.tripOut p := by simp only [State.tripOut, State.tmode, State.fld_of_setDram]
@[simp] theorem State.acting_of_setDram (s : State) (l : Nat) (x : Line) (p : Trip) : (s.setDram l x).acting p = s.acting p := by cases p <;> simp only [State.acting, State.tripOut_of_setDram]
@[simp] theorem State.acts_of_setDram (s : State) (l : Nat) (x : Line) (p : Trip) : (s.setDram l x).acts p = s.acts p := by simp only [State.acts, State.acting_of_setDram, State.setDram_carried]
@[simp] theorem State.mtUp_of_setDram (s : State) (l : Nat) (x : Line) : (s.setDram l x).mtUp = s.mtUp := by simp only [State.mtUp, State.moduleOut, State.fld_of_setDram]
@[simp] theorem State.alive_of_setDram (s : State) (l : Nat) (x : Line) : (s.setDram l x).alive = s.alive := by simp only [State.alive, State.setDram_phase]

@[simp] theorem State.core_of_setHome (s : State) (h : Nat) (x : Home) (j : Nat) : (s.setHome h x).core j = s.core j := by simp only [State.core, State.setHome_cores]
@[simp] theorem State.reg_of_setHome (s : State) (h : Nat) (x : Home) (bb : Blk) (oo : Nat) : (s.setHome h x).reg bb oo = s.reg bb oo := by simp only [State.reg, State.setHome_regs]
@[simp] theorem State.qline_of_setHome (s : State) (h : Nat) (x : Home) (qq ll : Nat) : (s.setHome h x).qline qq ll = s.qline qq ll := by simp only [State.qline, State.setHome_qlines]
@[simp] theorem State.dirE_of_setHome (s : State) (h : Nat) (x : Home) (hh ll : Nat) : (s.setHome h x).dirE hh ll = s.dirE hh ll := by simp only [State.dirE, State.setHome_dir]
@[simp] theorem State.l3Line_of_setHome (s : State) (h : Nat) (x : Home) (hh ll : Nat) : (s.setHome h x).l3Line hh ll = s.l3Line hh ll := by simp only [State.l3Line, State.setHome_l3]
@[simp] theorem State.sheet_of_setHome (s : State) (h : Nat) (x : Home) (nn : Nat) : (s.setHome h x).sheet nn = s.sheet nn := by simp only [State.sheet, State.setHome_sheets]
@[simp] theorem State.easelWord_of_setHome (s : State) (h : Nat) (x : Home) (tt ee : Nat) : (s.setHome h x).easelWord tt ee = s.easelWord tt ee := by simp only [State.easelWord, State.setHome_easel]
@[simp] theorem State.mc_of_setHome (s : State) (h : Nat) (x : Home) (mm : Nat) : (s.setHome h x).mc mm = s.mc mm := by simp only [State.mc, State.setHome_memctl]
@[simp] theorem State.lock_of_setHome (s : State) (h : Nat) (x : Home) (qq ii ww : Nat) : (s.setHome h x).lock qq ii ww = s.lock qq ii ww := by simp only [State.lock, State.setHome_locks]
@[simp] theorem State.bar_of_setHome (s : State) (h : Nat) (x : Home) (ff oo : Nat) : (s.setHome h x).bar ff oo = s.bar ff oo := by simp only [State.bar, State.setHome_bar0]
@[simp] theorem State.cfg_of_setHome (s : State) (h : Nat) (x : Home) (ff rr : Nat) : (s.setHome h x).cfg ff rr = s.cfg ff rr := by simp only [State.cfg, State.setHome_pcicfg]
@[simp] theorem State.dramLine_of_setHome (s : State) (h : Nat) (x : Home) (j : Nat) : (s.setHome h x).dramLine j = s.dramLine j := by simp only [State.dramLine, State.setHome_dram, State.setHome_poisoned]
@[simp] theorem State.fld_of_setHome (s : State) (h : Nat) (x : Home) (bb : Blk) (oo lo hi : Nat) : (s.setHome h x).fld bb oo lo hi = s.fld bb oo lo hi := by simp only [State.fld, State.reg_of_setHome]
@[simp] theorem State.rbit_of_setHome (s : State) (h : Nat) (x : Home) (bb : Blk) (oo i : Nat) : (s.setHome h x).rbit bb oo i = s.rbit bb oo i := by simp only [State.rbit, State.fld_of_setHome]
@[simp] theorem State.tripOut_of_setHome (s : State) (h : Nat) (x : Home) (p : Trip) : (s.setHome h x).tripOut p = s.tripOut p := by simp only [State.tripOut, State.tmode, State.fld_of_setHome]
@[simp] theorem State.acting_of_setHome (s : State) (h : Nat) (x : Home) (p : Trip) : (s.setHome h x).acting p = s.acting p := by cases p <;> simp only [State.acting, State.tripOut_of_setHome]
@[simp] theorem State.acts_of_setHome (s : State) (h : Nat) (x : Home) (p : Trip) : (s.setHome h x).acts p = s.acts p := by simp only [State.acts, State.acting_of_setHome, State.setHome_carried]
@[simp] theorem State.mtUp_of_setHome (s : State) (h : Nat) (x : Home) : (s.setHome h x).mtUp = s.mtUp := by simp only [State.mtUp, State.moduleOut, State.fld_of_setHome]
@[simp] theorem State.alive_of_setHome (s : State) (h : Nat) (x : Home) : (s.setHome h x).alive = s.alive := by simp only [State.alive, State.setHome_phase]

@[simp] theorem State.core_of_setSheet (s : State) (n : Nat) (x : Sheet) (j : Nat) : (s.setSheet n x).core j = s.core j := by simp only [State.core, State.setSheet_cores]
@[simp] theorem State.reg_of_setSheet (s : State) (n : Nat) (x : Sheet) (bb : Blk) (oo : Nat) : (s.setSheet n x).reg bb oo = s.reg bb oo := by simp only [State.reg, State.setSheet_regs]
@[simp] theorem State.qline_of_setSheet (s : State) (n : Nat) (x : Sheet) (qq ll : Nat) : (s.setSheet n x).qline qq ll = s.qline qq ll := by simp only [State.qline, State.setSheet_qlines]
@[simp] theorem State.dirE_of_setSheet (s : State) (n : Nat) (x : Sheet) (hh ll : Nat) : (s.setSheet n x).dirE hh ll = s.dirE hh ll := by simp only [State.dirE, State.setSheet_dir]
@[simp] theorem State.l3Line_of_setSheet (s : State) (n : Nat) (x : Sheet) (hh ll : Nat) : (s.setSheet n x).l3Line hh ll = s.l3Line hh ll := by simp only [State.l3Line, State.setSheet_l3]
@[simp] theorem State.home_of_setSheet (s : State) (n : Nat) (x : Sheet) (hh : Nat) : (s.setSheet n x).home hh = s.home hh := by simp only [State.home, State.setSheet_homes]
@[simp] theorem State.easelWord_of_setSheet (s : State) (n : Nat) (x : Sheet) (tt ee : Nat) : (s.setSheet n x).easelWord tt ee = s.easelWord tt ee := by simp only [State.easelWord, State.setSheet_easel]
@[simp] theorem State.mc_of_setSheet (s : State) (n : Nat) (x : Sheet) (mm : Nat) : (s.setSheet n x).mc mm = s.mc mm := by simp only [State.mc, State.setSheet_memctl]
@[simp] theorem State.lock_of_setSheet (s : State) (n : Nat) (x : Sheet) (qq ii ww : Nat) : (s.setSheet n x).lock qq ii ww = s.lock qq ii ww := by simp only [State.lock, State.setSheet_locks]
@[simp] theorem State.bar_of_setSheet (s : State) (n : Nat) (x : Sheet) (ff oo : Nat) : (s.setSheet n x).bar ff oo = s.bar ff oo := by simp only [State.bar, State.setSheet_bar0]
@[simp] theorem State.cfg_of_setSheet (s : State) (n : Nat) (x : Sheet) (ff rr : Nat) : (s.setSheet n x).cfg ff rr = s.cfg ff rr := by simp only [State.cfg, State.setSheet_pcicfg]
@[simp] theorem State.dramLine_of_setSheet (s : State) (n : Nat) (x : Sheet) (j : Nat) : (s.setSheet n x).dramLine j = s.dramLine j := by simp only [State.dramLine, State.setSheet_dram, State.setSheet_poisoned]
@[simp] theorem State.fld_of_setSheet (s : State) (n : Nat) (x : Sheet) (bb : Blk) (oo lo hi : Nat) : (s.setSheet n x).fld bb oo lo hi = s.fld bb oo lo hi := by simp only [State.fld, State.reg_of_setSheet]
@[simp] theorem State.rbit_of_setSheet (s : State) (n : Nat) (x : Sheet) (bb : Blk) (oo i : Nat) : (s.setSheet n x).rbit bb oo i = s.rbit bb oo i := by simp only [State.rbit, State.fld_of_setSheet]
@[simp] theorem State.tripOut_of_setSheet (s : State) (n : Nat) (x : Sheet) (p : Trip) : (s.setSheet n x).tripOut p = s.tripOut p := by simp only [State.tripOut, State.tmode, State.fld_of_setSheet]
@[simp] theorem State.acting_of_setSheet (s : State) (n : Nat) (x : Sheet) (p : Trip) : (s.setSheet n x).acting p = s.acting p := by cases p <;> simp only [State.acting, State.tripOut_of_setSheet]
@[simp] theorem State.acts_of_setSheet (s : State) (n : Nat) (x : Sheet) (p : Trip) : (s.setSheet n x).acts p = s.acts p := by simp only [State.acts, State.acting_of_setSheet, State.setSheet_carried]
@[simp] theorem State.mtUp_of_setSheet (s : State) (n : Nat) (x : Sheet) : (s.setSheet n x).mtUp = s.mtUp := by simp only [State.mtUp, State.moduleOut, State.fld_of_setSheet]
@[simp] theorem State.alive_of_setSheet (s : State) (n : Nat) (x : Sheet) : (s.setSheet n x).alive = s.alive := by simp only [State.alive, State.setSheet_phase]

@[simp] theorem State.core_of_setEasel (s : State) (t e : Nat) (w : Word) (j : Nat) : (s.setEasel t e w).core j = s.core j := by simp only [State.core, State.setEasel_cores]
@[simp] theorem State.reg_of_setEasel (s : State) (t e : Nat) (w : Word) (bb : Blk) (oo : Nat) : (s.setEasel t e w).reg bb oo = s.reg bb oo := by simp only [State.reg, State.setEasel_regs]
@[simp] theorem State.qline_of_setEasel (s : State) (t e : Nat) (w : Word) (qq ll : Nat) : (s.setEasel t e w).qline qq ll = s.qline qq ll := by simp only [State.qline, State.setEasel_qlines]
@[simp] theorem State.dirE_of_setEasel (s : State) (t e : Nat) (w : Word) (hh ll : Nat) : (s.setEasel t e w).dirE hh ll = s.dirE hh ll := by simp only [State.dirE, State.setEasel_dir]
@[simp] theorem State.l3Line_of_setEasel (s : State) (t e : Nat) (w : Word) (hh ll : Nat) : (s.setEasel t e w).l3Line hh ll = s.l3Line hh ll := by simp only [State.l3Line, State.setEasel_l3]
@[simp] theorem State.home_of_setEasel (s : State) (t e : Nat) (w : Word) (hh : Nat) : (s.setEasel t e w).home hh = s.home hh := by simp only [State.home, State.setEasel_homes]
@[simp] theorem State.sheet_of_setEasel (s : State) (t e : Nat) (w : Word) (nn : Nat) : (s.setEasel t e w).sheet nn = s.sheet nn := by simp only [State.sheet, State.setEasel_sheets]
@[simp] theorem State.mc_of_setEasel (s : State) (t e : Nat) (w : Word) (mm : Nat) : (s.setEasel t e w).mc mm = s.mc mm := by simp only [State.mc, State.setEasel_memctl]
@[simp] theorem State.lock_of_setEasel (s : State) (t e : Nat) (w : Word) (qq ii ww : Nat) : (s.setEasel t e w).lock qq ii ww = s.lock qq ii ww := by simp only [State.lock, State.setEasel_locks]
@[simp] theorem State.bar_of_setEasel (s : State) (t e : Nat) (w : Word) (ff oo : Nat) : (s.setEasel t e w).bar ff oo = s.bar ff oo := by simp only [State.bar, State.setEasel_bar0]
@[simp] theorem State.cfg_of_setEasel (s : State) (t e : Nat) (w : Word) (ff rr : Nat) : (s.setEasel t e w).cfg ff rr = s.cfg ff rr := by simp only [State.cfg, State.setEasel_pcicfg]
@[simp] theorem State.dramLine_of_setEasel (s : State) (t e : Nat) (w : Word) (j : Nat) : (s.setEasel t e w).dramLine j = s.dramLine j := by simp only [State.dramLine, State.setEasel_dram, State.setEasel_poisoned]
@[simp] theorem State.fld_of_setEasel (s : State) (t e : Nat) (w : Word) (bb : Blk) (oo lo hi : Nat) : (s.setEasel t e w).fld bb oo lo hi = s.fld bb oo lo hi := by simp only [State.fld, State.reg_of_setEasel]
@[simp] theorem State.rbit_of_setEasel (s : State) (t e : Nat) (w : Word) (bb : Blk) (oo i : Nat) : (s.setEasel t e w).rbit bb oo i = s.rbit bb oo i := by simp only [State.rbit, State.fld_of_setEasel]
@[simp] theorem State.tripOut_of_setEasel (s : State) (t e : Nat) (w : Word) (p : Trip) : (s.setEasel t e w).tripOut p = s.tripOut p := by simp only [State.tripOut, State.tmode, State.fld_of_setEasel]
@[simp] theorem State.acting_of_setEasel (s : State) (t e : Nat) (w : Word) (p : Trip) : (s.setEasel t e w).acting p = s.acting p := by cases p <;> simp only [State.acting, State.tripOut_of_setEasel]
@[simp] theorem State.acts_of_setEasel (s : State) (t e : Nat) (w : Word) (p : Trip) : (s.setEasel t e w).acts p = s.acts p := by simp only [State.acts, State.acting_of_setEasel, State.setEasel_carried]
@[simp] theorem State.mtUp_of_setEasel (s : State) (t e : Nat) (w : Word) : (s.setEasel t e w).mtUp = s.mtUp := by simp only [State.mtUp, State.moduleOut, State.fld_of_setEasel]
@[simp] theorem State.alive_of_setEasel (s : State) (t e : Nat) (w : Word) : (s.setEasel t e w).alive = s.alive := by simp only [State.alive, State.setEasel_phase]

@[simp] theorem State.core_of_setMc (s : State) (m : Nat) (x : MemCtl) (j : Nat) : (s.setMc m x).core j = s.core j := by simp only [State.core, State.setMc_cores]
@[simp] theorem State.reg_of_setMc (s : State) (m : Nat) (x : MemCtl) (bb : Blk) (oo : Nat) : (s.setMc m x).reg bb oo = s.reg bb oo := by simp only [State.reg, State.setMc_regs]
@[simp] theorem State.qline_of_setMc (s : State) (m : Nat) (x : MemCtl) (qq ll : Nat) : (s.setMc m x).qline qq ll = s.qline qq ll := by simp only [State.qline, State.setMc_qlines]
@[simp] theorem State.dirE_of_setMc (s : State) (m : Nat) (x : MemCtl) (hh ll : Nat) : (s.setMc m x).dirE hh ll = s.dirE hh ll := by simp only [State.dirE, State.setMc_dir]
@[simp] theorem State.l3Line_of_setMc (s : State) (m : Nat) (x : MemCtl) (hh ll : Nat) : (s.setMc m x).l3Line hh ll = s.l3Line hh ll := by simp only [State.l3Line, State.setMc_l3]
@[simp] theorem State.home_of_setMc (s : State) (m : Nat) (x : MemCtl) (hh : Nat) : (s.setMc m x).home hh = s.home hh := by simp only [State.home, State.setMc_homes]
@[simp] theorem State.sheet_of_setMc (s : State) (m : Nat) (x : MemCtl) (nn : Nat) : (s.setMc m x).sheet nn = s.sheet nn := by simp only [State.sheet, State.setMc_sheets]
@[simp] theorem State.easelWord_of_setMc (s : State) (m : Nat) (x : MemCtl) (tt ee : Nat) : (s.setMc m x).easelWord tt ee = s.easelWord tt ee := by simp only [State.easelWord, State.setMc_easel]
@[simp] theorem State.lock_of_setMc (s : State) (m : Nat) (x : MemCtl) (qq ii ww : Nat) : (s.setMc m x).lock qq ii ww = s.lock qq ii ww := by simp only [State.lock, State.setMc_locks]
@[simp] theorem State.bar_of_setMc (s : State) (m : Nat) (x : MemCtl) (ff oo : Nat) : (s.setMc m x).bar ff oo = s.bar ff oo := by simp only [State.bar, State.setMc_bar0]
@[simp] theorem State.cfg_of_setMc (s : State) (m : Nat) (x : MemCtl) (ff rr : Nat) : (s.setMc m x).cfg ff rr = s.cfg ff rr := by simp only [State.cfg, State.setMc_pcicfg]
@[simp] theorem State.dramLine_of_setMc (s : State) (m : Nat) (x : MemCtl) (j : Nat) : (s.setMc m x).dramLine j = s.dramLine j := by simp only [State.dramLine, State.setMc_dram, State.setMc_poisoned]
@[simp] theorem State.fld_of_setMc (s : State) (m : Nat) (x : MemCtl) (bb : Blk) (oo lo hi : Nat) : (s.setMc m x).fld bb oo lo hi = s.fld bb oo lo hi := by simp only [State.fld, State.reg_of_setMc]
@[simp] theorem State.rbit_of_setMc (s : State) (m : Nat) (x : MemCtl) (bb : Blk) (oo i : Nat) : (s.setMc m x).rbit bb oo i = s.rbit bb oo i := by simp only [State.rbit, State.fld_of_setMc]
@[simp] theorem State.tripOut_of_setMc (s : State) (m : Nat) (x : MemCtl) (p : Trip) : (s.setMc m x).tripOut p = s.tripOut p := by simp only [State.tripOut, State.tmode, State.fld_of_setMc]
@[simp] theorem State.acting_of_setMc (s : State) (m : Nat) (x : MemCtl) (p : Trip) : (s.setMc m x).acting p = s.acting p := by cases p <;> simp only [State.acting, State.tripOut_of_setMc]
@[simp] theorem State.acts_of_setMc (s : State) (m : Nat) (x : MemCtl) (p : Trip) : (s.setMc m x).acts p = s.acts p := by simp only [State.acts, State.acting_of_setMc, State.setMc_carried]
@[simp] theorem State.mtUp_of_setMc (s : State) (m : Nat) (x : MemCtl) : (s.setMc m x).mtUp = s.mtUp := by simp only [State.mtUp, State.moduleOut, State.fld_of_setMc]
@[simp] theorem State.alive_of_setMc (s : State) (m : Nat) (x : MemCtl) : (s.setMc m x).alive = s.alive := by simp only [State.alive, State.setMc_phase]

@[simp] theorem State.core_of_setLock (s : State) (q n w : Nat) (x : LockSlot) (j : Nat) : (s.setLock q n w x).core j = s.core j := by simp only [State.core, State.setLock_cores]
@[simp] theorem State.reg_of_setLock (s : State) (q n w : Nat) (x : LockSlot) (bb : Blk) (oo : Nat) : (s.setLock q n w x).reg bb oo = s.reg bb oo := by simp only [State.reg, State.setLock_regs]
@[simp] theorem State.qline_of_setLock (s : State) (q n w : Nat) (x : LockSlot) (qq ll : Nat) : (s.setLock q n w x).qline qq ll = s.qline qq ll := by simp only [State.qline, State.setLock_qlines]
@[simp] theorem State.dirE_of_setLock (s : State) (q n w : Nat) (x : LockSlot) (hh ll : Nat) : (s.setLock q n w x).dirE hh ll = s.dirE hh ll := by simp only [State.dirE, State.setLock_dir]
@[simp] theorem State.l3Line_of_setLock (s : State) (q n w : Nat) (x : LockSlot) (hh ll : Nat) : (s.setLock q n w x).l3Line hh ll = s.l3Line hh ll := by simp only [State.l3Line, State.setLock_l3]
@[simp] theorem State.home_of_setLock (s : State) (q n w : Nat) (x : LockSlot) (hh : Nat) : (s.setLock q n w x).home hh = s.home hh := by simp only [State.home, State.setLock_homes]
@[simp] theorem State.sheet_of_setLock (s : State) (q n w : Nat) (x : LockSlot) (nn : Nat) : (s.setLock q n w x).sheet nn = s.sheet nn := by simp only [State.sheet, State.setLock_sheets]
@[simp] theorem State.easelWord_of_setLock (s : State) (q n w : Nat) (x : LockSlot) (tt ee : Nat) : (s.setLock q n w x).easelWord tt ee = s.easelWord tt ee := by simp only [State.easelWord, State.setLock_easel]
@[simp] theorem State.mc_of_setLock (s : State) (q n w : Nat) (x : LockSlot) (mm : Nat) : (s.setLock q n w x).mc mm = s.mc mm := by simp only [State.mc, State.setLock_memctl]
@[simp] theorem State.bar_of_setLock (s : State) (q n w : Nat) (x : LockSlot) (ff oo : Nat) : (s.setLock q n w x).bar ff oo = s.bar ff oo := by simp only [State.bar, State.setLock_bar0]
@[simp] theorem State.cfg_of_setLock (s : State) (q n w : Nat) (x : LockSlot) (ff rr : Nat) : (s.setLock q n w x).cfg ff rr = s.cfg ff rr := by simp only [State.cfg, State.setLock_pcicfg]
@[simp] theorem State.dramLine_of_setLock (s : State) (q n w : Nat) (x : LockSlot) (j : Nat) : (s.setLock q n w x).dramLine j = s.dramLine j := by simp only [State.dramLine, State.setLock_dram, State.setLock_poisoned]
@[simp] theorem State.fld_of_setLock (s : State) (q n w : Nat) (x : LockSlot) (bb : Blk) (oo lo hi : Nat) : (s.setLock q n w x).fld bb oo lo hi = s.fld bb oo lo hi := by simp only [State.fld, State.reg_of_setLock]
@[simp] theorem State.rbit_of_setLock (s : State) (q n w : Nat) (x : LockSlot) (bb : Blk) (oo i : Nat) : (s.setLock q n w x).rbit bb oo i = s.rbit bb oo i := by simp only [State.rbit, State.fld_of_setLock]
@[simp] theorem State.tripOut_of_setLock (s : State) (q n w : Nat) (x : LockSlot) (p : Trip) : (s.setLock q n w x).tripOut p = s.tripOut p := by simp only [State.tripOut, State.tmode, State.fld_of_setLock]
@[simp] theorem State.acting_of_setLock (s : State) (q n w : Nat) (x : LockSlot) (p : Trip) : (s.setLock q n w x).acting p = s.acting p := by cases p <;> simp only [State.acting, State.tripOut_of_setLock]
@[simp] theorem State.acts_of_setLock (s : State) (q n w : Nat) (x : LockSlot) (p : Trip) : (s.setLock q n w x).acts p = s.acts p := by simp only [State.acts, State.acting_of_setLock, State.setLock_carried]
@[simp] theorem State.mtUp_of_setLock (s : State) (q n w : Nat) (x : LockSlot) : (s.setLock q n w x).mtUp = s.mtUp := by simp only [State.mtUp, State.moduleOut, State.fld_of_setLock]
@[simp] theorem State.alive_of_setLock (s : State) (q n w : Nat) (x : LockSlot) : (s.setLock q n w x).alive = s.alive := by simp only [State.alive, State.setLock_phase]

@[simp] theorem State.core_of_setBar (s : State) (f o : Nat) (v : BitVec 32) (j : Nat) : (s.setBar f o v).core j = s.core j := by simp only [State.core, State.setBar_cores]
@[simp] theorem State.reg_of_setBar (s : State) (f o : Nat) (v : BitVec 32) (bb : Blk) (oo : Nat) : (s.setBar f o v).reg bb oo = s.reg bb oo := by simp only [State.reg, State.setBar_regs]
@[simp] theorem State.qline_of_setBar (s : State) (f o : Nat) (v : BitVec 32) (qq ll : Nat) : (s.setBar f o v).qline qq ll = s.qline qq ll := by simp only [State.qline, State.setBar_qlines]
@[simp] theorem State.dirE_of_setBar (s : State) (f o : Nat) (v : BitVec 32) (hh ll : Nat) : (s.setBar f o v).dirE hh ll = s.dirE hh ll := by simp only [State.dirE, State.setBar_dir]
@[simp] theorem State.l3Line_of_setBar (s : State) (f o : Nat) (v : BitVec 32) (hh ll : Nat) : (s.setBar f o v).l3Line hh ll = s.l3Line hh ll := by simp only [State.l3Line, State.setBar_l3]
@[simp] theorem State.home_of_setBar (s : State) (f o : Nat) (v : BitVec 32) (hh : Nat) : (s.setBar f o v).home hh = s.home hh := by simp only [State.home, State.setBar_homes]
@[simp] theorem State.sheet_of_setBar (s : State) (f o : Nat) (v : BitVec 32) (nn : Nat) : (s.setBar f o v).sheet nn = s.sheet nn := by simp only [State.sheet, State.setBar_sheets]
@[simp] theorem State.easelWord_of_setBar (s : State) (f o : Nat) (v : BitVec 32) (tt ee : Nat) : (s.setBar f o v).easelWord tt ee = s.easelWord tt ee := by simp only [State.easelWord, State.setBar_easel]
@[simp] theorem State.mc_of_setBar (s : State) (f o : Nat) (v : BitVec 32) (mm : Nat) : (s.setBar f o v).mc mm = s.mc mm := by simp only [State.mc, State.setBar_memctl]
@[simp] theorem State.lock_of_setBar (s : State) (f o : Nat) (v : BitVec 32) (qq ii ww : Nat) : (s.setBar f o v).lock qq ii ww = s.lock qq ii ww := by simp only [State.lock, State.setBar_locks]
@[simp] theorem State.cfg_of_setBar (s : State) (f o : Nat) (v : BitVec 32) (ff rr : Nat) : (s.setBar f o v).cfg ff rr = s.cfg ff rr := by simp only [State.cfg, State.setBar_pcicfg]
@[simp] theorem State.dramLine_of_setBar (s : State) (f o : Nat) (v : BitVec 32) (j : Nat) : (s.setBar f o v).dramLine j = s.dramLine j := by simp only [State.dramLine, State.setBar_dram, State.setBar_poisoned]
@[simp] theorem State.fld_of_setBar (s : State) (f o : Nat) (v : BitVec 32) (bb : Blk) (oo lo hi : Nat) : (s.setBar f o v).fld bb oo lo hi = s.fld bb oo lo hi := by simp only [State.fld, State.reg_of_setBar]
@[simp] theorem State.rbit_of_setBar (s : State) (f o : Nat) (v : BitVec 32) (bb : Blk) (oo i : Nat) : (s.setBar f o v).rbit bb oo i = s.rbit bb oo i := by simp only [State.rbit, State.fld_of_setBar]
@[simp] theorem State.tripOut_of_setBar (s : State) (f o : Nat) (v : BitVec 32) (p : Trip) : (s.setBar f o v).tripOut p = s.tripOut p := by simp only [State.tripOut, State.tmode, State.fld_of_setBar]
@[simp] theorem State.acting_of_setBar (s : State) (f o : Nat) (v : BitVec 32) (p : Trip) : (s.setBar f o v).acting p = s.acting p := by cases p <;> simp only [State.acting, State.tripOut_of_setBar]
@[simp] theorem State.acts_of_setBar (s : State) (f o : Nat) (v : BitVec 32) (p : Trip) : (s.setBar f o v).acts p = s.acts p := by simp only [State.acts, State.acting_of_setBar, State.setBar_carried]
@[simp] theorem State.mtUp_of_setBar (s : State) (f o : Nat) (v : BitVec 32) : (s.setBar f o v).mtUp = s.mtUp := by simp only [State.mtUp, State.moduleOut, State.fld_of_setBar]
@[simp] theorem State.alive_of_setBar (s : State) (f o : Nat) (v : BitVec 32) : (s.setBar f o v).alive = s.alive := by simp only [State.alive, State.setBar_phase]

@[simp] theorem State.core_of_setCfg (s : State) (f r : Nat) (v : BitVec 32) (j : Nat) : (s.setCfg f r v).core j = s.core j := by simp only [State.core, State.setCfg_cores]
@[simp] theorem State.reg_of_setCfg (s : State) (f r : Nat) (v : BitVec 32) (bb : Blk) (oo : Nat) : (s.setCfg f r v).reg bb oo = s.reg bb oo := by simp only [State.reg, State.setCfg_regs]
@[simp] theorem State.qline_of_setCfg (s : State) (f r : Nat) (v : BitVec 32) (qq ll : Nat) : (s.setCfg f r v).qline qq ll = s.qline qq ll := by simp only [State.qline, State.setCfg_qlines]
@[simp] theorem State.dirE_of_setCfg (s : State) (f r : Nat) (v : BitVec 32) (hh ll : Nat) : (s.setCfg f r v).dirE hh ll = s.dirE hh ll := by simp only [State.dirE, State.setCfg_dir]
@[simp] theorem State.l3Line_of_setCfg (s : State) (f r : Nat) (v : BitVec 32) (hh ll : Nat) : (s.setCfg f r v).l3Line hh ll = s.l3Line hh ll := by simp only [State.l3Line, State.setCfg_l3]
@[simp] theorem State.home_of_setCfg (s : State) (f r : Nat) (v : BitVec 32) (hh : Nat) : (s.setCfg f r v).home hh = s.home hh := by simp only [State.home, State.setCfg_homes]
@[simp] theorem State.sheet_of_setCfg (s : State) (f r : Nat) (v : BitVec 32) (nn : Nat) : (s.setCfg f r v).sheet nn = s.sheet nn := by simp only [State.sheet, State.setCfg_sheets]
@[simp] theorem State.easelWord_of_setCfg (s : State) (f r : Nat) (v : BitVec 32) (tt ee : Nat) : (s.setCfg f r v).easelWord tt ee = s.easelWord tt ee := by simp only [State.easelWord, State.setCfg_easel]
@[simp] theorem State.mc_of_setCfg (s : State) (f r : Nat) (v : BitVec 32) (mm : Nat) : (s.setCfg f r v).mc mm = s.mc mm := by simp only [State.mc, State.setCfg_memctl]
@[simp] theorem State.lock_of_setCfg (s : State) (f r : Nat) (v : BitVec 32) (qq ii ww : Nat) : (s.setCfg f r v).lock qq ii ww = s.lock qq ii ww := by simp only [State.lock, State.setCfg_locks]
@[simp] theorem State.bar_of_setCfg (s : State) (f r : Nat) (v : BitVec 32) (ff oo : Nat) : (s.setCfg f r v).bar ff oo = s.bar ff oo := by simp only [State.bar, State.setCfg_bar0]
@[simp] theorem State.dramLine_of_setCfg (s : State) (f r : Nat) (v : BitVec 32) (j : Nat) : (s.setCfg f r v).dramLine j = s.dramLine j := by simp only [State.dramLine, State.setCfg_dram, State.setCfg_poisoned]
@[simp] theorem State.fld_of_setCfg (s : State) (f r : Nat) (v : BitVec 32) (bb : Blk) (oo lo hi : Nat) : (s.setCfg f r v).fld bb oo lo hi = s.fld bb oo lo hi := by simp only [State.fld, State.reg_of_setCfg]
@[simp] theorem State.rbit_of_setCfg (s : State) (f r : Nat) (v : BitVec 32) (bb : Blk) (oo i : Nat) : (s.setCfg f r v).rbit bb oo i = s.rbit bb oo i := by simp only [State.rbit, State.fld_of_setCfg]
@[simp] theorem State.tripOut_of_setCfg (s : State) (f r : Nat) (v : BitVec 32) (p : Trip) : (s.setCfg f r v).tripOut p = s.tripOut p := by simp only [State.tripOut, State.tmode, State.fld_of_setCfg]
@[simp] theorem State.acting_of_setCfg (s : State) (f r : Nat) (v : BitVec 32) (p : Trip) : (s.setCfg f r v).acting p = s.acting p := by cases p <;> simp only [State.acting, State.tripOut_of_setCfg]
@[simp] theorem State.acts_of_setCfg (s : State) (f r : Nat) (v : BitVec 32) (p : Trip) : (s.setCfg f r v).acts p = s.acts p := by simp only [State.acts, State.acting_of_setCfg, State.setCfg_carried]
@[simp] theorem State.mtUp_of_setCfg (s : State) (f r : Nat) (v : BitVec 32) : (s.setCfg f r v).mtUp = s.mtUp := by simp only [State.mtUp, State.moduleOut, State.fld_of_setCfg]
@[simp] theorem State.alive_of_setCfg (s : State) (f r : Nat) (v : BitVec 32) : (s.setCfg f r v).alive = s.alive := by simp only [State.alive, State.setCfg_phase]

@[simp] theorem State.core_of_emit (s : State) (x : Sent) (j : Nat) : (s.emit x).core j = s.core j := by simp only [State.core, State.emit_cores]
@[simp] theorem State.reg_of_emit (s : State) (x : Sent) (bb : Blk) (oo : Nat) : (s.emit x).reg bb oo = s.reg bb oo := by simp only [State.reg, State.emit_regs]
@[simp] theorem State.qline_of_emit (s : State) (x : Sent) (qq ll : Nat) : (s.emit x).qline qq ll = s.qline qq ll := by simp only [State.qline, State.emit_qlines]
@[simp] theorem State.dirE_of_emit (s : State) (x : Sent) (hh ll : Nat) : (s.emit x).dirE hh ll = s.dirE hh ll := by simp only [State.dirE, State.emit_dir]
@[simp] theorem State.l3Line_of_emit (s : State) (x : Sent) (hh ll : Nat) : (s.emit x).l3Line hh ll = s.l3Line hh ll := by simp only [State.l3Line, State.emit_l3]
@[simp] theorem State.home_of_emit (s : State) (x : Sent) (hh : Nat) : (s.emit x).home hh = s.home hh := by simp only [State.home, State.emit_homes]
@[simp] theorem State.sheet_of_emit (s : State) (x : Sent) (nn : Nat) : (s.emit x).sheet nn = s.sheet nn := by simp only [State.sheet, State.emit_sheets]
@[simp] theorem State.easelWord_of_emit (s : State) (x : Sent) (tt ee : Nat) : (s.emit x).easelWord tt ee = s.easelWord tt ee := by simp only [State.easelWord, State.emit_easel]
@[simp] theorem State.mc_of_emit (s : State) (x : Sent) (mm : Nat) : (s.emit x).mc mm = s.mc mm := by simp only [State.mc, State.emit_memctl]
@[simp] theorem State.lock_of_emit (s : State) (x : Sent) (qq ii ww : Nat) : (s.emit x).lock qq ii ww = s.lock qq ii ww := by simp only [State.lock, State.emit_locks]
@[simp] theorem State.bar_of_emit (s : State) (x : Sent) (ff oo : Nat) : (s.emit x).bar ff oo = s.bar ff oo := by simp only [State.bar, State.emit_bar0]
@[simp] theorem State.cfg_of_emit (s : State) (x : Sent) (ff rr : Nat) : (s.emit x).cfg ff rr = s.cfg ff rr := by simp only [State.cfg, State.emit_pcicfg]
@[simp] theorem State.dramLine_of_emit (s : State) (x : Sent) (j : Nat) : (s.emit x).dramLine j = s.dramLine j := by simp only [State.dramLine, State.emit_dram, State.emit_poisoned]
@[simp] theorem State.fld_of_emit (s : State) (x : Sent) (bb : Blk) (oo lo hi : Nat) : (s.emit x).fld bb oo lo hi = s.fld bb oo lo hi := by simp only [State.fld, State.reg_of_emit]
@[simp] theorem State.rbit_of_emit (s : State) (x : Sent) (bb : Blk) (oo i : Nat) : (s.emit x).rbit bb oo i = s.rbit bb oo i := by simp only [State.rbit, State.fld_of_emit]
@[simp] theorem State.tripOut_of_emit (s : State) (x : Sent) (p : Trip) : (s.emit x).tripOut p = s.tripOut p := by simp only [State.tripOut, State.tmode, State.fld_of_emit]
@[simp] theorem State.acting_of_emit (s : State) (x : Sent) (p : Trip) : (s.emit x).acting p = s.acting p := by cases p <;> simp only [State.acting, State.tripOut_of_emit]
@[simp] theorem State.acts_of_emit (s : State) (x : Sent) (p : Trip) : (s.emit x).acts p = s.acts p := by simp only [State.acts, State.acting_of_emit, State.emit_carried]
@[simp] theorem State.mtUp_of_emit (s : State) (x : Sent) : (s.emit x).mtUp = s.mtUp := by simp only [State.mtUp, State.moduleOut, State.fld_of_emit]
@[simp] theorem State.alive_of_emit (s : State) (x : Sent) : (s.emit x).alive = s.alive := by simp only [State.alive, State.emit_phase]

/-! A core: one lemma a field for each named update. -/

@[simp] theorem Core.setBank_level (k : Core) (b : Nat) (x : Bank) : (k.setBank b x).level = k.level := rfl
@[simp] theorem Core.setBank_gesso (k : Core) (b : Nat) (x : Bank) : (k.setBank b x).gesso = k.gesso := rfl
@[simp] theorem Core.setBank_spills (k : Core) (b : Nat) (x : Bank) : (k.setBank b x).spills = k.spills := rfl
@[simp] theorem Core.setBank_f (k : Core) (b : Nat) (x : Bank) : (k.setBank b x).f = k.f := rfl
@[simp] theorem Core.setBank_fpc (k : Core) (b : Nat) (x : Bank) : (k.setBank b x).fpc = k.fpc := rfl
@[simp] theorem Core.setBank_ctl (k : Core) (b : Nat) (x : Bank) : (k.setBank b x).ctl = k.ctl := rfl
@[simp] theorem Core.setBank_sheet (k : Core) (b : Nat) (x : Bank) : (k.setBank b x).sheet = k.sheet := rfl
@[simp] theorem Core.setBank_cstate (k : Core) (b : Nat) (x : Bank) : (k.setBank b x).cstate = k.cstate := rfl
@[simp] theorem Core.setBank_run (k : Core) (b : Nat) (x : Bank) : (k.setBank b x).run = k.run := rfl
@[simp] theorem Core.setBank_cold (k : Core) (b : Nat) (x : Bank) : (k.setBank b x).cold = k.cold := rfl
@[simp] theorem Core.setBank_pend (k : Core) (b : Nat) (x : Bank) : (k.setBank b x).pend = k.pend := rfl
@[simp] theorem Core.setBank_stores (k : Core) (b : Nat) (x : Bank) : (k.setBank b x).stores = k.stores := rfl
@[simp] theorem Core.setBank_gather (k : Core) (b : Nat) (x : Bank) : (k.setBank b x).gather = k.gather := rfl
@[simp] theorem Core.setBank_outs (k : Core) (b : Nat) (x : Bank) : (k.setBank b x).outs = k.outs := rfl
@[simp] theorem Core.setBank_tlb (k : Core) (b : Nat) (x : Bank) : (k.setBank b x).tlb = k.tlb := rfl
@[simp] theorem Core.setBank_walk (k : Core) (b : Nat) (x : Bank) : (k.setBank b x).walk = k.walk := rfl
@[simp] theorem Core.setBank_couch (k : Core) (b : Nat) (x : Bank) : (k.setBank b x).couch = k.couch := rfl
@[simp] theorem Core.setBank_discard (k : Core) (b : Nat) (x : Bank) : (k.setBank b x).discard = k.discard := rfl
@[simp] theorem Core.setBank_pausing (k : Core) (b : Nat) (x : Bank) : (k.setBank b x).pausing = k.pausing := rfl

@[simp] theorem Core.setCur_level (k : Core) (x : Bank) : (k.setCur x).level = k.level := rfl
@[simp] theorem Core.setCur_gesso (k : Core) (x : Bank) : (k.setCur x).gesso = k.gesso := rfl
@[simp] theorem Core.setCur_spills (k : Core) (x : Bank) : (k.setCur x).spills = k.spills := rfl
@[simp] theorem Core.setCur_f (k : Core) (x : Bank) : (k.setCur x).f = k.f := rfl
@[simp] theorem Core.setCur_fpc (k : Core) (x : Bank) : (k.setCur x).fpc = k.fpc := rfl
@[simp] theorem Core.setCur_ctl (k : Core) (x : Bank) : (k.setCur x).ctl = k.ctl := rfl
@[simp] theorem Core.setCur_sheet (k : Core) (x : Bank) : (k.setCur x).sheet = k.sheet := rfl
@[simp] theorem Core.setCur_cstate (k : Core) (x : Bank) : (k.setCur x).cstate = k.cstate := rfl
@[simp] theorem Core.setCur_run (k : Core) (x : Bank) : (k.setCur x).run = k.run := rfl
@[simp] theorem Core.setCur_cold (k : Core) (x : Bank) : (k.setCur x).cold = k.cold := rfl
@[simp] theorem Core.setCur_pend (k : Core) (x : Bank) : (k.setCur x).pend = k.pend := rfl
@[simp] theorem Core.setCur_stores (k : Core) (x : Bank) : (k.setCur x).stores = k.stores := rfl
@[simp] theorem Core.setCur_gather (k : Core) (x : Bank) : (k.setCur x).gather = k.gather := rfl
@[simp] theorem Core.setCur_outs (k : Core) (x : Bank) : (k.setCur x).outs = k.outs := rfl
@[simp] theorem Core.setCur_tlb (k : Core) (x : Bank) : (k.setCur x).tlb = k.tlb := rfl
@[simp] theorem Core.setCur_walk (k : Core) (x : Bank) : (k.setCur x).walk = k.walk := rfl
@[simp] theorem Core.setCur_couch (k : Core) (x : Bank) : (k.setCur x).couch = k.couch := rfl
@[simp] theorem Core.setCur_discard (k : Core) (x : Bank) : (k.setCur x).discard = k.discard := rfl
@[simp] theorem Core.setCur_pausing (k : Core) (x : Bank) : (k.setCur x).pausing = k.pausing := rfl

@[simp] theorem Core.setCtl_banks (k : Core) (n : Nat) (v : DWord) : (k.setCtl n v).banks = k.banks := rfl
@[simp] theorem Core.setCtl_level (k : Core) (n : Nat) (v : DWord) : (k.setCtl n v).level = k.level := rfl
@[simp] theorem Core.setCtl_gesso (k : Core) (n : Nat) (v : DWord) : (k.setCtl n v).gesso = k.gesso := rfl
@[simp] theorem Core.setCtl_spills (k : Core) (n : Nat) (v : DWord) : (k.setCtl n v).spills = k.spills := rfl
@[simp] theorem Core.setCtl_f (k : Core) (n : Nat) (v : DWord) : (k.setCtl n v).f = k.f := rfl
@[simp] theorem Core.setCtl_fpc (k : Core) (n : Nat) (v : DWord) : (k.setCtl n v).fpc = k.fpc := rfl
@[simp] theorem Core.setCtl_sheet (k : Core) (n : Nat) (v : DWord) : (k.setCtl n v).sheet = k.sheet := rfl
@[simp] theorem Core.setCtl_cstate (k : Core) (n : Nat) (v : DWord) : (k.setCtl n v).cstate = k.cstate := rfl
@[simp] theorem Core.setCtl_run (k : Core) (n : Nat) (v : DWord) : (k.setCtl n v).run = k.run := rfl
@[simp] theorem Core.setCtl_cold (k : Core) (n : Nat) (v : DWord) : (k.setCtl n v).cold = k.cold := rfl
@[simp] theorem Core.setCtl_pend (k : Core) (n : Nat) (v : DWord) : (k.setCtl n v).pend = k.pend := rfl
@[simp] theorem Core.setCtl_stores (k : Core) (n : Nat) (v : DWord) : (k.setCtl n v).stores = k.stores := rfl
@[simp] theorem Core.setCtl_gather (k : Core) (n : Nat) (v : DWord) : (k.setCtl n v).gather = k.gather := rfl
@[simp] theorem Core.setCtl_outs (k : Core) (n : Nat) (v : DWord) : (k.setCtl n v).outs = k.outs := rfl
@[simp] theorem Core.setCtl_tlb (k : Core) (n : Nat) (v : DWord) : (k.setCtl n v).tlb = k.tlb := rfl
@[simp] theorem Core.setCtl_walk (k : Core) (n : Nat) (v : DWord) : (k.setCtl n v).walk = k.walk := rfl
@[simp] theorem Core.setCtl_couch (k : Core) (n : Nat) (v : DWord) : (k.setCtl n v).couch = k.couch := rfl
@[simp] theorem Core.setCtl_discard (k : Core) (n : Nat) (v : DWord) : (k.setCtl n v).discard = k.discard := rfl
@[simp] theorem Core.setCtl_pausing (k : Core) (n : Nat) (v : DWord) : (k.setCtl n v).pausing = k.pausing := rfl

@[simp] theorem Core.setPsw_level (k : Core) (p : DWord) : (k.setPsw p).level = k.level := rfl
@[simp] theorem Core.setPsw_gesso (k : Core) (p : DWord) : (k.setPsw p).gesso = k.gesso := rfl
@[simp] theorem Core.setPsw_spills (k : Core) (p : DWord) : (k.setPsw p).spills = k.spills := rfl
@[simp] theorem Core.setPsw_f (k : Core) (p : DWord) : (k.setPsw p).f = k.f := rfl
@[simp] theorem Core.setPsw_fpc (k : Core) (p : DWord) : (k.setPsw p).fpc = k.fpc := rfl
@[simp] theorem Core.setPsw_ctl (k : Core) (p : DWord) : (k.setPsw p).ctl = k.ctl := rfl
@[simp] theorem Core.setPsw_sheet (k : Core) (p : DWord) : (k.setPsw p).sheet = k.sheet := rfl
@[simp] theorem Core.setPsw_cstate (k : Core) (p : DWord) : (k.setPsw p).cstate = k.cstate := rfl
@[simp] theorem Core.setPsw_run (k : Core) (p : DWord) : (k.setPsw p).run = k.run := rfl
@[simp] theorem Core.setPsw_cold (k : Core) (p : DWord) : (k.setPsw p).cold = k.cold := rfl
@[simp] theorem Core.setPsw_pend (k : Core) (p : DWord) : (k.setPsw p).pend = k.pend := rfl
@[simp] theorem Core.setPsw_stores (k : Core) (p : DWord) : (k.setPsw p).stores = k.stores := rfl
@[simp] theorem Core.setPsw_gather (k : Core) (p : DWord) : (k.setPsw p).gather = k.gather := rfl
@[simp] theorem Core.setPsw_outs (k : Core) (p : DWord) : (k.setPsw p).outs = k.outs := rfl
@[simp] theorem Core.setPsw_tlb (k : Core) (p : DWord) : (k.setPsw p).tlb = k.tlb := rfl
@[simp] theorem Core.setPsw_walk (k : Core) (p : DWord) : (k.setPsw p).walk = k.walk := rfl
@[simp] theorem Core.setPsw_couch (k : Core) (p : DWord) : (k.setPsw p).couch = k.couch := rfl
@[simp] theorem Core.setPsw_discard (k : Core) (p : DWord) : (k.setPsw p).discard = k.discard := rfl
@[simp] theorem Core.setPsw_pausing (k : Core) (p : DWord) : (k.setPsw p).pausing = k.pausing := rfl

@[simp] theorem Core.bank_setBank (k : Core) (b : Nat) (x : Bank) : (k.setBank b x).bank b = x := by
  rw [Core.bank, Core.setBank, Tab.get_set_self]
theorem Core.bank_setBank_ne (k : Core) (b : Nat) (x : Bank) {j : Nat} (h : j ≠ b) : (k.setBank b x).bank j = k.bank j := by
  rw [Core.bank, Core.setBank, Tab.get_set_ne _ _ _ h, Core.bank]
@[simp] theorem Core.ctlReg_setCtl (k : Core) (n : Nat) (v : DWord) : (k.setCtl n v).ctlReg n = v := by
  rw [Core.ctlReg, Core.setCtl, Tab.get_set_self]
theorem Core.ctlReg_setCtl_ne (k : Core) (n : Nat) (v : DWord) {j : Nat} (h : j ≠ n) : (k.setCtl n v).ctlReg j = k.ctlReg j := by
  rw [Core.ctlReg, Core.setCtl, Tab.get_set_ne _ _ _ h, Core.ctlReg]
@[simp] theorem Core.cur_setCur (k : Core) (x : Bank) : (k.setCur x).cur = x := by
  rw [Core.cur, Core.setCur_level, Core.setCur, Core.bank_setBank]
@[simp] theorem Core.bank_setCtl (k : Core) (n : Nat) (v : DWord) (b : Nat) : (k.setCtl n v).bank b = k.bank b := by
  simp only [Core.bank, Core.setCtl_banks]
@[simp] theorem Core.psw_setCtl (k : Core) (n : Nat) (v : DWord) : (k.setCtl n v).psw = k.psw := by
  simp only [Core.psw, Core.cur, Core.setCtl_level, Core.bank_setCtl]
@[simp] theorem Core.ctlReg_setBank (k : Core) (b : Nat) (x : Bank) (n : Nat) : (k.setBank b x).ctlReg n = k.ctlReg n := by
  simp only [Core.ctlReg, Core.setBank_ctl]
@[simp] theorem Core.ctlReg_setPsw (k : Core) (p : DWord) (n : Nat) : (k.setPsw p).ctlReg n = k.ctlReg n := by
  simp only [Core.ctlReg, Core.setPsw_ctl]
@[simp] theorem Core.psw_setPsw (k : Core) (p : DWord) : (k.setPsw p).psw = p := by
  rw [Core.psw, Core.setPsw, Core.cur_setCur]

end Sys2Proof.Machine
end

