-- ==== Sys2Proof/Laws/Insn.lean ====
section
/-! SUPPORT. What the shared operations of the core's instructions can do, said once each: how a command ends, how an instruction
begins, and what the common shapes leave. -/

namespace Sys2Proof.Machine

open Sys2Proof

/-- Settling a state without reactions changes nothing. -/
theorem State.settleN_nil (n : Nat) (s : State) (h : s.reacts = []) : s.settleN n = s := by
  cases n with
  | zero => cases s; simp_all [State.settleN]
  | succ n => simp [State.settleN, h]

/-- Settling leaves no reaction that is due. -/
theorem State.settleN_due (n : Nat) (s : State) : ∀ x ∈ (s.settleN n).reacts, (s.settleN n).reactDue x = false := by
  induction n generalizing s with
  | zero =>
    intro x hx
    have hd : (s.settleN 0).reactDue x = s.reactDue x := rfl
    rw [hd, ← Bool.not_eq_true']
    exact (List.mem_filter.1 hx).2
  | succ n ih =>
    rw [State.settleN]
    cases hr : s.reacts.filter s.reactDue with
    | nil =>
      intro x hx
      have := List.filter_eq_nil_iff.1 hr x hx
      simpa using this
    | cons r rs => exact ih _

/-- What follows a command leaves no reaction that is due (R613). -/
theorem State.follow_due (s : State) : ∀ x ∈ s.follow.reacts, s.follow.reactDue x = false := State.settleN_due _ _

/-- Nothing follows a command that leaves a quiet state. -/
theorem State.follow_quiet (s : State) (h : s.Quiet) : s.follow = s := by
  obtain ⟨hr, hw, hl⟩ := h
  have h1 : s.waitsGo = s := by
    rw [State.waitsGo, hw, List.foldl_nil]
    cases s
    simp_all
  have h2 : s.waitedResets = s := by
    have : (s.longOps.filter fun o => o.op == 0x13) = [] := by
      simpa [List.filter_eq_nil_iff] using hl
    rw [State.waitedResets, this, List.foldl_nil]
  rw [State.follow, h1, h2, ite_self]
  exact State.settleN_nil _ _ hr

/-- A quiet state is what an instruction leaves whose own effect gives it, where no notice waited. -/
theorem State.after_quiet {s : State} (hs : s.waits = []) (c : Nat) {t : State} (h : t.Quiet) : s.after c t = t := by
  rw [State.after, hs, List.isEmpty_nil, if_pos rfl]
  exact t.follow_quiet h

/-- Being quiet depends on the reactions, the waiting work and the long commands only. -/
theorem State.Quiet.congr {s t : State} (h : s.Quiet) (h1 : t.reacts = s.reacts) (h2 : t.waits = s.waits) (h3 : t.longOps = s.longOps) :
    t.Quiet := ⟨h1.trans h.1, h2.trans h.2.1, by rw [h3]; exact h.2.2⟩

@[simp] theorem State.quiet_setCore (s : State) (c : Nat) (k : Core) : (s.setCore c k).Quiet ↔ s.Quiet := by
  simp only [State.Quiet, State.setCore_reacts, State.setCore_longOps, State.setCore_waits]

/-- What the run of an instruction's effect leaves. -/
def outcome (s : State) (c : Nat) (r : Except Stop (Unit × State)) : State :=
  match r with
  | .ok x => s.after c x.2
  | .error e =>
    match e.trap with
    | .stall => (e.keep.getD s).follow
    | t => s.stops c (e.keep.getD (s.undone c e.met)) t

/-- An attempt, and what follows it, leaves what its run leaves. -/
theorem attempt_follow (s : State) (c : Nat) (m : M Unit) : (s.attempt c m).follow = outcome s c (m.run s) := by
  unfold State.attempt outcome
  cases hm : m.run s with
  | ok x =>
    obtain ⟨u, x⟩ := x
    simp only [State.after]
  | error e =>
    have key (t : Trap) : (match (e.keep.getD (s.undone c e.met)).takeTrap c t with
        | none => s
        | some s' => if s.waits.isEmpty then s' else s'.ran c).follow = s.stops c (e.keep.getD (s.undone c e.met)) t := by
      rw [State.stops]
      cases (e.keep.getD (s.undone c e.met)).takeTrap c t <;> rfl
    cases ht : e.trap with
    | stall => simp only [ht]
    | _ =>
      simp only [ht]
      exact key _

/-- An instruction that begins leaves what its effect, run from the state it begins in, leaves. -/
theorem insnD_run {t : Tmpl} {n : Insn} {s s1 : State} {d : Dec} (h : Begins t n s d s1) (body : Dec → M Unit) :
    s.isaEnd n.core.val (s.insnD t n body) = .next (outcome s n.core.val ((body d).run s1)) := by
  obtain ⟨s0, h0, h1⟩ := h.start
  have hrun : ((do
      fetchCheck n.core.val (pswIa (s.core n.core.val).psw) d.len
      setIa n.core.val (pswIa (s.core n.core.val).psw + d.len)
      body d) : M Unit).run s = (body d).run s1 := by
    rw [StateT.run_bind, h0]
    show (body d).run _ = _
    rw [h1]
    rfl
  unfold State.isaEnd
  simp only [h.runs, State.insnD, h.dec, Bool.not_true, Bool.false_eq_true, if_false, ends]
  rw [attempt_follow, hrun]

/-- The same of an instruction whose operands are formed first. -/
theorem isa_run {t : Tmpl} {n : Insn} {s s1 : State} {d : Dec} (h : Begins t n s d s1) (body : Dec → List Formed → M Unit) :
    s.isa t n body = .next (outcome s n.core.val ((do let fs ← formM n.core.val d.ops; body d fs : M Unit).run s1)) :=
  insnD_run h _

/-- A sequence whose first part ends well. -/
theorem run_bind_ok {α β : Type} {x : M α} {f : α → M β} {s s1 : State} {a : α} (h : x.run s = .ok (a, s1)) :
    (x >>= f).run s = (f a).run s1 := by
  rw [StateT.run_bind, h]
  rfl

/-- A sequence whose first part stops. -/
theorem run_bind_error {α β : Type} {x : M α} {f : α → M β} {s : State} {e : Stop} (h : x.run s = .error e) :
    (x >>= f).run s = .error e := by
  rw [StateT.run_bind, h]
  rfl

/-- A sequence that ends well: its first part did. -/
theorem bind_ok {α β : Type} {x : M α} {f : α → M β} {s : State} {r : β × State} (h : (x >>= f).run s = .ok r) :
    ∃ a s1, x.run s = .ok (a, s1) ∧ (f a).run s1 = .ok r := by
  cases hx : x.run s with
  | error e => exact absurd ((run_bind_error hx).symm.trans h) (by simp)
  | ok p => exact ⟨p.1, p.2, rfl, (run_bind_ok hx).symm.trans h⟩

/-- An answer that changes nothing. -/
theorem pure_ok {α : Type} {a b : α} {s s1 : State} (h : (pure a : M α).run s = .ok (b, s1)) : a = b ∧ s = s1 := by
  have := Except.ok.inj h
  exact ⟨congrArg Prod.fst this, congrArg Prod.snd this⟩

/-- Setting the flags. -/
theorem setFlags_run (c : Nat) (f : Flg) (s : State) : (setFlags c f).run s = .ok ((), s.withFlags c f) := rfl

/-- A check that fails. -/
theorem pcheck_run {α : Type} (code : Nat) (s : State) :
    (pcheck code : M α).run s = .error { trap := .check code [], keep := none, met := s } := rfl

/-- A failed check leaves the trap of the instruction undone. -/
theorem outcome_check (s : State) (c code : Nat) (met : State) :
    outcome s c (.error { trap := .check code [], keep := none, met := met }) = s.trapped c met (.check code []) := rfl

/-- A change that does not have to wait. -/
theorem doStall_run {f : State → Option State} {s s1 : State} (h : f s = some s1) : (doStall f).run s = .ok ((), s1) := by
  unfold doStall
  rw [run_bind_ok (a := s) (s1 := s) rfl, h]
  rfl

/-- A store that the buffer and the leaf take. -/
theorem store_run {c : Nat} {x : Xl} {nidx : Nat} {w : Wid} {v : Nat} {rel : Bool} {s s' : State} (h : Stores s c x nidx w v rel s') :
    (store c x nidx w v rel).run s = .ok ((), s') := by
  obtain ⟨hr, s1, hd, rfl⟩ := h
  have : ¬ 96 ≤ (s.core c).stores.length := Nat.not_le.2 hr
  unfold store
  rw [run_bind_ok (a := s) (s1 := s) rfl]
  simp only [this, if_false]
  have hd' := doStall_run (f := fun s => s.setD (.core c) ((s.core c).sheet.getD 64) x.leafAt) hd
  rw [run_bind_ok hd']
  rfl

/-- An operand's write that its place takes. -/
theorem writeOp_run {c : Nat} {rel : Bool} {r : Rdy} {v : Nat} {s s' : State} (h : Deposits s c rel r v s') :
    (writeOp c rel r v).run s = .ok ((), s') := by
  unfold writeOp
  unfold Deposits at h
  cases hx : r.xl with
  | some x =>
    rw [hx] at h
    exact store_run h
  | none =>
    rw [hx] at h
    rw [h]
    rfl

/-- What reading a non-empty list of operands says of its first and of the rest. -/
theorem readFrom_split {c : Nat} {d : Dec} {r : Rdy} {rs : List Rdy} {s s' : State} {vs : List Nat}
    (h : (readFrom c d (r :: rs) 0).run s = .ok (vs, s')) :
    ∃ s1, (readOp c d.acq (opAt (r :: rs) 0)).run s = .ok (srcAt vs 0, s1) ∧ (readFrom c d (r :: rs) 1).run s1 = .ok (vs.drop 1, s') := by
  rw [readFrom, List.drop_zero, List.mapM_cons] at h
  obtain ⟨v, s1, h1, h⟩ := bind_ok h
  obtain ⟨ws, s2, h2, h⟩ := bind_ok h
  obtain ⟨rfl, rfl⟩ := pure_ok h
  exact ⟨s1, h1, h2⟩

/-- Preparing operands gives one for each. -/
theorem readyOps_length {c : Nat} {ilock : Bool} {fs : List Formed} {s s' : State} {rs : List Rdy}
    (h : (readyOps c ilock fs).run s = .ok (rs, s')) : rs.length = fs.length := by
  induction fs generalizing s rs with
  | nil => simp [← (pure_ok h).1]
  | cons f fs ih =>
    rw [readyOps, List.mapM_cons] at h
    obtain ⟨r, s1, _, h⟩ := bind_ok h
    obtain ⟨ws, s2, h2, h⟩ := bind_ok h
    obtain ⟨rfl, rfl⟩ := pure_ok h
    rw [List.length_cons, List.length_cons, ih (s := s1) h2]

/-- Operands are formed one for each. -/
theorem formOps_length (sf ia : Nat) (k : Core) (os : List DOp) : (formOps sf ia k os).1.length = os.length := by
  induction os generalizing k with
  | nil => rfl
  | cons o os ih => rw [formOps, List.length_cons, List.length_cons, ih]

/-- Decoding operands gives one for each of the template. -/
theorem decOps_length {w : Wid} {ts : List TOp} {p : Nat} {l : List Nonet} {x : List DOp × Nat × List Nonet}
    (h : decOps w ts p l = .ok x) : x.1.length = ts.length := by
  fun_induction decOps w ts p l generalizing x <;> grind

/-- A decoded instruction has the operands of its row. -/
theorem decodeInsn_length {t : Tmpl} {prob : Bool} {pre opc ops : List Nonet} {d : Dec} (h : decodeInsn t prob pre opc ops = .ok d) :
    d.ops.length = t.ops.length := by
  cases hp : decPre [] 0 pre with
  | error e => simp [decodeInsn, hp] at h
  | ok ps =>
    cases hq : decOpc t ps.length opc with
    | error e => simp [decodeInsn, hp, hq] at h
    | ok u =>
      cases ho : decOps (widOf ps) t.ops (ps.length + if t.esc then 2 else 1) ops with
      | error e =>
        simp only [decodeInsn, hp, hq, ho] at h
        grind
      | ok x =>
        have hx := decOps_length ho
        simp only [decodeInsn, hp, hq, ho] at h
        grind

/-- The operands read belong to the row. -/
theorem Reads.length {t : Tmpl} {n : Insn} {s s1 : State} {d : Dec} {il : Bool} {i : Nat} {rs : List Rdy} {s2 : State} {vs : List Nat}
    {s' : State} (hb : Begins t n s d s1) (h : Reads n.core.val d s1 il i rs s2 vs s') : rs.length = t.ops.length := by
  obtain ⟨fs, s3, h1, h2⟩ := h.ready
  rw [readyOps_length h2, ← decodeInsn_length hb.dec]
  have : fs = (formOps (s1.sfBase n.core.val) (pswIa (s1.core n.core.val).psw) (s1.core n.core.val) d.ops).1 := by
    have := (Except.ok.inj h1)
    exact (congrArg Prod.fst this).symm
  rw [this, formOps_length]

/-- An instruction that changes x, outside an interlocked access. -/
theorem updX_run {c : Nat} {d : Dec} {fs : List Formed} {f : Flg → Nat → List Nat → AluR} {s1 s2 s' : State} {rs : List Rdy}
    {vs : List Nat} (h2 : (readyOps c d.atom fs).run s1 = .ok (rs, s2)) (hx : d.atom = false ∨ (opAt rs 0).xl = none)
    (hr : (readFrom c d rs 0).run s2 = .ok (vs, s')) (hl : rs ≠ []) :
    (updX c d fs f).run s1 = (match f (s2.flags c) (srcAt vs 0) (vs.drop 1) with
      | .error e => pcheck e
      | .ok (r, fl) => (do
          setFlags c fl
          writeOp c d.rel (opAt rs 0) r : M Unit)).run s' := by
  obtain ⟨r, rs, rfl⟩ := List.exists_cons_of_ne_nil hl
  obtain ⟨s3, h3, h4⟩ := readFrom_split hr
  have key : ((do
      let v ← readOp c d.acq (opAt (r :: rs) 0)
      let ss ← readFrom c d (r :: rs) 1
      match f (s2.flags c) v ss with
      | .error e => pcheck e
      | .ok (r', fl) => do
        setFlags c fl
        writeOp c d.rel (opAt (r :: rs) 0) r') : M Unit).run s2 =
      (match f (s2.flags c) (srcAt vs 0) (vs.drop 1) with
      | .error e => pcheck e
      | .ok (r', fl) => (do
          setFlags c fl
          writeOp c d.rel (opAt (r :: rs) 0) r' : M Unit)).run s' := by
    rw [run_bind_ok h3, run_bind_ok h4]
  unfold updX
  rw [run_bind_ok h2, run_bind_ok (a := s2) (s1 := s2) rfl]
  rcases hx with hx | hx
  · simp only [hx]
    exact key
  · cases hd : d.atom
    · exact key
    · simp only [hx]
      exact key

/-- Two interlocked accesses whose changes write the same leave the same and keep corresponding results. -/
theorem rmw_map {α β : Type} (c : Nat) (rel : Bool) (x : Xl) (nidx : Nat) (w : Wid) (f : Nat → Option Nat × α) (g : α → β) :
    rmw c rel x nidx w (fun v => ((f v).1, g (f v).2)) = g <$> rmw c rel x nidx w f := by
  simp only [rmw, map_eq_pure_bind, bind_assoc]
  refine bind_congr fun _ => bind_congr fun _ => bind_congr fun _ => bind_congr fun _ => bind_congr fun r => bind_congr fun _ => ?_
  split
  · funext s; rfl
  · split
    · simp only [*, pure_bind]
    · simp only [*, bind_assoc, pure_bind]

/-- An interlocked instruction leaves what its access leaves, with the flags. -/
theorem updX_atom {c : Nat} {d : Dec} {fs : List Formed} {f : Flg → Nat → List Nat → AluR} {s1 s2 s' s'' : State} {rs : List Rdy}
    {vs : List Nat} {x : Xl} {v : Nat} (h2 : (readyOps c true fs).run s1 = .ok (rs, s2)) (hd : d.atom = true)
    (hx : (opAt rs 0).xl = some x) (hr : (readFrom c d rs 1).run s2 = .ok (vs, s'))
    (hm : (rmw c d.rel x (opAt rs 0).f.nidx (opAt rs 0).f.op.wid fun v =>
      match f (s2.flags c) v vs with
      | .ok (r, _) => (some r, v)
      | .error _ => (none, v)).run s' = .ok (v, s'')) :
    (updX c d fs f).run s1 = (match f (s2.flags c) v vs with
      | .ok (_, fl) => setFlags c fl
      | .error code => pcheck code : M Unit).run s'' := by
  let G : Nat → Option Nat × Nat := fun v =>
    match f (s2.flags c) v vs with
    | .ok (r, _) => (some r, v)
    | .error _ => (none, v)
  let g : Nat → Except Nat Flg := fun v =>
    match f (s2.flags c) v vs with
    | .ok (_, fl) => .ok fl
    | .error e => .error e
  have hm' : (g <$> rmw c d.rel x (opAt rs 0).f.nidx (opAt rs 0).f.op.wid G).run s' = .ok (g v, s'') := by
    rw [StateT.run_map, hm]
    rfl
  unfold updX
  rw [hd, run_bind_ok h2, run_bind_ok (a := s2) (s1 := s2) rfl]
  simp only [hx]
  rw [run_bind_ok hr]
  refine (run_bind_ok (a := g v) (s1 := s'') (Eq.trans (congrArg (fun m : M (Except Nat Flg) => m.run s') ?_) hm')).trans ?_
  · rw [← rmw_map]
    congr 1
    funext v
    simp only [G, g]
    cases hv : f (s2.flags c) v vs <;> simp only [hv]
  · simp only [g]
    cases hv : f (s2.flags c) v vs <;> rfl

/-- A row whose meaning is a change of x does what its row says. -/
theorem updRow_intro {mk : Insn → Instr} {t : Tmpl} {f : Nat → Flg → Nat → List Nat → AluR} (ht : t.ops ≠ [])
    (h : ∀ n s, exec (mk n) s = s.isa t n fun d fs => updX n.core.val d fs fun old x ss => f d.wid.bits old x ss) :
    UpdRow mk t f := by
  intro n s d s1 hb
  refine ⟨fun rs s2 vs s' hr hx => ?_, fun rs s2 vs s' x v s'' hr hd hx hm => ?_⟩
  · have hl : rs ≠ [] := fun e => ht (List.length_eq_zero_iff.1 (by rw [← hr.length hb, e, List.length_nil]))
    obtain ⟨fs, s3, h1, h2⟩ := hr.ready
    have hu := updX_run (f := fun old x ss => f d.wid.bits old x ss) h2 hx hr.read hl
    rw [h, isa_run hb, run_bind_ok h1, hu]
    cases hf : f d.wid.bits (s2.flags n.core.val) (srcAt vs 0) (vs.drop 1) with
    | error e => rfl
    | ok p =>
      intro s4 h4
      simp only []
      rw [run_bind_ok (setFlags_run _ _ s'), writeOp_run h4]
      rfl
  · obtain ⟨fs, s3, h1, h2⟩ := hr.ready
    have hu := updX_atom (f := fun old x ss => f d.wid.bits old x ss) h2 hd hx hr.read hm
    rw [← hd] at h2
    rw [h, isa_run hb, run_bind_ok h1, hu]
    cases hf : f d.wid.bits (s2.flags n.core.val) v vs with
    | error e => rfl
    | ok p => rfl

/-- A row whose meaning writes a destination from sources does what its row says. -/
theorem setRow_intro {mk : Insn → Instr} {t : Tmpl} {f : Nat → Flg → List Nat → AluR}
    (h : ∀ n s, exec (mk n) s = s.isa t n fun d fs => setX n.core.val d fs fun old ss => f d.wid.bits old ss) :
    SetRow mk t f := by
  intro n s d s1 hb c rs s2 vs s' hr
  obtain ⟨fs, s3, h1, h2⟩ := hr.ready
  rw [h, isa_run hb, run_bind_ok h1]
  unfold setX
  rw [run_bind_ok h2, run_bind_ok (a := s2) (s1 := s2) rfl, run_bind_ok hr.read]
  simp only [c]
  cases hf : f d.wid.bits (s2.flags n.core.val) vs with
  | error e => rfl
  | ok p =>
    intro s4 h4
    simp only []
    rw [run_bind_ok (setFlags_run _ _ s'), writeOp_run h4]
    rfl

/-- A row whose meaning sets flags from sources does what its row says. -/
theorem cmpRow_intro {mk : Insn → Instr} {t : Tmpl} {f : Nat → Flg → List Nat → Except Nat Flg} {g : Nat → Flg → List Nat → AluR}
    (hg : ∀ w o vs, f w o vs = (g w o vs).map Prod.snd)
    (h : ∀ n s, exec (mk n) s = s.isa t n fun d fs => cmpX n.core.val d fs fun old ss => g d.wid.bits old ss) :
    CmpRow mk t f := by
  intro n s d s1 hb c rs s2 vs s' hr
  obtain ⟨fs, s3, h1, h2⟩ := hr.ready
  rw [h, isa_run hb, run_bind_ok h1, hg]
  unfold cmpX
  rw [run_bind_ok h2, run_bind_ok (a := s2) (s1 := s2) rfl, run_bind_ok hr.read]
  cases hf : g d.wid.bits (s2.flags n.core.val) vs <;> simp only [c, hf] <;> rfl

/-- A table written twice at one key holds the second value. -/
theorem Tab.set_set {α : Type} [DecidableEq α] (f : Nat → α) (t : Tab α) (k : Nat) (v w : α) :
    Tab.set f (Tab.set f t k v) k w = Tab.set f t k w := by
  have h1 (t : Tab α) : Tab.erase (Tab.erase t k) k = Tab.erase t k := by
    fun_induction Tab.erase t k <;> grind [Tab.erase]
  have h2 (t : Tab α) : Tab.erase (Tab.insert k v t) k = Tab.erase t k := by
    fun_induction Tab.insert k v t <;> grind [Tab.erase]
  have h3 : Tab.erase (Tab.set f t k v) k = Tab.erase t k := by
    by_cases hv : v = f k
    · rw [Tab.set, if_pos hv, h1]
    · rw [Tab.set, if_neg hv, h2, h1]
  rw [Tab.set, h3, Tab.set]

/-- A core written twice holds the second value. -/
@[simp] theorem State.setCore_setCore (s : State) (c : Nat) (k k' : Core) : (s.setCore c k).setCore c k' = s.setCore c k' := by
  simp only [State.setCore, Tab.set_set]

/-- An operand that is a register, an immediate or a target leaves the core as it is. -/
theorem formOp_direct (sf ia : Nat) (k : Core) (o : DOp) (h : o.isMem = false) : (formOp sf ia k o).2 = k := by
  unfold DOp.isMem at h
  unfold formOp
  split <;> simp_all

/-- Operands without memory leave the core as it is. -/
theorem formOps_direct (sf ia : Nat) (k : Core) (os : List DOp) (h : ∀ o ∈ os, o.isMem = false) : (formOps sf ia k os).2 = k := by
  induction os with
  | nil => rfl
  | cons o os ih =>
    rw [formOps, formOp_direct sf ia k o (h o List.mem_cons_self)]
    exact ih fun x hx => h x (List.mem_cons_of_mem _ hx)

/-- A translation in an instruction. -/
theorem xlateM_run {c kind fk va : Nat} {dspace : Bool} {s s' : State} {x : Xl}
    (hk : kind = 1 ∧ fk = 1 ∨ kind = 2 ∧ fk = 2 ∨ kind = 3 ∧ fk = 3 ∨ kind = 4 ∧ fk = 2)
    (h : s.xlate c dspace kind fk va = .ok (x, s')) : (xlateM c dspace kind va).run s = .ok (x, s') := by
  rcases hk with ⟨rfl, rfl⟩ | ⟨rfl, rfl⟩ | ⟨rfl, rfl⟩ | ⟨rfl, rfl⟩ <;>
    (unfold xlateM; rw [run_bind_ok (a := s) (s1 := s) rfl]; simp only []; rw [h]; rfl)

/-- A translation for a load in an instruction. -/
theorem maps_load {c va : Nat} {s s' : State} {x : Xl} (h : Maps s c 1 va x s') : (xlateM c true 1 va).run s = .ok (x, s') :=
  xlateM_run (.inl ⟨rfl, rfl⟩) h

/-- A translation for a store in an instruction. -/
theorem maps_store {c va : Nat} {s s' : State} {x : Xl} (h : Maps s c 2 va x s') : (xlateM c true 2 va).run s = .ok (x, s') :=
  xlateM_run (.inr (.inl ⟨rfl, rfl⟩)) h

/-- A pop that translates and loads. -/
theorem popDw_run {c : Nat} {p : DWord} {v : Nat} {s s' : State} (h : Pops s c (ptrAddr p) v s') :
    (popDw c p).run s = .ok ((v, ptrSetAddr p (ptrAddr p + 2)), s') := by
  obtain ⟨he, x, s2, hx, hl⟩ := h
  have hne : ¬ ptrAddr p % 2 = 1 := by omega
  unfold popDw
  simp only [hne, if_false]
  rw [run_bind_ok (maps_load hx), run_bind_ok hl]
  rfl

end Sys2Proof.Machine
end

