-- ==== Sys2Proof/Laws/Command.lean ====
section
/-! SUPPORT. What the shared operations of the block's commands can do, said once each: a command while the module is out of reset, a
console command that firmware hears, and a long command's slot. -/

namespace Sys2Proof.Machine

open Sys2Proof

/-- What a command leaves, by name. -/
theorem ends_follow (s : State) : ends s = .next s.follow := rfl

/-- Out of reset, a command has its effect. -/
theorem whenAlive_of {s : State} (h : s.alive = true) (f : State → State) : s.whenAlive f = f s := by
  simp only [State.whenAlive, h, if_true]

/-- In reset, it has none. -/
theorem whenAlive_not {s : State} (h : s.alive = false) (f : State → State) : s.whenAlive f = s := by
  simp only [State.whenAlive, h, Bool.false_eq_true, if_false]

/-- Where firmware interprets commands the module is out of reset. -/
theorem alive_of_consoleUp {s : State} (h : s.consoleUp = true) : s.alive = true := by
  unfold State.consoleUp at h
  unfold State.alive
  cases hp : s.phase <;> simp_all

/-- What firmware makes of a console command that it hears: parameters are checked, and the command is authorised where its signature
verified. -/
theorem conCmd_heard {h : ConHdr} {op ver : Nat} {s s1 : State} (H : Hears h op ver s s1) (bad : State → Bool)
    (f : State → Bool → State) :
    s.conCmd h op ver bad f = if bad s1 then s1.reply h.tag 4 0 [] else f s1 (h.sig == .valid) := by
  obtain ⟨up, mine, hv, sg⟩ := H
  unfold State.conCmd
  extract_lets m signed authed t
  have hm : m = true := by
    cases ht : s.taken with
    | none => simp only [m, ht]
    | some t => simp only [m, ht, mine t ht, beq_self_eq_true]
  rw [if_neg (by simp [up, hm])]
  have ht : t = s1 ∧ authed = (h.sig == .valid) ∧ (signed && !authed) = false := by
    rcases sg with ⟨h1, rfl⟩ | ⟨h1, h2, rfl⟩
    · refine ⟨?_, ?_, ?_⟩
      · simp only [t, signed, h1, bne_self_eq_false, Bool.false_eq_true, if_false]
      · simp only [authed, h1]; rfl
      · simp only [signed, h1, bne_self_eq_false, Bool.false_and]
    · have hn : s.nonce.isSome = true := Option.isSome_iff_ne_none.2 h2
      have hs : (SigState.valid != SigState.none) = true := rfl
      refine ⟨?_, ?_, ?_⟩
      · simp only [t, signed, h1, hs, if_true]
      · simp only [authed, h1, hn, Bool.and_true]
      · simp only [authed, h1, hn, Bool.and_true, beq_self_eq_true, Bool.not_true, Bool.and_false]
  have hc : s1.conVer = s.conVer := by rcases sg with ⟨_, rfl⟩ | ⟨_, _, rfl⟩ <;> rfl
  rw [ht.1, ht.2.2, ht.2.1, hc, if_neg (Nat.not_lt.2 hv)]
  simp only [Bool.false_eq_true, if_false]

/-- A console command that firmware hears, with its parameters in range, is carried out. -/
theorem conCmd_go {h : ConHdr} {op ver : Nat} {s s1 : State} (H : Hears h op ver s s1) (bad : State → Bool)
    (f : State → Bool → State) (hb : bad s1 = false) : s.conCmd h op ver bad f = f s1 (h.sig == .valid) := by
  rw [conCmd_heard H, hb, if_neg Bool.false_ne_true]

/-- One whose parameters are out of range ends with BAD_PARAM. -/
theorem conCmd_bad {h : ConHdr} {op ver : Nat} {s s1 : State} (H : Hears h op ver s s1) (bad : State → Bool)
    (f : State → Bool → State) (hb : bad s1 = true) : s.conCmd h op ver bad f = s1.reply h.tag 4 0 [] := by
  rw [conCmd_heard H, hb, if_pos rfl]

/-- A long command with a free slot answers PENDING and runs. -/
theorem conLong_go {s : State} {h : ConHdr} {op target k : Nat} (hk : s.tokenSlot = some k) (run : State → Nat → State) :
    s.conLong h op target run = run (s.started h op target k) k := by
  simp only [State.conLong, hk, State.started]

/-- Without a free slot it ends with NO_SLOT. -/
theorem conLong_full {s : State} {h : ConHdr} {op target : Nat} (hk : s.tokenSlot = none) (run : State → Nat → State) :
    s.conLong h op target run = s.reply h.tag 0xE 0 [] := by
  simp only [State.conLong, hk]

end Sys2Proof.Machine
end

