-- ==== Sys2Proof/Tests/Slice0.lean ====
section
/-! SUPPORT. Tests: an ill-formed command for each check of Instr.wf, words and values of the spec's own worked cases, and for each
statement that has hypotheses states and operands that meet them. -/

namespace Sys2Proof.Tests

open Sys2Proof Sys2Proof.Machine

-- One theorem at a time: every witness is one kernel evaluation, and many at once want more threads than memory allows.
set_option Elab.async false

/-- Core 0 of sheet 0, running at level 0, with some of its registers set. -/
def demoCore (g p : List Nat) : Core :=
  { coreReset with
    sheet := some 0, cstate := .active, run := .running, cold := false
    banks := [(0, { bankReset 0 with g := Vector.ofFn fun (i : Fin 16) => w36 (g.getD i.val 0)
                                     p := Vector.ofFn fun (i : Fin 8) => BitVec.ofNat 72 (p.getD i.val 0) })] }

/-- Nonets. -/
def nz (l : List Nat) : List Nonet := l.map fun x => BitVec.ofNat 9 x

/-- An instruction of core 0, by its opcode (a secondary one after 0o777), its prefixes and the nonets after its opcode. -/
def ins (o : Nat) (pre ops : List Nat) : Insn :=
  { core := 0, pre := nz pre, opc := nz (if o < 512 then [o] else [o / 512, o % 512]), ops := nz ops }

/-- An instruction of a row of core 0. -/
def rowIns (t : Tmpl) (pre ops : List Nat) : Insn := ins (if t.esc then 0o777000 + t.code else t.code) pre ops

/-- The state after a command, or the state itself where the command gives no next state. -/
def after (i : Instr) (s : State) : State := match exec i s with | .next t => t | _ => s

/-- A property of every member of a list, member by member. -/
theorem onNone {α : Type} {p : α → Prop} : ∀ q ∈ ([] : List α), p q := nofun

theorem onEach {α : Type} {p : α → Prop} {a : α} {l : List α} (h : p a) (t : ∀ q ∈ l, p q) : ∀ q ∈ a :: l, p q
  | _, .head _ => h
  | q, .tail _ m => t q m

/-- A line of words, good. -/
def lineOf (ws : List Nat) : Line := { words := Vector.ofFn fun (i : Fin 16) => w36 (ws.getD i.val 0), poison := false }

/-- A quire's line in a state. -/
def qlOf (st : QState) (d : Line) : QLine := { qlineReset with st := st, data := d, dirty := st == .m }

/-- A state with some registers set. -/
def regsOf (s : State) (rs : List (Blk × Nat × Nat)) : State :=
  { s with regs := rs.foldl (fun t r => Tab.insert (regKey r.1 r.2.1) (w36 r.2.2) t) s.regs }

/-- The module READY, with sheet 0 running on core 0, its first region mapped to region 0 of the module, and the L2 of quire 0 enabled and
awake, with some lines in it, modified. -/
def demoM (g p : List Nat) (ls : List (Nat × List Nat)) : State :=
  regsOf { State.reset with
    phase := .ready, cores := [(0, demoCore g p)], sheets := [(0, { running := true, checkstop := false, start := none })]
    qlines := ls.map fun x => (x.1, qlOf .m (lineOf x.2)) }
    [(.deckle, 0o100000, 0o400000000000), (.l2 0, 0, 2 ^ 35), (.qpwr 0, 1, 0)]

/-- The same with the line at address 0 alone, in which core 0's code stands. -/
def demo (g p : List Nat) : State := demoM g p [(0, [])]

/-! ### Well-formed commands -/

/-- A prefix is 0o740 to 0o757 (R131). -/
theorem test_wf_prefix : (Instr.add (ins 0o040 [0o040] [0o001, 0o002])).wf = false ∧ (Instr.add (ins 0o040 [0o744] [0o002, 0o004])).wf = true := by
  decide

/-- The opcode is one nonet that is no prefix, or two after 0o777 (R138-R140). -/
theorem test_wf_opcode : (Instr.add (ins 0o740 [] [0o002, 0o004])).wf = false ∧ (Instr.add (ins 0o777 [] [0o002, 0o004])).wf = false ∧
    (Instr.add (ins 0o040777 [] [0o002, 0o004])).wf = false ∧ (Instr.iret (ins 0o777060 [] [])).wf = true ∧ (Instr.add (ins 0 [] [])).wf = true := by
  decide

/-- An instruction has at most 15 nonets (R128). -/
theorem test_wf_length : (Instr.mov (ins 0o010 [0o744, 0o751] (0o321 :: List.replicate 12 0))).wf = false ∧
    (Instr.mov (ins 0o010 [0o744, 0o751] (0o261 :: List.replicate 11 0))).wf = true := by decide

/-- Group C has two links (R463). -/
theorem test_wf_link : (Instr.sleep ⟨0, 2, 2⟩).wf = false ∧ (Instr.sleep ⟨0, 2, 1⟩).wf = true ∧ (Instr.linkIdentify ⟨0, 2, 5⟩ (Vector.replicate 8 0)).wf = false ∧
    (Instr.sessionSense ⟨⟨0, 2, 3⟩, 0, 0, 0⟩).wf = false ∧ (Instr.xreqReject ⟨⟨0, 2, 3⟩, 0, 0, 0⟩ 1).wf = false ∧
    (Instr.record ⟨⟨0, 2, 3⟩, 0, 0, 0⟩ false 0 0 0).wf = false ∧ (Instr.dataFlit ⟨0, 2, 2⟩ 0 ⟨1, 0, 0, 0, false, 0, 0⟩ true).wf = false := by decide

/-- A felt message body has at most 4,096 octets (R477). -/
theorem test_wf_body : bodyOk (List.replicate 4097 0) = false ∧ bodyOk [1, 2] = true ∧
    (Instr.xdata ⟨⟨0, 2, 4⟩, 0, 0, 0⟩ [] true false).wf = false ∧ (Instr.wwrite ⟨⟨0, 2, 4⟩, 0, 0, 0⟩ 0 [] false).wf = false := by
  refine ⟨?_, by decide, by decide, by decide⟩
  rw [bodyOk, List.length_replicate]; decide

/-- MOVED of an XACK is one word (R478). -/
theorem test_wf_moved : (Instr.xack ⟨⟨0, 0, 0⟩, 0, 0, 0⟩ 0 0 (2 ^ 36)).wf = false ∧ (Instr.xack ⟨⟨0, 0, 0⟩, 0, 0, 0⟩ 0 0 (2 ^ 36 - 1)).wf = true := by
  decide

/-- One access per master slot and cycle, each of the bank; port B of the dual-ported words (R411, R412). -/
theorem test_wf_easel :
    (Instr.easelAccess 0 1 [⟨3, 1, none⟩, ⟨3, 33, none⟩] none 0).wf = false ∧ (Instr.easelAccess 0 1 [⟨3, 2, none⟩] none 0).wf = false ∧
    (Instr.easelAccess 0 1 [⟨3, 1, none⟩] (some ⟨1, none⟩) 0).wf = false ∧
    (Instr.easelAccess 0 1 [⟨3, 1, none⟩] (some ⟨2097152, none⟩) 0).wf = false ∧
    (Instr.easelAccess 0 1 [⟨3, 1, none⟩, ⟨4, 33, none⟩] (some ⟨32, none⟩) 0).wf = true := by decide

/-- Host packets, ranges and messages have their lengths (R560, R570, R574, R584). -/
theorem test_wf_host :
    (Instr.inboundRequest ⟨0, 0⟩ ⟨0, 0, 5, some [1], false⟩).wf = false ∧ (Instr.consolePacketTake [1] false).wf = false ∧
    (Instr.bar2Read 65535 2 false false).wf = false ∧ (Instr.bar2Read 65535 1 false false).wf = true ∧
    (Instr.bar2Write 0 [1, 2] [true] false).wf = false ∧ (Instr.bar2Write 524287 [1, 2] [true, true] false).wf = false ∧
    (Instr.h2sMove 0 [1] false).wf = false ∧ (Instr.regWrite ⟨0, .none⟩ 0 2 0 [1]).wf = false ∧
    (Instr.regWrite ⟨0, .none⟩ 0 1 0 [1]).wf = true := by decide

/-- A fault event names a source of its block (R622). -/
theorem test_wf_source : (Instr.faultEvent .wmark 1 0 0 [] []).wf = false ∧ (Instr.faultEvent .wmark 0 0 0 [] []).wf = true ∧
    (Instr.faultEvent (.memc 0) 4 0 0 [] [(5, 0)]).wf = false := by decide

/-- A request of core 0 of sheet 0, alone in its cycle. -/
def ask0 : Ask := { sheet := 0, master := ⟨1, 0⟩, spec := false, more := false }

/-- The header of a Dunul image, good or with another MAGIC. -/
def hdrOf (good : Bool) : DunulHdr := { magic := if good then 0x444E554C else 0, format := 1, len := 0x1000, keyMatches := true, sigValid := true }

/-- A doubleword AtomNC begins at an even word, a request names a master that there is, and the gesso's lists name each unit once (R71,
R323, R643). -/
theorem test_wf_rest : (Instr.atomnc 0 0 0 0 .add true 3 0 ask0).wf = false ∧ (Instr.atomnc 0 0 0 0 .add true 2 0 ask0).wf = true ∧
    (Instr.pute 0 0 0 { ask0 with master := ⟨1, 192⟩ }).wf = false ∧ (Instr.gets 0 0 0 0 { ask0 with master := ⟨6, 0⟩ }).wf = false ∧
    (Instr.gessoStepEnd (hdrOf true) (hdrOf true) [(0, 1), (0, 1)] [] [] []).wf = false ∧
    (Instr.gessoStepEnd (hdrOf true) (hdrOf true) [] [5, 5] [] []).wf = false ∧
    (Instr.gessoStepEnd (hdrOf true) (hdrOf true) [] [] [] [(1, 2), (1, 3)]).wf = false ∧
    (Instr.gessoStepEnd (hdrOf true) (hdrOf true) [(0, 1), (0, 2)] [5, 6] [] [(1, 2)]).wf = true := by decide

/-! ### The decoder's worked cases -/

/-- What decoding fails with. -/
def stopOf (t : Tmpl) (prob : Bool) (pre ops : List Nat) : Option DecStop :=
  let n := rowIns t pre ops
  match decodeInsn t prob n.pre n.opc n.ops with | .ok _ => none | .error e => some e

/-- CORE_DECINFO after an instruction. -/
def decInfoOf (i : Instr) (s : State) : Word := (after i s).reg (.core 0) 0o207

/-- "An interlocked doubleword add": ATOM REL WIDE ADD with the doubleword at P3 + 0o100 and G4 (R155). -/
theorem test_decode_add : (decodeInsn (rowX 0o040 preAtom) true (nz [0o754, 0o751, 0o744]) (nz [0o040]) (nz [0o263, 0o000, 0o100, 0o004])).toOption.map
      (fun d => (d.wid, d.rel, d.atom, d.len, d.ops.map DOp.form)) =
    some (.wD, true, true, 8, [.mem 5 3 0o100, .reg 4]) := by decide

/-- With the source written as G5, decode ends at position 7 with CHECK 0o11. -/
theorem test_decode_odd : stopOf (rowX 0o040 preAtom) true [0o754, 0o751, 0o744] [0o263, 0o000, 0o100, 0o005] = some (.check 6 7 0o11 8) := by
  decide

/-- "Precedence": RUN RUN, escape, CINV in problem state is CHECK 0o02 at position 1; with one RUN the privileged check comes first; in
supervisor state the prefix is refused. -/
theorem test_decode_precedence :
    stopOf (secd 0o040 [opM]) true [0o740, 0o740] [0o160] = some (.check 6 1 0o02 2) ∧
    stopOf (secd 0o040 [opM]) true [0o740] [0o160] = some (.check 2 2 0o05 3) ∧
    stopOf (secd 0o040 [opM]) false [0o740] [0o160] = some (.check 6 0 0o06 3) := by decide

/-- CORE_DECINFO of the first of them. -/
theorem test_decinfo_precedence : decInfoOf (.cinv (ins 0o777040 [0o740, 0o740] [0o160])) (demoM [] [] [(0, [])]) = 0o006042000000 := by decide +kernel

/-- "A repeat destination": RUN SLOD with G12 is CHECK 0o16 at position 2, and CORE_DECINFO reads 0o006116244000. -/
theorem test_decinfo_slod : decInfoOf (.slod (ins 0o244 [0o740] [0o014])) (demoM [] [] [(0, [])]) = 0o006116244000 := by decide +kernel

/-- "The length limit": REL WIDE MOV to P1 + disp36 of an immediate doubleword needs position 15; with disp18 it decodes. -/
theorem test_decode_length :
    stopOf (prim 0o010 [ow .d .i, ow .s .i] wAll [pACQ, pREL]) false [0o751, 0o744] ([0o321, 0, 0, 0, 0, 0o100] ++ List.replicate 6 0) =
      some (.check 6 15 0o13 15) ∧
    stopOf (prim 0o010 [ow .d .i, ow .s .i] wAll [pACQ, pREL]) false [0o751, 0o744] ([0o261, 0, 0, 0o100] ++ List.replicate 8 0) =
      none := by decide


/-! ### Values of the spec's own worked cases -/

/-- The general registers 1 and 2, the flags and the level of core 0 after an instruction. -/
def alu (i : Instr) (s : State) : List Nat × Flg × Nat :=
  let t := after i s
  ([(vget (t.curBank 0).g 2 0).toNat, (vget (t.curBank 0).g 3 0).toNat], t.flags 0, (t.core 0).level)

/-- Core 0 with x in G2 (and G3) and s in G4 (and G5). -/
def xs (l : List Nat) : State := demo ([0, 0] ++ l) []

/-- An instruction of x in G2 and s in G4. -/
def onXs (o : Nat) (pre : List Nat) : Insn := ins o pre [0o002, 0o004]

/-- N, Z, C and V as the tables write them. -/
def fl (n z c v : Nat) : Flg := { n := n == 1, z := z == 1, c := c == 1, v := v == 1 }

/-- R208, rows 1 to 8: signed and unsigned divisions of words. -/
theorem test_div : alu (.div (onXs 0o060 [])) (xs [0o400000000000, 0, 0o777777777777]) = ([0o400000000000, 0], fl 1 0 0 1, 0) ∧
    alu (.div (onXs 0o060 [])) (xs [7, 0, 0o777777777776]) = ([0o777777777775, 0], fl 1 0 0 0, 0) ∧
    alu (.div (onXs 0o060 [])) (xs [0o777777777771, 0, 2]) = ([0o777777777775, 0], fl 1 0 0 0, 0) := by decide +kernel

theorem test_rem : alu (.rem (onXs 0o062 [])) (xs [0o400000000000, 0, 0o777777777777]) = ([0, 0], fl 0 1 0 1, 0) ∧
    alu (.rem (onXs 0o062 [])) (xs [7, 0, 0o777777777776]) = ([1, 0], fl 0 0 0 0, 0) ∧
    alu (.rem (onXs 0o062 [])) (xs [0o777777777771, 0, 2]) = ([0o777777777777, 0], fl 1 0 0 0, 0) := by decide +kernel

theorem test_divu_remu : alu (.divu (onXs 0o061 [])) (xs [0o777777777777, 0, 2]) = ([0o377777777777, 0], fl 0 0 0 0, 0) ∧
    alu (.remu (onXs 0o063 [])) (xs [0o777777777777, 0, 2]) = ([1, 0], fl 0 0 0 0, 0) := by decide +kernel

/-- R208, row 10: the most negative doubleword divided by -1. -/
theorem test_div_wide : alu (.div (onXs 0o060 [0o744])) (xs [0o400000000000, 0, 0o777777777777, 0o777777777777]) =
    ([0o400000000000, 0], fl 1 0 0 1, 0) := by decide +kernel

/-- R208, rows 11 to 14: a pair divided by a word. -/
theorem test_divd : alu (.divd (onXs 0o064 [])) (xs [1, 0, 1]) = ([1, 0], fl 0 0 0 1, 0) ∧
    alu (.divd (onXs 0o064 [])) (xs [0o777777777777, 0o400000000000, 0o777777777777]) = ([0o777777777777, 0o400000000000], fl 1 0 0 1, 0) ∧
    alu (.divd (onXs 0o064 [])) (xs [0o777777777777, 0o777777777771, 2]) = ([0o777777777775, 0o777777777777], fl 1 0 0 0, 0) ∧
    alu (.divdu (onXs 0o065 [])) (xs [1, 0, 2]) = ([0o400000000000, 0], fl 1 0 0 0, 0) := by decide +kernel

/-- R208, rows 15 to 19: multiplications. -/
theorem test_mul : alu (.mul (onXs 0o050 [])) (xs [0o400000000000, 0, 0o777777777777]) = ([0o400000000000, 0], fl 1 0 1 1, 0) ∧
    alu (.mulh (onXs 0o052 [])) (xs [0o400000000000, 0, 0o777777777777]) = ([0, 0], fl 0 1 0 0, 0) ∧
    alu (.mul (onXs 0o050 [])) (xs [0o000001000000, 0, 0o000001000000]) = ([0, 0], fl 0 1 1 1, 0) ∧
    alu (.mulu (onXs 0o051 [])) (xs [0o777777777777, 0, 0o777777777777]) = ([1, 0], fl 0 0 1 1, 0) := by decide +kernel

theorem test_muld : alu (.muld (ins 0o054 [] [0o002, 0o004, 0o006])) (xs [1, 1, 0o400000000000, 0, 0o777777777777]) =
    ([0, 0o400000000000], fl 0 0 0 0, 0) := by decide +kernel

/-- R208, row 9: a divisor of zero is the program check 0o011 at level 5, and leaves x and the flags of level 0. -/
theorem test_div_zero :
    let t := after (.div (onXs 0o060 [])) (demoM [0, 0, 5, 0, 0] [] [(0, [])])
    (t.core 0).level = 5 ∧ field ((t.core 0).ctlReg 0o15) 0 8 = 0o011 ∧ (vget ((t.core 0).bank 0).g 2 0).toNat = 5 := by decide +kernel

/-- "An overflow trap on a register destination": FMUL of the largest finite F36 by 2.0 with OFE = 1 leaves F3 and writes CAUSE. -/
def fmulState (fpc : Nat) : State :=
  let s := demoM [] [] [(0, [])]
  s.setCore 0 { s.core 0 with f := vset (s.core 0).f 3 (BitVec.ofNat 72 (0o377377777777 * 2 ^ 36)), fpc := w36 fpc }

theorem test_fmul_trap :
    let t := after (.fmul (ins 0o302 [] [0o003, 0o100, 0o200, 0, 0, 0])) (fmulState 0o000000010001)
    (t.core 0).fpc = 0o000000010241 ∧ vget (t.core 0).f 3 0 = BitVec.ofNat 72 (0o377377777777 * 2 ^ 36) ∧ (t.core 0).level = 5 := by
  decide +kernel

/-- With the enable off, F3 becomes plus infinity and FPC reads 0o5. -/
theorem test_fmul_overflow :
    let t := after (.fmul (ins 0o302 [] [0o003, 0o100, 0o200, 0, 0, 0])) (fmulState 0o000000000001)
    (t.core 0).fpc = 0o000000000005 ∧ vget (t.core 0).f 3 0 = BitVec.ofNat 72 (0o377400000000 * 2 ^ 36) ∧ (t.core 0).level = 0 := by
  decide +kernel

/-- A state of core 0 with its instruction address and stack limit. -/
def at_ (s : State) (word nidx slim : Nat) : State :=
  s.setCurBank 0 { s.curBank 0 with psw := pswSetIa (s.curBank 0).psw (4 * word + nidx), slim := BitVec.ofNat 72 slim }

/-- "A call and a frame too large": CALL pushes 0o000002000000 and 0o000000004001 and goes on at word 0o6000. -/
theorem test_call :
    let t := after (.call (ins 0o230 [] [0o100, 0o007, 0o772])) (at_ (demoM [] [0, 0, 0, 0, 0, 0, 0, 0o20000] [(0o200, [])]) 0o4000 2 0o17770)
    t.ptr 0 7 = 0o17776 ∧ pswIa (t.core 0).psw = 4 * 0o6000 ∧
      (t.core 0).stores.map (fun x => (x.addr, dhi x.value, dlo x.value)) = [(0o17776, 0o000002000000, 0o000000004001)] := by decide +kernel

/-- ENTER with a count of 3 is the program check 0o014 and stores nothing; with 2 it completes. -/
theorem test_enter_limit :
    let t := after (.enter (ins 0o235 [] [0o043])) (at_ (demoM [] [0, 0, 0, 0, 0, 0, 0, 0o17776] [(0, []), (0o300, [])]) 0o6000 0 0o17770)
    (t.core 0).level = 5 ∧ field ((t.core 0).ctlReg 0o15) 0 8 = 0o014 ∧ vget ((t.core 0).bank 0).p 7 0 = 0o17776 ∧ (t.core 0).stores = [] := by
  decide +kernel

theorem test_enter :
    let t := after (.enter (ins 0o235 [] [0o042])) (at_ (demoM [] [0, 0, 0, 0, 0, 0, 5, 0o17776] [(0o300, [])]) 0o6000 0 0o17770)
    t.ptr 0 7 = 0o17770 ∧ t.ptr 0 6 = 0o17774 ∧ (t.core 0).stores.map (fun x => (x.addr, x.value)) = [(0o17774, 5)] := by decide +kernel

/-- "RUN.EQ SSCAN for a blank": the third nonet of 0o101102040103 is the blank. -/
theorem test_sscan :
    let t := after (.sscan (ins 0o242 [0o741, 0o746] [0o003]))
      (demoM [0, 0, 0, 0o040, 0, 0, 0, 0, 0, 0, 0, 0, 0o10] [0, 0, 0, 0, 0, 0o10000] [(0, []), (0o400, [0o101102040103])])
    vget (t.curBank 0).g 12 0 = 5 ∧ t.flags 0 = fl 0 1 0 0 ∧ ptrAddr (t.ptr 0 5) = 0o10000 ∧ ptrNidx (t.ptr 0 5) = 3 := by decide +kernel

/-- "Sharing a pointer" (R150): MOV through P2 twice post-incremented copies word 0o5001 to word 0o5000. -/
theorem test_mov_shared :
    let t := after (.mov (ins 0o010 [] [0o422, 0o422])) (demoM [] [0, 0, 0o5000] [(0, []), (0o240, [1, 2, 3])])
    t.ptr 0 2 = 0o5002 ∧ (t.core 0).stores.map (fun x => (x.addr, dhi x.mask, dhi x.value)) = [(0o5000, 0o777777777777, 2)] := by
  decide +kernel

/-- "Three images of one word" (R81-R86): the nine packed octets of two words, and the five wide octets of one. -/
theorem test_images : packOf [0o123456701234, 0o765432107654] = [0x29, 0xCB, 0xB8, 0x29, 0xCF, 0xAC, 0x68, 0x8F, 0xAC] ∧
    Image.wide.ofWords [0o123456701234] = ([0x02, 0x9C, 0xBB, 0x82, 0x9C], none) ∧
    Image.octet.ofWords [0o101102103040] = ([0x41, 0x42, 0x43, 0x20], none) := by decide +kernel

/-- "Decoding two addresses" and the block of an address (R36-R38). -/
theorem test_block : blkOfDigits 0o251021 0 = some (.dir 21) ∧ blkOfDigits 0o200111 0 = some .endpt ∧ blkOfDigits 0o210111 0 = none := by
  decide

/-- "Placing a line and catching a misdirection" (R388, R392): H of two line addresses, and of the row read in place of the other. -/
theorem test_fold : foldOf 0o40222734451 = 0o356 ∧ foldOf (0o40222734451 ^^^ 2 ^ 15) = 0o176 ∧
    rowKey 0o222734451 = 9 * 2 ^ 20 + 9 * 2 ^ 15 + 1175 := by decide +kernel

/-- "A quire wake on the forecast": the first two frames (R631, R632). -/
theorem test_frame : frameOf 0x59 0 false = 0xA591 := by decide +kernel

/-- "A spill" (R255-R257): SVC 0o12 of activation A, whose PSW is 0o140200100000 0o000000002100, in bank 1 of a core whose free list has
the areas 0o40000, 0o40040 and 0o40100. -/
def spillState (up : Nat) : State :=
  let s := demoM [] [] [(0, []), (0o40, [0, 0, 0, 0o3000]), (0o104, []), (0o140, []), (0o2000, [0, 0, 0, 0o40040]), (0o2001, []), (0o2002, [0, 0, 0, 0o40100]), (0o2003, []),
    (0o2004, [])]
  let k := s.core 0
  let a := setField (setField (setField (setField (setField (0 : DWord) 2 2 up) 3 3 1) 8 10 1) 18 20 1) 36 71 0o2100
  let k := (k.setBank 1 { bankReset 1 with psw := a, busy := true }).setCtl 2 0o1000
  s.setCore 0 { (k.setCtl 0 0o40000) with level := 1 }

theorem test_spill :
    let t := after (.svc (ins 0o370 [] [0o052])) (spillState 1)
    let k := t.core 0
    k.level = 1 ∧ k.psw = dword 0o160220100000 0o000000003000 ∧ k.ctlReg 0o11 = dword 0o000000000012 0 ∧ k.ctlReg 3 = 0o40040 ∧
      k.ctlReg 0 = 0o40100 ∧ k.spills = 1 ∧
      (t.qline 0 0o2000).data.words[0] = 0o001000304000 ∧ (t.qline 0 0o2002).data.words[0] = 0o001000504000 ∧
      (t.qline 0 0o2002).data.words[3] = 0o40000 ∧
      lineDw (t.qline 0 0o2003).data 2 = dword 0o140202100000 0o000000002100 := by decide +kernel

/-- B's IRET refills bank 1 with A, and A resumes at word 0o2100, nonet 2. -/
theorem test_refill :
    let t := after (.iret (ins 0o777060 [] [])) (after (.svc (ins 0o370 [] [0o052])) (spillState 1))
    let k := t.core 0
    k.level = 1 ∧ k.psw = dword 0o140202100000 0o000000002100 ∧ ptrAddr (k.ctlReg 0) = 0o40000 ∧ ptrAddr (k.ctlReg 3) = 0 ∧
      lineDw (t.qline 0 0o2000).data 1 = 0o40040 ∧ lineDw (t.qline 0 0o2002).data 1 = 0o40100 := by decide +kernel

/-- With UP = 0 the core enters level 7 instead: IREC7 reads 0o700001000012 0o000000000000 and bank 1 holds A. -/
theorem test_no_spill :
    let t := after (.svc (ins 0o370 [] [0o052])) (spillState 0)
    (t.core 0).level = 7 ∧ (t.core 0).ctlReg 0o17 = dword 0o700001000012 0 := by decide +kernel


/-! ### Witnesses of the statements about instructions -/

/-- What an instruction of a row decodes as, and the state once it has been fetched, where it begins. -/
def begun (t : Tmpl) (n : Insn) (s : State) : Option (Dec × State) :=
  match decodeInsn t (pswProb (s.core n.core.val).psw) n.pre n.opc n.ops with
  | .error _ => none
  | .ok d =>
    match (fetchCheck n.core.val (pswIa (s.core n.core.val).psw) d.len).run s with
    | .error _ => none
    | .ok (_, s0) =>
      if s.executes n.core.val then some (d, s0.withIa n.core.val (pswIa (s.core n.core.val).psw + d.len)) else none

theorem begun_Begins {t : Tmpl} {n : Insn} {s : State} {x : Dec × State} (h : begun t n s = some x) : Begins t n s x.1 x.2 := by
  unfold begun at h
  split at h
  · cases h
  · rename_i d hd
    split at h
    · cases h
    · rename_i u s0 hf
      split at h
      · rename_i he
        cases h
        exact ⟨he, hd, s0, hf, rfl⟩
      · cases h

/-- A row's instruction begins, and a condition holds of what it decodes as and of the state once it has been fetched. -/
def starts (t : Tmpl) (n : Insn) (s : State) (p : Dec → State → Bool) : Bool :=
  match begun t n s with | some x => p x.1 x.2 | none => false

/-- The same as a proposition. -/
def Starts (t : Tmpl) (n : Insn) (s : State) (p : Dec → State → Bool) : Prop := ∃ d s1, Begins t n s d s1 ∧ p d s1 = true

theorem starts_of {t : Tmpl} {n : Insn} {s : State} {p : Dec → State → Bool} (h : starts t n s p = true) : Starts t n s p := by
  unfold starts at h
  split at h
  · rename_i x hx
    exact ⟨x.1, x.2, begun_Begins hx, h⟩
  · cases h

/-- A computation ends well, and a condition holds of its answer and of the state that it leaves. -/
def ok {α : Type} (m : M α) (s : State) (p : α → State → Bool) : Bool := match m.run s with | .ok (a, t) => p a t | .error _ => false

theorem ok_run {α : Type} {m : M α} {s : State} {p : α → State → Bool} (h : ok m s p = true) : ∃ a t, m.run s = .ok (a, t) ∧ p a t = true := by
  unfold ok at h
  split at h
  · rename_i a t he
    exact ⟨a, t, he, h⟩
  · cases h

/-- A store at an operand's address finds room in the buffer and its leaf. -/
def takes (s : State) (c : Nat) (x : Xl) : Bool :=
  decide ((s.core c).stores.length < 96) && (s.setD (.core c) ((s.core c).sheet.getD 64) x.leafAt).isSome

theorem takes_stores {s : State} {c : Nat} {x : Xl} (h : takes s c x = true) (nidx : Nat) (w : Wid) (v : Nat) (rel : Bool) :
    ∃ s', Stores s c x nidx w v rel s' := by
  simp only [takes, Bool.and_eq_true, decide_eq_true_eq] at h
  obtain ⟨s1, h1⟩ := Option.isSome_iff_exists.1 h.2
  exact ⟨_, h.1, s1, h1, rfl⟩

/-- An operand can be written. -/
def writable (s : State) (c : Nat) (r : Rdy) : Bool := match r.xl with | some x => takes s c x | none => true

theorem writable_deposits {s : State} {c : Nat} {r : Rdy} (h : writable s c r = true) (rel : Bool) (v : Nat) : ∃ s', Deposits s c rel r v s' := by
  cases hx : r.xl with
  | none =>
    simp only [Deposits, hx]
    exact ⟨_, rfl⟩
  | some x =>
    simp only [writable, hx] at h
    simp only [Deposits, hx]
    exact takes_stores h _ _ _ _

/-- The operands are formed and translated, those from place `i` on are read, the first can then be written, and a condition holds. -/
def read (c : Nat) (d : Dec) (s : State) (il : Bool) (i : Nat) (p : List Rdy → State → List Nat → State → Bool) : Bool :=
  ok (formM c d.ops) s fun fs sf => ok (readyOps c il fs) sf fun rs s2 => ok (readFrom c d rs i) s2 fun vs s' =>
    writable s' c (opAt rs 0) && p rs s2 vs s'

/-- An instruction of a row begins, its operands can be read and its first be written, and a condition holds of what was read. -/
def Meets (t : Tmpl) (n : Insn) (s : State) (il : Bool) (i : Nat) (p : Dec → List Rdy → State → List Nat → State → Bool) : Prop :=
  ∃ d s1 rs s2 vs s', Begins t n s d s1 ∧ Reads n.core.val d s1 il i rs s2 vs s' ∧
    (∀ rel v, ∃ s3, Deposits s' n.core.val rel (opAt rs 0) v s3) ∧ p d rs s2 vs s' = true

theorem meets_of {t : Tmpl} {n : Insn} {s : State} {il : Bool} {i : Nat} {p : Dec → List Rdy → State → List Nat → State → Bool}
    (h : starts t n s (fun d s1 => read n.core.val d s1 il i (p d)) = true) : Meets t n s il i p := by
  obtain ⟨d, s1, hb, h⟩ := starts_of h
  obtain ⟨fs, sf, h1, h⟩ := ok_run h
  obtain ⟨rs, s2, h2, h⟩ := ok_run h
  obtain ⟨vs, s', h3, h⟩ := ok_run h
  rw [Bool.and_eq_true] at h
  exact ⟨d, s1, rs, s2, vs, s', hb, ⟨⟨fs, sf, h1, h2⟩, h3⟩, writable_deposits h.1, h.2⟩

/-- No further condition. -/
def any5 : Dec → List Rdy → State → List Nat → State → Bool := fun _ _ _ _ _ => true

/-- Core 0 with G2 = 5 and G4 = 3, P0 at word 0o100 in the quire's L2, P4 and P5 behind it, and P7 at 0o140. -/
def base : State := demoM [0, 1, 5, 0, 3, 0, 0] [0o100, 0, 0, 0, 0o102, 0o104, 0o140, 0o140] [(0, []), (4, [7, 8, 9, 10, 11, 12]), (6, [1, 2, 3, 4, 5, 6])]

/-- Every one of some instructions of rows, by prefixes and operands, has its operands ready in a state. -/
def MeetsAll (s : State) (il : Bool) (i : Nat) (l : List (Tmpl × List Nat × List Nat)) : Prop :=
  ∀ q ∈ l, Meets q.1 (rowIns q.1 q.2.1 q.2.2) s il i any5

theorem meetsAll_of {s : State} {il : Bool} {i : Nat} {l : List (Tmpl × List Nat × List Nat)}
    (h : (l.all fun q => starts q.1 (rowIns q.1 q.2.1 q.2.2) s fun d s1 => read 0 d s1 il i (any5 d)) = true) :
    MeetsAll s il i l := fun q hq => meets_of (List.all_eq_true.1 h q hq)

/-- The operands x in G2 and s in G4. -/
def xsOps : List Nat := [0o002, 0o004]

/-- An interlocked form of a row: its sources are read, and its first operand is accessed. -/
def interlocks (t : Tmpl) (n : Insn) (s : State) : Bool :=
  starts t n s fun d s1 => d.atom && read n.core.val d s1 true 1 fun rs _ _ s' =>
    match (opAt rs 0).xl with
    | some x => ok (rmw n.core.val d.rel x (opAt rs 0).f.nidx (opAt rs 0).f.op.wid fun v => (some 1, v)) s' fun _ _ => true
    | none => false

/-- The same as a proposition. -/
def Interlocks (t : Tmpl) (n : Insn) (s : State) : Prop :=
  ∃ d s1 rs s2 vs s' x v s'', Begins t n s d s1 ∧ d.atom = true ∧ Reads n.core.val d s1 true 1 rs s2 vs s' ∧ (opAt rs 0).xl = some x ∧
    (rmw n.core.val d.rel x (opAt rs 0).f.nidx (opAt rs 0).f.op.wid fun v => (some 1, v)).run s' = .ok (v, s'')

theorem interlocks_of {t : Tmpl} {n : Insn} {s : State} (h : interlocks t n s = true) : Interlocks t n s := by
  obtain ⟨d, s1, hb, h⟩ := starts_of h
  rw [Bool.and_eq_true] at h
  obtain ⟨fs, sf, h1, h'⟩ := ok_run h.2
  obtain ⟨rs, s2, h2, h'⟩ := ok_run h'
  obtain ⟨vs, s', h3, h'⟩ := ok_run h'
  rw [Bool.and_eq_true] at h'
  have h4 := h'.2
  dsimp only at h4
  split at h4
  · rename_i x hx
    obtain ⟨v, s'', h5, _⟩ := ok_run h4
    exact ⟨d, s1, rs, s2, vs, s', x, v, s'', hb, h.1, ⟨⟨fs, sf, h1, h2⟩, h3⟩, hx, h5⟩
  · cases h4

/-- AddSubtractMultiplyRows: register and memory forms of every row. -/
theorem witness_addSubtractMultiply : MeetsAll base false 0 [(rowX 0o040 preAtom, [], xsOps), (rowX 0o041 preMem, [0o746], xsOps),
      (rowX 0o042 preAtom, [0o744], [0o160, 0o004]), (rowX 0o043 preMem, [0o745], xsOps), (prim 0o044 [ow .x .i] wAll preMem, [], [0o160]),
      (prim 0o046 [ow .x .i] wAll preAtom, [], [0o160]), (prim 0o047 [ow .x .i] wAll preAtom, [0o744], [0o002]),
      (prim 0o045 [ow .s .i, ow .s .i] wAll [pACQ], [0o750], [0o160, 0o004]), (rowXd 0o050, [0o744], xsOps), (rowXd 0o051, [], xsOps),
      (rowXd 0o052, [], xsOps), (rowXd 0o053, [0o751], [0o160, 0o077])] ∧
    MeetsAll base false 1 [(rowMuld 0o054, [], [0o002, 0o004, 0o160]), (rowMuld 0o055, [], [0o002, 0o004, 0o006])] ∧
    Interlocks (rowX 0o040 preAtom) (ins 0o040 [0o754] [0o160, 0o004]) base :=
  ⟨meetsAll_of (by decide +kernel), meetsAll_of (by decide +kernel), interlocks_of (by decide +kernel)⟩

/-- DivideRows, with a divisor that is not zero and with zero. -/
theorem witness_divide : MeetsAll base false 0 [(rowXd 0o060, [], xsOps), (rowXd 0o061, [0o744], xsOps), (rowXd 0o062, [], [0o160, 0o004]),
    (rowXd 0o063, [], [0o002, 0o040]), (rowDivd 0o064, [], xsOps), (rowDivd 0o065, [], [0o002, 0o160])] :=
  meetsAll_of (by decide +kernel)

/-- ShiftAndBitRows: counts below, at and above the width. -/
theorem witness_shiftAndBit : MeetsAll base false 0 [(rowShift 0o100, [], xsOps), (rowShift 0o101, [0o746], [0o002, 0o051]),
      (rowShift 0o102, [0o745], [0o160, 0o052]), (rowShift 0o103, [0o744], xsOps), (rowShift 0o104, [], [0o002, 0o040]),
      (rowShiftD 0o105, [], [0o002, 0o004, 0o043]), (rowShiftD 0o106, [], [0o002, 0o004, 0o077]),
      (prim 0o110 [ow .s .i, fw .s .i .wW] wWD [pACQ], [], xsOps), (rowBit 0o111, [], xsOps), (rowBit 0o112, [0o744], [0o002, 0o077]),
      (rowBit 0o113, [], [0o160, 0o004]), (prim 0o120 [ow .x .i, ow .s .i, fw .s .i .wW] wWD preMem, [], [0o002, 0o004, 0o043])] ∧
    MeetsAll base false 1 [(rowCount 0o114, [], xsOps), (rowCount 0o115, [0o744], xsOps), (rowCount 0o116, [], [0o160, 0o004]),
      (prim 0o117 [ow .d .i, ow .s .i, fw .s .i .wW] wWD preMem, [], [0o002, 0o004, 0o043])] ∧
    Interlocks (rowBit 0o111) (ins 0o111 [0o754] [0o160, 0o004]) base :=
  ⟨meetsAll_of (by decide +kernel), meetsAll_of (by decide +kernel), interlocks_of (by decide +kernel)⟩

/-- AbsMinMaxAndLogicRows. -/
theorem witness_absMinMaxAndLogic : MeetsAll base false 0 [(prim 0o066 [ow .x .i] wWD preMem, [0o744], [0o160]), (rowX 0o121 preAtom, [], xsOps),
      (rowX 0o122 preAtom, [0o746], xsOps), (rowX 0o123 preAtom, [], [0o160, 0o004]), (rowX 0o124 preAtom, [0o744], xsOps),
      (rowX 0o070 preAtom, [], xsOps), (rowX 0o071 preAtom, [0o745], xsOps), (rowX 0o072 preAtom, [0o751], [0o160, 0o004]),
      (prim 0o073 [ow .x .i] wAll preMem, [], [0o160]), (rowX 0o074 preMem, [], xsOps),
      (prim 0o075 [ow .s .i, ow .s .i] wAll [pACQ], [], [0o160, 0o160])] ∧
    Interlocks (rowX 0o124 preAtom) (ins 0o124 [0o754] [0o160, 0o004]) base :=
  ⟨meetsAll_of (by decide +kernel), interlocks_of (by decide +kernel)⟩

/-- A row's instruction begins, its operands are formed, those from place `k` on are made ready, and a condition holds. -/
def Prepares (t : Tmpl) (n : Insn) (s : State) (il : Bool) (k : Nat) (p : Dec → State → List Formed → List Rdy → State → Bool) : Prop :=
  ∃ d s1 fs sf rs s2, Begins t n s d s1 ∧ Forms n.core.val d s1 fs sf ∧ (readyOps n.core.val il (fs.drop k)).run sf = .ok (rs, s2) ∧
    p d sf fs rs s2 = true

/-- The same, as a truth value, once the instruction has begun. -/
def prep (c : Nat) (d : Dec) (s1 : State) (il : Bool) (k : Nat) (p : Dec → State → List Formed → List Rdy → State → Bool) : Bool :=
  ok (formM c d.ops) s1 fun fs sf => ok (readyOps c il (fs.drop k)) sf fun rs s2 => p d sf fs rs s2

theorem prepares_of {t : Tmpl} {n : Insn} {s : State} {il : Bool} {k : Nat} {p : Dec → State → List Formed → List Rdy → State → Bool}
    (h : starts t n s (fun d s1 => prep n.core.val d s1 il k p) = true) : Prepares t n s il k p := by
  obtain ⟨d, s1, hb, h⟩ := starts_of h
  obtain ⟨fs, sf, h1, h⟩ := ok_run h
  obtain ⟨rs, s2, h2, h⟩ := ok_run h
  exact ⟨d, s1, fs, sf, rs, s2, hb, h1, h2, h⟩

/-- A translation that succeeds, and a condition on it. -/
def maps (s : State) (c kind va : Nat) (p : Xl → State → Bool) : Bool :=
  match s.xlate c true kind kind va with | .ok (x, t) => p x t | .error _ => false

/-- The store buffer of core 0 has room for a save and more. -/
def fine (s : State) : Bool := decide ((s.core 0).stores.length < 80)

/-- The interlocked access to an operand succeeds. -/
def rmwOk (s : State) (r : Rdy) (p : State → Bool) : Bool :=
  match r.xl with
  | none => false
  | some x => ok (rmw 0 false x r.f.nidx r.f.op.wid fun v => (some 1, v)) s fun _ t => p t

/-- The row of CAS. -/
def casRow : Tmpl := prim 0o014 [ow .x .i, ow .r .i, ow .s .i] wWD [pATOM, pACQ, pREL]

/-- MoveAndExchangeRows: the moves and pointer instructions, XCHG of registers and of memory, CAS of a register and of memory where x
equals r and where it does not, and LDA. -/
theorem witness_moveAndExchange : MeetsAll base false 1 [(prim 0o010 [ow .d .i, ow .s .i] wAll [pACQ, pREL], [0o744], [0o160, 0o004]),
      (prim 0o011 [extDst, ow .s .i] [.wN, .wH] [pACQ, pREL], [0o746], [0o002, 0o160]),
      (prim 0o012 [extDst, ow .s .i] [.wN, .wH] [pACQ, pREL], [], [0o002, 0o004]),
      (prim 0o021 [fw .d .p .wD, fw .s .p .wD] [] [pACQ, pREL], [], [0o021, 0o020]),
      (prim 0o024 [fw .r .i2 .wD, fw .r .p .wD, fw .r .p .wD] [] [], [], [0o002, 0o020, 0o021])] ∧
    MeetsAll base false 0 [(prim 0o022 [fw .x .p .wD, fw .s .i .wW] [] [], [], [0o021, 0o004]),
      (prim 0o023 [fw .x .p .wD, fw .s .i .wW] [] [], [], [0o020, 0o077]),
      (prim 0o025 [fw .r .p .wD, fw .r .p .wD] [] [], [], [0o020, 0o021]),
      (prim 0o013 [ow .x .i, ow .x .i] wAll [pATOM, pACQ, pREL], [], [0o002, 0o004])] ∧
    (∀ k ∈ [(0, [0o160, 0o004]), (1, [0o004, 0o160])],
      Prepares (prim 0o013 [ow .x .i, ow .x .i] wAll [pATOM, pACQ, pREL]) (ins 0o013 [] k.2) base true 0 (fun d _ _ rs s2 =>
        decide ((d.ops.filter DOp.isMem).length = 1) && rmwOk s2 (opAt rs k.1) fun t => writable t 0 (opAt rs (1 - k.1)))) ∧
    Prepares casRow (ins 0o014 [] [0o002, 0o004, 0o041]) base true 0
      (fun _ _ _ rs s2 => (opAt rs 0).xl.isNone && ok (readOp 0 false (opAt rs 2)) s2 fun _ _ => true) ∧
    (∀ r ∈ [0o001, 0o000], Prepares casRow (ins 0o014 [] [0o160, r, 0o041])
      { base with qlines := [(0, qlOf .m (lineOf [])), (4, qlOf .m (lineOf [1]))] } true 0 (fun _ _ fs rs s2 =>
        rmwOk s2 (opAt rs 0) fun t => decide (valAt fs 1 = 1) == decide (r = 0o001) && ok (readOp 0 false (opAt rs 2)) t fun _ u =>
          rmwOk u (opAt rs 0) fun _ => true)) ∧
    Prepares (prim 0o020 [fw .r .p .wD, opM] [] []) (ins 0o020 [] [0o021, 0o220, 0o005]) base false 0 (fun d _ _ _ _ =>
      match (d.ops.map DOp.form).getD 1 (.imm 0) with | .mem _ _ _ => true | _ => false) := by
  refine ⟨meetsAll_of (by decide +kernel), meetsAll_of (by decide +kernel), ?_, prepares_of (by decide +kernel), ?_,
    prepares_of (by decide +kernel)⟩
  all_goals
    (repeat' first | exact onNone | refine onEach ?_ ?_) <;> exact prepares_of (by decide +kernel)

/-- Every one of some instructions of rows begins in a state. -/
def StartsAll (s : State) (l : List (Tmpl × List Nat)) : Prop := ∀ q ∈ l, Starts q.1 (rowIns q.1 [] q.2) s fun _ _ => true

theorem startsAll_of {s : State} {l : List (Tmpl × List Nat)}
    (h : (l.all fun q => starts q.1 (rowIns q.1 [] q.2) s fun _ _ => true) = true) : StartsAll s l :=
  fun q hq => starts_of (List.all_eq_true.1 h q hq)

/-- BranchAndLoopRows: every kind of target. -/
theorem witness_branchAndLoop : StartsAll base (((List.range 15).map fun k => (prim (0o200 + k) [opT] [] [], [0o000, 0o776])) ++
    [(prim 0o216 [opT] [] [], [0o100, 0o400, 0]), (prim 0o216 [opT] [] [], [0o200, 1, 0, 0, 0]),
      (prim 0o216 [opT] [] [], [0o301]), (prim 0o216 [opT] [] [], [0o403, 0, 0, 0o100, 0]),
      (prim 0o220 [fw .r .i .wW, opT] [] [], [0o002, 0o000, 0o770]), (prim 0o221 [fw .r .i .wW, opT] [] [], [0o002, 0o000, 0]),
      (prim 0o222 [fw .r .i .wW, opT] [] [], [0o000, 0o000, 1])]) := startsAll_of (by decide +kernel)

/-- P7 admits a push. -/
def fits (s : State) (extra : Nat) : Bool :=
  decide (ptrAddr (s.ptr 0 7) % 2 = 0 ∧ 2 + 2 * extra ≤ ptrAddr (s.ptr 0 7) ∧ ptrAddr (s.curBank 0).slim ≤ ptrAddr (s.ptr 0 7) - 2 - 2 * extra)

/-- A doubleword can be popped. -/
def pops (s : State) (a : Nat) (p : State → Bool) : Bool :=
  a % 2 == 0 && maps s 0 1 a fun x t => ok (load 0 x 0 .wD false) t fun _ u => p u

/-- The slot below P7 takes a doubleword. -/
def slot (s : State) : Bool := maps s 0 2 (ptrAddr (s.ptr 0 7) - 2) fun x t => takes t 0 x

/-- StackRows: each instruction on a stack with room, at the very limit for ENTER, and with an odd or exhausted P7. -/
theorem witness_stack :
    Starts (prim 0o230 [opT] [] []) (ins 0o230 [] [0o100, 0o007, 0o772]) base (fun _ s1 => fits s1 0 && slot s1) ∧
    Starts (prim 0o231 [] [] []) (ins 0o231 [] []) base (fun _ s1 => pops s1 (ptrAddr (s1.ptr 0 7)) fun _ => true) ∧
    Meets (prim 0o232 [fw .s .i .wW] [] []) (ins 0o232 [] [0o042]) base false 0 (fun _ _ _ _ s' => pops s' (ptrAddr (s'.ptr 0 7)) fun _ => true) ∧
    Meets (prim 0o233 [ow .s .i] wWD []) (ins 0o233 [0o744] [0o160]) base false 0 (fun _ _ _ _ s' => fits s' 0 && slot s') ∧
    Meets (prim 0o234 [ow .d .i] wWD []) (ins 0o234 [] [0o160]) base false 1 (fun _ rs _ _ s' =>
      pops s' (ptrAddr (s'.ptr 0 7)) fun u => writable u 0 (opAt rs 0)) ∧
    Meets (prim 0o235 [fw .s .i .wW] [] []) (ins 0o235 [] [0o042]) (at_ base 0 0 0o132) false 0
      (fun _ _ _ vs s' => fits s' (srcAt vs 0) && slot s') ∧
    Starts (prim 0o236 [] [] []) (ins 0o236 [] []) base (fun _ s1 => pops s1 (ptrAddr (s1.ptr 0 6)) fun _ => true) ∧
    Meets (prim 0o235 [fw .s .i .wW] [] []) (ins 0o235 [] [0o043]) (at_ base 0 0 0o132) false 0 (fun _ _ _ vs s' => !fits s' (srcAt vs 0)) ∧
    (∀ p ∈ [0, 1], Meets (prim 0o233 [ow .s .i] wWD []) (ins 0o233 [] [0o002]) (demo [] [0, 0, 0, 0, 0, 0, p, p]) false 0 (fun _ _ _ _ s' => !fits s' 0) ∧
      Starts (prim 0o230 [opT] [] []) (ins 0o230 [] [0o000, 0]) (demo [] [0, 0, 0, 0, 0, 0, p, p]) fun _ s1 => !fits s1 0) ∧
    StartsAll (demo [] [0, 0, 0, 0, 0, 0, 1, 1]) [(prim 0o231 [] [] [], []), (prim 0o236 [] [] [], [])] := by
  refine ⟨starts_of (by decide +kernel), starts_of (by decide +kernel), meets_of (by decide +kernel), meets_of (by decide +kernel),
    meets_of (by decide +kernel), meets_of (by decide +kernel), starts_of (by decide +kernel), meets_of (by decide +kernel), ?_,
    startsAll_of (by decide +kernel)⟩
  (repeat' first | exact onNone | refine onEach ?_ ?_) <;> exact ⟨meets_of (by decide +kernel), starts_of (by decide +kernel)⟩

/-- The unit at a long-form pointer translates for an access. -/
def unit (s : State) (d : Dec) (i kind : Nat) (p : Xl → Nat → State → Bool) : Bool :=
  let a := longAddr (s.ptr 0 i) d.wid 0
  !misaligned d.wid a.1 a.2 && maps s 0 kind a.1 fun x t => p x a.2 t

/-- One of it can be loaded. -/
def unitLoads (s : State) (d : Dec) (x : Xl) (nidx : Nat) (p : State → Bool) : Bool := ok (load 0 x nidx d.wid false) s fun _ t => p t

/-- A unit of SMOV. -/
def movs (d : Dec) (s : State) : Bool := unit s d 4 1 fun x i t => unit t d 5 2 fun y _ u => unitLoads u d x i fun v => takes v 0 y

/-- A unit of SCMP. -/
def cmps (d : Dec) (s : State) : Bool := unit s d 4 1 fun x i t => unit t d 5 1 fun y j u => unitLoads u d x i fun v => unitLoads v d y j fun _ => true

/-- A unit of SSCAN. -/
def scans (d : Dec) (s : State) : Bool := unit s d 5 1 fun y j u => unitLoads u d y j fun _ => true

/-- A unit of SSTO. -/
def stos (d : Dec) (s : State) : Bool := unit s d 5 2 fun y _ u => takes u 0 y

/-- A unit of SLOD. -/
def lods (d : Dec) (r : Rdy) (s : State) : Bool := unit s d 4 1 fun x i u => unitLoads u d x i fun v => writable v 0 r

/-- Two units to do. -/
def two : State := { base with cores := [(0, demoCore [0, 0, 0, 0, 0, 0, 0, 0, 0, 0, 0, 0, 2] [0, 0, 0, 0, 0o102, 0o104])] }

/-- The same with an interruption of level 4 pending that MASK 0 lets through. -/
def broken : State :=
  two.setCore 0 { (two.core 0).setPsw (setField (two.core 0).psw 18 20 0) with pend := [{ level := 4, code := 0o401, param := 0, info := 0 }] }

/-- StringRows, one unit of each. -/
theorem witness_string :
    Starts (prim 0o240 [] wAll [0o740, 0o743]) (ins 0o240 [] []) base (fun d s1 => d.rep.isNone && movs d s1) ∧
    Starts (prim 0o241 [] wAll [0o741, 0o742]) (ins 0o241 [0o746] []) base (fun d s1 => d.rep.isNone && cmps d s1) ∧
    Meets (prim 0o242 [ow .s .i] wAll [0o741, 0o742]) (ins 0o242 [0o744] [0o002]) base false 0 (fun d _ _ _ s' => d.rep.isNone && scans d s') ∧
    Meets (prim 0o243 [ow .s .i] wAll [0o740]) (ins 0o243 [] [0o002]) base false 0 (fun d _ _ _ s' => d.rep.isNone && stos d s') ∧
    Meets (prim 0o244 [ow .d .i] wAll [0o740, 0o743]) (ins 0o244 [] [0o002]) base false 1 (fun d rs _ _ s' =>
      d.rep.isNone && lods d (opAt rs 0) s') :=
  ⟨starts_of (by decide +kernel), starts_of (by decide +kernel), meets_of (by decide +kernel), meets_of (by decide +kernel),
    meets_of (by decide +kernel)⟩

/-- The rows of the string instructions with a repeat prefix. -/
def repeatRows : List (Tmpl × Insn) :=
  [(prim 0o240 [] wAll [0o740, 0o743], ins 0o240 [0o740] []), (prim 0o241 [] wAll [0o741, 0o742], ins 0o241 [0o741] []),
    (prim 0o242 [ow .s .i] wAll [0o741, 0o742], ins 0o242 [0o742] [0o042]), (prim 0o243 [ow .s .i] wAll [0o740], ins 0o243 [0o740] [0o042]),
    (prim 0o244 [ow .d .i] wAll [0o740, 0o743], ins 0o244 [0o743] [0o002])]

/-- StringRows, repeated: none to do, an interruption before the first unit, and units to be done. -/
theorem witness_repeat :
    (∀ q ∈ repeatRows, Starts q.1 q.2 base (fun d s1 => d.rep.isSome && s1.g12 0 == 0 &&
      ok (d.ops.forM (lateUpdate 0 true)) s1 fun _ _ => true)) ∧
    (∀ q ∈ repeatRows, Starts q.1 q.2 broken (fun d s1 => d.rep.isSome && s1.g12 0 == 2 &&
      match (s1.core 0).nextIrq with | some i => ((s1.withIa 0 (pswIa (s1.core 0).psw + 2 ^ 38 - d.len)).asyncEnter 0 i).isSome | none => false)) ∧
    Starts (prim 0o240 [] wAll [0o740, 0o743]) (ins 0o240 [0o740] []) two (fun d s1 => (s1.core 0).nextIrq.isNone && movs d s1 &&
      ok (unitMov 0 d.wid) s1 fun v t => let u := t.counted 0; !repEnds 0o740 (u.flags 0).z v && movs d u && (u.core 0).nextIrq.isNone) ∧
    Starts (prim 0o241 [] wAll [0o741, 0o742]) (ins 0o241 [0o741] []) two (fun d s1 => (s1.core 0).nextIrq.isNone && cmps d s1) ∧
    Starts (prim 0o242 [ow .s .i] wAll [0o741, 0o742]) (ins 0o242 [0o742] [0o042]) two (fun d s1 =>
      ok (readyOps 0 false (s1.formed 0 d)) s1 fun rs t => ok (readOp 0 false (opAt rs 0)) t fun _ u => scans d u) ∧
    Starts (prim 0o243 [ow .s .i] wAll [0o740]) (ins 0o243 [0o740] [0o042]) two (fun d s1 =>
      ok (readyOps 0 false (s1.formed 0 d)) s1 fun rs t => ok (readOp 0 false (opAt rs 0)) t fun _ u => stos d u) ∧
    Starts (prim 0o244 [ow .d .i] wAll [0o740, 0o743]) (ins 0o244 [0o743] [0o002]) two (fun d s1 =>
      lods d (opAt ((s1.formed 0 d).map fun f => { f := f, xl := none }) 0) s1) := by
  refine ⟨?_, ?_, starts_of (by decide +kernel), starts_of (by decide +kernel), starts_of (by decide +kernel), starts_of (by decide +kernel),
    starts_of (by decide +kernel)⟩
  all_goals
    (repeat' first | exact onNone | refine onEach ?_ ?_) <;> exact starts_of (by decide +kernel)

/-- FloatArithmeticRows: both formats, registers, memory and immediates. -/
theorem witness_floatArithmetic : MeetsAll base false 0 [(rowFx 0o300, [], xsOps), (rowFx 0o301, [], [0o002, 0o160]),
      (rowFx 0o302, [], [0o003, 0o100, 0o200, 0, 0, 0]), (rowFx 0o303, [0o744], xsOps)] ∧
    MeetsAll base false 1 [(rowFd 0o304, [], xsOps), (rowFd3 0o305, [], [0o002, 0o004, 0o005, 0o006]),
      (rowFd3 0o306, [0o744], [0o160, 0o004, 0o005, 0o006]), (rowFd3 0o307, [], [0o002, 0o004, 0o160, 0o006]),
      (rowFd3 0o310, [], [0o002, 0o002, 0o002, 0o002]), (rowFd 0o322, [0o744], xsOps)] :=
  ⟨meetsAll_of (by decide +kernel), meetsAll_of (by decide +kernel)⟩

/-- FloatSignAndConversionRows. -/
theorem witness_floatSignAndConversion : MeetsAll base false 1 [(rowFd 0o313, [], xsOps), (rowFd 0o314, [0o744], xsOps),
      (rowFd2 0o315, [], [0o002, 0o004, 0o005]), (rowFd 0o320, [], [0o160, 0o004]),
      (prim 0o321 [fw .d .i .wW, ow .s .f] wWD preMem, [0o744], [0o003, 0o004]), (prim 0o324 [fw .d .i .wW] [] [pREL], [], [0o002]),
      (rowCvt 0o330 .f .wW .i .wW, [], xsOps), (rowCvt 0o331 .f .wD .i .wW, [], xsOps), (rowCvt 0o332 .f .wW .i .wD, [], xsOps),
      (rowCvt 0o333 .f .wD .i .wD, [], xsOps), (rowCvt 0o334 .i .wW .f .wW, [], xsOps), (rowCvt 0o335 .i .wW .f .wD, [], xsOps),
      (rowCvt 0o336 .i .wD .f .wW, [], xsOps), (rowCvt 0o337 .i .wD .f .wD, [], [0o160, 0o004]), (rowCvt 0o340 .f .wD .f .wW, [], xsOps),
      (rowCvt 0o341 .f .wW .f .wD, [], xsOps)] ∧
    MeetsAll base false 0 [(rowFx 0o311, [], xsOps), (rowFx 0o312, [0o744], [0o160, 0o004]), (prim 0o316 [ow .s .f, ow .s .f] wWD [pACQ], [], xsOps),
      (prim 0o317 [ow .s .f, ow .s .f] wWD [pACQ], [0o744], xsOps), (prim 0o323 [fw .s .i .wW] [] [pACQ], [], [0o077]),
      (prim 0o323 [fw .s .i .wW] [] [pACQ], [], [0o160])] ∧
    f36.isNan 0o377600000000 = true ∧ f72.isInf (0o377760000000 * 2 ^ 36) = false ∧ f36.isInf 0o777400000000 = true :=
  ⟨meetsAll_of (by decide +kernel), meetsAll_of (by decide +kernel), by decide +kernel, by decide +kernel, by decide +kernel⟩

/-- Core 0 with an OUT without early acknowledgement to a root-port window that is open. -/
def outState : State :=
  { base.setCore 0 { base.core 0 with outs := [{ window := 5, offset := 0, value := 1, ewa := false, asked := false }] } with
    windows := [(5, .rootp 1 1 0)], bEff := [(regKey (.linkgrp 1 1) 0, 2 ^ 34)] }

/-- BarrierAndServiceRows: barriers with nothing and with an OUT outstanding, SVC with its entry and without one, and the others. -/
theorem witness_barrierAndService :
    (∀ c ∈ [0o350, 0o351, 0o352, 0o353, 0o354, 0o361, 0o371], Starts (prim c [] [] []) (ins c [] []) base (fun _ s1 =>
      !(s1.gatherEmit 0).outOpen 0 && (((s1.gatherEmit 0).askOuts 0).core 0).outs.isEmpty && ((s1.gatherEmit 0).drainAll 0).isSome &&
        (s1.drainAll 0).isSome)) ∧
    (∀ c ∈ [0o350, 0o352, 0o354], Starts (prim c [] [] []) (ins c [] []) outState (fun _ s1 =>
      (s1.gatherEmit 0).outOpen 0 && !(((s1.gatherEmit 0).askOuts 0).core 0).outs.isEmpty)) ∧
    Meets (prim 0o370 [fw .s .i .wW] [] []) (ins 0o370 [] [0o052]) base false 0 (fun _ _ _ _ s' =>
      match s'.drainEvent 0 with
      | none => false
      | some t => !(((t.gatherEmit 0).core 0).bank 1).busy && match (t.gatherEmit 0).vector 0 1 with
        | some (some _, _) => true
        | _ => false) ∧
    Meets (prim 0o370 [fw .s .i .wW] [] []) (ins 0o370 [] [0o052])
      (demoM [] [] [(0, [0, 0, 2 ^ 10])]) false 0 (fun _ _ _ vs s' =>
      match s'.drainEvent 0 with
      | none => false
      | some t => match t.syncEnter 0 1 0 (srcAt vs 0 % 2 ^ 18) 0 with | some (.error _) => true | _ => false) ∧
    MeetsAll base false 1 [(prim 0o372 [fw .d .i .wD] [] [], [], [0o002]), (prim 0o373 [fw .d .i .wW] [] [], [], [0o160])] ∧
    MeetsAll base false 0 [(prim 0o374 [fw .s .i .wW] [] [], [], [0o052])] := by
  refine ⟨?_, ?_, meets_of (by decide +kernel), meets_of (by decide +kernel), meetsAll_of (by decide +kernel), meetsAll_of (by decide +kernel)⟩ <;>
  · (repeat' first | exact onNone | refine onEach ?_ ?_) <;> exact starts_of (by decide +kernel)

/-- Core 0 at level 1, entered from level 0, with CHAIN and SPL as given. -/
def inLevel1 (chain spl : Nat) : State :=
  base.setCore 0 { (base.core 0).setBank 1 { bankReset 1 with
    psw := setField (setField (setField (setField (0 : DWord) 2 2 1) 3 3 chain) 4 4 spl) 8 10 1, busy := true } with level := 1 }

/-- The conditions on the PSW and on the bank returned to. -/
def chained (s : State) (spl : Bool) : Bool :=
  dbit (s.core 0).psw 3 && ((s.core 0).bank (field (s.core 0).psw 11 13)).busy && dbit (s.core 0).psw 4 == spl

/-- ReturnRows: CHAIN = 0, a plain return, a refill (the state of the spill case) and a refill that fails. -/
theorem witness_return :
    Starts (secd 0o060 []) (ins 0o777060 [] []) base (fun _ s1 => !dbit (s1.core 0).psw 3) ∧
    Starts (secd 0o060 []) (ins 0o777060 [] []) (inLevel1 1 0) (fun _ s1 => chained s1 false) ∧
    Starts (secd 0o060 []) (ins 0o777060 [] []) (after (.svc (ins 0o370 [] [0o052])) (spillState 1)) (fun _ s1 => chained s1 true &&
      match s1.refill 0 (s1.core 0).level with | .done _ => true | _ => false) ∧
    Starts (secd 0o060 []) (ins 0o777060 [] []) (inLevel1 1 1) (fun _ s1 => chained s1 true &&
      match s1.refill 0 (s1.core 0).level with | .failed => true | _ => false) :=
  ⟨starts_of (by decide +kernel), starts_of (by decide +kernel), starts_of (by decide +kernel), starts_of (by decide +kernel)⟩

/-- PswAndControlRows: LPSW and SPSW at an odd and at an even address, SPRI, WAIT, and the control registers and banks, those that exist
and those that do not. -/
theorem witness_pswAndControl :
    (∀ q ∈ [(secd 0o061 [opM], 0o777061, 1), (secd 0o062 [opM], 0o777062, 2)],
      Prepares q.1 (ins q.2.1 [] [0o160]) base false 9 (fun _ sf fs _ _ => addrAt fs 0 % 2 == 0 && maps sf 0 q.2.2 (addrAt fs 0)
        fun x t => ok (load 0 x 0 .wD false) t fun _ u => takes u 0 x) ∧
      Prepares q.1 (ins q.2.1 [] [0o220, 0o001]) base false 9 (fun _ _ fs _ _ => addrAt fs 0 % 2 == 1)) ∧
    Starts (secd 0o063 []) (ins 0o777063 [] []) base (fun _ s1 => (s1.drainEvent 0).isSome) ∧
    MeetsAll base false 0 [(secd 0o065 [fw .s .i .wW], [], [0o043]), (secd 0o070 [fw .s .i .wW, fw .s .i .wD], [], [0o043, 0o002]),
      (secd 0o070 [fw .s .i .wW, fw .s .i .wD], [], [0o044, 0o002]), (secd 0o070 [fw .s .i .wW, fw .s .i .wD], [], [0o050, 0o160]),
      (secd 0o070 [fw .s .i .wW, fw .s .i .wD], [], [0o057, 0o002]), (secd 0o073 [fw .s .i .wW, fw .s .i .wD], [], [0o002, 0o004]),
      (secd 0o073 [fw .s .i .wW, fw .s .i .wD], [], [0o077, 0o004]), (secd 0o074 [fw .s .i .wD], [], [0o160])] ∧
    MeetsAll base false 1 [(secd 0o071 [fw .d .i .wD, fw .s .i .wW], [], [0o002, 0o044]),
      (secd 0o071 [fw .d .i .wD, fw .s .i .wW], [], [0o002, 0o045]), (secd 0o072 [fw .d .i .wD, fw .s .i .wW], [], [0o002, 0o057]),
      (secd 0o072 [fw .d .i .wD, fw .s .i .wW], [], [0o160, 0o077]), (secd 0o075 [fw .d .i .wD], [], [0o002])] := by
  refine ⟨?_, starts_of (by decide +kernel), meetsAll_of (by decide +kernel), meetsAll_of (by decide +kernel)⟩
  (repeat' first | exact onNone | refine onEach ?_ ?_) <;> exact ⟨prepares_of (by decide +kernel), prepares_of (by decide +kernel)⟩

/-- CoreOrders: orders 0 to 6 of core 0 to itself, and to a core of no sheet. -/
theorem witness_coreOrders :
    MeetsAll base false 0 (((List.range 7).map fun k => (secd 0o064 [fw .r .i .wW, fw .s .i .wW], [], [0o000, 0o040 + k])) ++
      [(secd 0o064 [fw .r .i .wW, fw .s .i .wW], [], [0o002, 0o041])]) := meetsAll_of (by decide +kernel)

/-- The save-area state: area 0o100 with a header heads a list. -/
def saveState (list head : Nat) : State :=
  let s := demoM [] [] [(0, []), (4, [head, 0, 0, 0o140]), (5, []), (6, [])]
  s.setCore 0 ((s.core 0).setCtl list 0o100)

/-- The head of a list of save areas. -/
def heads (s : State) (list : Nat) (p : Xl → State → Bool) : Bool :=
  let a := ptrAddr ((s.core 0).ctlReg list)
  a != 0 && a % 32 == 0 && maps s 0 1 a fun _ t => maps t 0 2 a p

/-- SaveRows: a save, a restore with the right and with the wrong header, and lists that are empty or not aligned. -/
theorem witness_save :
    (∀ c ∈ [0o050, 0o051], Starts (secd c []) (ins (0o777000 + c) [] []) (saveState 0 0) (fun _ s1 =>
      heads s1 0 fun x t => ok (load 0 (x.plus 2) 0 .wD false) t fun _ u => fine u && takes u 0 x)) ∧
    (∀ q ∈ [(0o052, 2 ^ 27 + 2 ^ 16), (0o053, 2 ^ 27 + 2 * 2 ^ 16)], Starts (secd q.1 []) (ins (0o777000 + q.1) [] []) (saveState 1 q.2)
      (fun _ s1 => heads s1 1 fun x t => ok (load 0 x 0 .wW false) t fun h u => h == q.2 &&
        ok ([2, 4, 6, 8, 10, 12, 14, 16, 18].mapM fun o => load 0 (x.plus o) 0 .wD false) u fun l v => l.length == 9 && takes v 0 (x.plus 2))) ∧
    Starts (secd 0o052 []) (ins 0o777052 [] []) (saveState 1 5)
      (fun _ s1 => heads s1 1 fun x t => ok (load 0 x 0 .wW false) t fun h _ => h != 2 ^ 27 + 2 ^ 16) ∧
    (∀ c ∈ [0o050, 0o053], Starts (secd c []) (ins (0o777000 + c) [] []) base (fun _ s1 =>
      ptrAddr ((s1.core 0).ctlReg (if c = 0o050 then 0 else 1)) == 0)) ∧
    Starts (secd 0o050 []) (ins 0o777050 [] []) (base.setCore 0 ((base.core 0).setCtl 0 0o101)) (fun _ s1 =>
      ptrAddr ((s1.core 0).ctlReg 0) % 32 != 0) := by
  refine ⟨?_, ?_, starts_of (by decide +kernel), ?_, starts_of (by decide +kernel)⟩ <;>
  · (repeat' first | exact onNone | refine onEach ?_ ?_) <;> exact starts_of (by decide +kernel)

/-- The stores of the cores that a translation invalidation reaches can be performed. -/
def drains (s : State) (b : Bool) : Bool :=
  let reach := if b then (List.range 192).filter fun t => (s.core t).sheet = (s.core 0).sheet else [0]
  ((reach.filter fun t => (s.core t).cstate == CState.active).foldlM (fun (s : State) t => s.drainAll t) s).isSome

/-- InvalidationRows. -/
theorem witness_invalidation :
    (∀ q ∈ [(0o030, false), (0o033, true)], Starts (secd q.1 []) (ins (0o777000 + q.1) [] []) base fun _ s1 => drains s1 q.2) ∧
    (∀ q ∈ [(secd 0o031 [fw .s .i .wW], [0o002], false), (secd 0o034 [fw .s .i .wW], [0o160], true),
      (secd 0o032 [fw .r .i .wW, fw .r .p .wD], [0o002, 0o020], false), (secd 0o035 [fw .r .i .wW, fw .r .p .wD], [0o002, 0o021], true)],
      Meets q.1 (rowIns q.1 [] q.2.1) base false 0 (fun _ _ _ _ s' => drains s' q.2.2)) := by
  constructor
  · (repeat' first | exact onNone | refine onEach ?_ ?_) <;> exact starts_of (by decide +kernel)
  · (repeat' first | exact onNone | refine onEach ?_ ?_) <;> exact meets_of (by decide +kernel)

/-- A quire in sheet 0 whose six cores are all the sheet's, with its L2 on or off. -/
def ownsBase (l2 : Bool) : State :=
  let s : State := { base with cores := (List.range 6).map fun c => (c, demoCore [0, 0, 3, 0, 1] [0o100]) }
  if l2 then s else s.setReg (.l2 0) 0 0

/-- A sheet with home 0 and quire 0, which owns line 4, modified; its L3 slice is disabled. -/
def homed : State :=
  { regsOf (demo [] []) [(.home 0, 0, 0), (.deckle, 0o100, 2 ^ 35), (.deckle, 0o300, 2 ^ 35), (.deckle, 0o400, 2 ^ 35)] with
    qlines := [(0, qlOf .m (lineOf [])), (4, qlOf .m (lineOf [7]))]
    dir := [(0, { dirReset with st := .dx, owner := some 0 }), (4, { dirReset with st := .dx, owner := some 0 })] }

/-- The same with the L2 of quire 0 off, its line at address 0 at its home. -/
def homedOff : State := { (ownsBase false) with regs := (homed.setReg (.l2 0) 0 0).regs, qlines := [], dir := [] }

/-- The row of PRELOAD.L. -/
def lockRow : Tmpl := secd 0o044 [opM, fw .s .i .wW]

/-- CacheRows: each instruction at a mapped line; PRELOAD at an address that fails and at one that does not; PRELOAD.L in a sheet that
owns its quire with a way that exists, one that does not, and with the L2 off, and in a sheet that does not own it; CUNLK. -/
theorem witness_cache :
    (∀ q ∈ [(prim 0o362 [opM] [] [], 0o362, 1), (prim 0o363 [opM] [] [], 0o363, 2), (secd 0o040 [opM], 0o777040, 2), (secd 0o042 [opM], 0o777042, 1)],
      Prepares q.1 (ins q.2.1 [] [0o160]) base false 9 (fun _ sf fs _ _ => maps sf 0 q.2.2 (addrAt fs 0) fun x t => takes t 0 x)) ∧
    Starts (secd 0o043 []) (ins 0o777043 [] []) homed (fun _ s1 => match s1.drainAll 0 with
      | none => false
      | some t => match ((t.qlines.filter fun (y : Nat × QLine) => y.1 / 2 ^ 34 = 0 ∧ y.2.st.owns = true ∧ y.2.isDirty = true).map
          fun (y : Nat × QLine) => y.1 % 2 ^ 34).foldlM (fun s l => s.mClean 0 l) t with | some u => (u.qline 0 4).st == .e | none => false) ∧
    Starts (secd 0o041 []) (ins 0o777041 [] []) base (fun _ s1 => (s1.drainAll 0).isSome) ∧
    Prepares (prim 0o360 [opM] [] []) (ins 0o360 [] [0o160]) base false 9 (fun _ sf fs _ _ =>
      match sf.xlate 0 true 1 1 (addrAt fs 0) with | .error _ => false | .ok (x, t) => (t.quireRead 0 (x.mp / 16)).isSome) ∧
    Prepares (prim 0o360 [opM] [] []) (ins 0o360 [] [0o160]) (demo [] [2 ^ 40]) false 9 (fun _ sf fs _ _ =>
      match sf.xlate 0 true 1 1 (addrAt fs 0) with | .error _ => true | .ok _ => false) ∧
    (∀ w ∈ [0o002, 0o056], Prepares lockRow (ins 0o777044 [] [0o160, w]) (ownsBase true) false 9 (fun d sf fs _ _ =>
      sf.ownsQuire 0 0 && sf.l2On 0 && maps sf 0 1 (addrAt fs 0) fun x t => ok (readyOps 0 false (fs.drop 1)) t fun rs u =>
        ok (readOp 0 d.acq (opAt rs 0)) u fun v t' => if w = 0o056 then decide (11 < v % 16) else decide (v % 16 ≤ 11) &&
          (t'.lockLine 0 (x.mp / 16) (v % 16)).isSome)) ∧
    Prepares lockRow (ins 0o777044 [] [0o160, 0o002]) homedOff false 9 (fun d sf fs _ _ =>
      sf.ownsQuire 0 0 && !sf.l2On 0 && maps sf 0 1 (addrAt fs 0) fun _ t => ok (readyOps 0 false (fs.drop 1)) t fun rs u =>
        ok (readOp 0 d.acq (opAt rs 0)) u fun v _ => decide (v % 16 ≤ 11)) ∧
    Prepares lockRow (ins 0o777044 [] [0o160, 0o002]) base false 9 (fun _ sf fs _ _ => !sf.ownsQuire 0 0 &&
      match sf.xlate 0 true 1 1 (addrAt fs 0) with | .error _ => false | .ok (x, t) => (t.quireRead 0 (x.mp / 16)).isSome) ∧
    MeetsAll (ownsBase true) false 0 [(secd 0o045 [fw .s .i .wW], [], [0o002]), (secd 0o045 [fw .s .i .wW], [], [0o054])] := by
  refine ⟨?_, starts_of (by decide +kernel), starts_of (by decide +kernel), prepares_of (by decide +kernel), prepares_of (by decide +kernel),
    ?_, prepares_of (by decide +kernel), prepares_of (by decide +kernel), meetsAll_of (by decide +kernel)⟩ <;>
  · (repeat' first | exact onNone | refine onEach ?_ ?_) <;> exact prepares_of (by decide +kernel)

/-- Core 0 with an IO-space address in G2 and 3 in G4, and windows 1 to 3 of its sheet bound to a queue, to a root port, which is contained
or not, and to a queue. -/
def ioState (a : Nat) (inReset : List Blk) (contained : Bool) : State :=
  { regsOf (demo [0, 0, a, 0, 3] []) [(.deckle, 0o10001, 2 ^ 34), (.endpt, 0o1000, 2 ^ 35), (.endpt, 0o1002, 2 ^ 35),
      (.rootp 1 0, 2, if contained then 2 ^ 35 else 0)] with
    inReset := inReset, windows := [(1, .queue 0), (2, .rootp 1 0 3), (3, .queue 1)], bEff := [(regKey (.linkgrp 1 0) 0, 2 ^ 34)] }

/-- The row of IN and the row of OUT. -/
def inRow : Tmpl := { secd 0o010 [ow .d .i, ow .s .i] with priv := false }
def outRow : Tmpl := { secd 0o011 [ow .s .i, ow .s .i] with priv := false }

/-- What an IN or OUT of core 0 names, and a condition on it. -/
def names (s : State) (write : Bool) (a : Nat) (p : IoAt → Bool) : Bool :=
  match s.ioCheck 0 write (BitVec.ofNat 36 a) with | .ok x => p x | .error _ => false

/-- InOutRows, IN: its checks fail; a core register at a block in reset and out of it; a queue window; a root-port window of a port that is
contained and of one that is not; and an earlier OUT that is open. -/
theorem witness_in :
    Meets inRow (ins 0o777010 [] [0o003, 0o002]) (ioState 0o500000000000 [] false) false 1 (fun _ _ _ vs s' => !names s' false (srcAt vs 0) fun _ => true) ∧
    (∀ r ∈ [[], [Blk.core 0]], Meets inRow (ins 0o777010 [] [0o003, 0o002]) (ioState 0o000001000211 r false) false 1 (fun _ rs _ vs s' =>
      names s' false (srcAt vs 0) fun x => x == .reg (.core 0) 0o211 && s'.inReset.contains (s'.ioBlk 0 x) == !r.isEmpty &&
        !(s'.gatherEmit 0).outOpen 0 && writable ((s'.gatherEmit 0).portRead false (.core 0) 0o211).2 0 (opAt rs 0))) ∧
    (∀ q ∈ [(0o403000000001, false, Window.queue 1), (0o402000000007, true, .rootp 1 0 3), (0o402000000007, false, .rootp 1 0 3)],
      Meets inRow (ins 0o777010 [] [0o003, 0o002]) (ioState q.1 [] q.2.1) false 1 (fun _ rs _ vs s' =>
        let s3 := s'.gatherEmit 0
        names s' false (srcAt vs 0) fun x => match x with
          | .win v _ => !s3.outOpen 0 && s3.window 0 v == q.2.2 && s3.contained 1 0 == q.2.1 && writable s3 0 (opAt rs 0)
          | _ => false)) ∧
    Meets inRow (ins 0o777010 [] [0o003, 0o002])
      ((ioState 0o000001000211 [] false).setCore 0 { (ioState 0o000001000211 [] false).core 0 with outs := [⟨2, 0, 1, false, false⟩] }) false 1
      (fun _ _ _ vs s' => names s' false (srcAt vs 0) fun _ => (s'.gatherEmit 0).outOpen 0) := by
  refine ⟨meets_of (by decide +kernel), ?_, ?_, meets_of (by decide +kernel)⟩
  all_goals
    (repeat' first | exact onNone | refine onEach ?_ ?_) <;> exact meets_of (by decide +kernel)

/-- InOutRows, OUT: its checks fail; a core register at a block in reset and out of it; windows with GATH 1 and 0. -/
theorem witness_out :
    Meets outRow (ins 0o777011 [] [0o002, 0o004]) (ioState 0o400000000000 [] false) false 0 (fun _ _ _ vs s' => !names s' true (srcAt vs 0) fun _ => true) ∧
    (∀ r ∈ [[], [Blk.core 0]], Meets outRow (ins 0o777011 [] [0o002, 0o004]) (ioState 0o000001000211 r false) false 0 (fun _ _ _ vs s' =>
      names s' true (srcAt vs 0) fun x => x == .reg (.core 0) 0o211 && s'.inReset.contains (s'.ioBlk 0 x) == !r.isEmpty)) ∧
    (∀ q ∈ [(0o401000000002, true), (0o403000000003, false)],
      Meets outRow (ins 0o777011 [] [0o002, 0o004]) (ioState q.1 [] false) false 0 (fun _ _ _ vs s' => names s' true (srcAt vs 0) fun x =>
        match x with
        | .win i _ => !s'.inReset.contains (s'.ioBlk 0 x) && s'.rbit .deckle (0o10000 + i) 1 == q.2
        | _ => false)) := by
  refine ⟨meets_of (by decide +kernel), ?_, ?_⟩
  all_goals
    (repeat' first | exact onNone | refine onEach ?_ ?_) <;> exact meets_of (by decide +kernel)

/-- InOutRows, the checks: one address of each kind, with the clause that takes it. -/
theorem witness_ioCheck : ∀ q ∈ [(false, 0o500000000000, Except.error (Trap.check 5 [])), (false, 0o400000000000, .error (.freeze 5 0o400000000000)),
      (true, 0o400000000000, .error (.freeze 0o16 0o400000000000)), (true, 0o377777000000, .error (.check 5 [])),
      (true, 0o401000000007, .ok (.win 1 7)), (false, 0o000001000207, .ok (.reg (.core 0) 0o207))],
    (match (ioState 0 [] false).ioCheck 0 q.1 (w36 q.2.1), q.2.2 with
      | .ok x, .ok y => x == y
      | .error x, .error y => x == y
      | _, _ => false) = true := by decide +kernel

/-- Subchannel 5 of sheet 0 with word 0 of its control block, with a path to use, and a request for it at word 0o100. -/
def chanState (own : Bool) (inReset : List Blk) (w0 : Nat) : State :=
  let s := { regsOf base (if own then [(.deckle, subAt 5, 2 ^ 35)] else []) with
    inReset := inReset, qlines := [(0, qlOf .m (lineOf [])), (4, qlOf .m (lineOf [0, 0, 2 ^ 18]))] }
  (s.setEasel 0 (cbAt 0 0) (w36 w0)).setEasel 0 (cbAt 0 8) (w36 (2 ^ 24))

/-- The operands of a channel instruction with a block of some words: its number and alignment, its translation and its contents. -/
def chanBlock (kinds : List Nat) (n : Nat) (fs : List Formed) (s : State) (p : MArea → List Word → State → Bool) : Bool :=
  decide (valAt fs 0 < 2 ^ 16) && addrAt fs 1 % 8 == 0 &&
    ok (areaXlate 0 kinds (addrAt fs 1) n) s fun r t => if kinds = [1] then ok (areaRead 0 r n) t (p r) else p r [] t

/-- A state in which a channel instruction has reached its subchannel, which the sheet owns or not, its vat being in reset or not. -/
def atSub (own reset : Bool) (s : State) : Bool := s.ownsSub 0 5 == own && s.inReset.contains (vatBlk (s.subVat 5)) == reset

/-- Every earlier access is performed, and a condition holds then. -/
def released (s : State) (p : State → Bool) : Bool := !s.outPending 0 && match s.drainAll 0 with | some t => p t | none => false

/-- An order of a channel instruction, with its block where it has one. -/
def ordered (t : Tmpl) (s : State) (ops : List Nat) (p : State → List Formed → Bool) : Prop :=
  Prepares t (rowIns t [] ops) s false 9 fun _ sf fs _ _ => decide (valAt fs 0 < 2 ^ 16) && p sf fs

/-- ChannelRows, the orders: subchannels not owned, with the vat in reset, not enabled, with status pending, and that take the order; and a
number and a block that fail the check. -/
theorem witness_orders :
    (∀ q ∈ [(false, [], 2 ^ 31, 9), (true, [Blk.vat 0], 2 ^ 31, 9), (true, [], 0, 3), (true, [], 2 ^ 31 + 2 ^ 29, 2), (true, [], 2 ^ 31, 0)],
      ordered (rowChanM 0o020) (chanState q.1 q.2.1 q.2.2.1) [0o002, 0o160] (fun sf fs => chanBlock [1] 8 fs sf fun _ ws s3 =>
        !requestBad ws && released s3 fun s4 => atSub q.1 (!q.2.1.isEmpty) s4 && (q.2.2.2 != 3 || !dbit (s4.cb 5 0) 4) &&
          (q.2.2.2 != 2 || s4.subSp 5) && (q.2.2.2 != 0 || (s4.subSt 5 == 0 && !s4.subSp 5 && dbit (s4.cb 5 0) 4)))) ∧
    (∀ q ∈ [(false, 2 ^ 31 + 3 * 2 ^ 32), (true, 2 ^ 31 + 3 * 2 ^ 32), (true, 2 ^ 31)],
      ordered (rowChan 0o025) (chanState q.1 [] q.2) [0o002] (fun sf _ => released sf fun s4 => atSub q.1 false s4 &&
        (!q.1 || s4.subSt 5 == (q.2 - 2 ^ 31) / 2 ^ 32))) ∧
    (∀ c ∈ [0o022, 0o023], ∀ q ∈ [(false, 2 ^ 31), (true, 2 ^ 31 + 2 * 2 ^ 32), (true, 2 ^ 31 + 5 * 2 ^ 32)],
      ordered (rowChan c) (chanState q.1 [] q.2) [0o002] (fun sf _ => atSub q.1 false sf && (!q.1 || sf.subSt 5 == (q.2 - 2 ^ 31) / 2 ^ 32))) ∧
    Prepares (rowChanM 0o020) (ins 0o777020 [] [0o002, 0o220, 0o001]) (chanState true [] 0) false 9 (fun _ _ fs _ _ => addrAt fs 1 % 8 != 0) ∧
    Prepares (rowChan 0o022) (ins 0o777022 [] [0o002]) (demo [0, 0, 2 ^ 16] []) false 9 (fun _ _ fs _ _ => decide (2 ^ 16 ≤ valAt fs 0)) := by
  refine ⟨?_, ?_, ?_, prepares_of (by decide +kernel), prepares_of (by decide +kernel)⟩
  · (repeat' first | exact onNone | refine onEach ?_ ?_) <;> exact prepares_of (by decide +kernel)
  · (repeat' first | exact onNone | refine onEach ?_ ?_) <;> exact prepares_of (by decide +kernel)
  · (repeat' first | exact onNone | refine onEach ?_ ?_) <;> exact prepares_of (by decide +kernel)

/-- Words of a block can be stored. -/
def stores (s : State) (r : MArea) (i : Nat) (ws : List Word) : Bool := ok (areaWrite 0 r i ws) s fun _ _ => true

/-- ChannelRows, the blocks: MSCH with a sound and an unsound record, and STSCH and TSCH that store theirs, the latter with status pending
and without. -/
theorem witness_blocks : ∀ q ∈ [(false, 2 ^ 31), (true, 2 ^ 31), (true, 2 ^ 31 + 2 ^ 29)],
    (∀ w ∈ [0, 1], ordered (rowChanM 0o024) { chanState q.1 [] q.2 with qlines := [(0, qlOf .m (lineOf [])), (4, qlOf .m (lineOf (w :: List.replicate 7 0 ++ List.replicate 8 (0o377 * 2 ^ 28))))] } [0o002, 0o160]
      (fun sf fs => chanBlock [1] 16 fs sf fun _ ws s3 => s3.recordBad 0 ws == (w == 1) && released s3 fun s4 => atSub q.1 false s4)) ∧
    ordered (rowChanM 0o026) (chanState q.1 [] q.2) [0o002, 0o160] (fun sf fs => chanBlock [2] 16 fs sf fun r _ s2 => atSub q.1 false s2 &&
      stores (s2.subTouch 5) r 0 ((s2.subTouch 5).subRecord 5)) ∧
    ordered (rowChanM 0o021) (chanState q.1 [] q.2) [0o002, 0o160] (fun sf fs => chanBlock [2] 8 fs sf fun r _ s2 => atSub q.1 false s2 &&
      match (if (s2.subTouch 5).subSp 5 then (s2.subTouch 5).drainRel 0 else some (s2.subTouch 5)) with
      | some s3 => stores s3 r 0 (s3.irb 5 (s3.subSp 5 && !dbit (s3.cb 5 0) 8))
      | none => false) := by
  (repeat' first | exact onNone | refine onEach ?_ ?_) <;> refine ⟨?_, prepares_of (by decide +kernel), prepares_of (by decide +kernel)⟩
  all_goals
    (repeat' first | exact onNone | refine onEach ?_ ?_) <;> exact prepares_of (by decide +kernel)

/-- A Calender open to sheet 0 at tile 0, or a Varnish with a key quota, and a parameter block at word 0o100. -/
def engState (open_ : Bool) (inReset : List Blk) (blk : List Nat) : State :=
  { regsOf base (if open_ then [(.cal 0, 0o100, 2 ^ 35), (.var 0, 0o100, 2 ^ 35 + 2 ^ 7)] else []) with
    inReset := inReset, qlines := [(0, qlOf .m (lineOf [])), (4, qlOf .m (lineOf blk))] }

/-- A parameter block that can be translated and read, and a condition on its words. -/
def engBlock (kinds : List Nat) (n k : Nat) (fs : List Formed) (s : State) (p : MArea → List Word → State → Bool) : Bool :=
  addrAt fs 0 % n == 0 && ok (areaXlate 0 kinds (addrAt fs 0) n) s fun r t => ok (areaRead 0 r k) t (p r)

/-- The 12 words of a Calender block: LEVEL 6, input, output and state area apart. -/
def calWords : List Nat := [6 * 2 ^ 30, 0, 0, 0o1000, 8, 0, 0, 0o2000, 16, 0, 0, 0o100000]

/-- The row of XKEY. -/
def keyRow : Tmpl := prim 0o263 [opM, fw .d .i .wW] [] []

/-- EngineRows: blocks that pass their checks, at engines open and closed to the sheet and in reset. -/
theorem witness_engine : ∀ o ∈ [(true, []), (false, []), (true, [calBlk 0, varBlk 0])],
    (∀ c ∈ [(0o260, false), (0o261, true)], Prepares (prim c.1 [opM] [] []) (ins c.1 [] [0o160]) (engState o.1 o.2 calWords) false 9 (fun _ sf fs _ _ =>
      engBlock [1, 2] 16 12 fs sf fun r ws s3 => !calBad (addrAt fs 0) (vec12 ws) c.2 && released s3 fun s4 =>
        s4.inReset.contains (calBlk 0) == !o.2.isEmpty && s4.rbit (calBlk 0) 0o100 0 == o.1 && !s4.calFrz 0 0 && (s4.calQueue 0 0).isEmpty &&
          ok (areaWrite 0 r 12 [0, 0, 0, 0]) s4 fun _ s5 => (s5.drainAll 0).isSome)) ∧
    Prepares (prim 0o262 [opM] [] []) (ins 0o262 [] [0o160]) (engState o.1 o.2 []) false 9 (fun _ sf fs _ _ =>
      engBlock [1] 16 14 fs sf fun _ ws s3 => !cipBad (addrAt fs 0) (vec14 ws) && released s3 fun s4 =>
        s4.inReset.contains (varBlk 0) == !o.2.isEmpty && s4.rbit (varBlk 0) 0o100 0 == o.1) ∧
    Prepares keyRow (ins 0o263 [] [0o160, 0o002]) (engState o.1 o.2 [2 ^ 33]) false 9 (fun _ sf fs _ _ =>
      addrAt fs 0 % 8 == 0 && ok (areaXlate 0 [1] (addrAt fs 0) 8) sf fun r t => ok (readyOps 0 false (fs.drop 1)) t fun rs u =>
        ok (areaRead 0 r 6) u fun ws s3 => !xkeyBad (addrAt fs 0) (vec12 ws) && released s3 fun s4 =>
          s4.inReset.contains (varBlk 0) == !o.2.isEmpty && s4.rbit (varBlk 0) 0o100 0 == o.1 && writable s4 0 (opAt rs 0)) := by
  (repeat' first | exact onNone | refine onEach ?_ ?_) <;> refine ⟨?_, prepares_of (by decide +kernel), prepares_of (by decide +kernel)⟩
  all_goals
    (repeat' first | exact onNone | refine onEach ?_ ?_) <;> exact prepares_of (by decide +kernel)

/-- EngineRows: blocks that break their rules, and blocks off their alignment. -/
theorem witness_engineBad :
    Prepares (prim 0o260 [opM] [] []) (ins 0o260 [] [0o160]) (engState true [] []) false 9 (fun _ sf fs _ _ =>
      engBlock [1, 2] 16 12 fs sf fun _ ws _ => calBad (addrAt fs 0) (vec12 ws) false) ∧
    Prepares (prim 0o262 [opM] [] []) (ins 0o262 [] [0o160]) (engState true [] [7 * 2 ^ 29]) false 9 (fun _ sf fs _ _ =>
      engBlock [1] 16 14 fs sf fun _ ws _ => cipBad (addrAt fs 0) (vec14 ws)) ∧
    Prepares keyRow (ins 0o263 [] [0o160, 0o002]) (engState true [] []) false 9 (fun _ sf fs _ _ =>
      engBlock [1] 8 6 fs sf fun _ ws _ => xkeyBad (addrAt fs 0) (vec12 ws)) ∧
    (∀ q ∈ [(0o260, [0o220, 0o010], 16), (0o261, [0o220, 0o001], 16), (0o262, [0o220, 0o377], 16)],
      Prepares (prim q.1 [opM] [] []) (ins q.1 [] q.2.1) base false 9 fun _ _ fs _ _ => addrAt fs 0 % q.2.2 != 0) ∧
    Prepares keyRow (ins 0o263 [] [0o220, 0o004, 0o002]) base false 9 (fun _ _ fs _ _ => addrAt fs 0 % 8 != 0) := by
  refine ⟨prepares_of (by decide +kernel), prepares_of (by decide +kernel), prepares_of (by decide +kernel), ?_, prepares_of (by decide +kernel)⟩
  (repeat' first | exact onNone | refine onEach ?_ ?_) <;> exact prepares_of (by decide +kernel)

/-- Core 0 in problem state. -/
def inProblem : State := base.setCore 0 ((base.core 0).setPsw (setField (base.core 0).psw 0 0 1))

/-- PrivilegedInstructionsTrap: a privileged instruction with and without prefixes begins to be decoded in problem state. -/
theorem witness_privileged : ∀ pre ∈ [[], [0o744, 0o754]], inProblem.executes 0 = true ∧ pswProb (inProblem.core 0).psw = true ∧
    (match decPre [] 0 (nz pre), decOpc (secd 0o060 []) pre.length (nz [0o777, 0o060]) with
      | .ok ps, .ok _ => ps == pre
      | _, _ => false) = true ∧
    ok (fetchCheck 0 (pswIa (inProblem.core 0).psw) (pre.length + 2)) inProblem (fun _ _ => true) = true := by decide +kernel

/-- OnlyWrongNonetsAreRefused: nonets that are no ADD are refused. -/
theorem witness_refused : (match step { base with pending := [.add (ins 0o040 [] [0o002])] } with
    | .refused .notThisInstruction => true | _ => false) = true := by decide +kernel

/-- StoppedCoresIgnoreInstructions: core 7 belongs to no sheet. -/
theorem witness_stopped : base.executes 7 = false ∧ (Instr.add { ins 0o040 [] [1, 2] with core := 7 }).insn ≠ none := by decide +kernel

/-- InterruptionEntry: the greatest level, code and parameter. -/
theorem witness_entry : (7 : Nat) < 8 ∧ (base.core 0).level < 8 ∧ (511 : Nat) < 512 ∧ (2 ^ 18 - 1 : Nat) < 2 ^ 18 := by decide +kernel

/-- Sheet 0 with region 0 and sheet 1 with region 3. -/
def twoSheets : State := regsOf base [(.deckle, 0o102001, 2 ^ 35 + 3)]

/-- SheetsShareNoMemory: no two entries of the two maps name one region. -/
theorem witness_sheets : twoSheets.deckleMap 0 5 = some 5 ∧ twoSheets.deckleMap 1 (2 ^ 28 + 5) = some (3 * 2 ^ 28 + 5) ∧
    (∀ i j, i < 1024 → j < 1024 → dbit (twoSheets.reg .deckle (0o100000 + 0o2000 * 0 + i)) 0 = true →
      dbit (twoSheets.reg .deckle (0o100000 + 0o2000 * 1 + j)) 0 = true →
      field (twoSheets.reg .deckle (0o100000 + 0o2000 * 0 + i)) 26 35 ≠ field (twoSheets.reg .deckle (0o100000 + 0o2000 * 1 + j)) 26 35) := by
  have h0 : ∀ i < 1024, dbit (twoSheets.reg .deckle (0o100000 + 0o2000 * 0 + i)) 0 = true →
      field (twoSheets.reg .deckle (0o100000 + 0o2000 * 0 + i)) 26 35 = 0 := by decide +kernel
  have h1 : ∀ j < 1024, dbit (twoSheets.reg .deckle (0o100000 + 0o2000 * 1 + j)) 0 = true →
      field (twoSheets.reg .deckle (0o100000 + 0o2000 * 1 + j)) 26 35 = 3 := by decide +kernel
  refine ⟨by decide +kernel, by decide +kernel, fun i j hi hj a b => ?_⟩
  rw [h0 i hi a, h1 j hj b]
  decide

/-! ### Witnesses of the statements about events -/

/-- A core of the base state changed. -/
def withCore (s : State) (f : Core → Core) : State := s.setCore 0 (f (s.core 0))

/-- Core 0 with MASK 0 and an interruption of a level pending. -/
def irqState (l : Nat) : State :=
  withCore base fun k => { k.setPsw (setField k.psw 18 20 0) with pend := [{ level := l, code := 0o401, param := 0, info := 0 }] }

/-- AcceptedInterruption: the first of two of one level, a later higher one, and one that MASK holds back. -/
theorem witness_accepted :
    ((withCore (irqState 4) fun k => { k with pend := k.pend ++ [{ level := 6, code := 1, param := 0, info := 0 }, { level := 6, code := 2, param := 0, info := 0 }] }).core 0).nextIrq.map
        Irq.code = some 1 ∧ ((withCore (irqState 4) fun k => k.setPsw (setField k.psw 18 20 4)).core 0).nextIrq = none := by decide +kernel

/-- A store of the base state's line 4. -/
def oneStore (rel : Bool) : Store := { kind := .data, addr := 0o100, mask := 0o777777777777, value := 5, rel := rel }

/-- The comparator's time has come, with some interruptions pending. -/
def comparatorState (p : List Irq) : State := { withCore base (fun k => { k.setCtl 4 10 with pend := p }) with clock := 10 }

/-- CoreEvents, interruptions: at a boundary, of a level that is an acquire and one that is not, with a sound vector; and the comparator's time
come, with its interruption pending and not. -/
theorem witness_interruptions :
    (∀ l ∈ [3, 4], (irqState l).alive = true ∧ (irqState l).atBoundary 0 = true ∧ ((irqState l).core 0).nextIrq.isSome = true ∧ ((irqState l).core 0).cold = false ∧
      (match (if l = 3 then (irqState l).drainRel 0 else some (irqState l)) with
        | some s0 => (match s0.vector 0 l with | some (some _, _) => true | _ => false) | none => false) = true) ∧
    (∀ s ∈ [comparatorState [], comparatorState [{ level := 4, code := 0o400, param := 0, info := 0 }]],
      (s.core 0).cstate = .active ∧ (s.core 0).ctlReg 4 ≠ 0 ∧ ((s.core 0).ctlReg 4).toNat ≤ s.clock.toNat) := by decide +kernel

/-- CoreEvents, stores and OUTs: a plain and a release store, joined words in the gather buffer, and an OUT asked for behind one that is not. -/
theorem witness_storeEvents :
    (∀ rel ∈ [true, false], let s := withCore base fun k => { k with stores := [oneStore rel] };
      s.storesGo 0 = true ∧ (s.core 0).stores = oneStore rel :: [] ∧ s.outPending 0 = false ∧ (s.perform 0 (oneStore rel)).isSome = true) ∧
    (let s := withCore base fun k => { k with gather := some { window := 5, block := 0, words := [(3, some 1)] } };
      s.storesGo 0 = true ∧ (s.core 0).gather.isSome = true) ∧
    (let s := withCore base fun k => { k with outs := [⟨5, 0, 1, false, false⟩, ⟨5, 1, 2, false, true⟩] };
      (s.core 0).outs = [⟨5, 0, 1, false, false⟩] ++ ⟨5, 1, 2, false, true⟩ :: []) := by decide +kernel

/-- CoreEvents, the data of an IN: it begins again in a core that is running again, and its operands are ready. -/
theorem witness_inData : ∀ ep ∈ [false, true],
    let n : Insn := ins 0o777010 [] [0o003, 0o002]
    let s := withCore base fun k => { k with run := .devIn n 4 }
    let s1 := if ep then s.setFld (rpBlk 2 0) 1 12 12 1 else s
    (s.core 0).run = .devIn n 4 ∧ (s.core 0).cstate = .active ∧ n.core = 0 ∧
    Meets inRow n (s1.setCore 0 { s1.core 0 with run := .running }) false 0 fun _ rs _ _ sr =>
      ok (readOp 0 false (opAt rs 1)) sr fun _ sa => writable sa 0 (opAt rs 0) := by
  (repeat' first | exact onNone | refine onEach ?_ ?_) <;> exact ⟨by decide +kernel, by decide +kernel, by decide +kernel, meets_of (by decide +kernel)⟩

/-- Core 0 waits with PGW and RETEN 1, alone awake in its quire or not. -/
def waitState (lone : Bool) : State :=
  let s := withCore (regsOf base [(.qpwr 0, 0, 3 * 2 ^ 26)]) fun k => { k with run := .wait };
  if lone then s else s.setCore 1 { s.core 1 with cold := false }

/-- CoreEvents, a power gate: the last core of its quire that waits, and one of several, with RETEN 1. -/
theorem witness_powerGate : ∀ lone ∈ [true, false], ∀ s ∈ [waitState lone],
    s.acts (.quire 0) = true ∧ (s.core 0).cstate = .active ∧ (s.core 0).run = .wait ∧ (s.core 0).cold = false ∧ s.rbit (.qpwr 0) 0 8 = true ∧
      s.rbit (.qpwr 0) 0 9 = true ∧ (s.drainEvent 0).isSome = true ∧ (∀ i < 6, i ≠ 0 → (s.core i).cold = (lone || i != 1)) := by decide +kernel

/-- A shed core 0 with its couching. -/
def couchState (st : Nat) (k : Couch) : State :=
  withCore (regsOf base [(.retry 0, 0, st * 2 ^ 33)]) fun c => { c with cstate := .failed, couch := some k }

/-- A couching at one of its points. -/
def couchAt (cause : Nat) (spare : Option Nat) (woke transferred : Bool) : Couch :=
  { cause := cause, shedAt := 0, spare := spare, woke := woke, transferred := transferred, lostLines := [] }

/-- RetryAndCouchingEvents, causes: attempts left and none, with a line that is dirty in the core's L1D and one that is not; and a shed. -/
theorem witness_retry :
    (∀ a ∈ [0, 2, 3], ∀ s ∈ [regsOf base [(.retry 0, 0, a * 2 ^ 31)]],
      s.alive = true ∧ (s.core 0).cstate = .active ∧ (s.sheet 0).checkstop = false ∧ s.fld (.retry 0) 0 3 4 = a ∧ (s.drainEvent 0).isSome = true) ∧
    (∀ d ∈ [some 0, none], ({ base with qlines := [(4, { qlOf .m (lineOf []) with l1dirty := d })] } : State).qline 0 4 =
      { qlOf .m (lineOf []) with l1dirty := d }) ∧
    (base.storesGo 0 = true ∧ (base.core 0).sheet = some 0 ∧
      ((withCore base fun k => { k with cstate := .failed, cold := true }).fault (.retry 0) 1 1).acting (.quire (quireFin 0)) ≠ 3) := by decide +kernel

/-- Core 0 shed, with spare cores in some quires, and some registers set. -/
def choiceState (near : List Nat) (cause : Nat) (rs : List (Blk × Nat × Nat)) : State :=
  let s := couchState 1 (couchAt cause none false false);
  { regsOf s ((.ident, 3, near.foldl (fun a q => a + 2 ^ (35 - q)) 0) :: rs) with
    cores := (0, s.core 0) :: near.map fun q => (6 * q + 5, { coreReset with cstate := .spare }) }

/-- A quire's spare is there to be claimed. -/
def spareThere (s : State) (q : Nat) : Bool := s.rbit .ident 3 q && (s.core (s.spareCore q)).cstate == .spare

/-- RetryAndCouchingEvents, the choice of a spare: cause 6; a spare of a nearer quire; none there and one across the tile, which the tile's
triptych chooses or, halted, does not; and none at all. -/
theorem witness_spareChoice :
    (∀ q ∈ [([0], 6), ([0], 1), ([], 1)], ∀ s ∈ [choiceState q.1 q.2 []],
      (s.core 0).couch = some (couchAt q.2 none false false) ∧ s.served 0 = true ∧ ((s.spareQuires 0 0).1.any (spareThere s)) = !q.1.isEmpty) ∧
    (∀ q ∈ [(0, true), (3 * 2 ^ 33, false)], ∀ s ∈ [choiceState [] 1 [(.ttrip 0, 0, q.1)], choiceState [2] 1 [(.ttrip 0, 0, q.1)]],
      s.served 0 = true ∧ (s.spareQuires 0 0).1.any (spareThere s) = false ∧ s.acts (.tile (tileFin 0)) = q.2) ∧
    ((choiceState [2] 1 []).spareQuires 0 0).2.any (spareThere (choiceState [2] 1 [])) = true := by decide +kernel

/-- RetryAndCouchingEvents, the stages: a fence, a wake that succeeds or fails, a transfer, and a release. -/
theorem witness_couching :
    (∀ s ∈ [couchState 2 (couchAt 1 (some 11) false false)],
      s.alive = true ∧ (s.core 0).couch.isSome = true ∧ s.fld (.retry 0) 0 0 2 = 2 ∧ (s.core 0).outs = [] ∧ (s.core 0).run = .running) ∧
    (∀ q ∈ [(2, false, false), (3, true, false), (3, true, true)], ∀ s ∈ [couchState q.1 (couchAt 1 (some 11) q.2.1 q.2.2)],
      s.couchedFor 11 = some 0 ∧ (s.core 0).couch = some (couchAt 1 (some 11) q.2.1 q.2.2) ∧ s.served 0 = true ∧ s.stepOpen (.coreWake 11) = false ∧
        s.couchState 0 = q.1 ∧ s.fld (.retry 0) 0 0 2 ≠ 1 ∧ (q.2.2 = true → (s.takePlace 0 11 []).isSome = true)) := by decide +kernel

/-- A triptych in a mode. -/
def tripState (t : Trip) (m : Nat) (fenced : Nat) : State := regsOf base [(tripBlk t, 0, m * 2 ^ 33 + fenced * 2 ^ 30)]

/-- The panels whose output differs from the voted one. -/
def outvoted (a b c : Word) : List Nat := ([(0, a), (1, b), (2, c)].filter fun x : Nat × Word => x.2 ≠ (a &&& b) ||| (b &&& c) ||| (a &&& c)).map (·.1)

/-- TriptychEvents, outvoting and reloads: TRIPLEX with panels alike, with one that differs and with three unlike; DUPLEX and SELFTEST with one
fenced; and each panel to reload from two that agree and two that do not. -/
theorem witness_panels :
    (∀ t ∈ [Trip.quire 3, .tile 2, .module], (tripState t 0 0).alive = true ∧ (tripState t 0 0).tmode t = 0 ∧
      (∀ i < 3, (tripState t 0 0).rbit (tripBlk t) 0 (3 + i) = false)) ∧
    (outvoted 1 2 4 = [0, 1, 2] ∧ outvoted 1 1 2 = [2] ∧ outvoted 7 7 7 = []) ∧
    (∀ t ∈ [Trip.quire 3, .tile 2, .module], ∀ m ∈ [1, 2], (tripState t m 4).tmode t = m ∧ (tripState t m 4).rbit (tripBlk t) 0 3 = true ∧
      (tripState t m 4).rbit (tripBlk t) 0 4 = false ∧ (tripState t m 4).rbit (tripBlk t) 0 5 = false) ∧
    (∀ p ∈ [(0, 1, 2), (1, 0, 2), (2, 0, 1)], (tripState .module 1 (4 / 2 ^ p.1)).rbit (tripBlk .module) 0 (3 + p.1) = true ∧
      (tripState .module 1 (4 / 2 ^ p.1)).rbit (tripBlk .module) 0 (3 + p.2.1) = false ∧
      (tripState .module 1 (4 / 2 ^ p.1)).rbit (tripBlk .module) 0 (3 + p.2.2) = false ∧
      (tripState .module 1 (4 / 2 ^ p.1)).panelMem .module p.2.1 = (tripState .module 1 (4 / 2 ^ p.1)).panelMem .module p.2.2 ∧
      (∀ s ∈ [({ tripState .module 1 (4 / 2 ^ p.1) with panels := [(panelKey .module p.2.1 5, 1)] } : State)],
        s.panelMem .module p.2.1 ≠ s.panelMem .module p.2.2)) := by decide +kernel

/-- The module triptych restarts while a commit is held, and when it has restarted. -/
def committing : State :=
  { tripState .module 4 0 with
    commit := some { snapshot := [], slot := 0, auth := false, stamped := true, wave := 1, version := 1, crc := 0, waiting := [], assign := ⟨[], []⟩ } }
def cleared : State :=
  let s := (committing.setBar 0 0x20 (committing.bar 0 0x20 &&& ~~~8#32)).setTmode .module 0;
  { s with outvotes := s.outvotes.filter fun x => x.1 ≠ .module, restarted := s.restarted.filter (· ≠ .module) }

set_option maxRecDepth 100000 in
/-- A commit is held while what waited for a supervisor goes on, where no core is shed. -/
theorem dutiesGo_commit {s : State} (h : s.cores.filterMap (fun e => e.2.couch.bind fun k => if k.spare.isNone then some (k.shedAt, e.1) else none) = []) :
    s.dutiesGo.commit = s.commit := by
  have step (u : State) (q : Nat) : ((u.chase q).retain q).commit = u.commit := by
    simp only [State.retain, State.chase, State.askStep, State.stepNow]
    repeat' split
    all_goals rfl
  have all (l : List Nat) (u : State) : (l.foldl (fun s q => (s.chase q).retain q) u).commit = u.commit := by
    induction l generalizing u with
    | nil => rfl
    | cons q l ih => rw [List.foldl_cons, ih, step]
  rw [State.dutiesGo, all, State.choicesGo, h]
  rfl

/-- TriptychEvents, restarts and takeovers, and the reset of the supervisor in each mode of its triptych, with a commit held. -/
theorem witness_restarts :
    (∀ t ∈ [Trip.quire 3, .tile 2], (tripState t 3 0).tmode t = 3 ∧ (tripState t 3 0).acting t ≠ 0 ∧ (tripState t 3 0).acting t ≠ 3 ∧
      t ∉ (tripState t 3 0).restarted ∧ t ∉ (tripState t 3 0).carried ∧ (tripState t 4 0).tmode t = 4 ∧
      t ∈ ({ tripState t 4 0 with restarted := [t] } : State).restarted) ∧
    (∀ m ∈ [0, 3], (if (tripState .module m 0).tmode .module = 3 then tripState .module m 0 else (tripState .module m 0).tripHalt .module).tmode .module = 3) ∧
    (committing.tmode .module = 4 ∧
      ((cleared.longOps.filterMap fun o => o.reply.map fun r => (o.slot, r)).foldl (fun s x => s.slotDone x.1 x.2) cleared).dutiesGo.commit ≠ none) := by
  refine ⟨by decide +kernel, by decide +kernel, by decide +kernel, ?_⟩
  rw [show (cleared.longOps.filterMap fun o => o.reply.map fun r => (o.slot, r)) = [] by decide +kernel, List.foldl_nil, dutiesGo_commit (by decide +kernel)]
  decide +kernel

/-- A home with the line 4 in a state. -/
def homeState (st : HState) (owner : Option Nat) (sharers : List Nat) : State :=
  { regsOf (demo [] []) [(.deckle, 0o100, 2 ^ 35), (.deckle, 0o300, 2 ^ 35), (.deckle, 0o400, 15 * 2 ^ 32), (.home 0, 0, 0)] with
    dir := if st = .di then [] else [(4, { dirReset with st := st, owner := owner, sharers := sharers })] }

/-- The conditions of Arrives, as one truth value. -/
def arrives (s : State) (h r l : Nat) (k : ReqKind) (cnt : Nat) (p : State → Bool) : Bool :=
  let s1 := (s.issued r l k cnt).setHome h { s.home h with ptr := (r + 1) % 40 }
  s.lineLive h l && s.regionOwner (l / 2 ^ 24) == some 0 && (s.home h).arrivals.isEmpty &&
    (s1.dirE h l).txn.isNone && (s1.dirE h l).queue.isEmpty && (s1.home h).waiting.isEmpty &&
    (!(k.allocates && (s1.dirE h l).st == .di) || (decide ((s1.dirSetEntries h l).length < 16) && !s1.reservedSet h l)) && p s1

theorem arrives_of {s : State} {h r l : Nat} {k : ReqKind} {cnt : Nat} {p : State → Bool} (H : arrives s h r l k cnt p = true) :
    ∃ s1, Arrives s h r l k cnt ask0 s1 ∧ p s1 = true := by
  simp only [arrives, Bool.and_eq_true, Option.isNone_iff_eq_none, List.isEmpty_iff, beq_iff_eq, Bool.or_eq_true, decide_eq_true_eq, Bool.not_eq_true'] at H
  obtain ⟨⟨⟨⟨⟨⟨⟨h1, h2⟩, h3⟩, h4⟩, h5⟩, h6⟩, h7⟩, hp⟩ := H
  refine ⟨_, ⟨h1, h2, ⟨rfl, by rw [h3]; rintro x ⟨⟩⟩, rfl, ⟨h4, h5⟩, by rw [h6]; rintro w ⟨⟩, fun ha hd => ?_⟩, hp⟩
  rcases h7 with h7 | ⟨h7, h8⟩
  · rw [ha, hd] at h7; cases h7
  · exact ⟨h7, h8⟩

/-- The directory holds line 4 so, and its data are at hand. -/
def atHome (st : HState) (owner : Option Nat) (s : State) : Bool :=
  (s.dirE 0 4).st == st && (s.dirE 0 4).owner == owner && (s.homeData 0 4).isSome && s.canWrite 0 4

/-- HomeRequests, coherent reads: each at each state of the line that a clause names. -/
theorem witness_homeReads :
    ∀ q ∈ [(HState.di, none, []), (.ds, none, [2]), (.dO, some 1, [2]), (.dO, some 3, [2]), (.dx, some 3, [])], ∀ k ∈ [ReqKind.getS, .getM, .getZ],
      ∃ s1, Arrives (homeState q.1 q.2.1 q.2.2) 0 1 4 k 0 ask0 s1 ∧ atHome q.1 q.2.1 s1 = true := by
  (repeat' first | exact onNone | refine onEach ?_ ?_) <;> exact arrives_of (by decide +kernel)

/-- HomeRequests, the others: PutM and PutE of the owner and of another, maintenance of a line that is held nowhere, cleanly shared, owned, or
dirty in the L3, and non-caching requests of a line unheld and owned. -/
theorem witness_homeOthers :
    (∀ q ∈ [(HState.dx, some 1), (.dO, some 1), (.dx, some 3)], ∀ k ∈ [ReqKind.putM, .putE],
      ∃ s1, Arrives (homeState q.1 q.2 []) 0 1 4 k 0 ask0 s1 ∧ atHome q.1 q.2 s1 = true) ∧
    (∀ q ∈ [(HState.di, none), (.ds, none), (.dx, some 3)], ∀ k ∈ [ReqKind.mClean, .mFlush, .mPurge], ∃ s1, Arrives (homeState q.1 q.2 []) 0 1 4 k 0 ask0 s1 ∧
      (atHome q.1 q.2 s1 && (s1.l3Line 0 4).isNone && (s1.l3Clean 0 4).isSome) = true) ∧
    (∃ s1, Arrives { homeState .di none [] with l3 := [(4, some { data := zeroLine, dirty := true })] } 0 1 4 .mFlush 0 ask0 s1 ∧
      (s1.memUp 4 && s1.l3Line 0 4 == some { data := zeroLine, dirty := true }) = true) ∧
    (∀ q ∈ [(HState.di, none), (.dx, some 3)], ∃ s1, Arrives (homeState q.1 q.2 []) 0 0o41 4 .readNC 0 ask0 s1 ∧
      (atHome q.1 q.2 s1 && ((s1.useDir 0 4).homeData 0 4).isSome) = true) ∧
    (∃ s1, Arrives (homeState .di none []) 0 0o41 4 (.writeNC 0xFFFF (Vector.replicate 16 1)) 0 ask0 s1 ∧ atHome .di none s1 = true) ∧
    (∀ dw ∈ [true, false], ∃ s1, Arrives (homeState .di none []) 0 0o41 4 (.atomNC .add dw 15 3) 0 ask0 s1 ∧
      (atHome .di none s1 && (atomValue .add 36 0 3).isSome && (atomValue .add 72 0 3).isSome) = true) := by
  refine ⟨?_, ?_, arrives_of (by decide +kernel), ?_, arrives_of (by decide +kernel), ?_⟩
  · (repeat' first | exact onNone | refine onEach ?_ ?_) <;> exact arrives_of (by decide +kernel)
  · (repeat' first | exact onNone | refine onEach ?_ ?_) <;> exact arrives_of (by decide +kernel)
  all_goals
    (repeat' first | exact onNone | refine onEach ?_ ?_) <;> exact arrives_of (by decide +kernel)

/-- A home with line 4 running a transaction for quire 1. -/
def busyState (b : BState) (needD : Bool) (acks : List Nat) (owner : Option Nat) (sharers : List Nat) : State :=
  { homeState .dx none [] with dir := [(4, { dirReset with
      st := .dx, owner := owner, sharers := sharers
      txn := some { busy := b, req := reqOf .getS 1 0 none, acks := acks, needD := needD, got := none, fwd := true } })] }

/-- HomeAnswers: Done to a line with room for a sharer and without, SData and RData of the owner, an InvAck that is awaited, an answer that
is not, and a time-out. -/
theorem witness_homeAnswers :
    (∀ sh ∈ [[], [2, 3, 4, 5]], ∀ s ∈ [busyState .bd false [] none sh], s.lineLive 0 4 = true ∧ (s.dirE 0 4).txn.map Txn.busy = some .bd ∧
      (s.dirE 0 4).txn.map (fun t => t.req.who) = some 1 ∧ (s.dirE 0 4).bc = false ∧ 1 ∉ (s.dirE 0 4).sharers) ∧
    (∀ b ∈ [BState.bs, .bc], ∀ s ∈ [busyState b true [1] (some 1) []], s.lineLive 0 4 = true ∧ (s.dirE 0 4).owner = some 1 ∧
      (s.dirE 0 4).txn.map Txn.busy = some b ∧ (s.dirE 0 4).txn.map Txn.needD = some true ∧ (s.dirE 0 4).txn.map Txn.acks = some [1]) ∧
    ((homeState .dx (some 3) []).lineLive 0 4 = true ∧ ((homeState .dx (some 3) []).dirE 0 4).txn = none) := by decide +kernel

/-- Quire 1 with line 4 in a state, with InvAcks counted and a request open. -/
def lineState (st : QState) (acks : Nat) (expect : Option Nat) (req : Option ReqKind) (retried : Bool) : State :=
  { regsOf (demo [] []) [(.qpwr 1, 1, 0), (.deckle, 0o100, 2 ^ 35), (.deckle, 0o300, 2 ^ 35), (.deckle, 0o400, 15 * 2 ^ 32)] with
    qlines := [(2 ^ 34 + 4, { qlOf st (lineOf [7]) with acks := acks, expect := expect, req := req, retried := retried })] }

/-- QuireAnswers: every state of the line that a clause names, counts of InvAcks awaited, a set with a way, requests open, retried and not,
and those without a line state. -/
theorem witness_quireAnswers :
    (∀ st ∈ [QState.m, .o, .e, .s, .i, .isD, .imAD, .smAD, .omAD, .imA, .miA, .eiA, .iiA], ∀ s ∈ [lineState st 1 (some 2) (some .getM) false],
      s.quireLive 1 4 = true ∧ s.alive = true ∧ s.rbit (.qpwr 1) 1 14 = false ∧ (s.wayFor 1 4).isSome = true ∧ (s.qline 1 4).st = st ∧
        (s.qline 1 4).acks = 1 ∧ (s.qline 1 4).expect = some ((s.qline 1 4).acks + 1) ∧ (s.qline 1 4).req = some .getM) ∧
    (lineState .e 0 none none false).qline 1 4 = { qlOf .e (lineOf [7]) with acks := 0 } ∧
    (∀ r ∈ [true, false], ∀ s ∈ [lineState .m 0 none (some .putM) r], (s.qline 1 4).req = some .putM ∧ (s.qline 1 4).retried = r ∧ (s.qline 1 4).count < 63) ∧
    (∀ k ∈ [ReqKind.mClean, .mFlush, .mPurge], k.maint = true) ∧ ReqKind.readNC.nonCaching = true ∧
      (ReqKind.writeNC 1 (Vector.replicate 16 0)).nonCaching = true ∧ ReqKind.writeNC 1 (Vector.replicate 16 0) ≠ .readNC := by
  refine ⟨?_, by decide +kernel, by decide +kernel, by decide, by decide, by decide, by simp⟩
  (repeat' first | exact onNone | refine onEach ?_ ?_) <;> decide +kernel

/-- An L1I with an enable and DRAINING, in a state where nothing waits for a disable. -/
def l1iState (v : Nat) : State := regsOf base [(.core 0, 0o220, v)]

/-- CacheEvents, the L1s: a dirty line with a residency limit, an L1I on, off and draining, with each answer to a write of its enable. -/
theorem witness_l1Events :
    (∀ s ∈ [({ regsOf base [(.core 0, 0o220, 2 ^ 26)] with qlines := [(4, { qlOf .m (lineOf []) with l1dirty := some 0 })] } : State)],
      s.fld (.core 0) 0o220 6 9 ≠ 0 ∧ (s.qline 0 4).l1dirty = some 0 ∧ (s.core 0).cstate = .active ∧ (s.core 0).sheet = some 0 ∧ (s.sheet 0).checkstop = false) ∧
    (∀ v ∈ [0, 2 ^ 35, 2 ^ 33], (l1iState v).rbit (.core 0) 0o220 0 = decide (v = 2 ^ 35) ∧ (l1iState v).rbit (.core 0) 0o220 2 = decide (v = 2 ^ 33) ∧
      (l1iState v).draining (.l1i 0) = decide (v = 2 ^ 33) ∧ (l1iState v).cacheOn (.l1i 0) = decide (v = 2 ^ 35) ∧ (l1iState v).heldEn = [] ∧
      dbit (setField ((l1iState v).reg (enableAt (.l1i 0)).1 (enableAt (.l1i 0)).2.1) (enableAt (.l1i 0)).2.2 (enableAt (.l1i 0)).2.2 1)
        (enableAt (.l1i 0)).2.2 = true) ∧
    (regsOf base [(.core 0, 0o220, 2 ^ 34)]).rbit (.core 0) 0o220 1 = true := by decide +kernel

/-- An L2 that drains. -/
def drainState : State := (demo [] []).setReg (.l2 0) 0 (w36 (2 ^ 34))

/-- A wake of an L2 leaves its retention bit 0. -/
theorem rbit_clear (x : Word) : (field (setField x 14 14 0) 14 14 == 1) = false := by
  have h := Nat.and_div_two_pow (a := x.toNat) (b := 68717379583) (n := 21)
  simp only [Nat.reducePow] at h
  simp [field, setField, BitVec.toNat_and, h]

/-- CacheEvents, the L2: on, draining with and without lines, and a wake asked for by nobody. -/
theorem witness_l2Events :
    base.rbit (.l2 0) 0 0 = true ∧ drainState.rbit (.l2 0) 0 1 = true ∧ drainState.qlines.all (fun y => y.2.st == .m) = true ∧ drainState.qlines.length = 1 ∧
    ({ drainState with qlines := [] } : State).heldEn = [] ∧ base.stepOpen (.quireWake 0) = false ∧ (base.setFld (.qpwr 0) 1 14 14 0).rbit (.qpwr 0) 1 14 = false := by
  refine ⟨by decide +kernel, by decide +kernel, by decide +kernel, by decide +kernel, rfl, by decide +kernel, ?_⟩
  rw [State.rbit, State.fld, State.setFld, State.reg_setReg]
  exact rbit_clear _

/-- CacheEvents, the Web: a port that is up, whose loss leaves every pair of tiles a path. -/
theorem witness_webPort :
    webPort 0 1 ∉ base.webDown ∧
      ∀ x < 8, ∀ y < 8, x < y → (({ base with webDown := [webPort 0 1, webPort 1 0] } : State).fault (.web 0 0) 0 1).tilePath x y = true := by
  refine ⟨by decide +kernel, ?_⟩
  decide +kernel

/-- CodewordCorrectsTwoErrors at the greatest data: bits 0 and 78 inverted, and PAR alone. -/
theorem test_codeword :
    cwDecode (cwFlip (cwFlip (cwEncode (2 ^ 64 - 1) true false) 0) 78) = .good (cwEncode (2 ^ 64 - 1) true false) true ∧
    cwDecode (cwFlip (cwEncode 0 false false) 79) = .good (cwEncode 0 false false) true ∧ cwDecode (cwEncode 5 true true) = .poison := by
  decide +kernel

/-- A read of stack line 4 that returns line `f`, with bits of its codewords in error. -/
def rawOf (f : Nat) (e : List Nat) : RawRead := { from_ := Fin.ofNat _ f, errs := Vector.ofFn fun (i : Fin 9) => BitVec.ofNat 80 (e.getD i.val 0) }

/-- Controller 0 with lines 4 and 5 written, and 6 poisoned. -/
def memState : State := { base with dram := [(4, lineOf [1, 2]), (5, lineOf [3]), (6, poisonLine)] }

/-- LineCodewords and MemoryReads: a good line, one corrected, one uncorrectable, poisoned ones, with an uncorrectable codeword and without,
one read in place of another, a line that is not patrolled, and the patrol at a line. -/
theorem witness_memoryReads :
    memState.alive = true ∧ memState.memUp 4 = true ∧ memState.memUp 6 = true ∧
    lineDecode 4 (memState.rawLine 0 (rawOf 4 [])) = .ok (lineOf [1, 2]) 0 ∧
    lineDecode 4 (memState.rawLine 0 (rawOf 4 [6])) = .ok (lineOf [1, 2]) 1 ∧
    lineDecode 4 (memState.rawLine 0 (rawOf 4 [7])) = .bad ∧ lineDecode 6 (memState.rawLine 0 (rawOf 6 [])) = .poison false ∧
    lineDecode 6 (memState.rawLine 0 (rawOf 6 [0, 7])) = .poison true ∧
    (match lineDecode 4 (memState.rawLine 0 (rawOf 5 [])) with | .misdir _ => true | _ => false) = true ∧
    foldOf 4 ≠ foldOf 5 ∧ poisonLine.poison = true ∧ (lineOf [1, 2]).poison = false ∧ (memState.mc 0).patrol = [] ∧
    (∀ s ∈ [regsOf memState [(.memc 0, 1, 2 ^ 35 + 4)]],
      s.acts (stackDuty 0) = true ∧ s.rbit (.memc 0) 1 0 = true ∧ s.fld (.memc 0) 1 6 35 = 4 ∧
        lineDecode 4 ((s.setFld (.memc 0) 1 6 35 5).rawLine 0 (rawOf 4 [])) = .ok (lineOf [1, 2]) 0) := by
  decide +kernel

/-- MemoryUpkeep: a patrolled line, a region to poison, a row that is copied, a migration that may start, runs or is on another die. -/
theorem witness_memoryUpkeep :
    base.acts (stackDuty 0) = true ∧
    (∀ newer ∈ [true, false], (({ base with memctl := [(0, { memctlReset with patrol := [(4, newer)] })] } : State).mc 0).patrol.find? (·.1 == 4) = some (4, newer)) ∧
    (∀ s ∈ [({ base with memctl := [(0, { memctlReset with defer := [3] })] } : State)], .memc 0 ∉ s.inReset ∧ (s.mc 0).defer = [3] ∧ 3 ∉ s.poisoned) ∧
    (∀ a < 64, ∀ b < 64, base.rbit .rst (0o10000 + 2 * (64 * a + b)) 0 = false) ∧
    (2 ^ 20 + 2 ^ 15 + 7 ∈ (({ base with memctl := [(0, { memctlReset with copying := [2 ^ 20 + 2 ^ 15 + 7] })] } : State).mc 0).copying) ∧
    (regsOf base [(.stack 0, 0, 0)]).fld (.stack 0) 0 0 1 = 0 ∧
    (∀ s ∈ [regsOf base [(.stack 0, 0, 2 ^ 34 + 3 * 2 ^ 30), (.stack 0, 1, 2 ^ 34)]],
      s.rbit (.stack 0) 1 1 = true ∧ (7 : Fin 32).val / 2 = s.fld (.stack 0) 0 2 5 ∧ (8 : Fin 32).val / 2 ≠ s.fld (.stack 0) 0 2 5) := by
  decide +kernel

/-- THROTTLE of controller 0 after its stack's temperature sample. -/
theorem throttle_sample {x : State} {v : Word} (h : x.reg (.memc 0) 0 = v) (temp b : Nat) :
    ((x.setFld (.stack 0) 0 6 14 temp).setFld (.memc 0) 0 3 3 b).rbit (.memc 0) 0 2 = (field (setField v 3 3 b) 2 2 == 1) := by
  have hr : (x.setFld (.stack 0) 0 6 14 temp).reg (.memc 0) 0 = v := by
    rw [State.setFld, State.reg, State.setReg, Tab.get_set_ne _ _ _ (by decide +kernel)]
    exact h
  rw [State.rbit, State.fld, State.setFld, State.reg_setReg, hr]

/-- MemoryUpkeep, a temperature sample: a controller that does not throttle, above 85 and above 90 °C, and one that does, below 84. -/
theorem witness_stackTempSample (temp : Nat) :
    (((regsOf base [(.memc 0, 0, 0)]).setFld (.stack 0) 0 6 14 temp).setFld (.memc 0) 0 3 3 1).rbit (.memc 0) 0 2 = false ∧
    (((regsOf base [(.memc 0, 0, 2 ^ 33)]).setFld (.stack 0) 0 6 14 temp).setFld (.memc 0) 0 3 3 0).rbit (.memc 0) 0 2 = true ∧
    (((regsOf base [(.memc 0, 0, 2 ^ 33)]).setFld (.stack 0) 0 6 14 temp).setFld (.memc 0) 0 3 3 0).steps = [] ∧
    (((regsOf base [(.memc 0, 0, 2 ^ 33)]).setFld (.stack 0) 0 6 14 temp).setFld (.memc 0) 0 3 3 0).granted = none := by
  refine ⟨(throttle_sample (v := 0) (by decide +kernel) temp 1).trans (by decide +kernel),
    (throttle_sample (v := w36 (2 ^ 33)) (by decide +kernel) temp 0).trans (by decide +kernel), ?_, ?_⟩ <;>
  · rw [State.setFld, State.setFld]; rfl

/-- A state of an Easel of tile 0 that has one bank awake and one asleep, with an access that waits for it. -/
def easelState : State := { regsOf base [(.easel 0, 0, 2 ^ 33)] with easelWait := [(2, [⟨3, 2, some 5⟩])] }

/-- EaselCommands: banks awake and asleep, port B's access to the same dual-ported word, accesses of the triptych and of a core, and one that
waits, with none elsewhere. -/
theorem witness_easel :
    (∀ r ∈ [(⟨9, 32, some 5⟩ : EaselReq), ⟨9, 32, none⟩, ⟨3, 32, none⟩], ∀ p ∈ [(⟨32, some 6⟩ : EaselPortB), ⟨32, none⟩],
      p.addr = r.addr ∧ r.addr.val % 32 = 0 ∧ r.addr.val / 32 < 65536 ∧ base.retained 0 0 = false) ∧
    (⟨9, 33, none⟩ : EaselReq).addr.val % 32 = 1 ∧ easelState.retained 0 1 = false ∧ easelState.retained 0 2 = true ∧
    (∀ b < 32, Tab.get (fun _ => []) base.easelWait (0 * 32 + b) = []) ∧
    Tab.get (fun _ => []) easelState.easelWait (0 * 32 + 2) = [⟨3, 2, some 5⟩] := by decide +kernel

/-- Subchannel 5 of sheet 0 in a STATE, served by vat 0 with journal entry 0, with its control block's and journal entry's words, the
exchange's working registers, the first line of its ring, and data at word 0o100 whose fifth nonet is no octet. -/
def xchState (st : Nat) (cb j : List (Nat × Nat)) (x : Xch) (ring : List Nat) : State :=
  let s : State := { regsOf (homeState .di none []) [(.deckle, subAt 5, 2 ^ 35)] with
    qlines := [], dram := [(0, lineOf ring), (4, lineOf [5, 2 ^ 35])], xch := [(5, x)] }
  let s1 := (s.setEasel 0 (cbAt 0 0) (w36 (st * 2 ^ 32 + 2 ^ 31))).setEasel 0 (jAt 0 0 0) (w36 (2 ^ 35 + 5 * 2 ^ 17));
  let s2 := cb.foldl (fun s w => s.setEasel 0 (cbAt 0 w.1) (w36 w.2)) s1;
  j.foldl (fun s w => s.setEasel 0 (jAt 0 0 w.1) (w36 w.2)) s2

/-- What a unit's action ends in. -/
def endsIn {α : Type} (f : U α) (s : State) (p : Except UErr α → State → Bool) : Bool :=
  match f.run s with | some (r, t) => p r t | none => false

theorem endsIn_run {α : Type} {f : U α} {s : State} {p : Except UErr α → State → Bool} (h : endsIn f s p = true) :
    ∃ r t, f.run s = some (r, t) ∧ p r t = true := by
  unfold endsIn at h
  split at h
  · rename_i r t he
    exact ⟨r, t, he, h⟩
  · cases h

/-- A packet that waits for 9 octets at word 0o100. -/
def pkt9 (link : Nat) : Pkt := { idx := 0, count := 9, link := link, lenok := false, data := 0o100, pages := [{ tile := 0, sheet := 0, va := 0o100, sa := 0o100, mp := 0o100, leafAt := none }] }

/-- The header of a message for subchannel 5 on link 0 of group A of tile 0. -/
def hdr5 : FeltHdr := { link := ⟨0, 0, 0⟩, xid := 5, gen := 0, cseq := 0 }

/-- A READ or a WRITE of octets that has been sent on path 0. -/
def sent9 (op : Nat) : Xch :=
  { xchReset with packets := [pkt9 0], head := w36 (op * 2 ^ 30 + 2 ^ 15), sent := true, path := some 0, left := true, queried := true, ready := true }

/-- A waiting subchannel finds a slot: the first, or the second. -/
theorem witness_slotGrant : ∀ q ∈ [(0, 0), (2 ^ 35, 1)],
    ∀ s ∈ [({ xchState 1 [] [(0, q.1)] xchReset [] with vatWait := [(0, [5])] } : State)],
    s.alive = true ∧ .vat 0 ∉ s.inReset ∧ Tab.get (fun _ => []) s.vatWait 0 = 5 :: [] ∧
      (List.range 1024).find? (fun x => !dbit (s.jw 0 x 0) 0) = some q.2 := by decide +kernel

/-- A packet with a reserved OP, one with HOLD for an exchange that may be held, a READ whose command is to be sent, and a WRITE whose data
have a format error, as the first packet of its command and as a further one. -/
theorem witness_packetFetch :
    (∃ r t, (fetchNext 5).run (xchState 2 [] [] xchReset [0]) = some (r, t) ∧ (match r with | .error _ => true | _ => false) = true) ∧
    (∃ r t, (fetchNext 5).run (xchState 2 [(0, 2 * 2 ^ 32 + 2 ^ 31 + 2 ^ 30)] [] xchReset [2 ^ 30 + 2 ^ 18, 9, 0, 0o100]) = some (r, t) ∧
      (match r with | .ok .suspend => true | _ => false) = true) ∧
    (∃ r t, (fetchNext 5).run (xchState 2 [] [] xchReset [2 ^ 30, 9, 0, 0o100]) = some (r, t) ∧
      ((match r with | .ok (.added _ none) => true | _ => false) && !(t.xc 5).sent && (t.xc 5).isIn) = true) ∧
    (∃ r t, (fetchNext 5).run (xchState 2 [] [] xchReset [2 ^ 31 + 2 ^ 15, 8, 0, 0o100]) = some (r, t) ∧
      ((match r with | .ok (.added d (some _)) => d.length == 4 | _ => false) && !(t.xc 5).sent && (t.xc 5).xf == 0) = true) ∧
    (∃ r t, (fetchNext 5).run (xchState 2 [] [] { sent9 2 with packets := [pkt9 2], next := 1 } [0, 0, 0, 0, 0, 0, 0, 0, 0, 8, 0, 0o100]) = some (r, t) ∧
      ((match r with | .ok (.added d (some _)) => d.length == 4 | _ => false) && (t.xc 5).sent && (t.xc 5).path == some 0 && (t.xc 5).xf == 0) = true) ∧
    (xchState 2 [] [] xchReset []).mayFetch 5 = true ∧ (xchState 2 [] [] { sent9 2 with packets := [pkt9 2], next := 1 } []).mayFetch 5 = true ∧
      (xchState 2 [] [] xchReset []).alive = true :=
  ⟨endsIn_run (by decide +kernel), endsIn_run (by decide +kernel), endsIn_run (by decide +kernel), endsIn_run (by decide +kernel),
    endsIn_run (by decide +kernel), by decide +kernel, by decide +kernel, by decide +kernel⟩

/-- ExchangeEvents, the partner's messages: an acknowledgement of a WRITE that goes on and that is the last, of one that has failed, of an
abandoned one, the last data of a READ, and the record of a halted exchange. -/
theorem witness_exchangeMessages :
    (∀ link ∈ [0, 1], ∀ s ∈ [xchState 2 [(8, 2 ^ 24)] [] { sent9 2 with packets := [pkt9 link] } []],
      s.alive = true ∧ s.openFor hdr5 [2, 4, 5] = true ∧ s.subSt 5 = 2 ∧ (s.xc 5).err = none ∧ (s.xc 5).xf = 0 ∧ (s.xc 5).op ≠ 4 ∧
        (s.xc 5).packets.getLast? = some (pkt9 link)) ∧
    (∀ s ∈ [xchState 2 [(8, 2 ^ 24)] [] { sent9 2 with err := some 5 } []], s.openFor hdr5 [2, 4, 5] = true ∧ (s.xc 5).err = some 5) ∧
    (∀ st ∈ [4, 5], ∀ s ∈ [xchState st [(8, 2 ^ 24)] [] (sent9 2) []], s.openFor hdr5 [2, 4, 5] = true ∧ s.subSt 5 ≠ 2 ∧ (s.xc 5).xf = 0) ∧
    (∀ s ∈ [xchState 2 [(8, 2 ^ 24)] [] (sent9 1) []],
      s.openFor hdr5 [2, 4] = true ∧ (s.xc 5).isIn = true ∧ (s.xc 5).err = none ∧ (s.xc 5).xf = 0 ∧
        endsIn (fetchRoom 4096 5 9) s (fun r s1 => (match r with | .ok () => true | _ => false) &&
          endsIn (fillPackets (s1.xc 5) (List.replicate 9 7) 0 true) (s1.setXc 5 { s1.xc 5 with inb := List.replicate 9 7, moved := 9 })
            fun r _ => match r with | .ok () => true | _ => false) = true) ∧
    (∀ st ∈ [4, 5], ∀ s ∈ [xchState st [] [] (sent9 2) []],
      s.subV 5 = true ∧ s.subSt 5 = st ∧ (s.xc 5).queried = true ∧ s.subGen 5 = hdr5.gen.val) := by decide +kernel

/-- ExchangeEvents, timers and moves: a sent exchange, with an error to end with and without; one that waits for a path, sent before and not;
one that is halted, with a path to ask on and without; an idle one to move; and a link. -/
theorem witness_exchangeTimers :
    (∀ e ∈ [none, some 5], ∀ s ∈ [xchState 2 [] [] { sent9 2 with err := e } []],
      s.subSt 5 = 2 ∧ (s.xc 5).sent = true ∧ s.subV 5 = true ∧ (s.xc 5).path = some 0 ∧ (s.xc 5).err = e) ∧
    (∀ st ∈ [4, 5, 6], ∀ s ∈ [xchState st [] [] xchReset []], s.subSt 5 = st ∧ s.pathChoice 5 = none) ∧
    (∀ ph ∈ [0, 1], ∀ s ∈ [xchState 2 [] [(0, 2 ^ 35 + ph * 2 ^ 33 + 5 * 2 ^ 17)] { xchReset with ready := true } []],
      s.pathChoice 5 = none ∧ s.subSt 5 = 2 ∧ (s.xc 5).ready = true ∧ (s.xc 5).path = none ∧ s.phaseOf 5 = ph) ∧
    (∀ s ∈ [xchState 4 [(7, 2 ^ 10), (8, 2 ^ 24 + 2 ^ 27)] [] { sent9 2 with queried := false } []],
      s.pathChoice 5 = some 0 ∧ 2 ≤ s.pathVer 5 0 ∧ (s.xc 5).queried = false ∧ (s.xc 5).path = some 0 ∧ (s.xc 5).sent = true) ∧
    (∀ st ∈ [0, 3], ∀ s ∈ [({ xchState st [] [] xchReset [] with moves := [(5, 0, 0)] } : State)],
      s.moves = [] ++ (5, 0, 0) :: [] ∧ s.subSt 5 = st) := by decide +kernel

/-- A link of one lane that is the first of a group of tile 0, in a state, with some registers set, and its transmitter and receiver. -/
def linkWith (g st : Nat) (rs : List (Blk × Nat × Nat)) (k : Link) : State :=
  { regsOf base ((.linkgrp 0 (Fin.ofNat 3 g), 0, 2 ^ 25) :: (.linkgrp 0 (Fin.ofNat 3 g), 0o60, st * 2 ^ 32 + 2 ^ 28) :: rs) with
    bEff := [(regKey (.linkgrp 0 (Fin.ofNat 3 g)) 0, 0)], links := [(8 * g, k)] }

/-- A link of two lanes. -/
def linkPair (k : Link) : State :=
  { (linkWith 0 5 [] k).setReg (.linkgrp 0 0) 0o60 (w36 (5 * 2 ^ 32 + 2 * 2 ^ 28)) with bEff := [(regKey (.linkgrp 0 0) 0, w36 (2 ^ 32))] }

/-- A received flit with SEQ 0. -/
def flit0 (type : Nat) : FlitHdr := { type := Fin.ofNat 16 type, vc := 3, seq := 0, ack := 1023, nak := false, cvc := 0, cred := 0 }

/-- LinkEvents, flits: an active link on whose lane the next flit is due, with credits left and with one unacknowledged flit less than 32, and
one of two lanes whose other lane it is, with nothing held; the headers of each type; and a replay buffer at the seventh and eighth replay. -/
theorem witness_linkFlits :
    (∀ u ∈ [0, 30], ∀ s ∈ [linkWith 0 5 [] { linkReset with unacked := u }],
      s.alive = true ∧ s.isLink 0 = true ∧ s.lstate 0 = 5 ∧ (s.lnk 0).rxNext = (flit0 1).seq.val ∧ vget (s.lnk 0).rxCred 3 0 ≠ 0 ∧
        (s.lnk 0).unacked + 1 < 32 ∧ 0 < s.lwidth 0 ∧ 0 = (s.lnk 0).rxFlit % s.lwidth 0 ∧ (s.lnk 0).rxHeld = []) ∧
    (∀ s ∈ [linkPair linkReset], s.isLink 0 = true ∧ s.lstate 0 = 5 ∧ s.lwidth 0 = 2 ∧ 1 ≠ (s.lnk 0).rxFlit % s.lwidth 0 ∧ (s.lnk 0).rxHeld = []) ∧
    (∀ r ∈ [7, 8], ∀ s ∈ [linkWith 1 5 [] { linkReset with txSeq := 1, replays := r, unacked := 1 }],
      s.isLink 8 = true ∧ (s.lnk 8).inFlight ≠ 0 ∧ (s.lnk 8).unacked ≠ 0 ∧ (s.lnk 8).replays = r) ∧
    (∀ y ∈ [2, 5], 2 ≤ (flit0 y).type.val ∧ (flit0 y).type.val ≤ 5 ∧ (flit0 y).nak = false) ∧ (flit0 0).type.val = 0 ∧
    5 < (flit0 6).type.val := by decide +kernel

/-- A link that may sleep, its partner asking to or not. -/
def sleepy (req : Bool) (st : Nat) : State :=
  let s := linkWith 0 st [(.linkgrp 0 0, 0o40, 2 ^ 32), (.linkgrp 0 0, 0o103, 2 ^ 35)] { linkReset with sleepReq := req };
  s.setReg (.linkgrp 0 0) 0o60 (w36 (st * 2 ^ 32 + 3 * 2 ^ 24))

/-- LinkEvents, the link itself: each LSTATE, a partner's IDENTIFY, a link that may sleep, lanes lost, and EN written. -/
theorem witness_linkStates :
    ((linkWith 0 4 [] linkReset).lstate 0 = 4 ∧ field (w36 (2 ^ 27 + 2 ^ 21)) 0 8 = 1 ∧ laneGroup 0 ≠ 2) ∧
    (∀ st ∈ [1, 2, 3, 4, 5, 6], ∀ s ∈ [linkWith 2 st [] linkReset], s.isLink 16 = true ∧ s.lstate 16 = st ∧ (s.lnk 16).rate < 2 ∧ s.acts (.tile 0) = true) ∧
    (linkWith 2 2 [(.linkgrp 0 2, 0o40, 3 * 2 ^ 34)] linkReset).fld (.linkgrp 0 2) 0o40 0 1 = 3 ∧
    (∀ req ∈ [true, false], ∀ s ∈ [sleepy req 5], s.maySleep 0 = true ∧ s.quietEnd 0 = true ∧ (s.lnk 0).sleepReq = req ∧ s.linkUp 0 = true ∧ s.lver 0 = 3 ∧
      (s.setLnk 0 { s.lnk 0 with rxFlit := (s.lnk 0).rxFlit + 1 }).maySleep 0 = true) ∧
    (∀ s ∈ [linkWith 1 5 [(.linkgrp 0 1, 0o40, 0)] linkReset], (∀ a ∈ s.laneBlock 8, a.1 ≤ 0 ∧ 0 < a.1 + a.2) ∧ (s.laneBlock 8).isSome = true ∧
      s.rbit (.linkgrp 0 1) 0o40 4 = false) ∧
    (linkWith 0 1 [] linkReset).isRootPort 0 0 = false ∧
    (∀ s ∈ [(linkWith 0 0 [] linkReset).setFld (.linkgrp 0 0) 0o40 2 2 1],
      s.isLink 0 = true ∧ s.lstate 0 = 0 ∧ s.rbit (.linkgrp 0 0) 0o40 2 = true ∧ .linkgrp 0 0 ∉ s.inReset) := by decide +kernel

/-- The first link of group C, up with a partner of version 3, its inbound window 0 on 64 words of sheet 0, and record table 0. -/
def groupC (rec0 : Nat) : State :=
  { regsOf (homeState .di none []) [(.linkgrp 0 2, 0, 2 ^ 25), (.linkgrp 0 2, 0o60, 5 * 2 ^ 32 + 3 * 2 ^ 24),
      (.linkgrp 0 2, 0o1000, 2 ^ 35), (.linkgrp 0 2, 0o1001, 0), (.linkgrp 0 2, 0o1002, 64)] with
    bEff := [(regKey (.linkgrp 0 2) 0, 0)], recTabs := [(0, some (0, 1, some 2))], links := [(16, linkReset)]
    qlines := [], dram := [], easel := [(recBase 0 + 5, w36 rec0)] }

/-- The header of a request for that link. -/
def hdrC (g : Fin 3) : FeltHdr := { link := ⟨0, g, 0⟩, xid := 5, gen := 0, cseq := 3 }

/-- A WWRITE of two words, 16 words into its window. -/
def wwrite2 : List Octet := [0, 0, 0, 0, 16, 0, 0, 0, 1, 0, 0, 0, 0, 16, 0, 0, 0, 1]

/-- RecipientRows: a link of another group, a request not seen, one seen, a WWRITE of two words with its line free, and a SENSE. -/
theorem witness_recipient :
    (∀ s ∈ [linkWith 1 5 [] linkReset], s.alive = true ∧ s.reqUp { hdr5 with link := ⟨0, 1, 0⟩ } = true ∧ s.recipient { hdr5 with link := ⟨0, 1, 0⟩ } = false) ∧
    (∀ s ∈ [groupC 0],
      s.alive = true ∧ s.reqUp (hdrC 2) = true ∧ s.recipient (hdrC 2) = true ∧ s.seen (hdrC 2) = .act ∧
        (s.winWrite (hdrC 2) 0 (unpack wwrite2) false).any (fun x => x.1 == 0 && x.2.1 == 0) = true ∧
        s.recOf (s.lnk (linkNo (hdrC 2).link)).serial = some 0 ∧ Tab.get (fun _ => none) s.recTabs 0 = some (0, 1, some 2)) ∧
    (groupC (3 * 2 ^ 4 + 9)).seen (hdrC 2) = .again 9 := by decide +kernel

/-- Root port 0 of tile 0 with some registers set. -/
def rootState (rs : List (Blk × Nat × Nat)) : State := { regsOf base rs with bEff := [(regKey (.linkgrp 0 0) 0, w36 (2 ^ 34))] }

/-- A configuration request with GO has been written to a root port with a CONTAINMENT register. -/
def configWritten (c : Nat) : State := (rootState [(.rootp 0 0, 2, c)]).setReg (.rootp 0 0) 3 (w36 (2 ^ 35 + 5) &&& maskOf 1 31)

/-- A root port has taken a containment for a cause. -/
def containing (cause : Nat) : State := (((rootState []).setFld (.rootp 0 0) 2 0 0 1).setFld (.rootp 0 0) 2 1 4 cause).setFld (.rootp 0 0) 1 0 2 4

/-- RootPortRows: configuration requests that GO, do not, are outstanding and are contained; an inbound request; containment and release. -/
theorem witness_rootPort :
    (dbit (w36 5) 0 = false ∧ dbit (w36 (2 ^ 35 + 5)) 0 = true) ∧
    (∀ c ∈ [(0, false), (2 ^ 35, true)], ∀ s ∈ [configWritten c.1], s.rbit (.rootp 0 0) 4 0 = false ∧ s.contained 0 0 = c.2) ∧
    ((rootState [(.rootp 0 0, 4, 2 ^ 35)]).rbit (.rootp 0 0) 4 0 = true ∧ (rootState []).alive = true) ∧
    (∀ s ∈ [rootState [(.rootp 0 0, 1, 3 * 2 ^ 33)]],
      s.rpUp 0 0 = true ∧ ∀ k < 64, ¬ (s.rbit (.rootp 0 0) (0o100 + k) 0 = true ∧ s.fld (.rootp 0 0) (0o100 + k) 20 35 = 7)) ∧
    ((rootState []).isRootPort 0 0 = true ∧ (rootState []).contained 0 0 = false ∧ ∀ cause ∈ [1, 2, 4], (containing cause).rbit (.rootp 0 0) 4 0 = false) ∧
    (∀ s ∈ [({ rootState [(.rootp 0 0, 2, 2 ^ 35)] with relHeld := [0] } : State)], s.contained 0 0 = true ∧ 2 * 0 + 0 ∈ s.relHeld) ∧
    (∀ en ∈ [0, 1], ∀ s ∈ [(rootState []).setFld (.rootp 0 0) 0 0 0 en], s.isRootPort 0 0 = true ∧ s.contained 0 0 = false) := by decide +kernel

/-- A Calender job of sheet 0 that resumes at a state area whose address is in no page, and a Varnish job with a handle of no key. -/
def badCal : CalJob :=
  { block := 0, words := vset (vset (Vector.replicate 12 0) 0 (w36 (2 ^ 12))) 11 (w36 (2 ^ 35)), expand := false,
    ctx := { tile := 0, sheet := 0, dat := false, prob := false, org := 0, asn := 0 }, running := false, console := none, result := none }

def badVar (key : Bool) : VarJob :=
  { block := 0, words := vset (Vector.replicate 12 0) 0 (w36 (3 * 2 ^ 33)), key := key, slot := none, ctx := badCal.ctx, running := false, result := none }

/-- The engines of tile 0 with one queue each. -/
def engines (calSealed : Nat) (c : List CalJob) (v : List VarJob) : State :=
  { regsOf (homeState .di none []) [(.cal 0, 0, calSealed), (.cal 0, 0o20, 2 ^ 35), (.cal 0, 0o100, 2 ^ 35), (.var 0, 0, calSealed),
      (.var 0, 0o20, 2 ^ 35), (.var 0, 0o100, 2 ^ 35)] with calq := [(0, c)], varq := [(0, v)], qlines := [], dram := [] }

/-- The free pick among one. -/
theorem pick_one {x : Nat} {q : List Nat} (h : q = [0]) : q[x % q.length]? = some 0 := by subst h; simp [Nat.mod_one]

/-- What Varnish runs for a job of no key. -/
def varRun (key : Bool) : U (Nat × Nat) := if (badVar key).key then xkeyRun 0 (badVar key) else cipRun 0 (badVar key)

/-- EngineEvents, starting: the one ready queue's job runs, one that has run before continues. -/
theorem witness_engineStarts :
    (∀ s ∈ [engines 0 [badCal] []], s.calReady 0 = [0] ∧ .cal 0 ∉ s.inReset ∧ s.calRunning 0 < 4 ∧ s.alive = true ∧ s.acts (.tile 0) = true ∧
      (s.calQueue 0 0).findIdx? (fun y => !y.running) = some 0 ∧ (s.calQueue 0 0)[0]? = some badCal) ∧
    (∃ r t, (calRun 0 badCal).run ((engines 0 [badCal] []).free 36).2 = some (r, t) ∧ (match r with | .ok _ => true | _ => false) = true) ∧
    (engines 0 [{ badCal with result := some (Vector.replicate 4 0) }] []).calReady 0 = [0] ∧
    (∀ key ∈ [false, true], (engines 0 [] [badVar key]).varReady 0 = [0] ∧ (engines 0 [] [badVar key]).varRunning 0 < 8 ∧ .var 0 ∉ base.inReset ∧
      ((engines 0 [] [badVar key]).varQueue 0 0).findIdx? (fun y => !y.running) = some 0) ∧
    (∀ key ∈ [false, true], ∃ r t, (varRun key).run ((engines 0 [] [badVar key]).free 36).2 = some (r, t) ∧ (match r with | .ok _ => true | _ => false) = true) := by
  refine ⟨by decide +kernel, endsIn_run (by decide +kernel), by decide +kernel, by decide +kernel, ?_⟩
  (repeat' first | exact onNone | refine onEach ?_ ?_) <;> exact endsIn_run (by decide +kernel)

/-- EngineEvents, ending and slots: jobs that have run, a key operation with its slot, and engines that are SEALED with a slot for sheet 0. -/
theorem witness_engineEnds :
    (∀ s ∈ [engines 0 [{ badCal with running := true, result := some (Vector.replicate 4 0) }] [{ badVar true with running := true, result := some (0, 0), slot := some 3 }]],
      (s.writeStatus false 0 0 0 13 [0, 0, 0] 0 12).isSome = true ∧ (s.writeStatus true 0 0 0 15 [0] 0 14).isSome = true ∧
      (s.writeStatus true 0 0 0 7 [0] 0 6).isSome = true ∧ (s.calQueue 0 0).length = 1 ∧ ((s.varQueue 0 0).all fun j => j.slot == some 3) = true) ∧
    (∀ s ∈ [engines (2 ^ 35) [badCal] []],
      s.rbit (.cal 0) 0 0 = true ∧ (∀ sh < 64, ∀ j ∈ s.calQueue 0 sh, j.running = false) ∧ s.rbit (.cal 0) 0o20 0 = true ∧
        s.rbit (.var 0) 0 0 = true ∧ (∀ sh < 64, s.varQueue 0 sh = []) ∧ s.rbit (.var 0) 0o20 0 = true) := by decide +kernel

/-- The endpoint with both functions enabled, queue 0 of PF1 bound to sheet 0 and enabled, and some registers set. -/
def hostState (ready : Bool) (cfg bar : List (Nat × Nat)) (rs : List (Blk × Nat × Nat)) : State :=
  let s := regsOf (homeState .di none []) ([(.endpt, 0o1000, 2 ^ 35 + 2 ^ 25), (.endpt, 0o1001, 0)] ++ rs)
  { s with
    endpt := { s.endpt with perst := false, ready := ready }, qlines := [], dram := []
    pcicfg := (cfg ++ [(1, 6), (0x11, 0), (1024 + 1, 6), (1024 + 0x11, 0)]).foldl (fun t (x : Nat × Nat) => Tab.insert x.1 (BitVec.ofNat 32 x.2) t) s.pcicfg
    bar0 := bar.foldl (fun t (x : Nat × Nat) => Tab.insert x.1 (BitVec.ofNat 32 x.2) t) s.bar0 }

/-- HostLinkEvents: configuration served and retried, memory served, Bus Master Enable on, the link's power states, and SVRST with and
without a reset running. -/
theorem witness_hostLink :
    (∀ r ∈ [true, false], ∀ s ∈ [hostState r [] [] []], s.alive = true ∧ s.endpt.perst = false ∧ s.endpt.ready = r ∧ s.staging = none) ∧
    (∀ s ∈ [hostState true [(0x20, 3)] [] []],
      s.memOk 0 = true ∧ s.memOk 1 = true ∧ easelBlk 0 ∉ s.inReset ∧ s.bme 0 = true ∧ s.bme 1 = true ∧ (s.cfg 0 0x20).getLsbD 1 = true ∧
        (s.cfg 0 0x20).getLsbD 0 = true ∧ s.endpt.linkState = 0) ∧
    ((hostState true [] [(0x20, 8)] []).bar 0 0x20 &&& 8#32) = 8#32 ∧ ((hostState true [] [(0x20, 0)] []).bar 0 0x20 &&& 8#32) ≠ 8#32 := by
  decide +kernel

/-- HostQueueEvents: a message that waits with room in the ring of 2 slots, one from the sheet, their lines free, and an MSI that is due. -/
theorem witness_hostQueues :
    (∀ s ∈ [hostState true [] [(2 ^ 18 + pageAt 0 + 0xC, 1), (2 ^ 18 + pageAt 0 + 0x10, 0), (2 ^ 18 + pageAt 0 + 0x1C, 2)] [(.endpt, 0o10000, 1)]],
      s.memOk 1 = true ∧ s.h2sReady 0 = true ∧ s.deckleMap (s.qSheet 0) (s.qBase 0 + 16 * (s.sq 0 0 % s.qSlots 0)) = some 16 ∧
        ∀ ep ∈ [true, false], (s.ncWrite (ncIndex 0) 1 fun _ => if ep then poisonLine else lineOf [1]).any (fun s1 => s1.sq 0 0 != s1.sq 0 1) = true) ∧
    (∀ s ∈ [hostState true [] [(2 ^ 18 + pageAt 0 + 0x1C, 2), (2 ^ 18 + pageAt 0 + 0x14, 65535), (2 ^ 18 + pageAt 0 + 0x18, 65535)] [(.endpt, 0o10002, 1)]],
      s.qMoves 0 = true ∧ s.sq 0 2 ≠ s.sq 0 3 ∧ (s.pf1 0 0x14 + 65536 - s.pf1 0 0x18) % 65536 < s.qSlots 0 ∧ s.qSlots 0 = 2 ∧
        s.deckleMap (s.qSheet 0) (s.qBase 0 + 16 * (s.qSlots 0 + s.sq 0 3 % s.qSlots 0)) = some 32 ∧ (s.ncRead (ncIndex 0) 2).isSome = true) ∧
    (∀ s ∈ [hostState true [(0x2C, 2 ^ 31)] [] []], ∀ t ∈ [({ s with endpt := { s.endpt with msi := [(0, 63)] } } : State)],
      (0, 63) ∈ t.endpt.msi ∧ t.mayMaster 0 = true ∧ (t.cfg 0 0x2C).getLsbD 31 = true ∧ (t.cfg 0 0x2C).getLsbD 30 = false) := by
  decide +kernel

/-- Firmware at order version 2 with a nonce, and no packet in hand. -/
def conState (rs : List (Blk × Nat × Nat)) : State := { regsOf (homeState .di none []) rs with conVer := 2, nonce := some 1, qlines := [], dram := [] }

/-- An order without signature, and one whose signature verifies. -/
def order (signed : Bool) : ConHdr := { tag := 0x1234, sig := if signed then .valid else .none }

/-- Both are heard at once, of every opcode of every version. -/
theorem hears_of {s : State} (h : s.consoleUp = true) (ht : s.taken = none) (hn : s.nonce ≠ none) (hv : s.conVer = 2) (op ver : Nat) (hver : ver ≤ 2) :
    Hears (order false) op ver s s ∧ Hears (order true) op ver s { s with nonce := none } :=
  ⟨⟨h, fun t hs => by simp [ht] at hs, by omega, .inl ⟨rfl, rfl⟩⟩, ⟨h, fun t hs => by simp [ht] at hs, by omega, .inr ⟨rfl, hn, rfl⟩⟩⟩

/-- The first octets of a packet with an opcode and no flag. -/
def packetOf (op : Nat) : List Octet := [BitVec.ofNat 8 op, 0, 0x34, 0x12] ++ List.replicate 124 0

/-- A slot of firmware that runs command `k`, a memory transfer that waits or a Calender job. -/
def aborted (cal : Bool) : State :=
  let s : State := { conState [] with easel := [(32 * slotAt 7, w36 (9 * 2 ^ 28 + 2 ^ 26))] };
  if cal then { s with longOps := [⟨7, 0x73, 0, none⟩] }
  else { s with waits := [.svc { slot := 7, sheet := 0, write := false, addr := 0, left := 1, put := [], got := [], done := 0, reply := 0, buffer := 0, image := 0 }] }

/-- ConsoleRows: packets good, undefined and poisoned with one in the ring, orders heard, the transfers and jobs to abort, and each order
version and signature state. -/
theorem witness_console :
    (∀ op ver, ver ≤ 2 → Hears (order false) op ver (conState []) (conState []) ∧
      Hears (order true) op ver (conState []) { conState [] with nonce := none }) ∧
    (∀ s ∈ [({ hostState true [] [(0xC, 1), (0x10, 0)] [] with conVer := 1 } : State)],
      s.consoleUp = true ∧ s.mayMaster 0 = true ∧ s.taken = none ∧ s.bar 0 0x10 ≠ s.bar 0 0xC) ∧
    (∀ op ∈ [1, 0x21, 0x73, 0x99], packetU32 (packetOf op) 0 % 256 = op ∧ packetU32 (packetOf op) 0 / 256 % 256 = 0 ∧ packetU32 (packetOf op) 4 = 0 ∧
      packetU32 (packetOf op) 8 = 0 ∧ packetU32 (packetOf op) 12 = 0) ∧
    opInfo 1 = some (1, some 0) ∧ opInfo 0x99 = none ∧ (conState []).longOps = [] ∧
    (∀ cal ∈ [true, false], ∀ s ∈ [aborted cal], s.consoleUp = true ∧ (s.slotStat 7).1 = (BitVec.ofNat 32 (9 * 256 + 7)).toNat / 256 ∧ (s.svcOf 7).isNone = cal ∧
      (s.longOps.find? fun o => o.slot == 7 && o.op == 0x73).isSome = cal) ∧
    ((conState []).slotStat 5).2.1 = 0 ∧ (conState []).svcOf 5 = none ∧ (65535 : BitVec 32).toNat < 65536 ∧ (63 : BitVec 32).toNat < 64 ∧
      (2 ^ 27 - 1 : BitVec 32).toNat < 2 ^ 27 ∧
    (∀ s ∈ [({ conState [] with conVer := 1 } : State)], s.consoleUp = true ∧ s.taken = none ∧ 1 ≤ s.conVer ∧ s.conVer < 2) := by
  refine ⟨fun op ver hv => hears_of (by decide +kernel) rfl (by simp [conState]) rfl op ver hv, ?_⟩
  and_intros <;> decide +kernel

/-- ConsoleSheetRows: the sheets of each end, a token slot and none, a service core, and frozen masters, of a held sheet too. -/
theorem witness_consoleSheets :
    (∀ sh ∈ [0, 63], (conState []).sheetHeld sh = false) ∧ (conState []).serviceCore 0 = some 0 ∧ (conState []).tokenSlot = some 0 ∧
    (∀ s ∈ [({ conState [] with easel := (List.range 256).map fun k => (32 * slotAt k, w36 (2 ^ 26)) } : State)], s.tokenSlot = none ∧ s.sheetHeld 0 = false) ∧
    (∀ f ∈ (conState []).frozen, ¬ (f.type = 1 ∧ f.ident = 2 ^ 18 - 1)) ∧
    (∀ held ∈ [true, false], ∀ s ∈ [({ conState [] with
        frozen := [{ type := 2, ident := 5, sheet := 0, recIdx := none }], longOps := if held then [⟨3, 0x13, 0, none⟩] else [] } : State)],
      s.frozen = { type := 2, ident := 5, sheet := 0, recIdx := none } :: [] ∧ s.consoleUp = true ∧ s.sheetHeld 0 = held ∧
        (s.deliver { type := 2, ident := 5, sheet := 0, recIdx := none }).isSome = true) := by decide +kernel

/-- ConsoleCoreRows: cores active, stopped and failed, a quire with a spare and without, a quire triptych halted and not, every register kind of
a checkpoint, a clean scan, register addresses, links, blocks in reset, and a die of a stack with no confidential sheet. -/
theorem witness_consoleCores :
    (∀ k ∈ [CState.active, .stopped, .failed], ∀ s ∈ [withCore (conState []) fun c => { c with cstate := k }],
      (s.core 0).cstate = k ∧ (s.core 0).discard = false ∧ (s.core 0).sheet = some 0 ∧ (s.sheet 0).running = true ∧ (s.sheet 0).checkstop = false ∧
        s.sheetHeld 0 = false ∧ (s.core 0).couch = none ∧ s.tokenSlot = some 0 ∧ s.consoleUp = true) ∧
    (∀ k ∈ [CState.spare, .couching, .active], (((conState []).setCore 5 { (conState []).core 5 with cstate := k }).core 5).cstate = k) ∧
    (∀ i < 6, ((conState []).core i).cstate ≠ .spare ∧ ((conState []).core i).cstate ≠ .couching) ∧
    (∀ m ∈ [0, 3], ∀ s ∈ [conState [(.qtrip 31, 0, m * 2 ^ 33)]], s.tmode (.quire (quireFin 31)) = m ∧ s.longOps = []) ∧
    (∀ kind ∈ [0, 1, 2, 3, 4], ((conState []).ckptReg 0 kind 0).isSome = true) ∧ ((conState []).core 191).sheet = none ∧
    (∀ b ∈ scanBlks 2 7, (conState []).reg b 0o777700 = 0) ∧
    conAddr (BitVec.ofNat 64 (0o200111 * 2 ^ 18 + 5)) 0 = some (.endpt, 5) ∧ conAddr (BitVec.ofNat 64 (2 ^ 19 - 1)) 191 = some (.core 191, 2 ^ 18 - 1) ∧
    laneNo (tileFin 7) (Fin.ofNat 3 2) 1 = 143 ∧ (conState []).regConf (stackBlk 15) 1 1 = false ∧ (conState []).inReset = [] ∧
    linkBlk 143 ∈ ({ conState [] with inReset := [linkBlk 143] } : State).inReset := by decide +kernel

/-- ConsoleAccessRows: register ranges to the last offset, and ranges of a sheet of nine words that are read, written and zeroed, one range
outside it, a line that is busy and one that is poisoned, and the host that may not be reached. -/
theorem witness_consoleAccess :
    (∀ s ∈ [hostState true [] [] []],
      s.regConf .endpt (2 ^ 18 - 14) 14 = false ∧ .endpt ∉ s.inReset ∧ s.confid 0 = false ∧ s.confid 63 = false ∧ s.tokenSlot = some 0 ∧
        s.inSheet 0 0o100 9 = true ∧ s.inSheet 0 (2 ^ 36 - 1) 9 = false ∧ s.mayMaster 0 = true ∧ s.moduleOut = false ∧ s.deckleMap 0 0o100 = some 0o100 ∧
        (s.ncRead (ncIndex 0) 4).any (fun x => !x.1.poison && x.2.mayMaster 0 && !x.2.moduleOut) = true ∧
        (s.ncWrite (ncIndex 0) 4 fun x => linePutWords x 0 (List.replicate 9 5)).any (fun t => !t.moduleOut) = true) ∧
    (({ conState [] with dram := [(4, poisonLine)] } : State).ncRead (ncIndex 0) 4).any (fun x => x.1.poison) = true ∧
    ((conState []).mayMaster 0 = false) ∧ ((busyState .bd false [] none []).ncRead (ncIndex 0) 4).isNone = true ∧
    (∀ im ∈ [0, 1, 2], ((imageOf im).ofWords [1, 2]).2 = none ∧ ((imageOf im).ofWords [1, 2]).1 ≠ [] ∧ ((imageOf im).toWords (List.replicate 9 0)).2 = none) ∧
    ({ conState [] with inReset := [.endpt] } : State).inReset = [.endpt] := by decide +kernel

/-- A parameter block with its input at word 0o2000, its output at word 0o4000 and its state area at word 0o100000. -/
def calBlock : Vector HostWord 12 := vset (vset (vset (Vector.replicate 12 0) 3 0o2000) 7 0o4000) 11 0o100000

/-- ConsoleAccessRows, CAL_JOB: a sound block, and a queue that takes its job, is full, or is not there. -/
theorem witness_calJob :
    calBad 0 (calBlock.map devWord) true = false ∧
    (∀ q ∈ [(2 ^ 35, 0, 0), (2 ^ 35, 32, 2), (0, 0, 3)],
      ({ conState [(.cal 0, 0o100, q.1)] with calq := [(0, List.replicate q.2.1 badCal)] } : State).calCc 0 0 = q.2.2) ∧
    (∀ s ∈ [conState []],
      s.inSheet 0 0o2000 (calRanges (calBlock.map devWord) true).1 = true ∧ s.inSheet 0 0o4000 (calRanges (calBlock.map devWord) true).2 = true ∧
        s.inSheet 0 0o100000 65792 = true) := by decide +kernel

/-- The module READY with no sheet, firmware at order version 2 with a nonce. -/
def bareState (rs : List (Blk × Nat × Nat)) : State := regsOf { State.reset with phase := .ready, conVer := 2, nonce := some 1 } rs

/-- A commit of a snapshot in a wave. -/
def commitOf (img : Tab Word) (stamped : Bool) (wave : Nat) : Commit :=
  { snapshot := img, slot := 0, auth := false, stamped := stamped, wave := wave, version := 1, crc := 0, waiting := [0], assign := ⟨[], []⟩ }

/-- A record of an empty image. -/
def emptyRec (n : Nat) : WmRec := { image := [], version := n, crc := 0, seq := n, auth := false, assign := ⟨[], []⟩ }

/-- WatermarkRows, the orders: no commit held, a snapshot that breaks no rule, no pentimento, and one whose image breaks no rule. -/
theorem witness_watermarkOrders :
    (∀ s ∈ [bareState []], s.consoleUp = true ∧ s.taken = none ∧ s.wmHeld = false ∧ s.tokenSlot = some 0 ∧ pentimento s.records = none) ∧
    (∀ s ∈ [(bareState []).started (order false) 0x22 0 0], s.firstBreak s.takeSnapshot ⟨[], []⟩ = none) ∧
    ({ bareState [] with commit := some (commitOf [] false 1) } : State).wmHeld = true ∧
    (∀ s ∈ [({ bareState [] with records := [emptyRec 1, emptyRec 2] } : State).started (order true) 0x23 0 0],
      pentimento s.records = some (emptyRec 1) ∧ (s.stageImage []).firstBreak (s.stageImage []).takeSnapshot ⟨[], []⟩ = none) :=
  ⟨by decide +kernel, by decide +kernel, by decide +kernel, by decide +kernel⟩

/-- WatermarkRows, the waves: an engine share that cannot be withdrawn yet, and a sheet that waits and may change at once. -/
theorem witness_watermarkWaves :
    (∀ s ∈ [({ bareState [(.cal 0, 0o100, 2 ^ 35)] with calq := [(0, [{ badCal with running := true }])] } : State)],
      (((s.applyAll (s.waveOne (commitOf [] true 1))).confidAll false).commitProgress (commitOf [] true 1) s).waveOne (commitOf [] true 1) ≠ []) ∧
    (∀ s ∈ [bareState []], ∀ c ∈ [commitOf [] true 2], 0 ∈ c.waiting ∧ s.together c 0 = [0] ∧ s.quiet c 0 = true ∧
      (s.drainSheet 0).any (fun n => !n.outsWait c 0) = true) :=
  ⟨by decide +kernel, by decide +kernel⟩

/-- StepsLeaveNoReaction and StepRunsFrontCommand: a step that runs a command, and one on an empty queue. -/
theorem witness_steps :
    base.reacts = [] ∧ base.waits = [] ∧ base.longOps = [] ∧ ({ base with pending := [] } : State).pending = [] ∧
    (match step { base with pending := [.refresh 0 0 0 0] } with | .next t => t.reacts.isEmpty | _ => false) = true := by decide +kernel

/-- TokensNameOneUse: slots free, running and done, at the counts where a token wraps. -/
theorem witness_tokens :
    (∀ q ∈ [(0, 0), (1, 255), (2, 255)], ∀ s ∈ [({ conState [] with easel := [(32 * slotAt 7, w36 (q.2 * 2 ^ 28 + q.1 * 2 ^ 26))] } : State)],
      (s.slotStat 7).2.1 = q.1 ∧ (s.slotStat 7).1 = q.2 ∧ s.consoleUp = true) ∧
    (BitVec.ofNat 32 (255 * 256 + 7)).toNat / 256 = 255 ∧ (0 : Nat) = (255 + 1) % 256 ∧ (254 : Nat) = (255 + 255) % 256 := by decide +kernel

/-- FaultRecording: a source that is shadowed, one that is clear and unmasked with a reaction, one recorded before, and one masked. -/
theorem witness_faultRecording :
    ({ base with shadows := [(.qtrip 0, .retry 0)] } : State).shadowed (.retry 0) 1 = true ∧
    (base.shadowed (.dir 0) 2 = false ∧ base.rbit (.dir 0) 0o777700 2 = false ∧ base.rbit (.dir 0) 0o777701 2 = false ∧
      base.rbit (.dir 0) 0o777706 0 = false ∧ 1 ≤ (base.react (.dir 0) 2).2 ∧ (base.react (.dir 0) 2).2 ≤ 4) ∧
    (∀ s ∈ [regsOf base [(.dir 0, 0o777700, 2 ^ 33), (.dir 0, 0o777701, 2 ^ 33), (.dir 0, 0o777705, 2 ^ 36 - 1), (.dir 0, 0o777706, 2 ^ 35)]],
      s.shadowed (.dir 0) 2 = false ∧ s.rbit (.dir 0) 0o777700 2 = true ∧ s.rbit (.dir 0) 0o777701 2 = true ∧ s.rbit (.dir 0) 0o777706 0 = true) := by
  decide +kernel

/-- FaultRows, events: sources that a block has and has not, of two in one cycle, and lines of an L1D, an L2 and an L3 with no bit and
three bits of a codeword wrong, held and not. -/
theorem witness_faultEvents :
    base.alive = true ∧ ((faultSources .wmark).length ≤ 1 ∧ 0 < (faultSources .wmark).length ∧ plainSource .wmark 0 = true) ∧
    (1 < (faultSources (.memc 0)).length ∧ plainSource (.memc 0) 0 = true ∧ plainSource (.memc 0) 1 = true) ∧
    (∀ d ∈ [some 0, none], (({ base with qlines := [(4, { qlOf .m (lineOf []) with l1dirty := d })] } : State).qline (quireOf 0) 4).l1dirty = d) ∧
    (base.qline 0 4).st ≠ .i ∧ (base.qline 1 4).st = .i ∧ base.l3Line 0 4 = none ∧
    ({ base with l3 := [(4, some { data := lineOf [7], dirty := true })] } : State).l3Line 0 4 = some { data := lineOf [7], dirty := true } ∧
    arrayRead 4 (lineOf [7]) [3] = some (lineOf [7]) ∧ arrayRead 4 (lineOf [7]) [3, 4, 5] = none := by decide +kernel

/-- FaultRows, injections: not armed, armed, waiting and shadowed. -/
theorem witness_injections :
    (∀ v ∈ [(0, false), (2 ^ 30, true)], (regsOf base [(.retry 0, 0o777704, v.1)]).rbit (.retry 0) 0o777704 5 = v.2) ∧
    (∀ s ∈ [regsOf base [(.retry 0, 0o777704, 2 ^ 30 + 2 ^ 31)]], s.fld (.retry 0) 0o777704 0 4 = 1 ∧ s.shadowed (.retry 0) 1 = false ∧
      1 < (faultSources (.retry 0)).length ∧ plainSource (.retry 0) 1 = true) ∧
    (∀ s ∈ [({ regsOf base [(.retry 0, 0o777704, 2 ^ 30 + 2 ^ 31)] with shadows := [(.qtrip 0, .retry 0)] } : State)],
      s.rbit (.retry 0) 0o777704 5 = true ∧ s.shadowed (.retry 0) 1 = true ∧ .retry 0 ∉ s.injWait ∧ s.shadowHeld (.retry 0) = false) := by
  decide +kernel

/-- A register of an Easel. -/
def heldReg : RegAt := { blk := .easel 1, off := 1 }

/-- An IN held at the Easel of tile 1. -/
def heldIn : Run := .held (.ioIn (ins 0o777010 [] [0o003, 0o002])) (.easel 1) 4 1

/-- The module READY with the Easel of tile 1 in reset, accesses held there, and an IN of core 0 held too, or not. -/
def heldState (es : List (HeldReg × Nat × Nat)) (io : Bool) : State :=
  { bareState [] with inReset := [.easel 1], portHeld := es, cores := if io then [(0, { coreReset with cstate := .active, run := heldIn })] else [] }

/-- A register write of the console held at the Easel of tile 1. -/
def heldWrite : HeldReg × Nat × Nat := (.write (order false) (.easel 1) [(1, 5)], 0, 0)

/-- FaultRows, the port: a block in reset with nothing held, with one write, and with an IN and a write; an access to be tried again at it, and
one that is held at a block out of reset; and an IN that times out. -/
theorem witness_port :
    (∀ es ∈ [[], [heldWrite]], ∀ s ∈ [heldState es false],
      .easel 1 ∈ s.inReset ∧ (s.leaveReset (.easel 1)).heldAt (.easel 1) = [] ∧ (s.leaveReset (.easel 1)).portHeld = es) ∧
    (∀ s ∈ [heldState [heldWrite] true],
      (s.leaveReset (.easel 1)).heldAt (.easel 1) = [(1, 0, .ioIn (ins 0o777010 [] [0o003, 0o002]))] ∧ (s.leaveReset (.easel 1)).portHeld = [heldWrite] ∧
      heldBlk heldWrite.1 = .easel 1) ∧
    (∀ s ∈ [heldState [] false], s.mtUp = true ∧ heldReg ∉ s.heldFw ∧ heldReg.blk ∈ s.inReset) ∧
    (∀ s ∈ [({ base with portHeld := [(.single heldReg 5 false, 0, 0)] } : State)],
      s.portHeld = [(.single heldReg 5 false, 0, 0)] ∧ heldReg.blk ∉ s.inReset ∧ s.mtUp = true) ∧
    (∀ s ∈ [({ withCore base fun k => { k with run := heldIn } with inReset := [.easel 1] } : State)],
      (s.core 0).run = heldIn ∧ .easel 1 ∈ s.inReset ∧ (s.core 0).active = true ∧
        ((s.setCore 0 { s.core 0 with run := .running }).takeTrap 0 (.check 5 [])).isSome = true) :=
  ⟨by decide +kernel, by decide +kernel, by decide +kernel, by decide +kernel, by decide +kernel⟩

/-- A phase of the base state. -/
def inPhase (p : Phase) : State := { base with phase := p }

/-- A staged image's header of 12 octets, and a chunk of it, the last or not. -/
def stagedState (n len : Nat) (last : Bool) : State :=
  { base with
    staging := some n, stageHdr := [0x44, 0x4E, 0x55, 0x4C, 0, 0, 0, 1, 0, 0, 1, 0]
    easel := [(32, w36 ((if last then 2 ^ 35 else 0) + n % 65536 * 2 ^ 16 + len))] }

/-- ResetRows: each phase that a clause names, pins up and down, headers of images, and a staged image's chunks in and at their end. -/
theorem witness_resetRows :
    (∀ p ∈ [Phase.ready, .gesso 1 true, .gesso 1 false, .gesso 2 true, .gesso 2 false, .gesso 3 false, .gesso 4 true, .gesso 5 false, .gesso 6 true,
        .gesso 7 false, .gesso 8 true, .hold false],
      (inPhase p).phase = p ∧ (inPhase p).staging = none ∧ (inPhase p).tripOut .module = false ∧ (inPhase p).jtagFree = true) ∧
    (∀ up ∈ [true, false], ({ base with pins := { base.pins with pwrok := up } } : State).pins.pwrok = up) ∧
    (∀ k ∈ [true, false], dunulOk { magic := 0x444E554C, format := 1, len := 0x100, keyMatches := k, sigValid := true } = k) ∧
    (∀ s ∈ [regsOf base [(.rst, 2, 0)]], s.fld .rst 2 0 1 ≠ 1 ∧ s.fld .rst 2 2 3 = 0) ∧
    ({ base with endpt := { base.endpt with perst := false } } : State).endpt.perst = false ∧
    (∀ q ∈ [(65535, 1, false), (65537, 0xFC00, true)], ∀ s ∈ [stagedState q.1 q.2.1 q.2.2],
      s.staging = some q.1 ∧ field (s.mail 1) 4 19 = q.1 % 65536 ∧ field (s.mail 1) 20 35 = q.2.1 ∧ dbit (s.mail 1) 0 = q.2.2 ∧
        numOf (s.stageHdr.take 4) = 0x444E554C ∧ numOf ((s.stageHdr.drop 4).take 4) = 1 ∧ numOf ((s.stageHdr.drop 8).take 4) + 0x200 ≤ 2 ^ 23) :=
  ⟨by decide +kernel, by decide +kernel, by decide +kernel, by decide +kernel, by decide +kernel, by decide +kernel⟩

/-- Readings of a tile's sensors at 40 °C, the last one at another temperature. -/
def readingsOf (last : Fin 512) : List (Nat × Nat) :=
  (List.range 8).flatMap fun t => (List.range 8).map fun k => (16 * t + k, (vget (vset (Vector.replicate 64 (40 : Fin 512)) 63 last) (8 * t + k) 0).val)

/-- The base state in a change to a step, or in none. -/
def stepping (g : Option Nat) : State := { base with stepGoing := [(0, g)] }

/-- PowerRows: a frame that goes out below and above ICAP, for the first time and after 1 ms, large steps asked for and granted, quires that
step, and temperatures below and at the trip. -/
theorem witness_powerRows :
    (∀ g ∈ [((none, none) : Option Nat × Option Nat), (some 5, none)],
      ∀ s ∈ [({ regsOf base [(.lfi, 0, 2 ^ 35), (.clk, 0, 2 ^ 35), (.pwr, 0, 100 * 2 ^ 18)] with
          pins := { base.pins with pwrok := true }, surge := g, clock := 700000 } : State)],
      s.phase = .ready ∧ s.frames = true ∧ s.fld .pwr 0 7 17 = 100 ∧ s.surge = g ∧ 5 + 650000 < s.clock.toNat) ∧
    (∀ s ∈ [({ base with steps := [(.unthrottle 3, false), (.coreWake 7, true)] } : State)],
      s.granted = none ∧ s.steps = [(.unthrottle 3, false)] ++ (.coreWake 7, true) :: []) ∧
    (∀ k ∈ [StepKind.coreWake 7, .unthrottle 3], ({ base with granted := some (k, true) } : State).granted = some (k, true)) ∧
    ((∀ x ∈ readingsOf 40, x.2 < base.fld .therm 0 0 8 ∧ x.2 < 95) ∧ base.warned = [] ∧ (∀ t < 8, base.rbit .therm 1 (18 + t) = false) ∧
      ∀ m < 16, (base.mc m).hot = false) ∧ 105 ≤ (hottest (readingsOf 105)).2 ∧
    (∀ g ∈ [none, some 2], Tab.get (fun _ => none) (stepping g).stepGoing 0 = g ∧ 0 ∉ (stepping g).forced ∧ (stepping g).stepOpen (.stepUp 0 2) = false ∧
      Tab.get (fun _ => none) (stepping g).stepHeld 0 = none ∧ 0 ∉ (stepping g).stretched) := by decide +kernel

/-- PinRows: the address sampled and not, with readings and without. -/
theorem witness_pinRows :
    (∀ up ∈ [true, false], ∀ s ∈ [({ base with smbAddr := some 7, pins := { base.pins with pwrok := up } } : State)], s.smbAddr ≠ none ∧ s.readings = up) ∧
    ({ base with smbAddr := none } : State).smbAddr = none := by decide +kernel

end Sys2Proof.Tests
end

section
/-! Fault events, injections and the register port (O57): what each shared operation does, one lemma a case, and the rows from them. -/

namespace Sys2Proof.Machine
open Sys2Proof

/-- A command's effect out of reset. -/
theorem ends_whenAlive {s : State} (ha : s.alive = true) (f : State → State) : ends (s.whenAlive f) = .next (f s).follow := by
  rw [whenAlive_of ha, ends_follow]

/-! Registers of one block: what a write leaves at its other offsets, and single bits. -/

/-- A write of a register leaves the block's registers at other offsets. -/
theorem State.reg_setReg_ne (s : State) (b : Blk) {o o' : Nat} (v : Word) (h : o' ≠ o) : (s.setReg b o v).reg b o' = s.reg b o' := by
  rw [State.reg, State.setReg, Tab.get_set_ne _ _ _ (by simpa only [regKey, ne_eq, Nat.add_left_cancel_iff] using h), State.reg]

/-- A bit of a register by its number in the word. -/
theorem State.rbit_eq_getLsbD (s : State) (b : Blk) (o i : Nat) : s.rbit b o i = (s.reg b o).getLsbD (35 - i) := by
  rw [State.rbit, State.fld, field, Nat.add_sub_cancel_left, pow_one, BitVec.getLsbD, Nat.testBit_eq_decide_div_mod_eq, beq_eq_decide]

/-- A bit that is set reads as set. -/
theorem State.rbit_setFld_one (s : State) (b : Blk) (o : Nat) {i : Nat} (h : i < 36) : (s.setFld b o i i 1).rbit b o i = true := by
  have hk : 35 - i < 36 := by omega
  have hbit : (BitVec.ofNat 36 (1 * 2 ^ (35 - i))).getLsbD (35 - i) = true := by
    rw [Nat.one_mul, BitVec.getLsbD_ofNat, Nat.testBit_two_pow_self, decide_eq_true hk, Bool.and_self]
  rw [State.rbit_eq_getLsbD, State.setFld, State.reg_setReg, setField, Nat.add_sub_cancel_left, BitVec.getLsbD_or]
  exact (congrArg (_ || ·) hbit).trans (Bool.or_true _)

/-- Bits of a register are kept by a write at another offset of the block. -/
theorem State.rbit_setReg_ne (s : State) (b : Blk) {o o' : Nat} (v : Word) (i : Nat) (h : o' ≠ o) :
    (s.setReg b o v).rbit b o' i = s.rbit b o' i := by
  rw [State.rbit_eq_getLsbD, State.reg_setReg_ne s b v h, State.rbit_eq_getLsbD]

/-- An interrupt message that falls due writes no register of the device. -/
theorem State.msiDue_regs (s : State) (f v : Nat) : (s.msiDue f v).regs = s.regs := by
  unfold State.msiDue
  split <;> rfl

/-- ISTAT is no register of the device: setting a cause of it writes none. -/
theorem State.istat_regs (s : State) (v : Nat) : (s.istat v).regs = s.regs := by
  rw [State.istat, apply_ite State.regs, State.msiDue_regs, State.setBar_regs, ite_self]

/-- The pin ERR_N is no register of the device. -/
theorem State.errRose_regs (s s0 : State) : (s.errRose s0).regs = s.regs := by
  rw [State.errRose, apply_ite State.regs, State.istat_regs, ite_self]

/-- A reaction that a fault causes writes no register before it is carried out. -/
theorem State.takeReact_regs (s : State) (b : Blk) (code : Nat) : (s.takeReact b code).regs = s.regs := by
  unfold State.takeReact
  split <;> rfl

/-- Equal register tables show equal bits. -/
theorem State.rbit_congr_regs {s t : State} (h : s.regs = t.regs) (b : Blk) (o i : Nat) : s.rbit b o i = t.rbit b o i := by
  simp only [State.rbit, State.fld, State.reg, h]

/-- A real event at a source that is not shadowed sets the source's REAL bit (R605, R612). -/
theorem State.rbit_fault_real (s : State) {b : Blk} {src : Nat} (info : Word) (hs : src < 36) (hsh : s.shadowed b src = false) :
    (s.fault b src info).rbit b 0o777700 src = true := by
  unfold State.fault
  rw [if_neg (by rw [hsh]; exact Bool.false_ne_true)]
  extract_lets s0 before status counted header first code reacted
  have hstatus : status.rbit b 0o777700 src = true := s.rbit_setFld_one b 0o777700 hs
  have hcounted : counted.rbit b 0o777700 src = status.rbit b 0o777700 src := State.rbit_setReg_ne _ _ _ _ (by decide)
  have hfirst : first.rbit b 0o777700 src = counted.rbit b 0o777700 src := by
    simp only [first]
    split
    · rfl
    · rw [State.rbit_setReg_ne _ _ _ _ (by decide), State.rbit_setReg_ne _ _ _ _ (by decide)]
  have hreacted : reacted.rbit b 0o777700 src = first.rbit b 0o777700 src := by
    refine State.rbit_congr_regs ?_ _ _ _
    simp only [reacted]
    split
    · rfl
    · exact State.takeReact_regs _ _ _
  rw [State.rbit_congr_regs (State.errRose_regs reacted s0), hreacted, hfirst, hcounted, hstatus]

/-! Fault events. -/

/-- Sources that record in one cycle do so in ascending number, each once (R610). -/
theorem State.faultEvents_eq (s : State) (b : Blk) (es : List (Nat × Word)) (l : Nat) (fl : List Nat) :
    s.faultEvents b es l fl = ((List.range 18).filter fun i => es.any fun e => e.1 == i).foldl
      (fun s i => s.faultEvent b i (((es.find? fun e => e.1 == i).map (·.2)).getD 0) l fl) s := by
  rw [List.foldl_filter, State.faultEvents]
  congr 1
  funext t i
  cases h : es.find? fun e => e.1 == i with
  | none =>
    have unnamed : es.any (fun e => e.1 == i) = false := List.any_eq_false.2 (List.find?_eq_none.1 h)
    simp only [unnamed, Bool.false_eq_true, if_false]
  | some e =>
    have named : es.any (fun e => e.1 == i) = true :=
      List.any_eq_true.2 ⟨e, List.mem_of_find?_eq_some h, List.find?_some (p := fun e : Nat × Word => e.1 == i) h⟩
    simp only [named, if_true, Option.map_some, Option.getD_some]

/-- A source that records alone. -/
theorem State.faultEvents_one (s : State) (b : Blk) (i : Fin 18) (x : Word) (l : Nat) (fl : List Nat) :
    s.faultEvents b [(i.val, x)] l fl = s.faultEvent b i.val x l fl := by
  have named : ((List.range 18).filter fun k => i.val == k) = [i.val] := by
    revert i
    decide
  rw [State.faultEvents_eq]
  simp only [List.any_cons, List.any_nil, Bool.or_false, named]
  simp

/-- Two sources of one cycle record in ascending number, in whichever order they are given (R610). -/
theorem State.faultEvents_two (s : State) (b : Blk) {i j : Fin 18} (h : i.val < j.val) (x y : Word) (l : Nat) (fl : List Nat) :
    s.faultEvents b [(i.val, x), (j.val, y)] l fl = (s.faultEvent b i.val x l fl).faultEvent b j.val y l fl ∧
    s.faultEvents b [(j.val, y), (i.val, x)] l fl = (s.faultEvent b i.val x l fl).faultEvent b j.val y l fl := by
  have named : ((List.range 18).filter fun k => i.val == k || j.val == k) = [i.val, j.val] := by
    revert i j
    decide
  have ne : (i.val == j.val) = false := beq_false_of_ne h.ne
  have ne' : (j.val == i.val) = false := beq_false_of_ne h.ne'
  constructor
  · rw [State.faultEvents_eq]
    simp only [List.any_cons, List.any_nil, Bool.or_false, named]
    simp [List.find?, ne]
  · rw [State.faultEvents_eq]
    simp only [List.any_cons, List.any_nil, Bool.or_false, Bool.or_comm (j.val == _), named]
    simp [List.find?, ne']

/-- A source that the block does not have records nothing. -/
theorem State.faultEvent_undefined (s : State) {b : Blk} {src : Nat} (h : (faultSources b).length ≤ src) (info : Word) (l : Nat)
    (fl : List Nat) : s.faultEvent b src info l fl = s := by
  unfold State.faultEvent
  exact if_pos h

/-- A source of the block with no other effect records. -/
theorem State.faultEvent_plain (s : State) {b : Blk} {src : Nat} (h : src < (faultSources b).length) (hp : plainSource b src = true)
    (info : Word) (l : Nat) (fl : List Nat) : s.faultEvent b src info l fl = s.fault b src info := by
  unfold State.faultEvent
  rw [if_neg (Nat.not_le.2 h)]
  split
  case h_7 =>
    split
    case h_6 => rfl
    all_goals exact absurd hp Bool.false_ne_true
  all_goals exact absurd hp Bool.false_ne_true

/-- Two plain sources of one cycle: the lower records first (R610). -/
theorem State.faultEvent_plain_two (s : State) {b : Blk} {i j : Nat} (hi : i < (faultSources b).length) (hj : j < (faultSources b).length)
    (pi : plainSource b i = true) (pj : plainSource b j = true) (x y : Word) (l : Nat) (fl : List Nat) :
    (s.faultEvent b i x l fl).faultEvent b j y l fl = (s.fault b i x).fault b j y := by
  rw [State.faultEvent_plain s hi pi, State.faultEvent_plain _ hj pj]

/-- FAULT_EVENT of one source, out of reset. -/
theorem exec_faultEvent_one {s : State} (ha : s.alive = true) (b : Blk) (src : Fin 18) (info : Word) (l : LineAddr)
    (fs : List (Fin 720)) :
    exec (.faultEvent b src info l fs []) s = .next (s.faultEvent b src.val info l.val (fs.map (·.val))).follow := by
  rw [exec_faultEvent, execFaultEvent, ends_whenAlive ha, List.map_nil, State.faultEvents_one]

/-- FAULT_EVENT of two plain sources in one cycle. -/
theorem exec_faultEvent_two {s : State} (ha : s.alive = true) (b : Blk) {i j : Fin 18} (h : i.val < j.val)
    (hi : i.val < (faultSources b).length) (hj : j.val < (faultSources b).length) (pi : plainSource b i.val = true)
    (pj : plainSource b j.val = true) (x y : Word) (l : LineAddr) (fs : List (Fin 720)) :
    exec (.faultEvent b i x l fs [(j, y)]) s = .next ((s.fault b i.val x).fault b j.val y).follow ∧
    exec (.faultEvent b j y l fs [(i, x)]) s = .next ((s.fault b i.val x).fault b j.val y).follow := by
  obtain ⟨rising, falling⟩ := s.faultEvents_two b h x y l.val (fs.map (·.val))
  simp only [exec_faultEvent, execFaultEvent, ends_whenAlive ha, List.map_cons, List.map_nil, rising, falling,
    State.faultEvent_plain_two s hi hj pi pj, and_self]

/-- A parity error in an L1 line drops it, or sheds the core that has it dirty (R290, R291). -/
theorem State.faultEvent_l1 (s : State) (c : CoreId) {src : Nat} (h : src = 1 ∨ src = 2) (info : Word) (l : Nat) (fl : List Nat) :
    s.faultEvent (.core c) src info l fl =
      if (s.qline (quireOf c.val) l).l1dirty = some c.val then s.recover c.val 4 l
      else (s.l1Parity c.val l).fault (.core c) 1 (w36 (l % 256)) := by
  rcases h with rfl | rfl <;> rfl

/-- A codeword error of an L2 (R293). -/
theorem State.faultEvent_l2 (s : State) (q : QuireId) {src : Nat} (h : src = 0 ∨ src = 1) (info : Word) (l : Nat) (fl : List Nat) :
    s.faultEvent (.l2 q) src info l fl = s.l2Error q.val l fl := by
  rcases h with rfl | rfl <;> rfl

/-- A codeword error of an L3 slice (R293). -/
theorem State.faultEvent_l3 (s : State) (h : HomeId) {src : Nat} (hs : src = 0 ∨ src = 1) (info : Word) (l : Nat) (fl : List Nat) :
    s.faultEvent (.home h) src info l fl = s.l3Error h.val l fl := by
  rcases hs with rfl | rfl <;> rfl

/-- A line that the L2 does not hold has no codeword in error. -/
theorem State.l2Error_unheld {s : State} {q l : Nat} (h : (s.qline q l).st = .i) (fl : List Nat) : s.l2Error q l fl = s :=
  if_pos h

/-- A codeword error in a line of an L2 that can be corrected (R293). -/
theorem State.l2Error_corrected {s : State} {q : QuireId} {l : Nat} {fl : List Nat} {d : Line} (h : (s.qline q.val l).st ≠ .i)
    (hd : arrayRead l (s.qline q.val l).data fl = some d) : s.l2Error q.val l fl =
      (s.setQline q.val l { s.qline q.val l with data := d }).fault (.l2 q) 0 (w36 (l2SetOf l)) := by
  simp only [State.l2Error, if_neg h, hd, quireFin, Fin.ofNat_val_eq_self]

/-- One that cannot poisons the line (R293). -/
theorem State.l2Error_poisoned {s : State} {q : QuireId} {l : Nat} {fl : List Nat} (h : (s.qline q.val l).st ≠ .i)
    (hd : arrayRead l (s.qline q.val l).data fl = none) : s.l2Error q.val l fl =
      (s.setQline q.val l { s.qline q.val l with data := poisonLine }).fault (.l2 q) 1 (w36 l) := by
  simp only [State.l2Error, if_neg h, hd, quireFin, Fin.ofNat_val_eq_self]

/-- A line that the L3 slice does not hold has no codeword in error. -/
theorem State.l3Error_unheld {s : State} {h l : Nat} (hx : s.l3Line h l = none) (fl : List Nat) : s.l3Error h l fl = s := by
  simp only [State.l3Error, hx]

/-- A codeword error in a line of an L3 slice that can be corrected (R293). -/
theorem State.l3Error_corrected {s : State} {h : HomeId} {l : Nat} {fl : List Nat} {x : L3Line} {d : Line}
    (hx : s.l3Line h.val l = some x) (hd : arrayRead l x.data fl = some d) : s.l3Error h.val l fl =
      (s.setL3 h.val l (some { x with data := d })).fault (.home h) 0 (w36 l) := by
  simp only [State.l3Error, hx, hd, Fin.ofNat_val_eq_self]

/-- One that cannot poisons the line (R293). -/
theorem State.l3Error_poisoned {s : State} {h : HomeId} {l : Nat} {fl : List Nat} {x : L3Line} (hx : s.l3Line h.val l = some x)
    (hd : arrayRead l x.data fl = none) : s.l3Error h.val l fl =
      (s.setL3 h.val l (some { x with data := poisonLine })).fault (.home h) 1 (w36 l) := by
  simp only [State.l3Error, hx, hd, Fin.ofNat_val_eq_self]

/-! Injections. -/

/-- The two tests of inequality agree. -/
theorem filter_bne {α : Type} [DecidableEq α] (xs : List α) (a : α) : xs.filter (· != a) = xs.filter (· ≠ a) :=
  List.filter_congr fun x _ => by rw [bne, beq_eq_decide, decide_not]

/-- A write of FINJ arms or replaces the block's injection, unless it names an undefined source or the reserved code (R620). -/
theorem State.finjWrite_eq (s : State) (b : Blk) (v : Word) : s.finjWrite b v =
    if (faultSources b).length ≤ field v 0 4 ∨ field v 6 8 = 6 then s
    else ({ s with injWait := s.injWait.filter (· ≠ b) } : State).setReg b 0o777704 (setField v 9 17 0) := by
  rw [← filter_bne]
  rfl

/-- An injection that is not armed does not fire. -/
theorem State.injFire_unarmed {s : State} {b : Blk} (h : s.rbit b 0o777704 5 = false) : s.injFire b = s := by
  rw [State.injFire, h, Bool.not_false, if_pos rfl]

/-- One whose source is shadowed waits (R621). -/
theorem State.injFire_shadowed {s : State} {b : Blk} (h : s.rbit b 0o777704 5 = true)
    (hsh : s.shadowed b (s.fld b 0o777704 0 4) = true) (hw : b ∉ s.injWait) :
    s.injFire b = ({ s with injWait := s.injWait ++ [b] } : State) := by
  simp [State.injFire, h, hsh, hw]

/-- One that fires disarms FINJ and records as injected, with IREACT as its reaction (R620). -/
theorem State.injFire_armed {s : State} {b : Blk} (h : s.rbit b 0o777704 5 = true)
    (hsh : s.shadowed b (s.fld b 0o777704 0 4) = false) :
    s.injFire b = (({ s with injWait := s.injWait.filter (· ≠ b) } : State).setFld b 0o777704 5 5 0).fault b (s.fld b 0o777704 0 4)
      (s.reg b 0o777704) (some (s.fld b 0o777704 6 8)) := by
  simp only [State.injFire, h, hsh, Bool.not_true, Bool.false_eq_true, if_false, filter_bne]
  simp only [State.fld]

/-- What an injection adds to a real fault of its source in the same cycle: it no longer waits, FINJ is disarmed, and INJ is set (R621). -/
def State.injJoined (s : State) (b : Blk) (src : Nat) : State :=
  (({ s with injWait := s.injWait.filter (· ≠ b) } : State).setFld b 0o777704 5 5 0).setFld b 0o777700 (18 + src) (18 + src) 1

/-- An injection that meets a real fault of its source: the fault records, the injection joins it, in FFIRST too where that held no event
(R610, R621). -/
theorem State.injMeets_armed {s : State} {b : Blk} {src : Nat} (hsrc : s.fld b 0o777704 0 4 = src) (h : s.rbit b 0o777704 5 = true)
    (hsh : s.shadowed b src = false) (hlt : src < (faultSources b).length) (hp : plainSource b src = true) (info : Word) (l : Nat)
    (fl : List Nat) :
    s.injMeets b info l fl =
      if s.rbit b 0o777706 0 = false ∧ ((s.fault b src info).injJoined b src).fld b 0o777706 3 7 = src then
        ((s.fault b src info).injJoined b src).setFld b 0o777706 1 1 1
      else (s.fault b src info).injJoined b src := by
  have hsrc36 : src < 36 := hsrc ▸ (Nat.mod_lt _ (by decide)).trans (by decide : 2 ^ 5 < 36)
  have hreal : (s.fault b src info).rbit b 0o777700 src = true := s.rbit_fault_real info hsrc36 hsh
  subst hsrc
  unfold State.injMeets
  simp only [s.faultEvent_plain hlt hp, h, hsh, hreal, Bool.true_eq_false, Bool.false_eq_true, or_self, if_false, filter_bne,
    Bool.and_eq_true, Bool.not_eq_true', beq_iff_eq]
  rfl

/-- A shadow that ends with no injection waiting (R618). -/
theorem State.shadowEnd_noWait {s : State} {b : Blk} (h : s.shadowHeld b = false) (hw : s.injWait = []) :
    s.shadowEnd b = ({ s with shadows := s.shadows.filter fun x => x.1 ≠ b } : State) := by
  have hf : (s.shadows.filter fun x => x.1 != b) = s.shadows.filter fun x => x.1 ≠ b :=
    List.filter_congr fun x _ => by rw [bne, beq_eq_decide, decide_not]
  simp only [State.shadowEnd, h, Bool.false_eq_true, if_false, hw, List.foldl_nil, hf]

/-! The register port: accesses held at a block in reset. -/

/-- What is held at a block, in the order in which it came. -/
def State.heldInOrder (s : State) (b : Blk) : List (Nat × HeldAny) :=
  (((s.heldAt b).map fun e => (e.1, HeldAny.insn e.2.1 e.2.2)) ++
    (s.portHeld.filter fun e => heldBlk e.1 == b).map fun e => (e.2.2, HeldAny.port e)).foldr insertHeld []

/-- A block that leaves reset makes what was held at it, in order (R44, R613). -/
theorem State.resetOver_eq {s : State} {b : Blk} (hb : b ∈ s.inReset) :
    s.resetOver b = ((s.leaveReset b).heldInOrder b).foldl (fun s e => s.heldMade e.2)
      ({ s.leaveReset b with portHeld := (s.leaveReset b).portHeld.filter fun e => heldBlk e.1 != b } : State) := by
  unfold State.resetOver
  rw [if_neg (by simp [hb])]
  rfl

/-- Nothing is held at the block. -/
theorem State.resetOver_noneHeld {s : State} {b : Blk} (hb : b ∈ s.inReset) (hi : (s.leaveReset b).heldAt b = [])
    (hp : ∀ e ∈ (s.leaveReset b).portHeld, heldBlk e.1 ≠ b) : s.resetOver b = s.leaveReset b := by
  have mine : ((s.leaveReset b).portHeld.filter fun e => heldBlk e.1 == b) = [] :=
    List.filter_eq_nil_iff.2 fun e he => by simpa using hp e he
  have others : ((s.leaveReset b).portHeld.filter fun e => heldBlk e.1 != b) = (s.leaveReset b).portHeld :=
    List.filter_eq_self.2 fun e he => by simpa using hp e he
  rw [State.resetOver_eq hb, State.heldInOrder, hi, mine, others]
  rfl

/-- The accesses of an instruction and of the console path at one block come in the order of their numbers. -/
theorem State.resetOver_two {s : State} {b : Blk} {k c : Nat} {i : Instr} {e : HeldReg × Nat × Nat} (hb : b ∈ s.inReset)
    (hi : (s.leaveReset b).heldAt b = [(k, c, i)]) (hp : (s.leaveReset b).portHeld = [e]) (he : heldBlk e.1 = b) :
    s.resetOver b =
      if k ≤ e.2.2 then (({ s.leaveReset b with portHeld := [] } : State).heldAgain c i).portAgain e
      else (({ s.leaveReset b with portHeld := [] } : State).portAgain e).heldAgain c i := by
  have order : (s.leaveReset b).heldInOrder b =
      if k ≤ e.2.2 then [(k, .insn c i), (e.2.2, .port e)] else [(e.2.2, .port e), (k, .insn c i)] := by
    simp [State.heldInOrder, hi, hp, he, insertHeld]
  rw [State.resetOver_eq hb, order, hp]
  split <;> simp [he, State.heldMade]

/-- An access of the console path alone. -/
theorem State.resetOver_port {s : State} {b : Blk} {e : HeldReg × Nat × Nat} (hb : b ∈ s.inReset)
    (hi : (s.leaveReset b).heldAt b = []) (hp : (s.leaveReset b).portHeld = [e]) (he : heldBlk e.1 = b) :
    s.resetOver b = ({ s.leaveReset b with portHeld := [] } : State).portAgain e := by
  have order : (s.leaveReset b).heldInOrder b = [(e.2.2, .port e)] := by
    simp [State.heldInOrder, hi, hp, he, insertHeld]
  rw [State.resetOver_eq hb, order, hp]
  simp [he, State.heldMade]

/-- A held register write is made, or ends with STATE after the limit (R590). -/
theorem State.portAgain_write (s : State) (h : ConHdr) (b : Blk) (vs : List (Nat × Word)) (t k : Nat) :
    s.portAgain (.write h b vs, t, k) =
      if t + 65536 < s.clock.toNat then s.conAns h 7 (replyWords [0]) else s.regWriteGo h b vs := by
  unfold State.portAgain
  exact if_congr decide_eq_true_iff rfl rfl

/-- Setting a cause of ISTAT abandons no access. -/
theorem State.istat_heldFw (s : State) (v : Nat) : (s.istat v).heldFw = s.heldFw := by
  have due : ∀ u : State, (u.msiDue 0 v).heldFw = u.heldFw := fun u => by
    unfold State.msiDue
    split <;> rfl
  rw [State.istat, apply_ite State.heldFw, due, State.setBar_heldFw, ite_self]

/-- The event log names no abandoned access. -/
theorem State.logEvent_heldFw (s : State) (kind sh subject : Nat) (detail : Word) :
    (s.logEvent kind sh subject detail).heldFw = s.heldFw := by
  simp only [State.logEvent, State.istat_heldFw, State.setMail, State.setEasel_heldFw, State.free]

/-- The first retry of an access at a block still in reset is logged (R590, R597). -/
theorem State.fwRetry_inReset {s : State} {r : RegAt} (hm : s.mtUp = true) (hr : r.blk ∈ s.inReset) (hf : r ∉ s.heldFw) :
    s.fwRetry r = ({ s.logEvent 8 0 (blkDigits r.blk) (w36 r.off.val) with
      heldFw := (s.logEvent 8 0 (blkDigits r.blk) (w36 r.off.val)).heldFw ++ [r] } : State) := by
  simp [State.fwRetry, hm, hr, hf, State.fwAbandon, State.logEvent_heldFw]

/-- The retry of an access at a block out of reset makes it (R590). -/
theorem State.fwRetry_made {s : State} {r : RegAt} {v : Word} {con : Bool} {t k : Nat} (hm : s.mtUp = true)
    (hr : r.blk ∉ s.inReset) (hp : s.portHeld = [(.single r v con, t, k)]) :
    s.fwRetry r = (({ s with heldFw := s.heldFw.filter (· ≠ r), portHeld := [] } : State).portWrite con r.blk r.off.val v) := by
  rw [← filter_bne]
  simp [State.fwRetry, hm, hr, hp]

/-- IN and OUT held too long end with "addressing" (R43). -/
theorem State.heldTimeout_io {s s1 : State} {c : Nat} {i : Instr} {n : Insn} {b : Blk} {t k : Nat} (hr : (s.core c).run = .held i b t k)
    (hb : b ∈ s.inReset) (ha : (s.core c).active = true) (hi : i = .ioIn n ∨ i = .ioOut n)
    (ht : (s.setCore c { s.core c with run := .running }).takeTrap c (.check 5 []) = some s1) :
    s.heldTimeout c = s1.paused c := by
  have ends : (s.setCore c { s.core c with run := .running }).heldEnds c i = s1 := by
    rcases hi with rfl | rfl <;> simp only [State.heldEnds, ht, Option.getD_some]
  simp only [State.heldTimeout, hr, List.contains_iff_mem.2 hb, ha, Bool.and_self, if_true, ends]

/-- A read of a register of a block out of reset answers with what the port shows (R17). -/
theorem State.readOut_go {s : State} {r : RegAt} (hr : r.blk ∉ s.inReset) :
    s.readOut r = (s.portRead true r.blk r.off.val).2.emit (.regValue r.blk r.off.val (s.portRead true r.blk r.off.val).1) := by
  unfold State.readOut
  rw [if_neg (by simp [hr])]

/-- An access of the console path is held where its block is in reset (R590). -/
theorem State.consoleHeld_eq (s : State) (b : Blk) (i : HeldReg) (f : State → State) :
    s.consoleHeld b i f = if b ∈ s.inReset then s.heldAtPort i else f s := by
  simp only [State.consoleHeld, List.contains_iff_mem]
  rfl

end Sys2Proof.Machine

open Sys2Proof Sys2Proof.Machine

/-- Settles O57, row by row: each row is its operation once the module is out of reset, and the operation's lemma for the case gives the
state. The one clause that needs more is an injection that meets a real fault: there the fault must have set its REAL bit
(`State.rbit_fault_real`). -/
theorem faultRows : Obligations.FaultRows := by
  intro s ha
  refine ⟨?undefined, ?plain, ?dead, ?lines, ?finj, ?inject, ?shadow, ?resetEnd, ?retry, ?timeout, ?port⟩
  case undefined =>
    intro b src info l fs h
    rw [exec_faultEvent_one ha, State.faultEvent_undefined s h]
  case plain =>
    intro b src src2 info info2 l fs h hp
    refine ⟨?_, fun hlt h2 hp2 => exec_faultEvent_two ha b hlt h h2 hp hp2 info info2 l fs⟩
    rw [exec_faultEvent_one ha, State.faultEvent_plain s h hp]
  case dead =>
    intro q info l fs
    exact ⟨exec_faultEvent_one ha .., exec_faultEvent_one ha .., exec_faultEvent_one ha .., exec_faultEvent_one ha ..,
      exec_faultEvent_one ha ..⟩
  case lines =>
    intro c q h info l fs src hsrc
    have inL1 : (src + 1).val = 1 ∨ (src + 1).val = 2 := by revert src; decide
    have inArray : src.val = 0 ∨ src.val = 1 := by revert src; decide
    simp only [exec_faultEvent_one ha, State.faultEvent_l1 s c inL1, State.faultEvent_l2 s q inArray, State.faultEvent_l3 s h inArray]
    refine ⟨⟨fun hd => ?_, fun hd => ?_⟩, ⟨fun hx => ?_, fun d hx hd => ?_, fun hx hd => ?_⟩, fun hx => ?_,
      fun x hx => ⟨fun d hd => ?_, fun hd => ?_⟩⟩
    · rw [if_pos hd]
    · rw [if_neg hd]
    · rw [State.l2Error_unheld hx]
    · rw [State.l2Error_corrected hx hd]
    · rw [State.l2Error_poisoned hx hd]
    · rw [State.l3Error_unheld hx]
    · rw [State.l3Error_corrected hx hd]
    · rw [State.l3Error_poisoned hx hd]
  case finj =>
    intro b v
    rw [exec_finjWrite, execFinjWrite, ends_whenAlive ha, State.finjWrite_eq]
  case inject =>
    intro b
    have alone : exec (.injectionFire b none) s = .next (s.injFire b).follow := by
      rw [exec_injectionFire, execInjectionFire, ends_whenAlive ha]
    have withReal : ∀ info (l : LineAddr) fs, exec (.injectionFire b (some (info, l, fs))) s =
        .next (s.injMeets b info l.val (fs.map (·.val))).follow := fun info l fs => by
      rw [exec_injectionFire, execInjectionFire, ends_whenAlive ha]
    rw [alone]
    refine ⟨fun h => ?_, fun h hsh => ⟨?_, fun info l fs hlt hp => ?_⟩, fun h hsh hw => ?_⟩
    · rw [State.injFire_unarmed h]
    · rw [State.injFire_armed h hsh]
    · rw [withReal, State.injMeets_armed rfl h hsh hlt hp]
      rfl
    · rw [State.injFire_shadowed h hsh hw]
  case shadow =>
    intro b h hw
    rw [exec_resetShadowEnd, execResetShadowEnd, ends_whenAlive ha, State.shadowEnd_noWait h hw]
  case resetEnd =>
    intro b hb
    have row : exec (.blockResetEnd b) s = .next (s.resetOver b).follow := by
      rw [exec_blockResetEnd, execBlockResetEnd, ends_whenAlive ha]
    rw [row]
    refine ⟨fun hi hp => ?_, fun h vs t k hi hp => ?_, fun k c i e hi hp he => ?_⟩
    · rw [State.resetOver_noneHeld hb hi hp]
    · rw [State.resetOver_port hb hi hp rfl, State.portAgain_write]
    · rw [State.resetOver_two hb hi hp he]
  case retry =>
    intro r hm
    rw [exec_heldAccessRetry, execHeldAccessRetry, ends_whenAlive ha]
    refine ⟨fun hr hf => ?_, fun v con t k hr hp => ?_⟩
    · rw [State.fwRetry_inReset hm hr hf]
    · rw [State.fwRetry_made hm hr hp]
  case timeout =>
    intro c i b n t k s1 hr hb hk hi ht
    rw [exec_accessTimeout, execAccessTimeout, ends_whenAlive ha, State.heldTimeout_io hr hb hk hi ht]
  case port =>
    intro r
    refine ⟨fun hr => ?_, fun v con => ?_⟩
    · rw [exec_readClear, execReadClear, ends_whenAlive ha, State.readOut_go hr]
    · rw [exec_registerWrite, execRegisterWrite, ends_whenAlive ha, State.consoleHeld_eq]

end

section
/-! IN and OUT (O27): the checks of their address, the access they reach, what each does there, and the rows from them. -/

namespace Sys2Proof.Machine
open Sys2Proof

/-! Stops. -/

/-- A stop that undoes the instruction leaves it trapped; one that waits leaves the state before it. -/
theorem outcome_trap (s : State) (c : Nat) (t : Trap) (met : State) :
    outcome s c (.error { trap := t, keep := none, met := met }) = s.trapped c met t := by
  cases t <;> rfl

/-- A wait that keeps a state leaves that state. -/
theorem outcome_stall (s : State) (c : Nat) (k met : State) :
    outcome s c (.error { trap := .stall, keep := some k, met := met }) = k.follow := rfl

/-- An effect that ends well leaves its state, with what follows it. -/
theorem outcome_ok {s u t : State} {c : Nat} {m : M Unit} (h : m.run u = .ok ((), t)) : outcome s c (m.run u) = s.after c t := by
  rw [h]
  rfl

/-! The target of an access. -/

/-- The checks of R42 in the terms of the address's digits. -/
theorem State.ioCheck_eq (s : State) (c : Nat) (write : Bool) (a : Word) :
    s.ioCheck c write a =
      if dbit (s.core c).psw 0 = true ∧ field a 0 2 ≤ 3 then .error (.check 0o002 [])
      else if 5 ≤ field a 0 2 then .error (.check 0o005 [])
      else if field a 0 2 = 4 then
        if s.window ((s.core c).sheet.getD 64) (field a 3 8) = .unbound then .error (.freeze (if write then 0o16 else 0o05) a.toNat)
        else .ok (.win (field a 3 8) (field a 9 35))
      else if blkOfDigits (field a 0 17) c = none then .error (.check 0o005 [])
      else if s.programReach c ((s.core c).sheet.getD 64) ((blkOfDigits (field a 0 17) c).getD .endpt) write = true then
        .ok (.reg ((blkOfDigits (field a 0 17) c).getD .endpt) (field a 18 35))
      else .error (.freeze (if write then 0o16 else 0o05) a.toNat) := by
  unfold State.ioCheck
  simp only [pswProb, Bool.and_eq_true, decide_eq_true_eq]
  cases blkOfDigits (field a 0 17) c with
  | none => rfl
  | some b => rfl

/-- The state in which an access is made: an IN emits the gather buffer, an OUT leaves it (R277). -/
def State.accessing (s : State) (c : Nat) (write : Bool) : State := if write then s else s.gatherEmit c

/-- The state in which an IN is made. -/
theorem State.accessing_in (s : State) (c : Nat) : s.accessing c false = s.gatherEmit c := rfl

/-- An OUT that is to be gathered, which waits for no earlier OUT (R277). -/
def State.gathers (s : State) (c : Nat) (write : Bool) : IoAt → Bool
  | .win w _ => write && s.rbit .deckle (rattrAt ((s.core c).sheet.getD 64) w) 1
  | .reg _ _ => false

section
variable {before s : State} {c : Nat} {i : Instr} {write : Bool} {a : Nat} {x : IoAt} (k : IoAt → M Unit)

/-- An access whose checks fail is trapped (R42). -/
theorem outcome_ioTarget_error {t : Trap} (h : s.ioCheck c write (BitVec.ofNat 36 a) = .error t) :
    outcome before c ((ioTarget before c i write a >>= k).run s) = before.trapped c s t := by
  have stops : (ioTarget before c i write a).run s = .error { trap := t, keep := none, met := s } := by
    unfold ioTarget
    rw [run_bind_ok (a := s) (s1 := s) rfl, w36, h]
    rfl
  rw [run_bind_error stops, outcome_trap]

/-- An access to a block in reset is held there (R43). -/
theorem outcome_ioTarget_inReset (h : s.ioCheck c write (BitVec.ofNat 36 a) = .ok x) (hr : s.ioBlk c x ∈ s.inReset) :
    outcome before c ((ioTarget before c i write a >>= k).run s) =
      (before.accessing c write).heldBy c i (s.ioBlk c x) (pswIa (s.core c).psw) := by
  have hb : s.inReset.contains (s.ioBlk c x) = true := List.contains_iff_mem.2 hr
  unfold ioTarget
  simp only [bind_assoc]
  rw [run_bind_ok (a := s) (s1 := s) rfl, w36, h]
  simp only [hb, if_true]
  cases write <;> rfl

/-- An access to a block out of reset is made, but that it waits for an earlier OUT not performed where it is not to be gathered (R268,
R277). -/
theorem ioTarget_run (h : s.ioCheck c write (BitVec.ofNat 36 a) = .ok x) (hr : s.ioBlk c x ∉ s.inReset) :
    (ioTarget before c i write a).run s =
      (if (s.accessing c write).outOpen c && !(s.accessing c write).gathers c write x then
        stopWith .stall (before.accessing c write) else pure x : M IoAt).run (s.accessing c write) := by
  have hb : s.inReset.contains (s.ioBlk c x) = false := by simpa using hr
  have waits (b : Bool) (t u : State) : (if b then (do stopWith .stall u; pure x) else pure x : M IoAt).run t =
      (if b then stopWith .stall u else pure x : M IoAt).run t := by cases b <;> rfl
  unfold ioTarget
  rw [run_bind_ok (a := s) (s1 := s) rfl, w36, h]
  simp only [hb, Bool.false_eq_true, if_false]
  cases write <;> cases x <;> exact waits _ _ _

/-- An access that waits. -/
theorem outcome_ioTarget_waits (h : s.ioCheck c write (BitVec.ofNat 36 a) = .ok x) (hr : s.ioBlk c x ∉ s.inReset)
    (ho : (s.accessing c write).outOpen c = true) (hg : (s.accessing c write).gathers c write x = false) :
    outcome before c ((ioTarget before c i write a >>= k).run s) = (before.accessing c write).follow := by
  have stops := ioTarget_run (before := before) (i := i) h hr
  rw [ho, hg] at stops
  rw [run_bind_error stops, outcome_stall]

/-- An access that is made. -/
theorem ioTarget_made (h : s.ioCheck c write (BitVec.ofNat 36 a) = .ok x) (hr : s.ioBlk c x ∉ s.inReset)
    (ho : (s.accessing c write).outOpen c = false ∨ (s.accessing c write).gathers c write x = true) :
    (ioTarget before c i write a >>= k).run s = (k x).run (s.accessing c write) := by
  have goes := ioTarget_run (before := before) (i := i) h hr
  rw [if_neg (by rcases ho with ho | ho <;> simp [ho])] at goes
  exact run_bind_ok goes

end

/-! IN. -/

/-- What an IN of a window bound to `v` does: a queue word, or the data of a root port when they are there (R193, R276, R571). -/
def ioInWindow (before s : State) (n : Insn) (rs : List Rdy) (o : Nat) : Window → M Unit
  | .queue q => writeOp n.core.val false (opAt rs 0) (s.sqWord q o).toNat
  | .rootp t i fn =>
    if s.contained t i then writeOp n.core.val false (opAt rs 0) (2 ^ 36 - 1)
    else
      let s2 := (before.gatherEmit n.core.val).emit (.devRead t i fn o)
      stopWith .stall (s2.setCore n.core.val { s2.core n.core.val with run := .devIn n (2 * t + i) })
  | .unbound => pure ()

/-- What an IN does at its target (R44, R193). -/
def ioInAt (before : State) (n : Insn) (rs : List Rdy) : IoAt → M Unit
  | .reg b o => do
    let s ← get
    set (s.portRead false b o).2
    writeOp n.core.val false (opAt rs 0) (s.portRead false b o).1.toNat
  | .win w o => do
    let s ← get
    ioInWindow before s n rs o (s.window ((s.core n.core.val).sheet.getD 64) w)

/-- An IN whose operands are ready and whose address is read makes its access. -/
theorem exec_ioIn_run {n : Insn} {s s1 sf s2 s' : State} {d : Dec} {fs : List Formed} {rs : List Rdy} {a : Nat} (h : Begins tIn n s d s1)
    (hf : Forms n.core.val d s1 fs sf) (hr : (readyOps n.core.val false fs).run sf = .ok (rs, s2))
    (ha : (readOp n.core.val false (opAt rs 1)).run s2 = .ok (a, s')) :
    exec (.ioIn n) s = .next (outcome s n.core.val ((ioTarget s n.core.val (.ioIn n) false a >>= ioInAt s n rs).run s')) := by
  rw [exec_ioIn, execIoIn, isa_run h, run_bind_ok hf]
  simp only []
  rw [run_bind_ok hr, run_bind_ok ha]
  rfl

section
variable {before s s4 : State} {n : Insn} {rs : List Rdy} {o : Nat}

/-- An IN of a register reads it (R44). -/
theorem ioInAt_reg {b : Blk} (h : Deposits (s.portRead false b o).2 n.core.val false (opAt rs 0) (s.portRead false b o).1.toNat s4) :
    (ioInAt before n rs (.reg b o)).run s = .ok ((), s4) := by
  rw [ioInAt, run_bind_ok (a := s) (s1 := s) rfl, run_bind_ok (a := ()) (s1 := (s.portRead false b o).2) rfl, writeOp_run h]

/-- An IN of a window does what the window's binding says. -/
theorem ioInAt_win {w : Nat} {v : Window} (hv : s.window ((s.core n.core.val).sheet.getD 64) w = v) :
    (ioInAt before n rs (.win w o)).run s = (ioInWindow before s n rs o v).run s := by
  subst hv
  rfl

/-- An IN of a queue window reads a queue word (R276). -/
theorem ioInWindow_queue {q : Nat} (h : Deposits s n.core.val false (opAt rs 0) (s.sqWord q o).toNat s4) :
    (ioInWindow before s n rs o (.queue q)).run s = .ok ((), s4) := writeOp_run h

/-- An IN of a contained root port reads all ones (R571). -/
theorem ioInWindow_contained {t i fn : Nat} (hc : s.contained t i = true) (h : Deposits s n.core.val false (opAt rs 0) (2 ^ 36 - 1) s4) :
    (ioInWindow before s n rs o (.rootp t i fn)).run s = .ok ((), s4) := by
  rw [ioInWindow, if_pos hc, writeOp_run h]

/-- An IN of any other root port sends a device read and waits for its data (R276). -/
theorem outcome_ioInWindow_sent {t i fn : Nat} (hc : s.contained t i = false) :
    outcome before n.core.val ((ioInWindow before s n rs o (.rootp t i fn)).run s) =
      (let s2 := (before.gatherEmit n.core.val).emit (.devRead t i fn o)
      s2.setCore n.core.val { s2.core n.core.val with run := .devIn n (2 * t + i) }).follow := by
  rw [ioInWindow, if_neg (by rw [hc]; exact Bool.false_ne_true)]
  rfl

end

/-! OUT. -/

/-- What an OUT does at its target (R193, R276, R277). -/
def State.ioOutAt (s : State) (c : Nat) (v : Word) : IoAt → State
  | .reg b o => (s.gatherEmit c).portWrite false b o v
  | .win w o => s.windowOut c w o v

/-- An OUT whose address and value are read makes its access. -/
theorem exec_ioOut_run {n : Insn} {s s1 sf s2 s2' s' : State} {d : Dec} {fs : List Formed} {rs : List Rdy} {a v : Nat}
    (h : Begins tOut n s d s1) (hf : Forms n.core.val d s1 fs sf) (hr : (readyOps n.core.val false fs).run sf = .ok (rs, s2))
    (ha : (readOp n.core.val false (opAt rs 0)).run s2 = .ok (a, s2')) (hv : (readOp n.core.val false (opAt rs 1)).run s2' = .ok (v, s')) :
    exec (.ioOut n) s = .next (outcome s n.core.val ((ioTarget s n.core.val (.ioOut n) true a >>= fun x =>
      modify fun s => s.ioOutAt n.core.val (BitVec.ofNat 36 v) x).run s')) := by
  rw [exec_ioOut, execIoOut, isa_run h, run_bind_ok hf]
  simp only []
  rw [run_bind_ok hr, run_bind_ok ha, run_bind_ok hv]
  congr 4
  funext x
  cases x <;> rfl

/-- An OUT that is not to be gathered is sent by itself, after the gather buffer (R277). -/
theorem State.windowOut_sent {s : State} {c w : Nat} (h : s.rbit .deckle (rattrAt ((s.core c).sheet.getD 64) w) 1 = false) (o : Nat)
    (v : Word) : s.windowOut c w o v = (s.gatherEmit c).windowWrite c ((s.core c).sheet.getD 64) w [(o, v)] := by
  unfold State.windowOut
  simp only [h, Bool.false_eq_true, if_false]

/-- An OUT to word `o` of window `w` joins what a core has gathered: nothing yet, or words of the same block of the window (R277). -/
def Core.joins (k : Core) (w o : Nat) : Bool :=
  match k.gather with
  | some g => g.window == w && g.block == o / 16
  | none => true

/-- An OUT to be gathered joins the gather buffer, or starts a new gather after it (R277). -/
theorem State.windowOut_gathered {s : State} {c w : Nat} (h : s.rbit .deckle (rattrAt ((s.core c).sheet.getD 64) w) 1 = true) (o : Nat)
    (v : Word) : s.windowOut c w o v =
      let s3 := if (s.core c).joins w o then s else s.gatherEmit c
      let g := (s3.core c).gather.getD { window := w, block := o / 16, words := [] }
      s3.setCore c { s3.core c with gather := some { g with words := Tab.set (fun _ => none) g.words (o % 16) (some v) } } := by
  unfold State.windowOut Core.joins
  simp only [h, if_true]
  cases (s.core c).gather <;> rfl

end Sys2Proof.Machine

open Sys2Proof Sys2Proof.Machine

/-- Settles O27. An IN or OUT whose operands are read is its access followed by what it does at its target (`exec_ioIn_run`,
`exec_ioOut_run`); the access is trapped, held, made to wait or made (the lemmas of `ioTarget`), and what is done at a target is one lemma
for each kind of target. -/
theorem inOutRows : Obligations.InOutRows := by
  refine ⟨⟨?ioIn, ?ioOut⟩, fun s c write a => s.ioCheck_eq c write a⟩
  case ioIn =>
    intro n s d s1 fs sf rs s2 a s' hb c hf hr ha w s3 e
    rw [exec_ioIn_run hb hf hr ha]
    refine ⟨fun t ht => ?_, fun x hx hin => ?_, fun x hx hin ho => ?_, fun x hx hin ho => ?_⟩
    · rw [outcome_ioTarget_error _ ht]
    · rw [outcome_ioTarget_inReset _ hx hin]
      rfl
    · rw [outcome_ioTarget_waits _ hx hin ho (by cases x <;> rfl)]
      rfl
    · rw [ioTarget_made _ hx hin (.inl ho)]
      cases x with
      | reg b o => exact fun s4 h4 => congrArg _ (outcome_ok (ioInAt_reg h4))
      | win v o =>
        have bound := ioInAt_win (before := s) (n := n) (rs := rs) (s := s3) (w := v) (o := o) rfl
        dsimp only
        rw [State.accessing_in, bound]
        cases s3.window ((s3.core c).sheet.getD 64) v with
        | queue q => exact fun s4 h4 => congrArg _ (outcome_ok (ioInWindow_queue h4))
        | rootp t i fn =>
          exact ⟨fun hc s4 h4 => congrArg _ (outcome_ok (ioInWindow_contained hc h4)), fun hc => congrArg _ (outcome_ioInWindow_sent hc)⟩
        | unbound => rfl
  case ioOut =>
    intro n s d s1 fs sf rs s2 a s2' v s' hb c hf hr ha hv sh w u
    rw [exec_ioOut_run hb hf hr ha hv]
    refine ⟨fun t ht => ?_, fun x hx hin => ?_, fun b o hx hin => ?_, fun i o hx hin => ⟨fun hg => ?_, fun hg => ?_⟩⟩
    · rw [outcome_ioTarget_error _ ht]
    · rw [outcome_ioTarget_inReset _ hx hin]
      rfl
    · cases ho : s'.outOpen c with
      | true => rw [outcome_ioTarget_waits _ hx hin ho rfl]; rfl
      | false => rw [ioTarget_made _ hx hin (.inl ho)]; rfl
    · cases ho : s'.outOpen c with
      | true => rw [outcome_ioTarget_waits _ hx hin ho hg]; rfl
      | false =>
        rw [ioTarget_made _ hx hin (.inl ho)]
        exact congrArg (fun t => Host.Outcome.next (s.after c t)) (State.windowOut_sent hg o u)
    · rw [ioTarget_made _ hx hin (.inr hg)]
      exact congrArg (fun t => Host.Outcome.next (s.after c t)) (State.windowOut_gathered hg o u)

end

section
/-! Residency limits, disables and enables of a cache, the wake of an L2 and the failure of a Web port (O37): what each shared operation
does, one lemma a case, and the rows from them. -/

namespace Sys2Proof.Machine
open Sys2Proof

/-- A store of a register's field leaves the held writes of enables. -/
theorem State.setFld_heldEn (s : State) (b : Blk) (o lo hi v : Nat) : (s.setFld b o lo hi v).heldEn = s.heldEn := by
  rw [State.setFld, State.setReg_heldEn]

/-- The block of a core by its number. -/
theorem coreBlk_val (c : CoreId) : coreBlk c.val = .core c := by rw [coreBlk, coreFin, Fin.ofNat_val_eq_self]

/-! Residency. -/

/-- A line that the core's L1D holds dirty, under a residency limit, is written back, or lost to its parity error (R291, R295). -/
theorem State.residency_dirty {s : State} {c : CoreId} {l : Nat} (hr : s.fld (.core c) 0o220 6 9 ≠ 0)
    (hd : (s.qline (quireOf c.val) l).l1dirty = some c.val) (bad : Bool) :
    s.residency c.val l bad = if bad then s.recover c.val 4 l
      else s.setQline (quireOf c.val) l { s.qline (quireOf c.val) l with l1dirty := none } := by
  unfold State.residency
  rw [if_neg (by simp [coreBlk_val, hr, hd])]

/-- The recovery unit sheds an active core of a running sheet that loses a dirty line (R356). -/
theorem State.recover_dirty {s : State} {c l : Nat} (ha : (s.core c).cstate = .active)
    (hs : ∀ sh, (s.core c).sheet = some sh → (s.sheet sh).checkstop = false) (hd : (s.qline (quireOf c) l).l1dirty = some c) :
    s.recover c 4 l = s.shed c 4 [l] := by
  unfold State.recover
  cases h : (s.core c).sheet with
  | none => simp [Core.active, ha, hd]
  | some sh => simp [Core.active, ha, hd, hs sh h]

/-! Disables and enables. -/

/-- A disable of a cache that is off. -/
theorem State.cacheOff_off {s : State} {x : CacheSel} (h : s.cacheOn x = false) : s.cacheOff x = s := by
  unfold State.cacheOff
  rw [h, Bool.not_false, if_pos rfl]

/-- A disable of an L1I that is on (R302). -/
theorem State.cacheOff_l1i {s : State} {c : CoreId} (h : s.cacheOn (.l1i c) = true) :
    s.cacheOff (.l1i c) = ((s.l1Off c.val false).setFld (.core c) 0o220 0 0 0).setFld (.core c) 0o220 2 2 1 := by
  rw [State.cacheOff, h, Bool.not_true, if_neg Bool.false_ne_true]

/-- A disable of an L1D that is on (R302). -/
theorem State.cacheOff_l1d {s : State} {c : CoreId} (h : s.cacheOn (.l1d c) = true) :
    s.cacheOff (.l1d c) = ((s.l1Off c.val true).setFld (.core c) 0o220 1 1 0).setFld (.core c) 0o220 2 2 1 := by
  rw [State.cacheOff, h, Bool.not_true, if_neg Bool.false_ne_true]

/-- A disable of an L2 that is on (R302, R342). -/
theorem State.cacheOff_l2 {s : State} {q : QuireId} (h : s.cacheOn (.l2 q) = true) :
    s.cacheOff (.l2 q) = (s.setFld (.l2 q) 0 0 1 1).drainL2 q.val := by
  rw [State.cacheOff, h, Bool.not_true, if_neg Bool.false_ne_true]

/-- A cache shares its DRAINING bit with itself. -/
theorem mem_drainPeers (x : CacheSel) : x ∈ drainPeers x := by cases x <;> simp [drainPeers]

/-- A write of an enable takes effect where DRAINING is 0 (R305). -/
theorem State.enableWrite_notDraining {s : State} {x : CacheSel} (h : s.draining x = false) (v : Word) :
    s.enableWrite x v = s.enableApply x v := by
  rw [State.enableWrite, h]
  rfl

/-- A write that sets the enable of a cache that is off is held whole where DRAINING is 1 (R305). -/
theorem State.enableWrite_held {s : State} {x : CacheSel} {v : Word} (hd : s.draining x = true) (hoff : s.cacheOn x = false)
    (hv : dbit v (enableAt x).2.2 = true) : s.enableWrite x v = ({ s with heldEn := s.heldEn ++ [(x, v)] } : State) := by
  have sets : ((drainPeers x).any fun y => dbit v (enableAt y).2.2 && !s.cacheOn y) = true :=
    List.any_eq_true.2 ⟨x, mem_drainPeers x, by rw [hv, hoff]; rfl⟩
  unfold State.enableWrite
  rw [sets, hd]
  rfl

/-! Drains. -/

/-- A state without held writes has none to take away. -/
theorem State.with_heldEn_nil {s : State} (h : s.heldEn = []) : ({ s with heldEn := [] } : State) = s := by rw [← h]

/-- The drain of an L1I that ends with no write held (R302). -/
theorem State.drained_l1i {s : State} {c : CoreId} (hd : s.draining (.l1i c) = true) (hw : s.heldEn = []) :
    s.drained (.l1i c) = s.setFld (.core c) 0o220 2 2 0 := by
  have noneHeld : (s.setFld (.core c) 0o220 2 2 0).heldEn = [] := by rw [State.setFld_heldEn, hw]
  simp [State.drained, hd, noneHeld, State.with_heldEn_nil noneHeld]

/-- The drain of an L2 goes on while its quire holds a line (R302). -/
theorem State.drained_l2_busy {s : State} {q : QuireId} (h : ∃ y ∈ s.qlines, y.1 / 2 ^ 34 = q.val ∧ y.2.st ≠ .i) :
    s.drained (.l2 q) = s := by
  have busy : (s.qlines.any fun y => y.1 / 2 ^ 34 == q.val && y.2.st != .i) = true := by
    obtain ⟨y, hy, hq, hst⟩ := h
    exact List.any_eq_true.2 ⟨y, hy, by rw [hq, beq_self_eq_true, bne_iff_ne.2 hst, Bool.and_self]⟩
  unfold State.drained
  simp only [busy, if_true, ite_self]

/-- The drain of an L2 whose quire holds no line ends, with no write held (R302, R342). -/
theorem State.drained_l2 {s : State} {q : QuireId} (hd : s.draining (.l2 q) = true)
    (h : ∀ y ∈ s.qlines, y.1 / 2 ^ 34 = q.val → y.2.st = .i) (hw : s.heldEn = []) :
    s.drained (.l2 q) = s.setFld (.l2 q) 0 1 1 0 := by
  have idle : (s.qlines.any fun y => y.1 / 2 ^ 34 == q.val && y.2.st != .i) = false :=
    List.any_eq_false.2 fun y hy => by simpa using h y hy
  have noneHeld : (s.setFld (.l2 q) 0 1 1 0).heldEn = [] := by rw [State.setFld_heldEn, hw]
  simp only [State.drained, hd, idle, noneHeld, Bool.not_true, Bool.false_eq_true, if_false, List.filter_nil, List.foldl_nil]
  exact State.with_heldEn_nil noneHeld

/-! The wake of an L2. -/

/-- A wake that no large step still grants ends retention (R638). -/
theorem State.l2Awake_granted {s : State} {q : QuireId} (h : s.stepOpen (.quireWake q.val) = false) :
    s.l2Awake q.val = s.setFld (.qpwr q) 1 14 14 0 := by
  rw [State.l2Awake, h, if_neg Bool.false_ne_true, qpwrBlk, quireFin, Fin.ofNat_val_eq_self]

/-! The Web. -/

/-- A port that is up fails: it and its other end are fenced, with a fault at each (R32). -/
theorem State.webFence_up {s : State} {t : TileId} {p : Fin 7}
    (h : webPort t.val ((t.val + 1 + p.val) % 8) ∉ s.webDown) :
    let u := (t.val + 1 + p.val) % 8
    s.webFence t.val p.val =
      (({ s with webDown := s.webDown ++ [webPort t.val u, webPort u t.val] } : State).fault (.web t p) 0 (w36 u)).fault
        (.web (tileFin u) (Fin.ofNat 7 (6 - p.val))) 0 (w36 t.val) := by
  unfold State.webFence
  simp only [List.contains_iff_mem, h, if_false, tileFin, Fin.ofNat_val_eq_self]

/-- Tiles that all keep a path to each other lose nothing (R33). -/
theorem State.webCheck_connected {s : State} (h : ∀ x < 8, ∀ y < 8, x < y → s.tilePath x y = true) (down : List Nat) :
    s.webCheck down = s := by
  unfold State.webCheck
  extract_lets was pairs
  have lost : (pairs.filter fun x => was.tilePath x.1 x.2 && !s.tilePath x.1 x.2) = [] := by
    refine List.filter_eq_nil_iff.2 fun x hx => ?_
    obtain ⟨a, ha, b, hb, rfl⟩ : ∃ a < 8, ∃ b, (b < 8 ∧ a < b) ∧ (a, b) = x := by simpa [pairs] using hx
    simp [h a ha b hb.1 hb.2]
  rw [lost, List.foldl_nil]

end Sys2Proof.Machine

open Sys2Proof Sys2Proof.Machine

/-- Settles O37, row by row: each row is its operation, and the operation's lemma for the case gives the state. A line that a parity error
takes needs two: residency hands it to the recovery unit, which sheds the core (`State.recover_dirty`). -/
theorem cacheEvents : Obligations.CacheEvents := by
  refine ⟨?residency, ?switch, ?drainL2, ?wake, ?web⟩
  case residency =>
    intro c line s hr hd
    simp only [exec_residencyClean, execResidencyClean, ends_follow]
    refine ⟨?_, fun ha hs => ?_⟩
    · rw [State.residency_dirty hr hd, if_neg Bool.false_ne_true, quireOf]
    · rw [State.residency_dirty hr hd, if_pos rfl, State.recover_dirty ha hs hd]
  case switch =>
    intro c s
    simp only [exec_cacheDisable, execCacheDisable, exec_cacheEnable, execCacheEnable, exec_cacheDrainDone, execCacheDrainDone, ends_follow,
      State.cacheEnable]
    refine ⟨fun h => ?_, fun h => ?_, fun (h : s.cacheOn (.l1i c) = false) => ?_, fun q h => ?_,
      fun x => ⟨fun h => ?_, fun hd hoff hv => ?_⟩, fun hd hw => ?_⟩
    · rw [State.cacheOff_l1i h]
    · rw [State.cacheOff_l1d h]
    · rw [State.cacheOff_off h]
    · rw [State.cacheOff_l2 h]
    · rw [State.enableWrite_notDraining h]
    · rw [State.enableWrite_held hd hoff hv]
    · rw [State.drained_l1i hd hw]
  case drainL2 =>
    intro q s hd
    simp only [exec_cacheDrainDone, execCacheDrainDone, ends_follow]
    refine ⟨fun h => ?_, fun h hw => ?_⟩
    · rw [State.drained_l2_busy h]
    · rw [State.drained_l2 hd h hw]
  case wake =>
    intro q s h s1 hr
    have awake : s1.retentive q.val = false := by rw [State.retentive, quireFin, Fin.ofNat_val_eq_self, hr]
    simp only [exec_l2RetentionWake, execL2RetentionWake, State.l2Awake_granted h, ends_follow]
    exact if_neg (by rw [awake]; exact Bool.false_ne_true)
  case web =>
    intro t p s ha u hup s1 s2 hpath
    have fenced : s.webFence t.val p.val = s2 := State.webFence_up hup
    rw [exec_webPortFail, execWebPortFail, ends_whenAlive ha, State.webFail, fenced, State.webCheck_connected hpath]

end

section
/-! The console's commands on sheets and frozen masters (O51): what each does once firmware hears it, and the rows from them. -/

namespace Sys2Proof.Machine
open Sys2Proof

/-! Long commands at a sheet. -/

/-- A long command at a sheet: BUSY where another holds the sheet, else a token slot (R577, R583). -/
def State.sheetLong (s : State) (h : ConHdr) (op sh target : Nat) (run : State → Nat → State) : State :=
  if s.sheetHeld sh then s.conAns h 6 [] else s.conLong h op target run

section
variable {s : State} {h : ConHdr} {op sh target : Nat} (run : State → Nat → State)

/-- At a sheet that a long command holds it ends with BUSY (R577). -/
theorem State.sheetLong_held (hb : s.sheetHeld sh = true) : s.sheetLong h op sh target run = s.conAns h 6 [] := by
  rw [State.sheetLong, if_pos hb]

/-- At a free sheet it takes the lowest free slot and runs (R583, R586). -/
theorem State.sheetLong_go {k : Nat} (hb : s.sheetHeld sh = false) (hk : s.tokenSlot = some k) :
    s.sheetLong h op sh target run = run (s.started h op target k) k := by
  rw [State.sheetLong, if_neg (by rw [hb]; exact Bool.false_ne_true), conLong_go hk]

/-- Without a free slot it ends with NO_SLOT (R583). -/
theorem State.sheetLong_full (hb : s.sheetHeld sh = false) (hk : s.tokenSlot = none) :
    s.sheetLong h op sh target run = s.reply h.tag 0xE 0 [] := by
  rw [State.sheetLong, if_neg (by rw [hb]; exact Bool.false_ne_true), conLong_full hk]

end

/-! What each command runs once it has its slot. -/

/-- SHEET_START runs (R600). -/
def State.startRun (sh : Nat) (w : HostWord) (s : State) (k : Nat) : State :=
  if s.mayStart sh then (s.startSheet sh (devWord w)).slotDone k 0 else s.slotDone k 7

/-- Every active core of a sheet stops as for XCORE PAUSE (R581). -/
def State.pauseSheet (s : State) (sh : Nat) : State :=
  (List.range 192).foldl (fun s c => if (s.core c).sheet == some sh && (s.core c).active then s.pauseCore c else s) s

/-- SHEET_STOP runs (R581). -/
def State.stopRun (sh : Nat) (s : State) (k : Nat) : State :=
  if (s.sheet sh).running = false then s.slotDone k 7
  else ((s.pauseSheet sh).setSheet sh { (s.pauseSheet sh).sheet sh with running := false }).slotDone k 0

/-- SHEET_RESET runs, or waits for a couching of its sheet (R367, R581, R640). -/
def State.resetRun (sh flags : Nat) (s : State) (k : Nat) : State :=
  if s.validSheet sh = false ∨ (flags = 1 ∧ (s.sheet sh).start = none) then s.slotDone k 7
  else if s.couches sh then s else s.sheetResetOp sh (decide (flags = 1)) k

section
variable {h : ConHdr} {s s1 : State} {sh : Nat}

/-- SHEET_QUERY of a sheet with a service core, heard (R581). -/
theorem State.sheetQuery_heard {c : Nat} (H : Hears h 0x10 1 s s1) (hsh : sh < 64) (hc : s1.serviceCore sh = some c) :
    s.sheetQuery h sh = s1.conAns h 0 (replyWords
      [(s1.portView true .deckle (0o100 + sh)).1, w36 (b2n (s1.sheet sh).running), w36 c, ((s1.sheet sh).start).getD 0]) := by
  rw [State.sheetQuery, conCmd_go H _ _ (decide_eq_false (Nat.not_le.2 hsh)), hc]

/-- SHEET_START, heard (R577, R600). -/
theorem State.sheetStartOp_heard {w : HostWord} (H : Hears h 0x11 1 s s1) (hsh : sh < 64) (hw : w.toNat < 2 ^ 36) :
    s.sheetStartOp h sh w = s1.sheetLong h 0x11 sh sh (State.startRun sh w) := by
  rw [State.sheetStartOp, conCmd_go H _ _ (by simpa [wordBad] using ⟨hsh, hw⟩)]
  rfl

/-- SHEET_STOP, heard (R577, R581). -/
theorem State.sheetStopOp_heard (H : Hears h 0x12 1 s s1) (hsh : sh < 64) :
    s.sheetStopOp h sh = s1.sheetLong h 0x12 sh sh (State.stopRun sh) := by
  rw [State.sheetStopOp, conCmd_go H _ _ (decide_eq_false (Nat.not_le.2 hsh)), State.sheetLong]
  simp only [Bool.not_eq_true']
  rfl

/-- SHEET_RESET, heard (R367, R577, R581). -/
theorem State.sheetResetCmd_heard {flags : Nat} (H : Hears h 0x13 1 s s1) (hsh : sh < 64) (hf : flags < 2) :
    s.sheetResetCmd h sh flags = s1.sheetLong h 0x13 sh (sh + 64 * flags) (State.resetRun sh flags) := by
  rw [State.sheetResetCmd, conCmd_go H _ _ (by simpa using ⟨hsh, Nat.le_of_lt_succ hf⟩), State.sheetLong]
  simp only [Bool.or_eq_true, Bool.and_eq_true, Bool.not_eq_true', Option.isNone_iff_eq_none, beq_eq_decide, decide_eq_true_eq]
  rfl

/-! Frozen masters. -/

/-- MASTER_RELEASE of frozen master `f`: BUSY where a long command holds the master's sheet, else DISCARD or DELIVER; `s0` is the state
before the command, for an entry that must wait (R66, R67, R577). -/
def State.releaseMaster (s s0 : State) (h : ConHdr) (f : Frozen) (mode : Nat) : State :=
  if s.sheetHeld f.sheet then s.conAns h 6 []
  else if mode = 1 then (s.discardMaster f false).conAns h 0 []
  else match s.deliver f with
    | some t => t.conAns h 0 []
    | none => s0

/-- Where a long command holds the master's sheet it ends with BUSY (R577). -/
theorem State.releaseMaster_held {f : Frozen} (hb : s.sheetHeld f.sheet = true) (s0 : State) (mode : Nat) :
    s.releaseMaster s0 h f mode = s.conAns h 6 [] := by
  rw [State.releaseMaster, if_pos hb]

/-- DISCARD (R66, R67). -/
theorem State.releaseMaster_discard {f : Frozen} {mode : Nat} (hb : s.sheetHeld f.sheet = false) (hm : mode = 1) (s0 : State) :
    s.releaseMaster s0 h f mode = (s.discardMaster f false).conAns h 0 [] := by
  rw [State.releaseMaster, if_neg (by rw [hb]; exact Bool.false_ne_true), if_pos hm]

/-- DELIVER (R67). -/
theorem State.releaseMaster_deliver {f : Frozen} {mode : Nat} {t : State} (hb : s.sheetHeld f.sheet = false) (hm : mode = 0)
    (hd : s.deliver f = some t) (s0 : State) : s.releaseMaster s0 h f mode = t.conAns h 0 [] := by
  rw [State.releaseMaster, if_neg (by rw [hb]; exact Bool.false_ne_true), if_neg (hm ▸ Nat.zero_ne_one), hd]

section
variable {type ident mode : Nat} (H : Hears h 0x14 1 s s1) (hlo : 1 ≤ type) (hhi : type ≤ 5) (hi : ident < 2 ^ 18) (hm : mode < 2)
include H hlo hhi hi hm

/-- MASTER_RELEASE, heard: it looks for the master among the frozen (R67). -/
theorem State.masterRelease_heard :
    s.masterRelease h type ident mode =
      match s1.frozen.find? fun f => f.type == type && f.ident == ident with
      | none => s1.conAns h 7 []
      | some f => s1.releaseMaster s h f mode := by
  have inRange : (type == 0 || decide (5 < type) || decide (2 ^ 18 ≤ ident) || decide (1 < mode)) = false := by
    simp only [Bool.or_eq_false_iff, beq_eq_false_iff_ne, decide_eq_false_iff_not]
    omega
  exact conCmd_go H _ _ inRange

/-- MASTER_RELEASE, heard, of a master that is not frozen (R67). -/
theorem State.masterRelease_notFrozen (hf : ∀ f ∈ s1.frozen, ¬ (f.type = type ∧ f.ident = ident)) :
    s.masterRelease h type ident mode = s1.conAns h 7 [] := by
  have unfound : (s1.frozen.find? fun f => f.type == type && f.ident == ident) = none :=
    List.find?_eq_none.2 fun f hmem => by simpa using hf f hmem
  rw [State.masterRelease_heard H hlo hhi hi hm, unfound]

/-- MASTER_RELEASE, heard, of the first frozen master (R66, R67). -/
theorem State.masterRelease_first {f : Frozen} {r : List Frozen} (hf : s1.frozen = f :: r) (hft : f.type = type) (hfi : f.ident = ident) :
    s.masterRelease h type ident mode = s1.releaseMaster s h f mode := by
  have found : (s1.frozen.find? fun f => f.type == type && f.ident == ident) = some f := by
    rw [hf]
    exact List.find?_cons_of_pos (by simp [hft, hfi])
  rw [State.masterRelease_heard H hlo hhi hi hm, found]

end
end

end Sys2Proof.Machine

open Sys2Proof Sys2Proof.Machine

/-- Settles O51, row by row. Each of SHEET_START, SHEET_STOP and SHEET_RESET, heard, is a long command at its sheet (`State.sheetLong`),
which the sheet and the slots let run or not; MASTER_RELEASE turns on whether the master is among the frozen. -/
theorem consoleSheetRows : Obligations.ConsoleSheetRows := by
  intro h s s1 sh hsh
  have flagOne : ∀ fl : BitVec 32, fl.toNat = 1 ↔ fl = 1 := fun fl => BitVec.toNat_inj (y := 1)
  simp only [exec_sheetQuery, execSheetQuery, exec_sheetStart, execSheetStart, exec_sheetStop, execSheetStop, exec_sheetReset,
    execSheetReset, exec_masterRelease, execMasterRelease, ends_follow]
  refine ⟨?query, ?held, ?start, ?full, ?stop, ?reset, ?release⟩
  case query =>
    intro c H hc
    rw [State.sheetQuery_heard H hsh hc]
  case held =>
    intro hb w fl hw hf
    refine ⟨fun H => ?_, fun H => ?_, fun H => ?_⟩
    · rw [State.sheetStartOp_heard H hsh hw, State.sheetLong_held _ hb]
    · rw [State.sheetStopOp_heard H hsh, State.sheetLong_held _ hb]
    · rw [State.sheetResetCmd_heard H hsh hf, State.sheetLong_held _ hb]
  case start =>
    intro w k H hb hw hk
    rw [State.sheetStartOp_heard H hsh hw, State.sheetLong_go _ hb hk, State.startRun]
  case full =>
    intro w H hb hw hk
    rw [State.sheetStartOp_heard H hsh hw, State.sheetLong_full _ hb hk]
  case stop =>
    intro k H hb hk
    rw [State.sheetStopOp_heard H hsh, State.sheetLong_go _ hb hk, State.stopRun, State.pauseSheet]
  case reset =>
    intro fl k H hb hf hk
    rw [State.sheetResetCmd_heard H hsh hf, State.sheetLong_go _ hb hk]
    simp only [State.resetRun, flagOne]
  case release =>
    intro ty id mode H hlo hhi hid hm
    refine ⟨fun hf => ?_, fun f r hf hft hfi => ?_⟩
    · rw [State.masterRelease_notFrozen H hlo hhi hid hm hf]
    · rw [State.masterRelease_first H hlo hhi hid hm hf hft hfi]
      refine ⟨fun hb => ?_, fun hb hd => ?_, fun s2 hb hd ht => ?_⟩
      · rw [State.releaseMaster_held hb]
      · rw [State.releaseMaster_discard hb (congrArg BitVec.toNat hd)]
      · rw [State.releaseMaster_deliver hb (congrArg BitVec.toNat hd) ht]

end

section
/-! Sheets in the module's memory (O7): where the deckle map puts an address. -/

namespace Sys2Proof.Machine
open Sys2Proof

/-- The entry of a sheet's deckle map for the region that a sheet-absolute address lies in (R104). -/
def State.deckleEntry (s : State) (sh sa : Nat) : Word := s.reg .deckle (0o100000 + 0o2000 * sh + sa / 2 ^ 28)

/-- Only an address below 2^38 whose entry is valid is mapped, to its own offset in the region that the entry names (R104). -/
theorem State.deckleMap_some {s : State} {sh sa m : Nat} (h : s.deckleMap sh sa = some m) :
    sa < 2 ^ 38 ∧ dbit (s.deckleEntry sh sa) 0 = true ∧ m = field (s.deckleEntry sh sa) 26 35 * 2 ^ 28 + sa % 2 ^ 28 := by
  by_cases hout : 2 ^ 38 ≤ sa ∨ 64 ≤ sh
  · rw [State.deckleMap, if_pos hout] at h
    cases h
  · rw [State.deckleMap, if_neg hout, ← State.deckleEntry] at h
    cases hv : dbit (s.deckleEntry sh sa) 0
    · simp [hv] at h
    · simp only [hv, if_true, Option.some.injEq] at h
      exact ⟨by omega, rfl, h.symm⟩

/-- An entry names one of the 1,024 regions (R104). -/
theorem field_region_lt (e : Word) : field e 26 35 < 2 ^ 10 := Nat.mod_lt _ (by decide)

/-- A mapped address is below 2^38, in the region its entry names and at the offset of the sheet-absolute address (R104, R106). -/
theorem State.deckleMap_place {s : State} {sh sa m : Nat} (h : s.deckleMap sh sa = some m) :
    m / 2 ^ 28 = field (s.deckleEntry sh sa) 26 35 ∧ m % 2 ^ 28 = sa % 2 ^ 28 ∧ m < 2 ^ 38 := by
  obtain ⟨-, -, rfl⟩ := State.deckleMap_some h
  have hr := field_region_lt (s.deckleEntry sh sa)
  omega

end Sys2Proof.Machine

open Sys2Proof Sys2Proof.Machine

/-- Settles O7. Two mapped addresses lie in the regions that their valid entries name (`State.deckleMap_place`); for two sheets these are
different regions. -/
theorem sheetsShareNoMemory : Obligations.SheetsShareNoMemory := by
  intro s a b _ hdisj x y m m' hm hm'
  obtain ⟨hx, hvx, -⟩ := State.deckleMap_some hm
  obtain ⟨hy, hvy, -⟩ := State.deckleMap_some hm'
  obtain ⟨hreg, hoff, hlt⟩ := State.deckleMap_place hm
  obtain ⟨hreg', -, -⟩ := State.deckleMap_place hm'
  have apart : m / 2 ^ 28 ≠ m' / 2 ^ 28 := by
    rw [hreg, hreg']
    exact hdisj _ _ (by omega) (by omega) hvx hvy
  exact ⟨fun e => apart (by rw [e]), apart, hoff, hlt⟩

end

section
/-! Translation invalidations (O25): operands that only registers can be, the removal of translations, and the rows from them. -/

namespace Sys2Proof.Machine
open Sys2Proof

/-! Register operands. -/

/-- An operand of role r is a register (R142, R145). -/
theorem decOp_register {t : TOp} {w : Wid} {p : Nat} {l : List Nonet} {x : DOp × Nat × List Nonet} (hr : t.role = .r)
    (h : decOp t w p l = .ok x) : x.1.isMem = false := by
  unfold decOp at h
  cases ht : takeExt p 0 1 l with
  | error e => simp [ht] at h
  | ok y =>
    obtain ⟨n, p1, r⟩ := y
    simp only [ht, hr, reduceCtorEq, if_false] at h
    by_cases hm : modeOk .r t.kind (n / 32)
    · have mode : n / 32 = 0 := by
        simp only [modeOk, Bool.and_eq_true, beq_iff_eq] at hm
        obtain ⟨⟨⟨-, hreg⟩, -⟩, -⟩ := hm
        exact hreg
      simp only [mode] at h
      grind [DOp.isMem]
    · simp [hm] at h

/-- Operands of role r are registers. -/
theorem decOps_registers {w : Wid} {ts : List TOp} {p : Nat} {l : List Nonet} {x : List DOp × Nat × List Nonet}
    (hr : ∀ t ∈ ts, t.role = .r) (h : decOps w ts p l = .ok x) : ∀ o ∈ x.1, o.isMem = false := by
  induction ts generalizing p l x with
  | nil =>
    obtain rfl := Except.ok.inj h
    simp
  | cons t ts ih =>
    rw [decOps] at h
    cases ho : decOp t (t.wsel.wid w) p l with
    | error e => simp [ho] at h
    | ok y =>
      cases hos : decOps w ts y.2.1 y.2.2 with
      | error e => simp [ho, hos] at h
      | ok z =>
        simp only [ho, hos] at h
        obtain rfl := Except.ok.inj h
        exact List.forall_mem_cons.2
          ⟨decOp_register (hr t List.mem_cons_self) ho, ih (fun u hu => hr u (List.mem_cons_of_mem _ hu)) hos⟩

/-- The operands of a decoded instruction are those that its row's template decodes. -/
theorem decodeInsn_ops {t : Tmpl} {prob : Bool} {pre opc ops : List Nonet} {d : Dec} (h : decodeInsn t prob pre opc ops = .ok d) :
    ∃ w p x, decOps w t.ops p ops = .ok x ∧ d.ops = x.1 := by
  cases hp : decPre [] 0 pre with
  | error e => simp [decodeInsn, hp] at h
  | ok ps =>
    cases hq : decOpc t ps.length opc with
    | error e => simp [decodeInsn, hp, hq] at h
    | ok u =>
      refine ⟨widOf ps, ps.length + if t.esc then 2 else 1, ?_⟩
      cases ho : decOps (widOf ps) t.ops (ps.length + if t.esc then 2 else 1) ops with
      | error e =>
        simp only [decodeInsn, hp, hq, ho] at h
        grind
      | ok x =>
        simp only [decodeInsn, hp, hq, ho] at h
        exact ⟨x, rfl, by grind⟩

/-- A formed operand is the decoded operand it was formed from. -/
theorem formOp_op (sf ia : Nat) (k : Core) (o : DOp) : (formOp sf ia k o).1.op = o := by
  unfold formOp
  split
  · rfl
  · rfl
  · rfl
  · dsimp only
    split <;> rfl

/-- Formed operands are the decoded operands they were formed from. -/
theorem formOps_op (sf ia : Nat) (k : Core) (os : List DOp) : (formOps sf ia k os).1.map Formed.op = os := by
  induction os generalizing k with
  | nil => rfl
  | cons o os ih => rw [formOps, List.map_cons, formOp_op, ih]

/-- An operand not in memory needs no translation. -/
theorem readyOp_direct {c : Nat} {ilock : Bool} {f : Formed} (h : f.op.isMem = false) :
    readyOp c ilock f = pure { f := f, xl := none } := by
  unfold readyOp
  rw [h]
  rfl

/-- Operands not in memory need no translation. -/
theorem readyOps_direct {c : Nat} {ilock : Bool} {fs : List Formed} (h : ∀ f ∈ fs, f.op.isMem = false) :
    readyOps c ilock fs = pure (fs.map fun f => { f := f, xl := none }) := by
  induction fs with
  | nil => rfl
  | cons f fs ih =>
    rw [List.forall_mem_cons] at h
    have ih := ih h.2
    rw [readyOps] at ih ⊢
    rw [List.mapM_cons, readyOp_direct h.1, ih, pure_bind, pure_bind, List.map_cons]

/-- Operands that need no translation are read as the values they were formed with. -/
theorem readFrom_direct {c : Nat} {d : Dec} {rs : List Rdy} (h : ∀ r ∈ rs, r.xl = none) :
    readFrom c d rs 0 = pure (rs.map fun r => r.f.val) := by
  induction rs with
  | nil => rfl
  | cons r rs ih =>
    rw [List.forall_mem_cons] at h
    have ih := ih h.2
    rw [readFrom, List.drop_zero] at ih ⊢
    rw [List.mapM_cons, readOp, h.1, ih, pure_bind, pure_bind, List.map_cons]

/-- The operands of a row whose operands are registers are read, without a change, as the values they were formed with. -/
theorem Reads.registers {t : Tmpl} {n : Insn} {s s1 : State} {d : Dec} {il : Bool} {rs : List Rdy} {s2 : State} {vs : List Nat}
    {s' : State} (ht : ∀ o ∈ t.ops, o.role = .r) (hb : Begins t n s d s1) (h : Reads n.core.val d s1 il 0 rs s2 vs s') :
    s' = s2 ∧ ∀ i, (opAt rs i).f.val = srcAt vs i := by
  obtain ⟨⟨fs, sf, hf, hr⟩, hv⟩ := h
  obtain ⟨w, p, x, hx, hd⟩ := decodeInsn_ops hb.dec
  have formed : fs.map Formed.op = d.ops := by
    obtain rfl := (pure_ok hf).1
    exact formOps_op _ _ _ _
  have direct : ∀ f ∈ fs, f.op.isMem = false := fun f hm =>
    decOps_registers ht hx _ (hd ▸ formed ▸ List.mem_map_of_mem hm)
  rw [readyOps_direct direct] at hr
  obtain ⟨rfl, rfl⟩ := pure_ok hr
  rw [readFrom_direct (by simp)] at hv
  obtain ⟨rfl, rfl⟩ := pure_ok hv
  refine ⟨rfl, fun i => ?_⟩
  simp only [opAt, srcAt, List.getD_eq_getElem?_getD, List.getElem?_map, Option.map_map]
  cases fs[i]? <;> rfl

/-- A row without operands forms none, which leaves the state. -/
theorem Begins.forms_nil {t : Tmpl} {n : Insn} {s s1 : State} {d : Dec} (hb : Begins t n s d s1) (ht : t.ops = []) :
    Forms n.core.val d s1 [] s1 := by
  have noOps : d.ops = [] := List.eq_nil_of_length_eq_zero (by rw [decodeInsn_length hb.dec, ht, List.length_nil])
  obtain ⟨s0, -, rfl⟩ := hb.start
  rw [Forms, noOps]
  refine congrArg (fun u => Except.ok ([], u)) ?_
  simp only [formOps, State.withIa, State.core_setCore, State.setCore_setCore]

/-- Bit 0 of a word in device numbering is bit 35 counted from the least significant (R9). -/
theorem msb_word (v : Nat) : msb 36 v = v.testBit 35 := by
  rw [msb, Nat.testBit_eq_decide_div_mod_eq, decide_eq_decide]
  omega

/-! Invalidation. -/

/-- The state once the active cores that an invalidation reaches have performed every store in their buffers (R111-R113). -/
def State.tinvDrain (s : State) (c : Nat) (all : Bool) : Option State :=
  ((s.tinvCores c all).filter fun t => (s.core t).active).foldlM (fun s t => s.drainAll t) s

/-- Once the stores are performed, the translations are removed. -/
theorem tinv_run {c : Nat} {all : Bool} {p : Tlb → Bool} {s s2 : State} (h : s.tinvDrain c all = some s2) :
    (tinv c all p).run s = .ok ((), s2.invalidated (s2.tinvCores c all) p) := by
  unfold tinv
  rw [run_bind_ok (doStall_run h)]
  rfl

/-- The cores that an invalidation reaches (R111, R113, R114). -/
theorem State.tinvCores_eq (s : State) (c : Nat) (all : Bool) :
    s.tinvCores c all = if all then (List.range 192).filter fun t => (s.core t).sheet = (s.core c).sheet else [c] := by
  simp only [State.tinvCores, beq_eq_decide]

/-- The cores that perform their stores for an invalidation are the active ones it reaches (R111-R113). -/
theorem State.tinvDrain_eq (s : State) (c : Nat) (all : Bool) :
    s.tinvDrain c all = ((s.tinvCores c all).filter fun t => (s.core t).cstate = .active).foldlM (fun s t => s.drainAll t) s := by
  simp only [State.tinvDrain, Core.active, beq_eq_decide]

section
variable {n : Insn} {s s1 s2 : State} {d : Dec} {code : Nat} {all : Bool}

/-- TINV.A and TINVB.A remove every translation (R111, R197). -/
theorem isa_tinvA (hb : Begins (secNone code) n s d s1) (hd : s1.tinvDrain n.core.val all = some s2) :
    s.isa (secNone code) n (fun _ _ => tinv n.core.val all fun _ => true) =
      .next (s.after n.core.val (s2.invalidated (s2.tinvCores n.core.val all) fun _ => true)) := by
  rw [isa_run hb, run_bind_ok (hb.forms_nil rfl), outcome_ok (tinv_run hd)]

variable {rs : List Rdy} {sr s' : State} {vs : List Nat} (hr : Reads n.core.val d s1 false 0 rs sr vs s')
  (hd : s'.tinvDrain n.core.val all = some s2)
include hr hd

/-- TINV.S and TINVB.S remove the translations of an ASN that are not global (R111, R197). -/
theorem isaTinvS_eq (hb : Begins (secd code [fw .s .i .wW]) n s d s1) :
    s.isaTinvS code n all = .next (s.after n.core.val (s2.invalidated (s2.tinvCores n.core.val all)
      fun e => !e.global && e.asn == srcAt vs 0 % 2 ^ 12)) := by
  have one : rs.length = 1 := hr.length hb
  obtain ⟨⟨fs, sf, hf, hready⟩, hread⟩ := hr
  obtain ⟨r, rs, rfl⟩ := List.exists_cons_of_length_eq_add_one one
  obtain ⟨s3, hv, hrest⟩ := readFrom_split hread
  obtain rfl := List.length_eq_zero_iff.1 (Nat.succ.inj one)
  obtain ⟨-, rfl⟩ := pure_ok hrest
  rw [State.isaTinvS, isa_run hb, run_bind_ok hf]
  dsimp only
  rw [run_bind_ok hready, run_bind_ok hv, outcome_ok (tinv_run hd)]
  rfl

/-- TINV.V and TINVB.V remove the translations that cover an address of a space (R111, R197). -/
theorem isaTinvV_eq (hb : Begins (secd code [fw .r .i .wW, fw .r .p .wD]) n s d s1) :
    s.isaTinvV code n all = .next (s.after n.core.val (s2.invalidated (s2.tinvCores n.core.val all) fun e =>
      e.covers ((srcAt vs 0).testBit 35) (srcAt vs 0 % 2 ^ 12)
        (if (srcAt vs 0).testBit 35 then srcAt vs 1 % 2 ^ 54 else srcAt vs 1 % 2 ^ 36))) := by
  obtain ⟨rfl, val⟩ := hr.registers (by simp [secd, fw]) hb
  obtain ⟨⟨fs, sf, hf, hready⟩, -⟩ := hr
  have low : srcAt vs 1 % 2 ^ 54 % 2 ^ 36 = srcAt vs 1 % 2 ^ 36 := Nat.mod_mod_of_dvd _ (by decide)
  rw [State.isaTinvV, isa_run hb, run_bind_ok hf]
  dsimp only
  rw [run_bind_ok hready, val, val, msb_word, low, outcome_ok (tinv_run hd)]
  rfl

end
end Sys2Proof.Machine

open Sys2Proof Sys2Proof.Machine

/-- Settles O25, row by row: each row is its operation, which once its operands are read drains the active cores it reaches and removes
the translations it names (`isa_tinvA`, `isaTinvS_eq`, `isaTinvV_eq`). The operands of TINV.V and TINVB.V are registers, so their values
as formed are the ones that reading them gives. -/
theorem invalidationRows : Obligations.InvalidationRows := by
  unfold Obligations.InvalidationRows
  simp only [← State.tinvCores_eq, ← State.tinvDrain_eq, List.forall_mem_cons, List.not_mem_nil, false_implies, implies_true, and_true,
    exec_tinvA, exec_tinvbA, exec_tinvS, exec_tinvbS, exec_tinvV, exec_tinvbV, execTinvA, execTinvbA, execTinvS, execTinvbS, execTinvV,
    execTinvbV]
  refine ⟨⟨?a, ?ba⟩, ⟨?s, ?bs⟩, ?v, ?bv⟩
  case a | ba => exact fun _ _ _ _ _ hb hd => isa_tinvA hb hd
  case s | bs => exact fun _ _ _ _ _ _ _ _ _ hb hr hd => isaTinvS_eq hr hd hb
  case v | bv => exact fun _ _ _ _ _ _ _ _ _ hb hr hd => isaTinvV_eq hr hd hb

end

section
/-! What a step can answer (O4) and the privilege check of the secondary page (O8): which meanings are instructions of a core, how their
commands end, and the check that ends decoding. -/

namespace Sys2Proof.Machine
open Sys2Proof

/-! How commands end. -/

/-- The meaning of every core instruction ends as an instruction's command does. -/
theorem exec_of_insn {i : Instr} {n : Insn} (h : i.insn = some n) (s : State) : ∃ r, exec i s = s.isaEnd n.core.val r := by
  cases i
  all_goals cases h -- leaves the core instructions, each with its own `n`
  all_goals exact ⟨_, rfl⟩

/-- The end of a retention wake-up, with or without requests that waited for it, is a command's. -/
theorem execL2RetentionWake_ends (q : QuireId) (s : State) : ∃ t, execL2RetentionWake q s = ends t := by
  unfold execL2RetentionWake
  extract_lets s1 ws s2
  split <;> exact ⟨_, rfl⟩

/-- Every command that is no core instruction has an effect. -/
theorem exec_of_event {i : Instr} (h : i.insn = none) (s : State) : ∃ t, exec i s = .next t := by
  cases i
  case l2RetentionWake q =>
    obtain ⟨t, ht⟩ := execL2RetentionWake_ends q s
    exact ⟨t.follow, ht⟩
  all_goals cases h -- leaves the events
  all_goals exact ⟨_, rfl⟩

/-- An instruction's command ends in no fault. -/
theorem isaEnd_ne_fault (s : State) (c : Nat) (r : Option State) (f : Fault) : s.isaEnd c r ≠ .fault f := by
  unfold State.isaEnd
  split
  · nofun
  · cases r <;> nofun

/-- An instruction's command is refused only in a core that executes, as nonets that are not the row's instruction (R128, R155). -/
theorem isaEnd_refused {s : State} {c : Nat} {r : Option State} {e : Refusal} (h : s.isaEnd c r = .refused e) :
    e = .notThisInstruction ∧ s.executes c = true := by
  unfold State.isaEnd at h
  split at h
  · cases h
  next hx =>
    cases r <;> cases h
    exact ⟨rfl, by simpa using hx⟩

/-- No command ends in a fault. -/
theorem exec_ne_fault (i : Instr) (s : State) (f : Fault) : exec i s ≠ .fault f := by
  cases hi : i.insn with
  | none =>
    obtain ⟨t, ht⟩ := exec_of_event hi s
    rw [ht]
    nofun
  | some n =>
    obtain ⟨r, hr⟩ := exec_of_insn hi s
    rw [hr]
    exact isaEnd_ne_fault s _ r f

/-- A command that is refused is a core instruction whose nonets are not its row's, given to a core that executes. -/
theorem exec_refused {i : Instr} {s : State} {e : Refusal} (h : exec i s = .refused e) :
    e = .notThisInstruction ∧ ∃ n, i.insn = some n ∧ s.executes n.core.val = true := by
  cases hi : i.insn with
  | none =>
    obtain ⟨t, ht⟩ := exec_of_event hi s
    cases ht.symm.trans h
  | some n =>
    obtain ⟨r, hr⟩ := exec_of_insn hi s
    obtain ⟨he, hx⟩ := isaEnd_refused (hr.symm.trans h)
    exact ⟨he, n, rfl, hx⟩

/-- A step on an empty queue. -/
theorem step_nil {s : State} (h : s.pending = []) : step s = .next (tick s) := by rw [step, h]

/-- A step takes the command at the front of the queue. -/
theorem step_cons {s : State} {i : Instr} {rest : List Instr} (h : s.pending = i :: rest) :
    step s = exec i { s with pending := rest } := by rw [step, h]

/-! The check that ends decoding. -/

/-- An instruction whose decoding ends in a check is that check, once the nonets before its report can be fetched (R155, R156, R159). -/
theorem insnD_check {t : Tmpl} {n : Insn} {s s0 : State} {code pos chk need : Nat} (hx : s.executes n.core.val = true)
    (hd : decodeInsn t (pswProb (s.core n.core.val).psw) n.pre n.opc n.ops = .error (.check code pos chk need))
    (hf : (fetchCheck n.core.val (pswIa (s.core n.core.val).psw) need).run s = .ok ((), s0)) (body : Dec → M Unit) :
    s.isaEnd n.core.val (s.insnD t n body) =
      .next (s.trapped n.core.val s0 (.check code [(0o207, decInfo n.opc code pos chk)])) := by
  simp only [State.isaEnd, hx, State.insnD, hd, Bool.not_true, Bool.false_eq_true, if_false, ends]
  rw [attempt_follow, run_bind_ok hf]
  rfl

/-- Decoding a privileged instruction of the secondary page in problem state ends, after its opcode, in the check of R155 step 3,
whatever its operands are. -/
theorem decodeInsn_privileged {t : Tmpl} {pre opc : List Nonet} {ps : List Nat} (hpriv : t.priv = true) (hesc : t.esc = true)
    (hpre : decPre [] 0 pre = .ok ps) (hopc : decOpc t ps.length opc = .ok ()) (ops : List Nonet) :
    decodeInsn t true pre opc ops = .error (.check 2 (ps.length + 1) 0o05 (ps.length + 2)) := by
  simp [decodeInsn, hpre, hopc, hpriv, hesc]

/-- A privileged row of the secondary page: its meaning decodes the nonets as an instruction of template `t`. -/
structure PrivilegedRow (mk : Insn → Instr) (t : Tmpl) : Prop where
  /-- The row is privileged (R141). -/
  priv  : t.priv = true
  /-- The row is one of the secondary page. -/
  esc   : t.esc = true
  /-- The meaning runs the instruction that the template decodes. -/
  means : ∀ n s, ∃ body, exec (mk n) s = s.isaEnd n.core.val (s.insnD t n body)

/-- In problem state a privileged instruction is the program check 0o002 and nothing else (R141, R155, R159). -/
theorem PrivilegedRow.traps {mk : Insn → Instr} {t : Tmpl} (row : PrivilegedRow mk t) {n : Insn} {s s0 : State} {ps : List Nat}
    (hx : s.executes n.core.val = true) (hprob : pswProb (s.core n.core.val).psw = true) (hpre : decPre [] 0 n.pre = .ok ps)
    (hopc : decOpc t ps.length n.opc = .ok ())
    (hf : (fetchCheck n.core.val (pswIa (s.core n.core.val).psw) (ps.length + 2)).run s = .ok ((), s0)) :
    exec (mk n) s = .next (s.trapped n.core.val s0 (.check 2 [(0o207, decInfo n.opc 2 (ps.length + 1) 0o05)])) := by
  obtain ⟨body, hb⟩ := row.means n s
  have hd := decodeInsn_privileged row.priv row.esc hpre hopc n.ops
  rw [hb, insnD_check hx (hprob ▸ hd) hf]

end Sys2Proof.Machine

open Sys2Proof Sys2Proof.Machine

/-- Settles O4: an event has an effect (`exec_of_event`), and a core instruction ends as `State.isaEnd` says, which is refused only where
the nonets are not the row's instruction (`exec_refused`). -/
theorem onlyWrongNonetsAreRefused : Obligations.OnlyWrongNonetsAreRefused := by
  unfold Obligations.OnlyWrongNonetsAreRefused
  intro s
  cases hp : s.pending with
  | nil =>
    rw [step_nil hp]
    exact ⟨nofun, nofun⟩
  | cons i rest =>
    rw [step_cons hp]
    refine ⟨exec_ne_fault i _, fun r hr => ?_⟩
    obtain ⟨he, n, hn, hx⟩ := exec_refused hr
    exact ⟨he, i, rest, n, rfl, hn, hx⟩

/-- Settles O8: each of the rows is a privileged one whose meaning decodes its own template, and decoding such a row in problem state
ends in the privilege check before its operands are looked at (`PrivilegedRow.traps`). -/
theorem privilegedInstructionsTrap : Obligations.PrivilegedInstructionsTrap := by
  unfold Obligations.PrivilegedInstructionsTrap
  intro q hq
  suffices row : PrivilegedRow q.1 q.2 from fun _ _ _ _ => row.traps
  revert q
  simp only [List.forall_mem_cons, List.not_mem_nil, false_implies, implies_true, and_true]
  and_intros
  all_goals exact ⟨rfl, rfl, fun _ _ => ⟨_, rfl⟩⟩

end

section
/-! One step and the cores that do not execute (O1, O5), and how the operands of a row are read, one after the other. -/

namespace Sys2Proof.Machine
open Sys2Proof

/-- An instruction given to a core that does not execute leaves the state (R205, R351, R600). -/
theorem isaEnd_stopped {s : State} {c : Nat} (h : s.executes c = false) (r : Option State) : s.isaEnd c r = .next s := by
  simp [State.isaEnd, h]

/-! Operands read in template order. -/

/-- The next operand is read before the rest. -/
theorem readFrom_next {c : Nat} {d : Dec} {rs : List Rdy} {i : Nat} {s s' : State} {vs : List Nat} (hi : i < rs.length)
    (h : (readFrom c d rs i).run s = .ok (vs, s')) :
    ∃ s1, (readOp c d.acq (opAt rs i)).run s = .ok (srcAt vs 0, s1) ∧ (readFrom c d rs (i + 1)).run s1 = .ok (vs.drop 1, s') := by
  have first : opAt (rs.drop i) 0 = opAt rs i := by simp [opAt]
  have cons := List.drop_eq_getElem_cons hi
  have split : (readFrom c d (rs.drop i) 0).run s = .ok (vs, s') := h
  rw [cons] at split
  obtain ⟨s1, h1, h2⟩ := readFrom_split split
  exact ⟨s1, by rwa [← cons, first] at h1, h2⟩

/-- No operand is left to be read. -/
theorem readFrom_end {c : Nat} {d : Dec} {rs : List Rdy} {i : Nat} {s s' : State} {vs : List Nat} (hi : rs.length ≤ i)
    (h : (readFrom c d rs i).run s = .ok (vs, s')) : s' = s := by
  rw [readFrom, List.drop_eq_nil_of_le hi] at h
  exact (pure_ok h).2.symm

section
variable {t : Tmpl} {n : Insn} {s s1 s2 s' : State} {d : Dec} {il : Bool} {rs : List Rdy} {vs : List Nat}

/-- A row whose operands are all sources, one of them, is ready and has read it. -/
theorem Reads.source (h : Reads n.core.val d s1 il 0 rs s2 vs s') (hb : Begins t n s d s1) (ht : t.ops.length = 1) :
    (readOp n.core.val d.acq (opAt rs 0)).run s2 = .ok (srcAt vs 0, s') := by
  have len := h.length hb
  obtain ⟨s3, h1, h2⟩ := readFrom_next (by omega) h.read
  rwa [readFrom_end (by omega) h2]

/-- An instruction of one source goes on with what it has read. -/
theorem isa_source (hb : Begins t n s d s1) (h : Reads n.core.val d s1 false 0 rs s2 vs s') (ht : t.ops.length = 1)
    (k : Dec → List Rdy → Nat → M Unit) :
    s.isa t n (fun d fs => do
      let rs ← readyOps n.core.val false fs
      let v ← readOp n.core.val d.acq (opAt rs 0)
      k d rs v) = .next (outcome s n.core.val ((k d rs (srcAt vs 0)).run s')) := by
  have hv := h.source hb ht
  obtain ⟨fs, sf, hf, hready⟩ := h.ready
  rw [isa_run hb, run_bind_ok hf, run_bind_ok hready, run_bind_ok hv]

/-- A row of two sources has read the first and then the second. -/
theorem Reads.sources (h : Reads n.core.val d s1 il 0 rs s2 vs s') (hb : Begins t n s d s1) (ht : t.ops.length = 2) :
    ∃ s3, (readOp n.core.val d.acq (opAt rs 0)).run s2 = .ok (srcAt vs 0, s3) ∧
      (readOp n.core.val d.acq (opAt rs 1)).run s3 = .ok (srcAt vs 1, s') := by
  have len := h.length hb
  obtain ⟨s3, h1, h2⟩ := readFrom_next (by omega) h.read
  obtain ⟨s4, h3, h4⟩ := readFrom_next (by omega) h2
  obtain rfl := readFrom_end (by omega) h4
  exact ⟨s3, h1, by simpa [srcAt] using h3⟩

/-- An instruction of two sources goes on with what it has read. -/
theorem isa_sources (hb : Begins t n s d s1) (h : Reads n.core.val d s1 false 0 rs s2 vs s') (ht : t.ops.length = 2)
    (k : Dec → List Rdy → Nat → Nat → M Unit) :
    s.isa t n (fun d fs => do
      let rs ← readyOps n.core.val false fs
      let u ← readOp n.core.val d.acq (opAt rs 0)
      let v ← readOp n.core.val d.acq (opAt rs 1)
      k d rs u v) = .next (outcome s n.core.val ((k d rs (srcAt vs 0) (srcAt vs 1)).run s')) := by
  obtain ⟨s3, hu, hv⟩ := h.sources hb ht
  obtain ⟨fs, sf, hf, hready⟩ := h.ready
  rw [isa_run hb, run_bind_ok hf, run_bind_ok hready, run_bind_ok hu, run_bind_ok hv]

/-- A row of a destination alone reads nothing. -/
theorem Reads.alone (h : Reads n.core.val d s1 il 1 rs s2 vs s') (hb : Begins t n s d s1) (ht : t.ops.length = 1) : s' = s2 := by
  have len := h.length hb
  exact readFrom_end (by omega) h.read

/-- An instruction of a destination alone goes on with it made ready. -/
theorem isa_alone (hb : Begins t n s d s1) (h : Reads n.core.val d s1 false 1 rs s2 vs s') (ht : t.ops.length = 1)
    (k : Dec → List Rdy → M Unit) :
    s.isa t n (fun d fs => do
      let rs ← readyOps n.core.val false fs
      k d rs) = .next (outcome s n.core.val ((k d rs).run s')) := by
  obtain rfl := h.alone hb ht
  obtain ⟨fs, sf, hf, hready⟩ := h.ready
  rw [isa_run hb, run_bind_ok hf, run_bind_ok hready]

/-- A row of a destination and one source has read the source. -/
theorem Reads.second (h : Reads n.core.val d s1 il 1 rs s2 vs s') (hb : Begins t n s d s1) (ht : t.ops.length = 2) :
    (readOp n.core.val d.acq (opAt rs 1)).run s2 = .ok (srcAt vs 0, s') := by
  have len := h.length hb
  obtain ⟨s3, h1, h2⟩ := readFrom_next (by omega) h.read
  rwa [readFrom_end (by omega) h2]

/-- An instruction of a destination and one source goes on with what it has read. -/
theorem isa_second (hb : Begins t n s d s1) (h : Reads n.core.val d s1 false 1 rs s2 vs s') (ht : t.ops.length = 2)
    (k : Dec → List Rdy → Nat → M Unit) :
    s.isa t n (fun d fs => do
      let rs ← readyOps n.core.val false fs
      let v ← readOp n.core.val d.acq (opAt rs 1)
      k d rs v) = .next (outcome s n.core.val ((k d rs (srcAt vs 0)).run s')) := by
  have hv := h.second hb ht
  obtain ⟨fs, sf, hf, hready⟩ := h.ready
  rw [isa_run hb, run_bind_ok hf, run_bind_ok hready, run_bind_ok hv]

/-- An instruction without operands goes on from the state in which it begins. -/
theorem isa_none (hb : Begins t n s d s1) (ht : t.ops = []) (k : Dec → M Unit) :
    s.isa t n (fun d _ => k d) = .next (outcome s n.core.val ((k d).run s1)) := by
  rw [isa_run hb, run_bind_ok (hb.forms_nil ht)]

end

/-- Reading a pointer register. -/
theorem getP_run (c i : Nat) (s : State) : (getP c i).run s = .ok (s.ptr c i, s) := rfl

/-- Writing a pointer register. -/
theorem putP_run (c i : Nat) (v : DWord) (s : State) : (putP c i v).run s = .ok ((), s.withP c i v) := rfl

/-- Reading the state. -/
theorem get_run (s : State) : (get : M State).run s = .ok (s, s) := rfl

/-- Replacing the state. -/
theorem set_run (t s : State) : (set t : M Unit).run s = .ok ((), t) := rfl

/-- Changing the state. -/
theorem modify_run (f : State → State) (s : State) : (modify f : M Unit).run s = .ok ((), f s) := rfl

end Sys2Proof.Machine

open Sys2Proof Sys2Proof.Machine

/-- Settles O1: the first command of the queue is taken from it (`step_cons`), and the clock ticks on an empty queue (`step_nil`). -/
theorem stepRunsFrontCommand : Obligations.StepRunsFrontCommand := by
  unfold Obligations.StepRunsFrontCommand
  exact ⟨fun _ _ => step_cons rfl, fun _ hp => step_nil hp⟩

/-- Settles O5: a core instruction ends as an instruction's command (`exec_of_insn`), which leaves the state of a core that does not
execute (`isaEnd_stopped`). -/
theorem stoppedCoresIgnoreInstructions : Obligations.StoppedCoresIgnoreInstructions := by
  unfold Obligations.StoppedCoresIgnoreInstructions
  intro i n s hi hx
  obtain ⟨r, hr⟩ := exec_of_insn hi s
  rw [hr, isaEnd_stopped hx]

end

section
/-! Integer arithmetic (O9, O10, O11): signed values and residues at a width, what overflows, each result with its flags, and the rows
from them. -/

namespace Sys2Proof.Machine
open Sys2Proof

/-! Signed values and residues. -/

/-- Every operation width has a sign bit and one more. -/
theorem Wid.one_lt_bits (w : Wid) : 1 < w.bits := by cases w <;> decide

/-- The signed value of a number is the number less 2^w where bit 0 is set (R79). -/
theorem signedOf_eq (w x : Nat) : signedOf w x = (x % 2 ^ w : Nat) - (if msb w x then (2 ^ w : Nat) else 0 : Int) := by
  unfold signedOf msb
  split
  next small => simp [Nat.not_le.2 small]
  next big => simp [Nat.le_of_not_lt big]

/-- A number and its signed value agree modulo 2^w. -/
theorem signedOf_modEq (w x : Nat) : signedOf w x ≡ x [ZMOD (2 ^ w : Nat)] := by
  rw [signedOf_eq, Int.natCast_mod]
  split
  · exact (Int.ModEq.sub_right _ (Int.mod_modEq _ _)).trans (Int.modEq_iff_dvd.2 ⟨1, by ring⟩)
  · rw [sub_zero]
    exact Int.mod_modEq _ _

/-- Integers that agree modulo 2^w have one residue. -/
theorem wrapTo_congr {w : Nat} {i j : Int} (h : i ≡ j [ZMOD (2 ^ w : Nat)]) : wrapTo w i = wrapTo w j := by
  rw [wrapTo, wrapTo, h]

/-- The residue of a number. -/
theorem wrapTo_natCast (w n : Nat) : wrapTo w (n : Int) = n % 2 ^ w := by
  rw [wrapTo, ← Int.natCast_mod, Int.toNat_natCast]

/-- A residue is below 2^w. -/
theorem wrapTo_lt (w : Nat) (i : Int) : wrapTo w i < 2 ^ w := by
  have pos : ((2 ^ w : Nat) : Int) ≠ 0 := by positivity
  have low := Int.emod_nonneg i pos
  have high := Int.emod_lt_of_pos i (b := ((2 ^ w : Nat) : Int)) (by positivity)
  unfold wrapTo
  omega

/-- The residue of an integer less than 2^w in magnitude. -/
theorem wrapTo_of_small {w : Nat} {i : Int} (low : -(2 ^ w : Nat) ≤ i) (high : i < (2 ^ w : Nat)) :
    (wrapTo w i : Int) = if i < 0 then i + (2 ^ w : Nat) else i := by
  unfold wrapTo
  split
  next neg =>
    rw [← Int.add_emod_right, Int.emod_eq_of_lt (by omega) (by omega)]
    omega
  next pos =>
    rw [Int.emod_eq_of_lt (by omega) high]
    omega

/-- Bit 0 is the sign. -/
theorem msb_eq_neg (w x : Nat) : msb w x = decide (signedOf w x < 0) := by
  have lt := Nat.mod_lt x (Nat.two_pow_pos w)
  unfold msb signedOf
  split <;> simp <;> omega

/-- An integer overflows where it lies outside the signed range. -/
theorem ovf_iff (w : Nat) (i : Int) : ovf w i = true ↔ i < -(2 ^ (w - 1) : Nat) ∨ ((2 ^ (w - 1) : Nat) : Int) ≤ i := decide_eq_true_iff

/-- The residue of an integer of at most 2^w in magnitude is `k` where the integer is `k` or 2^w below it. -/
theorem wrapTo_eq_iff {w : Nat} {i : Int} {k : Nat} (low : -(2 ^ w : Nat) ≤ i) (high : i < (2 ^ w : Nat)) :
    wrapTo w i = k ↔ (0 ≤ i ∧ i = k) ∨ (i < 0 ∧ i = k - (2 ^ w : Nat)) := by
  have small := wrapTo_of_small low high
  split at small <;> omega

section
variable {w : Nat} (hw : 0 < w)
include hw

/-- 2^w is twice 2^(w-1). -/
theorem two_pow_eq_double : 2 ^ w = 2 * 2 ^ (w - 1) := by
  rw [← pow_succ', Nat.sub_add_cancel hw]

/-- Where signed values lie. -/
theorem signedOf_bounds (x : Nat) : -(2 ^ (w - 1) : Nat) ≤ signedOf w x ∧ signedOf w x < (2 ^ (w - 1) : Nat) := by
  have double := two_pow_eq_double hw
  have lt := Nat.mod_lt x (Nat.two_pow_pos w)
  unfold signedOf
  split <;> omega

/-- The most negative value. -/
theorem signedOf_eq_least_iff (x : Nat) : signedOf w x = -(2 ^ (w - 1) : Nat) ↔ x % 2 ^ w = 2 ^ (w - 1) := by
  have double := two_pow_eq_double hw
  have lt := Nat.mod_lt x (Nat.two_pow_pos w)
  have pos := Nat.two_pow_pos (w - 1)
  unfold signedOf
  split <;> omega

/-- A divisor is zero where its signed value is. -/
theorem signedOf_eq_zero_iff (x : Nat) : signedOf w x = 0 ↔ x % 2 ^ w = 0 := by
  have double := two_pow_eq_double hw
  have lt := Nat.mod_lt x (Nat.two_pow_pos w)
  unfold signedOf
  split <;> omega

/-- The signed value of a residue in range is the integer. -/
theorem signedOf_wrapTo {i : Int} (low : -(2 ^ (w - 1) : Nat) ≤ i) (high : i < (2 ^ (w - 1) : Nat)) : signedOf w (wrapTo w i) = i := by
  have double := two_pow_eq_double hw
  have small := wrapTo_of_small (w := w) (i := i) (by omega) (by omega)
  have lt := wrapTo_lt w i
  unfold signedOf
  rw [Nat.mod_eq_of_lt lt]
  split at small <;> split <;> omega

/-- An integer overflows where the signed value of its residue is another one. -/
theorem ovf_eq (i : Int) : ovf w i = decide (signedOf w (wrapTo w i) ≠ i) := by
  have bounds := signedOf_bounds hw (wrapTo w i)
  rw [ovf, decide_eq_decide]
  refine ⟨fun h e => by omega, fun h => ?_⟩
  by_contra inside
  exact h (signedOf_wrapTo hw (by omega) (by omega))

/-- The sign of the residue of a sum of two signed values is the sum's own, unless the sum overflows. -/
theorem msb_wrapTo {i : Int} (low : -(2 ^ w : Nat) ≤ i) (high : i < (2 ^ w : Nat)) :
    msb w (wrapTo w i) = (decide (i < 0) != ovf w i) := by
  have double := two_pow_eq_double hw
  have small := wrapTo_of_small low high
  rw [msb, ovf, Nat.mod_eq_of_lt (wrapTo_lt w i)]
  by_cases neg : i < 0
  · rw [if_pos neg] at small
    simp only [neg, decide_true, Bool.true_bne, ← decide_not, decide_eq_decide]
    omega
  · rw [if_neg neg] at small
    simp only [neg, decide_false, Bool.false_bne, decide_eq_decide]
    omega

/-! Sums and differences. -/

/-- A sum of two signed values and a carry overflows where the operands have one sign and the result the other. -/
theorem ovf_add_signs {x y cin : Nat} (hc : cin ≤ 1) :
    ovf w (signedOf w x + signedOf w y + cin) =
      (msb w x == msb w y && msb w (wrapTo w (signedOf w x + signedOf w y + cin)) != msb w x) := by
  have double := two_pow_eq_double hw
  obtain ⟨lx, hx⟩ := signedOf_bounds hw x
  obtain ⟨ly, hy⟩ := signedOf_bounds hw y
  have iff := ovf_iff w (signedOf w x + signedOf w y + cin)
  rw [msb_wrapTo hw (by omega) (by omega), msb_eq_neg w x, msb_eq_neg w y, Bool.eq_iff_iff]
  generalize ovf w (signedOf w x + signedOf w y + cin) = o at iff ⊢
  generalize 2 ^ (w - 1) = half at *
  cases o <;> simp at iff ⊢ <;> omega

/-- A difference of two signed values and a borrow overflows where the operands have different signs and the result that of the second. -/
theorem ovf_sub_signs {x y cin : Nat} (hc : cin ≤ 1) :
    ovf w (signedOf w x - signedOf w y - cin) =
      (msb w x != msb w y && msb w (wrapTo w (signedOf w x - signedOf w y - cin)) != msb w x) := by
  have double := two_pow_eq_double hw
  obtain ⟨lx, hx⟩ := signedOf_bounds hw x
  obtain ⟨ly, hy⟩ := signedOf_bounds hw y
  have iff := ovf_iff w (signedOf w x - signedOf w y - cin)
  rw [msb_wrapTo hw (by omega) (by omega), msb_eq_neg w x, msb_eq_neg w y, Bool.eq_iff_iff]
  generalize ovf w (signedOf w x - signedOf w y - cin) = o at iff ⊢
  generalize 2 ^ (w - 1) = half at *
  cases o <;> simp at iff ⊢ <;> omega

/-- A sum with its flags: overflow is by the signs of the operands and the result (R162, R168). -/
theorem aluAdd_eq (x y : Nat) {cin : Nat} (hc : cin ≤ 1) :
    aluAdd w x y cin = ((x + y + cin) % 2 ^ w, nzcv w ((x + y + cin) % 2 ^ w) (decide (2 ^ w ≤ x + y + cin))
      (msb w x == msb w y && msb w ((x + y + cin) % 2 ^ w) != msb w x)) := by
  have residue : (x + y + cin) % 2 ^ w = wrapTo w (signedOf w x + signedOf w y + cin) := by
    rw [← wrapTo_natCast]
    push_cast
    exact wrapTo_congr (((signedOf_modEq w x).add (signedOf_modEq w y)).add_right _).symm
  unfold aluAdd
  rw [ovf_add_signs hw hc, ← residue]

/-- A difference with its flags (R162, R168). -/
theorem aluSub_eq (x y : Nat) {cin : Nat} (hc : cin ≤ 1) :
    aluSub w x y cin = (wrapTo w ((x : Int) - y - cin), nzcv w (wrapTo w ((x : Int) - y - cin)) (decide (x < y + cin))
      (msb w x != msb w y && msb w (wrapTo w ((x : Int) - y - cin)) != msb w x)) := by
  have residue : wrapTo w ((x : Int) - y - cin) = wrapTo w (signedOf w x - signedOf w y - cin) :=
    wrapTo_congr (((signedOf_modEq w x).sub (signedOf_modEq w y)).sub_right _).symm
  unfold aluSub
  rw [ovf_sub_signs hw hc, ← residue]

/-- The flags of a subtraction (R168). -/
theorem aluSub_flags (x y : Nat) : (aluSub w x y 0).2 = subFlags w x y := by
  rw [aluSub_eq hw x y (Nat.zero_le 1)]
  simp [subFlags]

/-- A negation with its flags: only the most negative value overflows (R168). -/
theorem aluSub_zero_left (x : Nat) :
    aluSub w 0 x 0 = (wrapTo w (-(x : Int)), nzcv w (wrapTo w (-(x : Int))) (decide (x ≠ 0)) (decide (x % 2 ^ w = 2 ^ (w - 1)))) := by
  have double := two_pow_eq_double hw
  have bounds := signedOf_bounds hw x
  have zero : signedOf w 0 = 0 := by simp [signedOf]
  have overflows : ovf w (signedOf w 0 - signedOf w x - (0 : Nat)) = decide (x % 2 ^ w = 2 ^ (w - 1)) := by
    rw [Bool.eq_iff_iff, ovf_iff, decide_eq_true_eq, zero, ← signedOf_eq_least_iff hw]
    omega
  unfold aluSub
  rw [overflows]
  simp [Nat.pos_iff_ne_zero]

/-- INC with its flags (R168). -/
theorem keepC_inc (h1 : 1 < w) (old : Flg) (x : Nat) :
    keepC old (aluAdd w x 1 0) = ((x + 1) % 2 ^ w, nzcv w ((x + 1) % 2 ^ w) old.c (decide ((x + 1) % 2 ^ w = 2 ^ (w - 1)))) := by
  have double := two_pow_eq_double hw
  have bounds := signedOf_bounds hw x
  have one : signedOf w 1 = 1 := by
    have : 1 < 2 ^ (w - 1) := Nat.one_lt_two_pow (by omega)
    rw [signedOf, Nat.mod_eq_of_lt (by omega), if_pos this, Nat.cast_one]
  have residue : (x + 1) % 2 ^ w = wrapTo w (signedOf w x + 1) := by
    rw [← wrapTo_natCast]
    push_cast
    exact wrapTo_congr ((signedOf_modEq w x).add_right _).symm
  have overflows : ovf w (signedOf w x + signedOf w 1 + (0 : Nat)) = decide ((x + 1) % 2 ^ w = 2 ^ (w - 1)) := by
    rw [Bool.eq_iff_iff, ovf_iff, decide_eq_true_eq, one, residue, wrapTo_eq_iff (by omega) (by omega)]
    omega
  unfold aluAdd
  rw [overflows]
  rfl

/-- DEC with its flags (R168). -/
theorem keepC_dec (h1 : 1 < w) (old : Flg) (x : Nat) :
    keepC old (aluSub w x 1 0) =
      (wrapTo w ((x : Int) - 1), nzcv w (wrapTo w ((x : Int) - 1)) old.c (decide (wrapTo w ((x : Int) - 1) = 2 ^ (w - 1) - 1))) := by
  have double := two_pow_eq_double hw
  have bounds := signedOf_bounds hw x
  have half : 1 < 2 ^ (w - 1) := Nat.one_lt_two_pow (by omega)
  have one : signedOf w 1 = 1 := by rw [signedOf, Nat.mod_eq_of_lt (by omega), if_pos half, Nat.cast_one]
  have residue : wrapTo w ((x : Int) - 1) = wrapTo w (signedOf w x - 1) := wrapTo_congr ((signedOf_modEq w x).sub_right _).symm
  have overflows : ovf w (signedOf w x - signedOf w 1 - (0 : Nat)) = decide (wrapTo w ((x : Int) - 1) = 2 ^ (w - 1) - 1) := by
    rw [Bool.eq_iff_iff, ovf_iff, decide_eq_true_eq, one, residue, wrapTo_eq_iff (by omega) (by omega)]
    omega
  unfold aluSub
  rw [overflows]
  simp [keepC, nzcv]

/-! Products. -/

/-- A signed product with its flags (R168). -/
theorem aluMul_signed (x y : Nat) :
    aluMul true w x y = (x * y % 2 ^ w, nzcv w (x * y % 2 ^ w) (decide (signedOf w (x * y % 2 ^ w) ≠ signedOf w x * signedOf w y))
      (decide (signedOf w (x * y % 2 ^ w) ≠ signedOf w x * signedOf w y))) := by
  have residue : x * y % 2 ^ w = wrapTo w (signedOf w x * signedOf w y) := by
    rw [← wrapTo_natCast]
    push_cast
    exact wrapTo_congr ((signedOf_modEq w x).mul (signedOf_modEq w y)).symm
  simp only [aluMul, if_true, ovf_eq hw, residue]

end

/-- An unsigned product with its flags (R168). -/
theorem aluMul_unsigned (w x y : Nat) :
    aluMul false w x y = (x * y % 2 ^ w, nzcv w (x * y % 2 ^ w) (decide (x * y % 2 ^ w ≠ x * y)) (decide (x * y % 2 ^ w ≠ x * y))) := by
  have big : decide (2 ^ w ≤ x * y) = decide (x * y % 2 ^ w ≠ x * y) := by
    rw [decide_eq_decide, Ne, Nat.mod_eq_iff_lt (Nat.two_pow_pos w).ne', Nat.not_lt]
  simp only [aluMul, Bool.false_eq_true, if_false, big]

/-- The high half of a residue modulo 2^2w is the residue of the high part. -/
theorem wrapTo_double_div (w : Nat) (i : Int) : wrapTo (2 * w) i / 2 ^ w = wrapTo w (i / (2 ^ w : Nat)) := by
  have pos : (0 : Int) < (2 ^ w : Nat) := by positivity
  have square : ((2 ^ (2 * w) : Nat) : Int) = (2 ^ w : Nat) * (2 ^ w : Nat) := by rw [two_mul, pow_add, Nat.cast_mul]
  have key : i % ((2 ^ w : Nat) * (2 ^ w : Nat)) / (2 ^ w : Nat) = i / (2 ^ w : Nat) % (2 ^ w : Nat) := by
    rw [Int.emod_def, Int.emod_def, ← Int.ediv_ediv_of_nonneg pos.le, mul_assoc, Int.sub_mul_ediv_left _ _ pos.ne']
  have nonneg := Int.emod_nonneg i (b := ((2 ^ w : Nat) * (2 ^ w : Nat) : Int)) (by positivity)
  rw [wrapTo, wrapTo, square, ← key]
  generalize i % ((2 ^ w : Nat) * (2 ^ w : Nat) : Int) = j at nonneg ⊢
  obtain ⟨k, rfl⟩ := Int.eq_ofNat_of_zero_le nonneg
  rw [Int.toNat_natCast, ← Int.natCast_div, Int.toNat_natCast]

/-- The high half of a signed product with its flags (R168). -/
theorem aluMulH_signed (w x y : Nat) :
    aluMulH true w x y = (wrapTo w (signedOf w x * signedOf w y / (2 ^ w : Nat)),
      nzcv w (wrapTo w (signedOf w x * signedOf w y / (2 ^ w : Nat))) false false) := by
  rw [aluMulH, if_pos rfl, wrapTo_double_div]

/-! Quotients and remainders. -/

section
variable {w : Nat} (hw : 0 < w)
include hw

/-- The one quotient that overflows is that of the most negative value by -1 (R209). -/
theorem ovf_tdiv_iff (x : Nat) {b : Int} (hb : b ≠ 0) :
    ovf w ((signedOf w x).tdiv b) = true ↔ signedOf w x = -(2 ^ (w - 1) : Nat) ∧ b = -1 := by
  have double := two_pow_eq_double hw
  have bounds := signedOf_bounds hw x
  rw [ovf_iff]
  by_cases minus : b = -1
  · subst minus
    rw [Int.tdiv_neg, Int.tdiv_one]
    omega
  by_cases plus : b = 1
  · subst plus
    rw [Int.tdiv_one]
    omega
  · have quotient : ((signedOf w x).tdiv b).natAbs = (signedOf w x).natAbs / b.natAbs := Int.natAbs_tdiv _ _
    have half : (signedOf w x).natAbs / b.natAbs ≤ (signedOf w x).natAbs / 2 := Nat.div_le_div_left (by omega) (by omega)
    have pos := Nat.two_pow_pos (w - 1)
    omega

/-- DIV with its flags (R169, R209). -/
theorem aluDiv_signed (x y : Nat) :
    aluDiv true false w x y =
      if signedOf w y = 0 then .error 0o011
      else if signedOf w x = -(2 ^ (w - 1) : Nat) ∧ signedOf w y = -1 then .ok (x, nzcv w x false true)
      else .ok (wrapTo w ((signedOf w x).tdiv (signedOf w y)), nzcv w (wrapTo w ((signedOf w x).tdiv (signedOf w y))) false false) := by
  simp only [aluDiv, ← signedOf_eq_zero_iff hw]
  by_cases zero : signedOf w y = 0
  · simp only [zero, if_true]
  · simp only [zero, if_false, ovf_tdiv_iff hw x zero, if_true, Bool.false_eq_true]

/-- REM with its flags (R169, R209). -/
theorem aluDiv_signed_rem (x y : Nat) :
    aluDiv true true w x y =
      if signedOf w y = 0 then .error 0o011
      else .ok (wrapTo w ((signedOf w x).tmod (signedOf w y)), nzcv w (wrapTo w ((signedOf w x).tmod (signedOf w y))) false
        (decide (signedOf w x = -(2 ^ (w - 1) : Nat) ∧ signedOf w y = -1))) := by
  simp only [aluDiv, ← signedOf_eq_zero_iff hw]
  by_cases zero : signedOf w y = 0
  · simp only [zero, if_true]
  · simp only [zero, if_false, ovf_tdiv_iff hw x zero, if_true]
    split
    next least =>
      rw [least.1, least.2]
      simp [wrapTo]
    next other => simp only [other, decide_false]

end

/-- DIVU with its flags (R169). -/
theorem aluDiv_unsigned (w x y : Nat) :
    aluDiv false false w x y = if y % 2 ^ w = 0 then .error 0o011 else .ok (x / y, nzcv w (x / y) false false) := rfl

/-- REMU with its flags (R169). -/
theorem aluDiv_unsigned_rem (w x y : Nat) :
    aluDiv false true w x y = if y % 2 ^ w = 0 then .error 0o011 else .ok (x % y, nzcv w (x % y) false false) := rfl

/-- The even word of a doubleword of two words. -/
theorem evenWord {h l : Nat} (hl : l < 2 ^ 36) : (h * 2 ^ 36 + l) / 2 ^ 36 = h := by omega

/-- DIVD with its flags (R169, R209). -/
theorem aluDivD_signed (x y : Nat) :
    aluDivD true x y =
      let q := (signedOf 72 x).tdiv (signedOf 36 y)
      if signedOf 36 y = 0 then .error 0o011
      else if q < -(2 ^ 35 : Int) ∨ (2 ^ 35 : Int) ≤ q then .ok (x, nzcv 36 (x / 2 ^ 36) false true)
      else .ok (wrapTo 36 q * 2 ^ 36 + wrapTo 36 ((signedOf 72 x).tmod (signedOf 36 y)), nzcv 36 (wrapTo 36 q) false false) := by
  have zero : signedOf 36 y = 0 ↔ y % 2 ^ 36 = 0 := signedOf_eq_zero_iff (by decide) y
  have big : ovf 36 ((signedOf 72 x).tdiv (signedOf 36 y)) = true ↔
      (signedOf 72 x).tdiv (signedOf 36 y) < -(2 ^ 35 : Int) ∨ (2 ^ 35 : Int) ≤ (signedOf 72 x).tdiv (signedOf 36 y) := by
    rw [ovf_iff]
    norm_num
  have even : (wrapTo 36 ((signedOf 72 x).tdiv (signedOf 36 y)) * 2 ^ 36 + wrapTo 36 ((signedOf 72 x).tmod (signedOf 36 y))) / 2 ^ 36 =
      wrapTo 36 ((signedOf 72 x).tdiv (signedOf 36 y)) := evenWord (wrapTo_lt 36 _)
  simp only [aluDivD, zero, ← big, if_true]
  split
  · rfl
  · cases ovf 36 ((signedOf 72 x).tdiv (signedOf 36 y))
    · simp only [Bool.false_eq_true, if_false, even]
    · rfl

/-- DIVDU with its flags (R169, R209). -/
theorem aluDivD_unsigned (x y : Nat) :
    aluDivD false x y =
      if y % 2 ^ 36 = 0 then .error 0o011
      else if 2 ^ 36 ≤ x / y then .ok (x, nzcv 36 (x / 2 ^ 36) false true)
      else .ok (x / y * 2 ^ 36 + wrapTo 36 (x % y : Nat), nzcv 36 (x / y) false false) := by
  have quotient : (x : Int).tdiv y = (x / y : Nat) := rfl
  have rest : (x : Int).tmod y = (x % y : Nat) := rfl
  simp only [aluDivD, Bool.false_eq_true, if_false, quotient, rest, Int.ofNat_le, decide_eq_true_eq, wrapTo_natCast]
  split
  · rfl
  · split
    next big => simp only [big, decide_true]
    next small =>
      rw [evenWord (Nat.mod_lt _ (by decide)), Nat.mod_eq_of_lt (Nat.lt_of_not_le small)]
      simp only [small, decide_false]

/-! Magnitudes, the smaller and the larger. -/

/-- ABS with its flags (R168). -/
theorem aluAbs_eq {w : Nat} (hw : 0 < w) (x : Nat) :
    aluAbs w x = (if signedOf w x < 0 then wrapTo w (-(signedOf w x)) else x,
      nzcv w (if signedOf w x < 0 then wrapTo w (-(signedOf w x)) else x) false (decide (signedOf w x = -(2 ^ (w - 1) : Nat)))) := by
  have bounds := signedOf_bounds hw x
  have overflows : ovf w (signedOf w x).natAbs = decide (signedOf w x = -(2 ^ (w - 1) : Nat)) := by
    rw [Bool.eq_iff_iff, ovf_iff, decide_eq_true_eq]
    omega
  simp only [aluAbs, msb_eq_neg, decide_eq_true_eq, overflows]

/-- The smaller or the larger signed operand (R168). -/
theorem aluMin_signed (max : Bool) (w x y : Nat) :
    aluMin true max w x y = if signedOf w x < signedOf w y then (if max then y else x) else (if max then x else y) := by
  unfold aluMin
  by_cases less : signedOf w x < signedOf w y <;> cases max <;> simp [less]

/-- The smaller unsigned operand (R168). -/
theorem aluMin_unsigned_min (w x y : Nat) : aluMin false false w x y = Nat.min x y := by
  change _ = min x y
  rw [Nat.min_def]
  by_cases less : x < y <;> simp [aluMin, less] <;> omega

/-- The larger unsigned operand (R168). -/
theorem aluMin_unsigned_max (w x y : Nat) : aluMin false true w x y = Nat.max x y := by
  change _ = max x y
  rw [Nat.max_def]
  by_cases less : x < y <;> simp [aluMin, less] <;> omega

/-! Rows from the equations of their results. -/

/-- A row of x and one source whose result is, at every width, what its row says. -/
theorem updRow_isaXS {mk : Insn → Instr} {t : Tmpl} {f : Nat → Flg → Nat → Nat → AluR} {g : Nat → Flg → Nat → List Nat → AluR}
    (ht : t.ops ≠ []) (means : ∀ n s, exec (mk n) s = s.isaXS t n f)
    (result : ∀ w, 1 < w → ∀ old x ss, f w old x (srcAt ss 0) = g w old x ss) : UpdRow mk t g :=
  updRow_intro ht fun n s => (means n s).trans <| by
    simp only [State.isaXS, result _ (Wid.one_lt_bits _)]

/-- A row of a destination and sources whose result is, at every width, what its row says. -/
theorem SetRow.congr {mk : Insn → Instr} {t : Tmpl} {f g : Nat → Flg → List Nat → AluR} (h : SetRow mk t f)
    (result : ∀ w, 1 < w → ∀ old ss, f w old ss = g w old ss) : SetRow mk t g := by
  intro n s d s1 hb c rs s2 vs s' hr
  rw [← result _ (Wid.one_lt_bits _)]
  exact h n s d s1 hb rs s2 vs s' hr

/-- A row of flags whose flags are, at every width, what its row says. -/
theorem CmpRow.congr {mk : Insn → Instr} {t : Tmpl} {f g : Nat → Flg → List Nat → Except Nat Flg} (h : CmpRow mk t f)
    (result : ∀ w, 1 < w → ∀ old ss, f w old ss = g w old ss) : CmpRow mk t g := by
  intro n s d s1 hb c rs s2 vs s' hr
  rw [← result _ (Wid.one_lt_bits _)]
  exact h n s d s1 hb rs s2 vs s' hr

end Sys2Proof.Machine

open Sys2Proof Sys2Proof.Machine

/-- Settles O9, row by row: each row's meaning changes x, writes its destination or sets flags from a result that the equation of its
operation gives (`aluAdd_eq`, `aluSub_eq`, `keepC_inc`, `keepC_dec`, `aluMul_signed`, `aluMul_unsigned`, `aluMulH_signed`). -/
theorem addSubtractMultiplyRows : Obligations.AddSubtractMultiplyRows := by
  unfold Obligations.AddSubtractMultiplyRows
  have carry (b : Bool) : b2n b ≤ 1 := by cases b <;> decide
  refine ⟨⟨?add, ?adc, ?sub, ?sbc, ?neg, ?inc, ?dec, ?cmp⟩, ?mul, ?mulu, ?mulh, ?mulhu, ?muld, ?muldu⟩
  case add => exact updRow_isaXS (by decide) exec_add fun w hw _ x ss => congrArg Except.ok (aluAdd_eq (by omega) x _ (Nat.zero_le 1))
  case adc => exact updRow_isaXS (by decide) exec_adc fun w hw _ x ss => congrArg Except.ok (aluAdd_eq (by omega) x _ (carry _))
  case sub =>
    refine updRow_isaXS (by decide) exec_sub fun w hw _ x ss => congrArg Except.ok ?_
    simpa using aluSub_eq (by omega) x (srcAt ss 0) (Nat.zero_le 1)
  case sbc => exact updRow_isaXS (by decide) exec_sbc fun w hw _ x ss => congrArg Except.ok (aluSub_eq (by omega) x _ (carry _))
  case neg => exact updRow_isaXS (by decide) exec_neg fun w hw _ x _ => congrArg Except.ok (aluSub_zero_left (by omega) x)
  case inc => exact updRow_isaXS (by decide) exec_inc fun w hw old x _ => congrArg Except.ok (keepC_inc (by omega) hw old x)
  case dec => exact updRow_isaXS (by decide) exec_dec fun w hw old x _ => congrArg Except.ok (keepC_dec (by omega) hw old x)
  case cmp =>
    exact CmpRow.congr (f := fun w _ ss => .ok (aluSub w (srcAt ss 0) (srcAt ss 1) 0).2)
      (cmpRow_intro (g := fun w _ ss => .ok (aluSub w (srcAt ss 0) (srcAt ss 1) 0)) (fun _ _ _ => rfl) exec_cmp)
      fun w hw _ ss => congrArg Except.ok (aluSub_flags (by omega) (srcAt ss 0) (srcAt ss 1))
  case mul => exact updRow_isaXS (by decide) exec_mul fun w hw _ x _ => congrArg Except.ok (aluMul_signed (by omega) x _)
  case mulu => exact updRow_isaXS (by decide) exec_mulu fun w _ _ x _ => congrArg Except.ok (aluMul_unsigned w x _)
  case mulh => exact updRow_isaXS (by decide) exec_mulh fun w _ _ x _ => congrArg Except.ok (aluMulH_signed w x _)
  case mulhu => exact updRow_isaXS (by decide) exec_mulhu fun _ _ _ _ _ => rfl
  case muld => exact setRow_intro exec_muld
  case muldu => exact setRow_intro exec_muldu

/-- Settles O10, row by row, from the equations of the quotients and remainders. -/
theorem divideRows : Obligations.DivideRows := by
  unfold Obligations.DivideRows
  refine ⟨?div, ?rem, ?divu, ?remu, ?divd, ?divdu⟩
  case div => exact updRow_isaXS (by decide) exec_div fun w hw _ x _ => aluDiv_signed (by omega) x _
  case rem => exact updRow_isaXS (by decide) exec_rem fun w hw _ x _ => aluDiv_signed_rem (by omega) x _
  case divu => exact updRow_isaXS (by decide) exec_divu fun w _ _ x _ => aluDiv_unsigned w x _
  case remu => exact updRow_isaXS (by decide) exec_remu fun w _ _ x _ => aluDiv_unsigned_rem w x _
  case divd =>
    refine updRow_intro (by decide) fun n s => (exec_divd n s).trans ?_
    simp only [execDivd, aluDivD_signed]
  case divdu =>
    refine updRow_intro (by decide) fun n s => (exec_divdu n s).trans ?_
    simp only [execDivdu, aluDivD_unsigned]

/-- Settles O11, row by row: a magnitude, a smaller or larger operand, or a logical result with N and Z of it. -/
theorem absMinMaxAndLogicRows : Obligations.AbsMinMaxAndLogicRows := by
  unfold Obligations.AbsMinMaxAndLogicRows
  refine ⟨⟨?abs, ?min, ?max, ?minu, ?maxu⟩, ?and, ?or, ?xor, ?not, ?andn, ?test⟩
  case abs => exact updRow_isaXS (by decide) exec_abs fun w hw _ x _ => congrArg Except.ok (aluAbs_eq (by omega) x)
  case min => exact updRow_isaXS (by decide) exec_min fun w _ old x _ => congrArg (keepF old) (aluMin_signed false w x _)
  case max => exact updRow_isaXS (by decide) exec_max fun w _ old x _ => congrArg (keepF old) (aluMin_signed true w x _)
  case minu => exact updRow_isaXS (by decide) exec_minu fun w _ old x _ => congrArg (keepF old) (aluMin_unsigned_min w x _)
  case maxu => exact updRow_isaXS (by decide) exec_maxu fun w _ old x _ => congrArg (keepF old) (aluMin_unsigned_max w x _)
  case and => exact updRow_isaXS (by decide) exec_and fun _ _ _ _ _ => rfl
  case or => exact updRow_isaXS (by decide) exec_or fun _ _ _ _ _ => rfl
  case xor => exact updRow_isaXS (by decide) exec_xor fun _ _ _ _ _ => rfl
  case not => exact updRow_isaXS (by decide) exec_not fun _ _ _ _ _ => rfl
  case andn => exact updRow_isaXS (by decide) exec_andn fun _ _ _ _ _ => rfl
  case test =>
    exact cmpRow_intro (g := fun w _ ss => .ok (aluLogic w (srcAt ss 0 &&& srcAt ss 1))) (fun _ _ _ => rfl) exec_test

end

section
/-! Shifts, rotates, bits and fields (O12): single bits of a value, each result with its flags, and the rows from them. -/

namespace Sys2Proof.Machine
open Sys2Proof

/-! Single bits. -/

/-- Bit 0 in device numbering is the highest bit of the width (R9). -/
theorem msb_eq_testBit {w : Nat} (hw : 0 < w) (x : Nat) : msb w x = x.testBit (w - 1) := by
  have double := two_pow_eq_double hw
  have lt := Nat.mod_lt x (Nat.two_pow_pos w)
  have low : (x % 2 ^ w).testBit (w - 1) = x.testBit (w - 1) := by simp [Nat.testBit_mod_two_pow, hw]
  rw [← low, msb]
  by_cases big : 2 ^ (w - 1) ≤ x % 2 ^ w
  · rw [decide_eq_true big, Nat.testBit_of_two_pow_le_and_two_pow_add_one_gt big (by rw [Nat.sub_add_cancel hw]; exact lt)]
  · rw [decide_eq_false big, Nat.testBit_lt_two_pow (Nat.lt_of_not_le big)]

/-- Where bit `k` is set, setting it changes nothing. -/
theorem or_two_pow_of_set {x k : Nat} (h : x.testBit k = true) : x ||| 2 ^ k = x := by
  refine Nat.eq_of_testBit_eq fun i => ?_
  rw [Nat.testBit_or, Nat.testBit_two_pow]
  by_cases hi : k = i
  · rw [← hi, h, Bool.true_or]
  · simp [hi]

/-- Where bit `k` is clear, setting it adds 2^k. -/
theorem or_two_pow_of_clear {x k : Nat} (h : x.testBit k = false) : x ||| 2 ^ k = x + 2 ^ k := by
  induction k generalizing x with
  | zero =>
    have even : x % 2 = 0 := by simpa [Nat.testBit_zero] using h
    have half : (x ||| 1) / 2 = x / 2 := by rw [Nat.or_div_two]; simp
    have odd : (x ||| 1) % 2 = 1 := by simp [Nat.or_mod_two_eq_one]
    rw [pow_zero]
    omega
  | succ k ih =>
    have rest := ih (x := x / 2) (by rwa [Nat.testBit_succ] at h)
    have half : (x ||| 2 ^ (k + 1)) / 2 = x / 2 ||| 2 ^ k := by rw [Nat.or_div_two, pow_succ, Nat.mul_div_cancel _ (by decide)]
    have low : (x ||| 2 ^ (k + 1)) % 2 = x % 2 := by
      have := Nat.testBit_or x (2 ^ (k + 1)) 0
      simp only [Nat.testBit_zero, pow_succ, Nat.mul_mod_left] at this
      simp only [pow_succ]
      grind
    rw [pow_succ] at *
    omega

/-- Inverting bit `k` adds or subtracts 2^k. -/
theorem xor_two_pow (x k : Nat) : x ^^^ 2 ^ k = if x.testBit k then x - 2 ^ k else x + 2 ^ k := by
  cases h : x.testBit k with
  | false =>
    rw [if_neg (by decide), ← or_two_pow_of_clear h]
    refine Nat.eq_of_testBit_eq fun i => ?_
    rw [Nat.testBit_xor, Nat.testBit_or, Nat.testBit_two_pow]
    by_cases hi : k = i
    · rw [← hi, h]; simp
    · simp [hi]
  | true =>
    have clear : (x ^^^ 2 ^ k).testBit k = false := by rw [Nat.testBit_xor, h, Nat.testBit_two_pow]; simp
    have back : (x ^^^ 2 ^ k) ||| 2 ^ k = x := by
      refine Nat.eq_of_testBit_eq fun i => ?_
      rw [Nat.testBit_or, Nat.testBit_xor, Nat.testBit_two_pow]
      by_cases hi : k = i
      · rw [← hi, h]; simp
      · simp [hi]
    have sum := or_two_pow_of_clear clear
    rw [if_pos rfl]
    omega

/-- BSET with its flags, and the check on its bit number (R170, R172). -/
theorem aluBit_set (w x n : Nat) (old : Flg) :
    aluBit (fun _ => true) w x n old = if w ≤ n then .error 0o006
      else .ok (x ||| 2 ^ (w - 1 - n), { old with c := x.testBit (w - 1 - n), z := !x.testBit (w - 1 - n) }) := by
  unfold aluBit nbit
  cases h : x.testBit (w - 1 - n)
  · simp [or_two_pow_of_clear h]
  · simp [or_two_pow_of_set h]

/-- BCLR with its flags, and the check on its bit number (R170, R172). -/
theorem aluBit_clear (w x n : Nat) (old : Flg) :
    aluBit (fun _ => false) w x n old = if w ≤ n then .error 0o006
      else .ok ((x ||| 2 ^ (w - 1 - n)) - 2 ^ (w - 1 - n), { old with c := x.testBit (w - 1 - n), z := !x.testBit (w - 1 - n) }) := by
  unfold aluBit nbit
  cases h : x.testBit (w - 1 - n)
  · simp [or_two_pow_of_clear h]
  · simp [or_two_pow_of_set h]

/-- BFLIP with its flags, and the check on its bit number (R170, R172). -/
theorem aluBit_flip (w x n : Nat) (old : Flg) :
    aluBit (fun b => !b) w x n old = if w ≤ n then .error 0o006
      else .ok (x ^^^ 2 ^ (w - 1 - n), { old with c := x.testBit (w - 1 - n), z := !x.testBit (w - 1 - n) }) := by
  unfold aluBit nbit
  rw [xor_two_pow]
  cases h : x.testBit (w - 1 - n) <;> simp

/-- BTST sets flags from the bit, and the check on its bit number (R170, R172). -/
theorem aluBit_test (w x n : Nat) (old : Flg) :
    (aluBit id w x n old).map Prod.snd = if w ≤ n then .error 0o006
      else .ok { old with c := x.testBit (w - 1 - n), z := !x.testBit (w - 1 - n) } := by
  unfold aluBit nbit
  split <;> rfl

/-! Shifts and rotates. -/

/-- Every bit of a value from bit `k` up is the sign's where the value fits in `k` bits and a sign. -/
theorem sign_bits_iff {w k : Nat} (hk : k < w) (x : Nat) :
    (∀ j, k ≤ j → j < w → x.testBit j = msb w x) ↔ -(2 ^ k : Nat) ≤ signedOf w x ∧ signedOf w x < (2 ^ k : Nat) := by
  have lt := Nat.mod_lt x (Nat.two_pow_pos w)
  have half : 2 ^ k ≤ 2 ^ (w - 1) := Nat.pow_le_pow_right (by decide) (by omega)
  have double := two_pow_eq_double (w := w) (by omega)
  have low (j : Nat) : (x % 2 ^ w).testBit j = (decide (j < w) && x.testBit j) := Nat.testBit_mod_two_pow x w j
  rw [signedOf_eq]
  cases sign : msb w x with
  | false =>
    rw [if_neg (by decide)]
    have zeros : (∀ j, k ≤ j → j < w → x.testBit j = false) ↔ x % 2 ^ w < 2 ^ k := by
      refine ⟨fun h => Nat.lt_pow_two_of_testBit _ fun j hj => ?_, fun h j hj hjw => ?_⟩
      · rw [low]
        by_cases hjw : j < w
        · rw [h j hj hjw, Bool.and_false]
        · simp [hjw]
      · have := Nat.testBit_lt_two_pow (h.trans_le (Nat.pow_le_pow_right (by decide) hj))
        simpa [low, hjw] using this
    rw [zeros]
    omega
  | true =>
    rw [if_pos rfl]
    have flip (j : Nat) : (2 ^ w - (x % 2 ^ w + 1)).testBit j = (decide (j < w) && !x.testBit j) := by
      rw [Nat.testBit_two_pow_sub_succ lt, low]
      by_cases hjw : j < w <;> simp [hjw]
    have ones : (∀ j, k ≤ j → j < w → x.testBit j = true) ↔ 2 ^ w - (x % 2 ^ w + 1) < 2 ^ k := by
      refine ⟨fun h => Nat.lt_pow_two_of_testBit _ fun j hj => ?_, fun h j hj hjw => ?_⟩
      · rw [flip]
        by_cases hjw : j < w
        · rw [h j hj hjw, Bool.not_true, Bool.and_false]
        · simp [hjw]
      · have := Nat.testBit_lt_two_pow (h.trans_le (Nat.pow_le_pow_right (by decide) hj))
        simpa [flip, hjw] using this
    have full : (2 ^ k : Nat) ≤ 2 ^ w := by omega
    rw [ones]
    omega

/-- A residue keeps bit 0 of its width. -/
theorem msb_mod {w : Nat} (x : Nat) : msb w (x % 2 ^ w) = msb w x := by
  rw [msb, msb, Nat.mod_mod]

/-- A shift to the left within the width loses nothing where every bit shifted out, and the new sign, is the old sign (R171). -/
theorem shl_fits_iff {w n : Nat} (hn : n < w) (x : Nat) :
    ((∀ i < n, nbit w x i = msb w x) ∧ msb w (x * 2 ^ n % 2 ^ w) = msb w x) ↔ ovf w (signedOf w x * (2 ^ n : Nat)) = false := by
  have hw : 0 < w := by omega
  have scale : 2 ^ (w - 1) = 2 ^ (w - 1 - n) * 2 ^ n := by rw [← pow_add]; congr 1; omega
  have pos : (0 : Int) < (2 ^ n : Nat) := by positivity
  have sign : msb w (x * 2 ^ n % 2 ^ w) = x.testBit (w - 1 - n) := by
    rw [msb_mod, msb_eq_testBit hw, Nat.testBit_mul_two_pow]
    simp [show n ≤ w - 1 by omega]
  have copies : ((∀ i < n, nbit w x i = msb w x) ∧ x.testBit (w - 1 - n) = msb w x) ↔
      ∀ j, w - 1 - n ≤ j → j < w → x.testBit j = msb w x := by
    refine ⟨fun ⟨out, top⟩ j hj hjw => ?_, fun h => ⟨fun i hi => h _ (by omega) (by omega), h _ le_rfl (by omega)⟩⟩
    rcases hj.eq_or_lt with rfl | hj
    · exact top
    · have := out (w - 1 - j) (by omega)
      rwa [nbit, show w - 1 - (w - 1 - j) = j by omega] at this
  rw [sign, copies, sign_bits_iff (by omega), ← Bool.not_eq_true, ovf_iff, scale, Nat.cast_mul, ← neg_mul, mul_lt_mul_iff_of_pos_right pos,
    mul_le_mul_iff_of_pos_right pos]
  omega

/-- A shift to the left by the width or more loses nothing of 0 alone (R171). -/
theorem shl_out_iff {w n : Nat} (hw : 0 < w) (hn : w ≤ n) (x : Nat) :
    ((∀ i < w, nbit w x i = msb w x) ∧ false = msb w x) ↔ ovf w (signedOf w x * (2 ^ n : Nat)) = false := by
  have zero : ((∀ i < w, nbit w x i = msb w x) ∧ false = msb w x) ↔ x % 2 ^ w = 0 := by
    refine ⟨fun ⟨bits, sign⟩ => Nat.eq_of_testBit_eq fun j => ?_, fun h => ?_⟩
    · rw [Nat.testBit_mod_two_pow, Nat.zero_testBit]
      by_cases hj : j < w
      · have := bits (w - 1 - j) (by omega)
        rw [nbit, show w - 1 - (w - 1 - j) = j by omega] at this
        rw [this, ← sign, Bool.and_false]
      · simp [hj]
    · have clear (j : Nat) (hj : j < w) : x.testBit j = false := by
        have := Nat.testBit_mod_two_pow x w j
        simpa [h, hj] using this.symm
      rw [msb_eq_testBit hw, clear _ (by omega)]
      exact ⟨fun i hi => clear _ (by omega), rfl⟩
  have double := two_pow_eq_double hw
  have big : (2 ^ w : Nat) ≤ 2 ^ n := Nat.pow_le_pow_right (by decide) hn
  rw [zero, ← signedOf_eq_zero_iff hw, ← Bool.not_eq_true, ovf_iff]
  refine ⟨fun h => ?_, fun h => ?_⟩
  · rw [h]
    have := Nat.two_pow_pos (w - 1)
    omega
  · by_contra ne
    have one : 1 ≤ |signedOf w x| := Int.one_le_abs ne
    have pos := Nat.two_pow_pos (w - 1)
    have grows : ((2 ^ n : Nat) : Int) ≤ |signedOf w x * (2 ^ n : Nat)| := by
      rw [abs_mul, Nat.abs_cast]
      exact le_mul_of_one_le_left (by positivity) one
    rcases abs_cases (signedOf w x * (2 ^ n : Nat)) with ⟨e, -⟩ | ⟨e, -⟩ <;> omega

/-- SHL with its flags, for every count (R170, R171). -/
theorem aluShl_eq {w : Nat} (hw : 0 < w) (x n : Nat) (old : Flg) :
    aluShl w x n old = if n = 0 then (x, old)
      else (x * 2 ^ n % 2 ^ w, nzcv w (x * 2 ^ n % 2 ^ w) (decide (n ≤ w) && x.testBit (w - n))
        (decide (signedOf w (x * 2 ^ n % 2 ^ w) ≠ signedOf w x * (2 ^ n : Nat)))) := by
  by_cases hn : n = 0
  · rw [aluShl, if_pos hn, if_pos hn]
  have residue : x * 2 ^ n % 2 ^ w = wrapTo w (signedOf w x * (2 ^ n : Nat)) := by
    rw [← wrapTo_natCast, Nat.cast_mul]
    exact wrapTo_congr ((signedOf_modEq w x).mul_right _).symm
  have result : (if n > w then 0 else x * 2 ^ n % 2 ^ w) = x * 2 ^ n % 2 ^ w := by
    split
    next far => exact (Nat.mod_eq_zero_of_dvd ((pow_dvd_pow 2 far.le).mul_left x)).symm
    next => rfl
  have carry : (if n > w then false else nbit w x (n - 1)) = (decide (n ≤ w) && x.testBit (w - n)) := by
    rw [nbit, show w - 1 - (n - 1) = w - n by omega]
    by_cases far : n > w
    · simp [far]
    · simp [far, Nat.le_of_not_lt far]
  have lost : (((List.range (Nat.min n w)).any fun i => nbit w x i != msb w x) || msb w (x * 2 ^ n % 2 ^ w) != msb w x) =
      decide (signedOf w (x * 2 ^ n % 2 ^ w) ≠ signedOf w x * (2 ^ n : Nat)) := by
    rw [residue, ← ovf_eq hw, ← residue, ← Bool.not_inj_iff, Bool.eq_iff_iff]
    rcases lt_or_ge n w with near | far
    · simpa [show Nat.min n w = n from Nat.min_eq_left near.le] using shl_fits_iff near x
    · have positive : msb w (x * 2 ^ n % 2 ^ w) = false := by
        rw [Nat.mod_eq_zero_of_dvd ((pow_dvd_pow 2 far).mul_left x)]
        simp [msb]
      simpa [positive, show Nat.min n w = w from Nat.min_eq_right far] using shl_out_iff hw far x
  rw [aluShl, if_neg hn, if_neg hn]
  simp only [result, carry, lost]

/-- SHR with its flags, for every count (R170, R171). -/
theorem aluShr_eq (w x n : Nat) (old : Flg) :
    aluShr w x n old = if n = 0 then (x, old)
      else (if w < n then 0 else x / 2 ^ n,
        nzcv w (if w < n then 0 else x / 2 ^ n) (decide (n ≤ w) && x.testBit (n - 1)) false) := by
  by_cases hn : n = 0
  · rw [aluShr, if_pos hn, if_pos hn]
  have carry : (if n > w then false else nbit w x (w - n)) = (decide (n ≤ w) && x.testBit (n - 1)) := by
    by_cases far : n > w
    · simp [far]
    · simp [far, Nat.le_of_not_lt far, nbit, show w - 1 - (w - n) = n - 1 by omega]
  rw [aluShr, if_neg hn, if_neg hn, carry]

/-- A signed value shifted right by the width or more is its sign repeated. -/
theorem signedOf_shift_out {w n : Nat} (hw : 0 < w) (hn : w ≤ n) (x : Nat) :
    signedOf w x / (2 ^ n : Nat) = if signedOf w x < 0 then -1 else 0 := by
  have bounds := signedOf_bounds hw x
  have double := two_pow_eq_double hw
  have big : (2 ^ w : Nat) ≤ 2 ^ n := Nat.pow_le_pow_right (by decide) hn
  split
  next neg => exact ((Int.ediv_emod_unique (r := signedOf w x + (2 ^ n : Nat)) (by positivity)).2 ⟨by ring, by omega, by omega⟩).1
  next pos => exact Int.ediv_eq_zero_of_lt (by omega) (by omega)

/-- SAR with its flags, for every count (R170, R171). -/
theorem aluSar_eq {w : Nat} (hw : 0 < w) (x n : Nat) (old : Flg) :
    aluSar w x n old = if n = 0 then (x, old)
      else (wrapTo w (signedOf w x / (2 ^ n : Nat)),
        nzcv w (wrapTo w (signedOf w x / (2 ^ n : Nat))) (if w < n then msb w x else x.testBit (n - 1)) false) := by
  by_cases hn : n = 0
  · rw [aluSar, if_pos hn, if_pos hn]
  have result : signedOf w x / (2 ^ Nat.min n w : Nat) = signedOf w x / (2 ^ n : Nat) := by
    rcases lt_or_ge n w with near | far
    · rw [show Nat.min n w = n from Nat.min_eq_left near.le]
    · rw [show Nat.min n w = w from Nat.min_eq_right far, signedOf_shift_out hw le_rfl, signedOf_shift_out hw far]
  have carry : (if n > w then msb w x else nbit w x (w - n)) = if w < n then msb w x else x.testBit (n - 1) := by
    by_cases far : n > w
    · simp [far]
    · simp [far, nbit, show w - 1 - (w - n) = n - 1 by omega]
  rw [aluSar, if_neg hn, if_neg hn]
  simp only [result, carry]

/-- ROL with its flags, for every count (R170, R171). -/
theorem aluRol_eq (w x n : Nat) (old : Flg) :
    aluRol w x n old = if n % w = 0 then (x, old)
      else ((x * 2 ^ (n % w) + x / 2 ^ (w - n % w)) % 2 ^ w, nzcv w ((x * 2 ^ (n % w) + x / 2 ^ (w - n % w)) % 2 ^ w)
        (((x * 2 ^ (n % w) + x / 2 ^ (w - n % w)) % 2 ^ w).testBit 0) false) := by
  simp only [aluRol, Nat.testBit_zero, beq_eq_decide]

/-- SHLD with its flags, and the check on its count (R170, R171). -/
theorem aluShld_eq (w x y n : Nat) (old : Flg) :
    aluShld w x y n old = if w < n then .error 0o006 else if n = 0 then .ok (x, old)
      else .ok ((x * 2 ^ n + y / 2 ^ (w - n)) % 2 ^ w, nzcv w ((x * 2 ^ n + y / 2 ^ (w - n)) % 2 ^ w) (x.testBit (w - n)) false) := by
  by_cases hn : n = 0
  · simp [aluShld, hn]
  · simp only [aluShld, nbit, show w - 1 - (n - 1) = w - n by omega]

/-- SHRD with its flags, and the check on its count (R170, R171). -/
theorem aluShrd_eq (w x y n : Nat) (old : Flg) :
    aluShrd w x y n old = if w < n then .error 0o006 else if n = 0 then .ok (x, old)
      else .ok ((x / 2 ^ n + y * 2 ^ (w - n)) % 2 ^ w, nzcv w ((x / 2 ^ n + y * 2 ^ (w - n)) % 2 ^ w) (x.testBit (n - 1)) false) := by
  by_cases far : w < n
  · simp [aluShrd, far]
  · simp only [aluShrd, nbit, show w - 1 - (w - n) = n - 1 by omega]

/-! Counts and fields. -/

/-- The numbers below `w` that satisfy a test from 0 on: all below `m`, where the test first fails at `m` or `m` is `w`. -/
theorem length_takeWhile_range {p : Nat → Bool} {m w : Nat} (hm : m ≤ w) (before : ∀ i < m, p i = true) (stop : m = w ∨ p m = false) :
    ((List.range w).takeWhile p).length = m := by
  obtain ⟨k, rfl⟩ := Nat.exists_eq_add_of_le hm
  rw [List.range_add, List.takeWhile_append_of_pos (by simpa using before), List.length_append, List.length_range]
  cases k with
  | zero => rfl
  | succ k =>
    have fails : p m = false := stop.resolve_left (by omega)
    simp [List.range_succ_eq_map, fails]

/-- CLZ counts the bits above the highest bit that is set (R170). -/
theorem clz_eq (w x : Nat) : ((List.range w).takeWhile fun i => !nbit w x i).length = w - bitLen (x % 2 ^ w) := by
  have lt := Nat.mod_lt x (Nat.two_pow_pos w)
  have low {j : Nat} (hj : j < w) : x.testBit j = (x % 2 ^ w).testBit j := by rw [Nat.testBit_mod_two_pow]; simp [hj]
  by_cases zero : x % 2 ^ w = 0
  · refine length_takeWhile_range (Nat.sub_le _ _) (fun i hi => ?_) (.inl (by simp [bitLen, zero]))
    rw [nbit, low (by omega), zero, Nat.zero_testBit]
    rfl
  · have top := (Nat.log2_lt zero).2 lt
    rw [bitLen, if_neg zero]
    refine length_takeWhile_range (Nat.sub_le _ _) (fun i hi => ?_) (.inr ?_)
    · have above : x % 2 ^ w < 2 ^ (w - 1 - i) := (Nat.log2_lt zero).1 (by omega)
      rw [nbit, low (by omega), Nat.testBit_lt_two_pow above]
      rfl
    · rw [nbit, show w - 1 - (w - ((x % 2 ^ w).log2 + 1)) = (x % 2 ^ w).log2 by omega, low top, Nat.testBit_log2 zero]
      rfl

/-- The entries that satisfy a test, counted. -/
theorem length_filter_eq_sum {α : Type} (p : α → Bool) (l : List α) : (l.filter p).length = (l.map fun i => b2n (p i)).sum := by
  induction l with
  | nil => rfl
  | cons a l ih => cases h : p a <;> simp [h, ih, b2n, Nat.add_comm]

/-- BEXT with its flags, and the check on its field (R170, R172). -/
theorem aluBext_eq (w x y : Nat) :
    aluBext w x y = if y % 512 = 0 ∨ w < y / 512 % 512 + y % 512 then .error 0o006
      else .ok (x / 2 ^ (w - y / 512 % 512 - y % 512) % 2 ^ (y % 512),
        nzcv w (x / 2 ^ (w - y / 512 % 512 - y % 512) % 2 ^ (y % 512)) false false) := by
  unfold aluBext fieldDesc
  dsimp only
  by_cases bad : y % 512 = 0 ∨ w < y / 512 % 512 + y % 512
  · rw [if_pos bad, if_pos bad]
  · rw [if_neg bad, if_neg bad]
    rfl

/-- A field of a number replaced: what is above it, the field and what is below it. -/
theorem replace_field (x k m v : Nat) : x - x / k % m * k + v * k = x / (k * m) * (k * m) + v * k + x % k := by
  have high := Nat.div_add_mod (x / k) m
  have low := Nat.div_add_mod x k
  rw [Nat.div_div_eq_div_mul] at high
  have split : x = x / (k * m) * (k * m) + x / k % m * k + x % k := by
    calc x = k * (m * (x / (k * m)) + x / k % m) + x % k := by rw [high, low]
      _ = _ := by ring
  omega

/-- BINS with its flags, and the check on its field (R170, R172). -/
theorem aluBins_eq (w x v y : Nat) :
    aluBins w x v y =
      let pos := y / 512 % 512
      let len := y % 512
      let k := 2 ^ (w - pos - len)
      let r := x / (k * 2 ^ len) * (k * 2 ^ len) + v % 2 ^ len * k + x % k
      if len = 0 ∨ w < pos + len then .error 0o006 else .ok (r, nzcv w r false false) := by
  unfold aluBins fieldDesc
  dsimp only
  by_cases bad : y % 512 = 0 ∨ w < y / 512 % 512 + y % 512
  · rw [if_pos bad, if_pos bad]
  · rw [if_neg bad, if_neg bad, ← replace_field]
    rfl

end Sys2Proof.Machine

open Sys2Proof Sys2Proof.Machine

/-- Settles O12, row by row, from the equations of the results: shifts and rotates, single bits, counts, and fields. -/
theorem shiftAndBitRows : Obligations.ShiftAndBitRows := by
  unfold Obligations.ShiftAndBitRows
  refine ⟨⟨?shl, ?shr, ?sar, ?rol, ?ror, ?shld, ?shrd⟩, ?btst, ?bset, ?bclr, ?bflip, ?clz, ?ctz, ?popc, ?bext, ?bins⟩
  case shl =>
    refine updRow_isaXS (by decide) exec_shl fun w hw old x ss => ?_
    rw [aluShl_eq (by omega), apply_ite Except.ok]
  case shr =>
    refine updRow_isaXS (by decide) exec_shr fun w hw old x ss => ?_
    rw [aluShr_eq, apply_ite Except.ok]
  case sar =>
    refine updRow_isaXS (by decide) exec_sar fun w hw old x ss => ?_
    rw [aluSar_eq (by omega), apply_ite Except.ok]
  case rol =>
    refine updRow_isaXS (by decide) exec_rol fun w hw old x ss => ?_
    rw [aluRol_eq, apply_ite Except.ok]
  case ror =>
    refine updRow_isaXS (by decide) exec_ror fun w hw old x ss => ?_
    rw [aluRor, apply_ite Except.ok]
  case shld =>
    refine updRow_intro (by decide) fun n s => (exec_shld n s).trans ?_
    simp only [execShld, aluShld_eq]
  case shrd =>
    refine updRow_intro (by decide) fun n s => (exec_shrd n s).trans ?_
    simp only [execShrd, aluShrd_eq]
  case btst =>
    exact cmpRow_intro (g := fun w old ss => aluBit id w (srcAt ss 0) (srcAt ss 1) old)
      (fun w old ss => (aluBit_test w (srcAt ss 0) (srcAt ss 1) old).symm) exec_btst
  case bset => exact updRow_isaXS (by decide) exec_bset fun w _ old x ss => aluBit_set w x (srcAt ss 0) old
  case bclr => exact updRow_isaXS (by decide) exec_bclr fun w _ old x ss => aluBit_clear w x (srcAt ss 0) old
  case bflip => exact updRow_isaXS (by decide) exec_bflip fun w _ old x ss => aluBit_flip w x (srcAt ss 0) old
  case clz =>
    refine setRow_intro fun n s => (exec_clz n s).trans ?_
    simp only [execClz, aluClz, clz_eq]
  case ctz => exact setRow_intro exec_ctz
  case popc =>
    refine setRow_intro fun n s => (exec_popc n s).trans ?_
    simp only [execPopc, aluPopc, length_filter_eq_sum]
  case bext =>
    refine setRow_intro fun n s => (exec_bext n s).trans ?_
    simp only [execBext, aluBext_eq]
  case bins =>
    refine updRow_intro (by decide) fun n s => (exec_bins n s).trans ?_
    simp only [execBins, aluBins_eq]

end

section
/-! Moves, pointers, XCHG, CAS and LDA (O13): fields of a word replaced, operands as they were decoded and made ready, and the rows. -/

namespace Sys2Proof.Machine
open Sys2Proof

/-! Fields of a word. -/

/-- The bits of a word with a field replaced, counted from the least significant. -/
theorem getLsbD_setField {w lo hi : Nat} (x : BitVec w) (v : Nat) (hlo : lo ≤ hi) (hhi : hi < w) {j : Nat} (hj : j < w) :
    (setField x lo hi v).getLsbD j = if w - 1 - hi ≤ j ∧ j ≤ w - 1 - lo then v.testBit (j - (w - 1 - hi)) else x.getLsbD j := by
  unfold setField
  rw [BitVec.getLsbD_or, BitVec.getLsbD_and, BitVec.getLsbD_not, BitVec.getLsbD_ofNat, BitVec.getLsbD_ofNat, Nat.testBit_mul_two_pow,
    Nat.testBit_mul_two_pow, Nat.testBit_two_pow_sub_one, Nat.testBit_mod_two_pow]
  by_cases low : w - 1 - hi ≤ j
  · by_cases high : j ≤ w - 1 - lo
    · have inside : j - (w - 1 - hi) < hi + 1 - lo := by omega
      simp [hj, low, high, inside]
    · have outside : ¬ j - (w - 1 - hi) < hi + 1 - lo := by omega
      simp [hj, low, high, outside]
  · simp [hj, low]

/-- The bits of a word with a field replaced, in device numbering (R9). -/
theorem dbit_setField {w lo hi : Nat} (x : BitVec w) (v : Nat) (hlo : lo ≤ hi) (hhi : hi < w) {i : Nat} (hi' : i < w) :
    dbit (setField x lo hi v) i = if lo ≤ i ∧ i ≤ hi then v.testBit (hi - i) else dbit x i := by
  rw [dbit, getLsbD_setField x v hlo hhi (by omega), dbit]
  by_cases inside : lo ≤ i ∧ i ≤ hi
  · rw [if_pos inside, if_pos (by omega)]
    congr 1
    omega
  · rw [if_neg inside, if_neg (by omega)]

/-- A word with its lowest field replaced, as a number. -/
theorem toNat_setField_low {w lo : Nat} (x : BitVec w) (v : Nat) (hlo : lo < w) :
    (setField x lo (w - 1) v).toNat = x.toNat / 2 ^ (w - lo) * 2 ^ (w - lo) + v % 2 ^ (w - lo) := by
  refine Nat.eq_of_testBit_eq fun j => ?_
  rw [mul_comm, Nat.testBit_two_pow_mul_add _ (Nat.mod_lt _ (Nat.two_pow_pos _)), BitVec.testBit_toNat]
  by_cases hj : j < w
  · rw [getLsbD_setField x v (by omega) (by omega) hj, Nat.testBit_mod_two_pow, ← Nat.testBit_add]
    by_cases low : j < w - lo
    · rw [if_pos (by omega), if_pos low, decide_eq_true low, Bool.true_and]
      congr 1
      omega
    · rw [if_neg (by omega), if_neg low, BitVec.getLsbD]
      congr 1
      omega
  · rw [BitVec.getLsbD_of_ge _ _ (by omega), if_neg (by omega), ← Nat.testBit_add, ← BitVec.getLsbD, BitVec.getLsbD_of_ge _ _ (by omega)]

/-- A word with its highest field replaced, as a number. -/
theorem toNat_setField_high {w hi : Nat} (x : BitVec w) (v : Nat) (hhi : hi < w) :
    (setField x 0 hi v).toNat = v % 2 ^ (hi + 1) * 2 ^ (w - 1 - hi) + x.toNat % 2 ^ (w - 1 - hi) := by
  refine Nat.eq_of_testBit_eq fun j => ?_
  rw [mul_comm, Nat.testBit_two_pow_mul_add _ (Nat.mod_lt _ (Nat.two_pow_pos _)), BitVec.testBit_toNat]
  by_cases hj : j < w
  · rw [getLsbD_setField x v (by omega) hhi hj, Nat.testBit_mod_two_pow, Nat.testBit_mod_two_pow]
    by_cases low : j < w - 1 - hi
    · rw [if_neg (by omega), if_pos low, decide_eq_true low, Bool.true_and, BitVec.getLsbD]
    · rw [if_pos (by omega), if_neg low, decide_eq_true (by omega), Bool.true_and]
  · rw [BitVec.getLsbD_of_ge _ _ (by omega), if_neg (by omega), Nat.testBit_mod_two_pow, decide_eq_false (by omega), Bool.false_and]

/-- ADDR of a number read as a pointer (R90). -/
theorem ptrAddr_ptrOf (v : Nat) : ptrAddr (ptrOf v) = v % 2 ^ 54 := by
  rw [ptrAddr, field, ptrOf, BitVec.toNat_ofNat]
  omega

/-- PTAG: TAG replaced, NIDX and ADDR kept (R166). -/
theorem ptag_eq (x v : Nat) : (setField (ptrOf x) 0 15 v).toNat = v % 2 ^ 16 * 2 ^ 56 + x % 2 ^ 56 := by
  rw [toNat_setField_high _ _ (by decide), ptrOf, BitVec.toNat_ofNat]
  norm_num only
  omega

/-- ADDR replaced, TAG and NIDX kept (R91). -/
theorem ptrSetAddr_ptrOf (x a : Nat) : (ptrSetAddr (ptrOf x) a).toNat = x % 2 ^ 72 / 2 ^ 54 * 2 ^ 54 + a % 2 ^ 54 := by
  rw [ptrSetAddr]
  refine (toNat_setField_low (ptrOf x) (a % 2 ^ 54) (by decide)).trans ?_
  rw [ptrOf, BitVec.toNat_ofNat, Nat.mod_mod]

/-- MOVX extends the sign to the destination's width (R166). -/
theorem sext_ext (w : Wid) (x : Nat) :
    sext w.bits (WSel.ext.wid w).bits x = wrapTo (if w.bits = 36 then 72 else 36) (signedOf w.bits x) := by
  cases w <;> rfl

/-! Operands as they were decoded. -/

/-- A decoded operand has the role, the kind and the width that its template gives. -/
theorem decOp_spec {t : TOp} {w : Wid} {p : Nat} {l : List Nonet} {x : DOp × Nat × List Nonet} (h : decOp t w p l = .ok x) :
    x.1.role = t.role ∧ x.1.kind = t.kind ∧ x.1.wid = w := by
  unfold decOp at h
  split at h
  · cases h
  dsimp only at h
  split at h
  next target => grind
  next =>
    split at h
    · cases h
    split at h
    · cases h
    split at h
    · cases h
    split at h
    · cases h
    split at h
    · cases h
    split at h
    · cases h
    obtain rfl := Except.ok.inj h
    exact ⟨rfl, rfl, rfl⟩

/-- Decoded operands have the roles and kinds that their templates give. -/
theorem decOps_spec {w : Wid} {ts : List TOp} {p : Nat} {l : List Nonet} {x : List DOp × Nat × List Nonet}
    (h : decOps w ts p l = .ok x) :
    x.1.map DOp.role = ts.map TOp.role ∧ x.1.map DOp.kind = ts.map TOp.kind ∧ x.1.map DOp.wid = ts.map fun t => t.wsel.wid w := by
  induction ts generalizing p l x with
  | nil =>
    obtain rfl := Except.ok.inj h
    exact ⟨rfl, rfl, rfl⟩
  | cons t ts ih =>
    rw [decOps] at h
    cases ho : decOp t (t.wsel.wid w) p l with
    | error e => simp [ho] at h
    | ok y =>
      cases hos : decOps w ts y.2.1 y.2.2 with
      | error e => simp [ho, hos] at h
      | ok z =>
        simp only [ho, hos] at h
        obtain rfl := Except.ok.inj h
        obtain ⟨role, kind, wid⟩ := decOp_spec ho
        obtain ⟨roles, kinds, wids⟩ := ih hos
        simp [role, kind, wid, roles, kinds, wids]

/-- Each decoded operand is one that a template of the row decodes. -/
theorem decOps_mem {w : Wid} {ts : List TOp} {p : Nat} {l : List Nonet} {x : List DOp × Nat × List Nonet} (h : decOps w ts p l = .ok x) :
    ∀ o ∈ x.1, ∃ t p l r, decOp t (t.wsel.wid w) p l = .ok (o, r) := by
  induction ts generalizing p l x with
  | nil =>
    obtain rfl := Except.ok.inj h
    simp
  | cons t ts ih =>
    rw [decOps] at h
    cases ho : decOp t (t.wsel.wid w) p l with
    | error e => simp [ho] at h
    | ok y =>
      cases hos : decOps w ts y.2.1 y.2.2 with
      | error e => simp [ho, hos] at h
      | ok z =>
        simp only [ho, hos] at h
        obtain rfl := Except.ok.inj h
        exact List.forall_mem_cons.2 ⟨⟨t, p, l, y.2, ho⟩, ih hos⟩

section
variable {t : Tmpl} {n : Insn} {s s1 : State} {d : Dec}

/-- The operands of an instruction have the roles, kinds and widths of its row. -/
theorem Begins.ops (hb : Begins t n s d s1) : d.ops.map DOp.role = t.ops.map TOp.role ∧ d.ops.map DOp.kind = t.ops.map TOp.kind ∧
    ∃ w, d.ops.map DOp.wid = t.ops.map fun t => t.wsel.wid w := by
  obtain ⟨w, p, x, hx, hd⟩ := decodeInsn_ops hb.dec
  obtain ⟨roles, kinds, wids⟩ := decOps_spec hx
  rw [hd]
  exact ⟨roles, kinds, w, wids⟩

/-- A branch target is no memory operand (R144). -/
theorem decOp_target {t : TOp} {w : Wid} {p : Nat} {l : List Nonet} {x : DOp × Nat × List Nonet} (hr : t.role = .t)
    (h : decOp t w p l = .ok x) : x.1.isMem = false := by
  unfold decOp at h
  grind [DOp.isMem]

/-- An operand of role r, and a branch target, is no memory operand (R144, R145). -/
theorem Begins.direct (hb : Begins t n s d s1) : ∀ o ∈ d.ops, o.role = .r ∨ o.role = .t → o.isMem = false := by
  obtain ⟨w, p, x, hx, hd⟩ := decodeInsn_ops hb.dec
  rw [hd]
  intro o ho hr
  obtain ⟨t', p', l', r', h'⟩ := decOps_mem hx o ho
  have role := (decOp_spec h').1
  exact hr.elim (fun hr => decOp_register (role.symm.trans hr) h') fun hr => decOp_target (role.symm.trans hr) h'

end

/-! Operands formed and made ready. -/

/-- Formed operands are the decoded ones. -/
theorem Forms.ops {c : Nat} {d : Dec} {s sf : State} {fs : List Formed} (h : Forms c d s fs sf) : fs.map Formed.op = d.ops := by
  obtain rfl := (pure_ok h).1
  exact formOps_op _ _ _ _

/-- An operand made ready is the formed one, and only one in memory that is accessed has a translation. -/
theorem readyOp_spec {c : Nat} {ilock : Bool} {f : Formed} {s s' : State} {r : Rdy} (h : (readyOp c ilock f).run s = .ok (r, s')) :
    r.f = f ∧ (f.op.isMem = false ∨ f.op.role = .m → r.xl = none) := by
  unfold readyOp at h
  split at h
  next direct =>
    obtain ⟨rfl, -⟩ := pure_ok h
    exact ⟨rfl, fun _ => rfl⟩
  next memory =>
    refine ⟨?_, fun direct => absurd direct (by simpa using memory)⟩
    have ends {x : Xl} {s1 : State} (h : (pure { f := f, xl := some x } : M Rdy).run s1 = .ok (r, s')) : r.f = f := by
      rw [← (pure_ok h).1]
    dsimp only at h
    split at h
    · cases (run_bind_error (pcheck_run 6 s)).symm.trans h
    split at h
    · obtain ⟨x, s1, -, h⟩ := bind_ok h
      exact ends h
    · obtain ⟨x, s1, -, h⟩ := bind_ok h
      exact ends h
    split at h
    · obtain ⟨x, s1, -, h⟩ := bind_ok h
      exact ends h
    · obtain ⟨_, s1, -, h⟩ := bind_ok h
      obtain ⟨x, s2, -, h⟩ := bind_ok h
      exact ends h

/-- Operands made ready are the formed ones, and only those in memory that are accessed have translations. -/
theorem readyOps_spec {c : Nat} {ilock : Bool} {fs : List Formed} {s s' : State} {rs : List Rdy}
    (h : (readyOps c ilock fs).run s = .ok (rs, s')) :
    rs.map Rdy.f = fs ∧ ∀ r ∈ rs, r.f.op.isMem = false ∨ r.f.op.role = .m → r.xl = none := by
  induction fs generalizing s rs with
  | nil =>
    obtain ⟨rfl, -⟩ := pure_ok h
    exact ⟨rfl, by simp⟩
  | cons f fs ih =>
    rw [readyOps, List.mapM_cons] at h
    obtain ⟨r, s1, h1, h⟩ := bind_ok h
    obtain ⟨ws, s2, h2, h⟩ := bind_ok h
    obtain ⟨rfl, rfl⟩ := pure_ok h
    obtain ⟨rfl, direct⟩ := readyOp_spec h1
    obtain ⟨rfl, rest⟩ := ih h2
    exact ⟨rfl, List.forall_mem_cons.2 ⟨direct, rest⟩⟩

section
variable {rs : List Rdy} {fs : List Formed} (h : rs.map Rdy.f = fs) (i : Nat)
include h

/-- The address of an operand made ready. -/
theorem opAt_addr : (opAt rs i).f.addr = addrAt fs i := by
  subst h
  simp only [opAt, addrAt, List.getD_eq_getElem?_getD, List.getElem?_map]
  cases rs[i]? <;> rfl

/-- The value of an operand made ready. -/
theorem opAt_val : (opAt rs i).f.val = valAt fs i := by
  subst h
  simp only [opAt, valAt, List.getD_eq_getElem?_getD, List.getElem?_map]
  cases rs[i]? <;> rfl

/-- The form of an operand made ready is that of the decoded one. -/
theorem opAt_form {d : Dec} (hd : fs.map Formed.op = d.ops) : (opAt rs i).f.op.form = (d.ops.map DOp.form).getD i (.imm 0) := by
  subst h
  rw [← hd]
  simp only [opAt, List.getD_eq_getElem?_getD, List.getElem?_map]
  cases rs[i]? <;> rfl

/-- The register that an operand made ready names is that of the decoded one. -/
theorem opAt_regNo {d : Dec} (hd : fs.map Formed.op = d.ops) : (opAt rs i).f.op.regNo = regNoAt d i := by
  subst h
  rw [regNoAt, ← hd]
  simp only [opAt, List.getD_eq_getElem?_getD, List.getElem?_map]
  cases rs[i]? <;> rfl

/-- An operand that an instruction has, made ready, is one of its decoded operands. -/
theorem opAt_op_mem {d : Dec} (hd : fs.map Formed.op = d.ops) (hi : i < d.ops.length) : (opAt rs i).f.op = d.ops[i] := by
  subst h
  have len : i < rs.length := by simpa [← hd] using hi
  simp [opAt, ← hd, len]

end

/-- An operand made ready is one of the list. -/
theorem opAt_mem {rs : List Rdy} {i : Nat} (hi : i < rs.length) : opAt rs i ∈ rs := by simp [opAt, hi]

section
variable {t : Tmpl} {n : Insn} {s s1 sf s2 : State} {d : Dec} {fs : List Formed} {rs : List Rdy} {ilock : Bool}

/-- An operand of a register row writes its register: no access to memory is made. -/
theorem Begins.register_ready (hb : Begins t n s d s1) (hf : Forms n.core.val d s1 fs sf)
    (hr : (readyOps n.core.val ilock fs).run sf = .ok (rs, s2)) {i : Nat} (hi : i < t.ops.length) (role : t.ops[i].role = .r) :
    (opAt rs i).xl = none ∧ (opAt rs i).f.op.kind = t.ops[i].kind ∧ ∃ w, (opAt rs i).f.op.wid = t.ops[i].wsel.wid w := by
  obtain ⟨fs_eq, direct⟩ := readyOps_spec hr
  have len : d.ops.length = t.ops.length := decodeInsn_length hb.dec
  have lenr : rs.length = d.ops.length := by rw [← hf.ops, ← fs_eq, List.length_map, List.length_map]
  obtain ⟨roles, kinds, w, wids⟩ := hb.ops
  have op := opAt_op_mem fs_eq i hf.ops (by omega)
  have role' : d.ops[i].role = t.ops[i].role := by
    have := congrArg (·[i]?) roles
    simpa [len, hi] using this
  have kind' : d.ops[i].kind = t.ops[i].kind := by
    have := congrArg (·[i]?) kinds
    simpa [len, hi] using this
  have wid' : d.ops[i].wid = t.ops[i].wsel.wid w := by
    have := congrArg (·[i]?) wids
    simpa [len, hi] using this
  refine ⟨direct _ (opAt_mem (by omega)) (.inl ?_), by rw [op, kind'], w, by rw [op, wid']⟩
  rw [op]
  exact hb.direct _ (List.getElem_mem _) (.inl (role'.trans role))

end

/-! XCHG, CAS and LDA. -/

section
variable {n : Insn} {s s1 sf s2 : State} {d : Dec} {fs : List Formed} {rs : List Rdy}

/-- As many formed operands are in memory as decoded ones. -/
theorem Forms.memOps (hf : Forms n.core.val d s1 fs sf) : (fs.filter fun f => f.op.isMem).length = (d.ops.filter DOp.isMem).length := by
  rw [← hf.ops, List.filter_map, List.length_map]
  rfl

/-- XCHG of two operands of which not exactly one is in memory reads both and then writes both (R166, R187). -/
theorem exec_xchg_plain (hb : Begins (prim 0o013 [ow .x .i, ow .x .i] wAll [pATOM, pACQ, pREL]) n s d s1) {vs : List Nat} {s' s3 s4 : State}
    (hr : Reads n.core.val d s1 false 0 rs s2 vs s') (many : (d.ops.filter DOp.isMem).length ≠ 1)
    (h3 : Deposits s' n.core.val d.rel (opAt rs 0) (srcAt vs 1) s3) (h4 : Deposits s3 n.core.val d.rel (opAt rs 1) (srcAt vs 0) s4) :
    exec (.xchg n) s = .next (s.after n.core.val s4) := by
  obtain ⟨s5, ha, hv⟩ := hr.sources hb rfl
  obtain ⟨fs, sf, hf, hready⟩ := hr.ready
  have one : ((fs.filter fun f => f.op.isMem).length == 1) = false := by simpa [hf.memOps] using many
  rw [exec_xchg, execXchg, isa_run hb, run_bind_ok hf]
  simp only [one]
  rw [run_bind_ok hready]
  rw [run_bind_ok ha, run_bind_ok hv, run_bind_ok (writeOp_run h3), writeOp_run h4]
  rfl

/-- XCHG of one operand in memory and another is one interlocked access and a write of the other (R166, R187). -/
theorem exec_xchg_locked (hb : Begins (prim 0o013 [ow .x .i, ow .x .i] wAll [pATOM, pACQ, pREL]) n s d s1) {k v : Nat} {x : Xl}
    {s3 s4 : State} (hf : Forms n.core.val d s1 fs sf) (hr : (readyOps n.core.val true fs).run sf = .ok (rs, s2))
    (one : (d.ops.filter DOp.isMem).length = 1) (hk : k < 2) (hx : (opAt rs k).xl = some x)
    (hm : (rmw n.core.val d.rel x (opAt rs k).f.nidx (opAt rs k).f.op.wid fun v => (some (opAt rs (1 - k)).f.val, v)).run s2 = .ok (v, s3))
    (h4 : Deposits s3 n.core.val d.rel (opAt rs (1 - k)) v s4) : exec (.xchg n) s = .next (s.after n.core.val s4) := by
  have one' : ((fs.filter fun f => f.op.isMem).length == 1) = true := by simpa [hf.memOps] using one
  rw [exec_xchg, execXchg, isa_run hb, run_bind_ok hf]
  simp only [one']
  rw [run_bind_ok hr]
  obtain rfl | rfl : k = 0 ∨ k = 1 := by omega
  · simp only [hx]
    rw [run_bind_ok hm, writeOp_run h4]
    rfl
  · have other : (opAt rs 0).xl = none := by
      obtain ⟨fs_eq, direct⟩ := readyOps_spec hr
      have len : d.ops.length = 2 := decodeInsn_length hb.dec
      have lenr : rs.length = d.ops.length := by rw [← hf.ops, ← fs_eq, List.length_map, List.length_map]
      have memory (i : Nat) (hi : i < 2) (hn : (opAt rs i).xl ≠ none) : (d.ops[i]'(by omega)).isMem = true := by
        rw [← opAt_op_mem fs_eq i hf.ops (by omega), ← Bool.not_eq_false]
        exact fun hm => hn (direct _ (opAt_mem (by omega)) (.inl hm))
      by_contra both
      obtain ⟨a, b, hd⟩ := List.length_eq_two.1 len
      have ha := memory 0 (by decide) both
      have hb := memory 1 (by decide) (by rw [hx]; nofun)
      simp only [hd, List.getElem_cons_zero, List.getElem_cons_succ] at ha hb
      simp [hd, ha, hb] at one
    simp only [other, hx]
    rw [run_bind_ok hm, writeOp_run h4]
    rfl

/-- CAS of a register compares and writes x or r (R166). -/
theorem exec_cas_register (hb : Begins (prim 0o014 [ow .x .i, ow .r .i, ow .s .i] wWD [pATOM, pACQ, pREL]) n s d s1) {new : Nat}
    {s3 s4 : State} (hf : Forms n.core.val d s1 fs sf) (hr : (readyOps n.core.val true fs).run sf = .ok (rs, s2))
    (hx : (opAt rs 0).xl = none) (hn : (readOp n.core.val d.acq (opAt rs 2)).run s2 = .ok (new, s3))
    (h4 : if (opAt rs 0).f.val = (opAt rs 1).f.val then
        Deposits (s3.withFlags n.core.val { s2.flags n.core.val with z := true }) n.core.val d.rel (opAt rs 0) new s4
      else Deposits (s3.withFlags n.core.val { s2.flags n.core.val with z := false }) n.core.val d.rel (opAt rs 1) (opAt rs 0).f.val s4) :
    exec (.cas n) s = .next (s.after n.core.val s4) := by
  rw [exec_cas, execCas, isa_run hb, run_bind_ok hf]
  simp only []
  rw [run_bind_ok hr, run_bind_ok (get_run s2)]
  simp only [hx]
  rw [run_bind_ok (a := (opAt rs 0).f.val) (s1 := s2) rfl, run_bind_ok hn]
  split at h4
  next same =>
    rw [if_pos same, run_bind_ok (setFlags_run _ _ s3), writeOp_run h4]
    rfl
  next differ =>
    rw [if_neg differ, run_bind_ok (setFlags_run _ _ s3), writeOp_run h4]
    rfl

/-- CAS of an operand in memory compares under one interlocked access and writes x by another, or r (R166, R187, R188). -/
theorem exec_cas_memory (hb : Begins (prim 0o014 [ow .x .i, ow .r .i, ow .s .i] wWD [pATOM, pACQ, pREL]) n s d s1) {x : Xl} {v new : Nat}
    {s3 s4 s5 : State} (hf : Forms n.core.val d s1 fs sf) (hr : (readyOps n.core.val true fs).run sf = .ok (rs, s2))
    (hx : (opAt rs 0).xl = some x)
    (hm : (rmw n.core.val d.rel x (opAt rs 0).f.nidx (opAt rs 0).f.op.wid fun v => (none, v)).run s2 = .ok (v, s3))
    (hn : (readOp n.core.val d.acq (opAt rs 2)).run s3 = .ok (new, s4))
    (h5 : if v = (opAt rs 1).f.val then
        (rmw n.core.val d.rel x (opAt rs 0).f.nidx (opAt rs 0).f.op.wid fun _ => (some new, ())).run
          (s4.withFlags n.core.val { s2.flags n.core.val with z := true }) = .ok ((), s5)
      else Deposits (s4.withFlags n.core.val { s2.flags n.core.val with z := false }) n.core.val d.rel (opAt rs 1) v s5) :
    exec (.cas n) s = .next (s.after n.core.val s5) := by
  rw [exec_cas, execCas, isa_run hb, run_bind_ok hf]
  simp only []
  rw [run_bind_ok hr, run_bind_ok (get_run s2)]
  simp only [hx]
  rw [run_bind_ok hm, run_bind_ok hn]
  split at h5
  next same =>
    rw [if_pos same, run_bind_ok (setFlags_run _ _ s4), h5]
    rfl
  next differ =>
    rw [if_neg differ, run_bind_ok (setFlags_run _ _ s4), writeOp_run h5]
    rfl

/-- LDA writes an address, with TAG of the base pointer in the long-form modes, and accesses nothing (R167). -/
theorem exec_lda_run (hb : Begins (prim 0o020 [fw .r .p .wD, opM] [] []) n s d s1) {mode reg ext : Nat} (hf : Forms n.core.val d s1 fs sf)
    (hr : (readyOps n.core.val false fs).run sf = .ok (rs, s2)) (hm : (d.ops.map DOp.form).getD 1 (.imm 0) = .mem mode reg ext) :
    exec (.lda n) s = .next (s.after n.core.val (s2.withP n.core.val (regNoAt d 0)
      (BitVec.ofNat 72 ((if mode ≤ 0o11 then field (s2.ptr n.core.val reg) 0 15 else 0) * 2 ^ 56 +
        (fs.map Formed.addr).getD 1 0 % 2 ^ 54)))) := by
  obtain ⟨fs_eq, -⟩ := readyOps_spec hr
  obtain ⟨register, kind, -⟩ := hb.register_ready hf hr (i := 0) (by decide) rfl
  have addr : (opAt rs 1).f.addr = (fs.map Formed.addr).getD 1 0 := opAt_addr fs_eq 1
  have form := (opAt_form fs_eq 1 hf.ops).trans hm
  have write (v : Nat) : Deposits s2 n.core.val false (opAt rs 0) v (s2.withP n.core.val (regNoAt d 0) (BitVec.ofNat 72 v)) := by
    rw [Deposits, register]
    simp only [kind, opAt_regNo fs_eq 0 hf.ops]
    rfl
  rw [exec_lda, execLda, isa_run hb, run_bind_ok hf]
  simp only []
  rw [run_bind_ok hr]
  simp only [form, addr]
  rw [run_bind_ok (getP_run _ _ s2)]
  simp only [pure_bind]
  rw [writeOp_run (write _)]
  rfl

end
end Sys2Proof.Machine

open Sys2Proof Sys2Proof.Machine

/-- Settles O13, row by row. The moves and the pointer instructions write what the equations of their results give; XCHG, CAS and LDA are
run form by form (`exec_xchg_plain`, `exec_xchg_locked`, `exec_cas_register`, `exec_cas_memory`, `exec_lda_run`). -/
theorem moveAndExchangeRows : Obligations.MoveAndExchangeRows := by
  unfold Obligations.MoveAndExchangeRows
  refine ⟨⟨?mov, ?movz, ?movx, ?movp, ?ptag, ?padd, ?psub, ?pcmp⟩, ?xchg, ?cas, ?lda⟩
  case mov => exact setRow_intro exec_mov
  case movz => exact setRow_intro exec_movz
  case movx =>
    refine setRow_intro fun n s => (exec_movx n s).trans ?_
    simp only [execMovx, sext_ext]
    rfl
  case movp => exact setRow_intro exec_movp
  case ptag =>
    refine updRow_intro (by decide) fun n s => (exec_ptag n s).trans ?_
    simp only [execPtag, ptag_eq]
    rfl
  case padd =>
    refine updRow_intro (by decide) fun n s => (exec_padd n s).trans ?_
    simp only [execPadd, ptrSetAddr_ptrOf, ptrAddr_ptrOf, Nat.mod_eq_of_lt (wrapTo_lt 54 _)]
    rfl
  case psub =>
    refine setRow_intro fun n s => (exec_psub n s).trans ?_
    simp only [execPsub, ptrAddr_ptrOf]
  case pcmp =>
    refine cmpRow_intro (g := fun _ _ ss =>
      let a := ptrAddr (ptrOf (srcAt ss 0))
      let b := ptrAddr (ptrOf (srcAt ss 1))
      .ok (0, { n := false, z := a == b, c := decide (a < b), v := false })) (fun _ _ ss => ?_) exec_pcmp
    simp only [ptrAddr_ptrOf]
    rfl
  case xchg =>
    exact fun n s d s1 hb => ⟨fun rs s2 vs s' s3 s4 hr many h3 h4 => exec_xchg_plain hb hr many h3 h4,
      fun fs sf rs s2 k x v s3 s4 hf hr one hk hx hm h4 => exec_xchg_locked hb hf hr one hk hx hm h4⟩
  case cas =>
    exact fun n s d s1 fs sf rs s2 hb hf hr => ⟨fun new s3 s4 hx hn h4 => exec_cas_register hb hf hr hx hn h4,
      fun x v s3 new s4 s5 hx hm hn h5 => exec_cas_memory hb hf hr hx hm hn h5⟩
  case lda => exact fun n s d s1 fs sf rs s2 mode reg ext hb hf hr hm => exec_lda_run hb hf hr hm

end

section
/-! Branches, loops and the stack (O14, O15): operands without memory, the test of each branch, pushes and pops, and the rows. -/

namespace Sys2Proof.Machine
open Sys2Proof

/-! Operands without memory. -/

section
variable {t : Tmpl} {n : Insn} {s s1 : State} {d : Dec}

/-- The state in which an instruction begins holds its core in canonical form. -/
theorem Begins.setCore_core (hb : Begins t n s d s1) : s1.setCore n.core.val (s1.core n.core.val) = s1 := by
  obtain ⟨s0, -, rfl⟩ := hb.start
  simp only [State.withIa, State.core_setCore, State.setCore_setCore]

/-- An instruction whose operands are registers and targets has none in memory. -/
theorem Begins.isMem_false (hb : Begins t n s d s1) (ht : ∀ o ∈ t.ops, o.role = .r ∨ o.role = .t) : ∀ o ∈ d.ops, o.isMem = false := by
  intro o ho
  have role : o.role ∈ t.ops.map TOp.role := hb.ops.1 ▸ List.mem_map_of_mem ho
  obtain ⟨t', ht', e⟩ := List.mem_map.1 role
  exact hb.direct o ho (e ▸ ht t' ht')

/-- Operands without memory are formed as they stand and leave the state. -/
theorem Begins.forms_direct (hb : Begins t n s d s1) (ht : ∀ o ∈ t.ops, o.role = .r ∨ o.role = .t) :
    Forms n.core.val d s1 (s1.formed n.core.val d) s1 := by
  refine congrArg (fun u => Except.ok (s1.formed n.core.val d, u)) ?_
  rw [formOps_direct _ _ _ _ (hb.isMem_false ht), hb.setCore_core]

/-- Operands without memory are ready as they were formed. -/
theorem Begins.ready_direct (hb : Begins t n s d s1) (ht : ∀ o ∈ t.ops, o.role = .r ∨ o.role = .t) (ilock : Bool) :
    (readyOps n.core.val ilock (s1.formed n.core.val d)).run s1 =
      .ok ((s1.formed n.core.val d).map fun f => { f := f, xl := none }, s1) := by
  have direct : ∀ f ∈ s1.formed n.core.val d, f.op.isMem = false := fun f hf =>
    hb.isMem_false ht _ ((hb.forms_direct ht).ops ▸ List.mem_map_of_mem hf)
  rw [readyOps_direct direct]
  rfl

/-- The operands of an instruction without memory operands, by place. -/
theorem directVal_eq (c : Nat) (s : State) (d : Dec) (i : Nat) : directVal c s d i = ((s.formed c d).map Formed.val).getD i 0 := rfl

end

/-! Branches and loops. -/

/-- A branch whose test is that of its row does what the row says (R173, R174). -/
theorem branchRow_intro {mk : Insn → Instr} {code : Nat} {cond : Flg → Bool} (means : ∀ n s, exec (mk n) s = s.isaBr code n)
    (test : ∀ f, branchTaken code f = cond f) : BranchRow mk code cond := by
  intro n s d s1 hb c
  have hf := hb.forms_direct (by simp [prim, opT, fw])
  rw [means, State.isaBr, isa_run hb, run_bind_ok hf]
  rw [run_bind_ok (get_run s1), test, directVal_eq]
  cases cond (s1.flags c) <;> rfl

/-- A loop steps its register and goes on at its target under the row's test of the new value (R175). -/
theorem loopRow_intro {mk : Insn → Instr} {code : Nat} {step : Int} {go test : Nat → Bool}
    (means : ∀ n s, exec (mk n) s = s.isaLoop code n step go) (same : ∀ v, go v = test v) : LoopRow mk code step test := by
  intro n s d s1 hb c v s2
  have noMem : ∀ o ∈ [fw .r .i .wW, opT], o.role = .r ∨ o.role = .t := by decide
  have hf := hb.forms_direct noMem
  have hr := hb.ready_direct noMem false
  obtain ⟨fs_eq, -⟩ := readyOps_spec hr
  obtain ⟨register, kind, w, wid⟩ := hb.register_ready hf hr (i := 0) Nat.two_pos rfl
  have write (v : Nat) : Deposits s1 n.core.val false (opAt ((s1.formed n.core.val d).map fun f => { f := f, xl := none }) 0) v
      (s1.setCore n.core.val (writeReg (s1.core n.core.val) .i .wW (regNoAt d 0) v)) := by
    rw [Deposits, register]
    simp only [kind, wid, opAt_regNo fs_eq 0 hf.ops]
    rfl
  rw [means, State.isaLoop, isa_run hb, run_bind_ok hf]
  dsimp only
  rw [run_bind_ok hr, opAt_val fs_eq, opAt_val fs_eq, run_bind_ok (writeOp_run (write _)), same]
  change _ = Host.Outcome.next (s.after c (if test v then s2.withIa c (directVal c s1 d 1) else s2))
  cases h : test v <;> simp only [v, c, directVal_eq] at h <;> simp only [valAt, h] <;> rfl

/-! Pushes and pops. -/

/-- ADDR of a pointer whose ADDR was replaced (R91). -/
theorem ptrAddr_ptrSetAddr (p : DWord) (a : Nat) : ptrAddr (ptrSetAddr p a) = a % 2 ^ 54 := by
  have low := toNat_setField_low p (a % 2 ^ 54) (lo := 18) (by decide)
  rw [ptrAddr, field, ptrSetAddr, low]
  omega

/-- ADDR of a pointer replaced twice holds the second value. -/
theorem ptrSetAddr_ptrSetAddr (p : DWord) (a b : Nat) : ptrSetAddr (ptrSetAddr p a) b = ptrSetAddr p b := by
  have low (p : DWord) (a : Nat) := toNat_setField_low p (a % 2 ^ 54) (lo := 18) (by decide)
  refine BitVec.eq_of_toNat_eq ?_
  simp only [ptrSetAddr] at low ⊢
  rw [low, low, low]
  omega

/-- An address is below 2^54 (R90). -/
theorem ptrAddr_lt (p : DWord) : ptrAddr p < 2 ^ 54 := Nat.mod_lt _ (by decide)

section
variable {s s' : State} {c extra : Nat}

/-- The slot of a push that P7 admits (R178). -/
theorem pushSlot_run (h : PushFits s c extra) :
    (pushSlot c extra).run s = .ok ((ptrAddr (s.ptr c 7) - 2, ptrAddr (s.ptr c 7) - 2 - 2 * extra), s) := by
  obtain ⟨even, room, limit⟩ := h
  have lt := ptrAddr_lt (s.ptr c 7)
  have a : wrapTo 54 ((ptrAddr (s.ptr c 7) : Int) - 2) = ptrAddr (s.ptr c 7) - 2 := by
    rw [wrapTo_eq_iff (by omega) (by omega)]
    omega
  have b : wrapTo 54 ((ptrAddr (s.ptr c 7) : Int) - 2 - 2 * (extra : Int)) = ptrAddr (s.ptr c 7) - 2 - 2 * extra := by
    rw [wrapTo_eq_iff (by omega) (by omega)]
    omega
  unfold pushSlot
  rw [run_bind_ok (getP_run c 7 s), run_bind_ok (get_run s)]
  simp only [a, b]
  rw [if_neg (by omega), if_neg (by omega)]
  rfl

/-- The check on P7 before a push that it refuses (R178). -/
theorem pushSlot_fails (small : extra < 2 ^ 36) (h : ¬ PushFits s c extra) :
    (pushSlot c extra).run s =
      .error { trap := .check (if ptrAddr (s.ptr c 7) % 2 = 1 then 0o006 else 0o014) [], keep := none, met := s } := by
  unfold pushSlot
  rw [run_bind_ok (getP_run c 7 s), run_bind_ok (get_run s)]
  simp only []
  by_cases odd : ptrAddr (s.ptr c 7) % 2 = 1
  · rw [if_pos odd, if_pos odd]
    rfl
  · have lt := ptrAddr_lt (s.ptr c 7)
    have below : wrapTo 54 ((ptrAddr (s.ptr c 7) : Int) - 2 - 2 * (extra : Int)) < ptrAddr (s.core c).cur.slim ∨
        ptrAddr (s.ptr c 7) < wrapTo 54 ((ptrAddr (s.ptr c 7) : Int) - 2 - 2 * (extra : Int)) := by
      have small := wrapTo_of_small (w := 54) (i := (ptrAddr (s.ptr c 7) : Int) - 2 - 2 * (extra : Int)) (by omega) (by omega)
      unfold PushFits at h
      split at small <;> omega
    rw [if_neg odd, if_neg odd, if_pos below]
    rfl

/-- A push whose slot translates and takes the value (R176-R179). -/
theorem pushDw_run {v : Nat} (h : Pushes s c v extra s') : (pushDw c v extra).run s = .ok (ptrAddr (s.ptr c 7) - 2, s') := by
  obtain ⟨fits, x, s1, s2, hx, hs, rfl⟩ := h
  unfold pushDw
  rw [run_bind_ok (pushSlot_run fits), run_bind_ok (maps_store hx), run_bind_ok (store_run hs), run_bind_ok (getP_run c 7 s2),
    run_bind_ok (putP_run _ _ _ s2)]
  rfl

/-- A push that P7 refuses (R178). -/
theorem pushDw_fails {v : Nat} (small : extra < 2 ^ 36) (h : ¬ PushFits s c extra) :
    (pushDw c v extra).run s =
      .error { trap := .check (if ptrAddr (s.ptr c 7) % 2 = 1 then 0o006 else 0o014) [], keep := none, met := s } :=
  run_bind_error (pushSlot_fails small h)

/-- A pop from an odd address (R178). -/
theorem popDw_odd {p : DWord} (odd : ptrAddr p % 2 = 1) :
    (popDw c p).run s = .error { trap := .check 0o006 [], keep := none, met := s } := by
  unfold popDw
  rw [if_pos odd]
  rfl

end

end Sys2Proof.Machine

open Sys2Proof Sys2Proof.Machine

/-- Settles O14: each branch is `State.isaBr` with its row's test, and each loop `State.isaLoop` with its row's step and test. -/
theorem branchAndLoopRows : Obligations.BranchAndLoopRows := by
  unfold Obligations.BranchAndLoopRows
  refine ⟨⟨?beq, ?bne, ?blt, ?bge, ?ble, ?bgt, ?blo, ?bhs, ?bls, ?bhi, ?bvs, ?bvc, ?bmi, ?bpl, ?br⟩, ?loop, ?loopu, ?loopg⟩
  case beq => exact branchRow_intro exec_beq fun _ => rfl
  case bne => exact branchRow_intro exec_bne fun _ => rfl
  case blt => exact branchRow_intro exec_blt fun _ => rfl
  case bge => exact branchRow_intro exec_bge fun _ => rfl
  case ble => exact branchRow_intro exec_ble fun _ => rfl
  case bgt => exact branchRow_intro exec_bgt fun f => by simp [branchTaken, bne]
  case blo => exact branchRow_intro exec_blo fun _ => rfl
  case bhs => exact branchRow_intro exec_bhs fun _ => rfl
  case bls => exact branchRow_intro exec_bls fun _ => rfl
  case bhi => exact branchRow_intro exec_bhi fun f => by simp [branchTaken]
  case bvs => exact branchRow_intro exec_bvs fun _ => rfl
  case bvc => exact branchRow_intro exec_bvc fun _ => rfl
  case bmi => exact branchRow_intro exec_bmi fun _ => rfl
  case bpl => exact branchRow_intro exec_bpl fun _ => rfl
  case br => exact branchRow_intro exec_br fun _ => rfl
  case loop => exact loopRow_intro exec_loop fun v => by simp [bne, beq_eq_decide]
  case loopu => exact loopRow_intro exec_loopu fun v => by simp [bne, beq_eq_decide]
  case loopg => exact loopRow_intro exec_loopg fun v => by simp [msb_eq_neg, ← decide_not]

/-- Settles O15. Each row is its reads, its push or pop (`pushDw_run`, `popDw_run`) and the registers it writes; where P7 admits no push, or
a pop's address is odd, the check is all that happens (`pushDw_fails`, `popDw_odd`). -/
theorem stackRows : Obligations.StackRows := by
  unfold Obligations.StackRows
  refine ⟨⟨?call, ?ret, ?retn, ?push, ?pop, ?enter, ?leave⟩, ?pushBad, ?callBad, ?enterBad, ?odd⟩
  case call =>
    intro n s d s1 s2 hb c next hp
    have pushed : (pushDw n.core.val (returnDw (pswIa (s1.core n.core.val).psw)) 0).run s1 = .ok (_, s2) := pushDw_run hp
    rw [exec_call, execCall, isa_run hb, run_bind_ok (hb.forms_direct (by decide))]
    rw [run_bind_ok (get_run s1), run_bind_ok pushed]
    rfl
  case ret =>
    intro n s d s1 v s3 hb hp
    rw [exec_ret, execRet, isa_none hb rfl]
    rw [run_bind_ok (getP_run _ 7 s1), run_bind_ok (popDw_run hp), run_bind_ok (putP_run _ _ _ s3)]
    rfl
  case retn =>
    intro n s d s1 rs s2 vs s' v s3 hb hr hp
    rw [exec_retn, execRetn, isa_source hb hr rfl]
    rw [run_bind_ok (getP_run _ 7 s'), run_bind_ok (popDw_run hp), run_bind_ok (putP_run _ _ _ s3), ptrSetAddr_ptrSetAddr,
      ptrAddr_ptrSetAddr]
    rfl
  case push =>
    intro n s d s1 rs s2 vs s' s3 hb hr hp
    rw [exec_push, execPush, isa_source hb hr rfl, run_bind_ok (pushDw_run hp)]
    rfl
  case pop =>
    intro n s d s1 rs s2 vs s' v s3 s4 hb hr c hp hd
    rw [exec_pop, execPop, isa_alone hb hr rfl]
    rw [run_bind_ok (getP_run _ 7 s'), run_bind_ok (popDw_run hp), run_bind_ok (putP_run _ _ _ s3), writeOp_run hd]
    rfl
  case enter =>
    intro n s d s1 rs s2 vs s' s3 hb hr c hp
    rw [exec_enter, execEnter, isa_source hb hr rfl]
    rw [run_bind_ok (getP_run _ 6 s'), run_bind_ok (getP_run _ 7 s'), run_bind_ok (pushDw_run hp)]
    rfl
  case leave =>
    intro n s d s1 v s3 hb hp
    rw [exec_leave, execLeave, isa_none hb rfl]
    rw [run_bind_ok (getP_run _ 6 s1), run_bind_ok (popDw_run hp), run_bind_ok (putP_run _ _ _ s3)]
    rfl
  case pushBad =>
    intro n s d s1 rs s2 vs s' hb hr bad
    rw [exec_push, execPush, isa_source hb hr rfl, run_bind_error (pushDw_fails (by decide) bad), outcome_check]
  case callBad =>
    intro n s d s1 hb bad
    rw [exec_call, execCall, isa_run hb, run_bind_ok (hb.forms_direct (by decide))]
    rw [run_bind_ok (get_run s1), run_bind_error (pushDw_fails (by decide) bad), outcome_check]
  case enterBad =>
    intro n s d s1 rs s2 vs s' hb hr small bad
    rw [exec_enter, execEnter, isa_source hb hr rfl]
    rw [run_bind_ok (getP_run _ 6 s'), run_bind_ok (getP_run _ 7 s'), run_bind_error (pushDw_fails small bad), outcome_check]
  case odd =>
    simp only [List.forall_mem_cons, List.not_mem_nil, false_implies, implies_true, and_true]
    refine ⟨fun n s d s1 hb odd => ?_, fun n s d s1 hb odd => ?_⟩
    · rw [exec_ret, execRet, isa_none hb rfl]
      rw [run_bind_ok (getP_run _ 7 s1), run_bind_error (popDw_odd odd), outcome_check]
    · rw [exec_leave, execLeave, isa_none hb rfl]
      rw [run_bind_ok (getP_run _ 6 s1), run_bind_error (popDw_odd odd), outcome_check]

end

section
/-! String instructions (O16): one unit of each, runs of units, and the rows that repeat or do not. -/

namespace Sys2Proof.Machine
open Sys2Proof

/-! One unit. -/

section
variable {c : Nat} {w : Wid} {s s' : State}

/-- An aligned unit at a pointer. -/
theorem unitAt_run {i kind nidx : Nat} {x : Xl} (h : UnitAt s c i kind w nidx x s') :
    (unitAt c i w).run s = .ok (((longAddr (s.ptr c i) w 0).1, nidx), s) := by
  obtain ⟨rfl, aligned, -⟩ := h
  unfold unitAt
  rw [run_bind_ok (getP_run c i s)]
  simp only [aligned]
  rfl

/-- Advancing a pointer one unit (R149). -/
theorem unitStep_run (i : Nat) : (unitStep c i w).run s = .ok ((), s.stepP c i w) := by
  unfold unitStep
  rw [run_bind_ok (getP_run c i s)]
  rfl

/-- One unit of SMOV (R181). -/
theorem unitMov_run {v : Nat} (h : MovUnit c w s v s') : (unitMov c w).run s = .ok (v, s') := by
  obtain ⟨i, xa, s1, j, xb, s2, s3, s4, ha, hb, hl, hs, rfl⟩ := h
  unfold unitMov
  rw [run_bind_ok (unitAt_run ha), run_bind_ok (maps_load ha.2.2), run_bind_ok (unitAt_run hb), run_bind_ok (maps_store hb.2.2),
    run_bind_ok hl, run_bind_ok (store_run hs), run_bind_ok (unitStep_run 4), run_bind_ok (unitStep_run 5)]
  rfl

/-- One unit of SCMP (R181). -/
theorem unitCmp_run {v : Nat} (h : CmpUnit c w s v s') : (unitCmp c w).run s = .ok (v, s') := by
  obtain ⟨i, xa, s1, j, xb, s2, s3, u, s4, ha, hb, hl, hu, rfl⟩ := h
  unfold unitCmp
  rw [run_bind_ok (unitAt_run ha), run_bind_ok (maps_load ha.2.2), run_bind_ok (unitAt_run hb), run_bind_ok (maps_load hb.2.2),
    run_bind_ok hl, run_bind_ok hu, aluSub_flags (Nat.zero_lt_of_lt w.one_lt_bits), run_bind_ok (setFlags_run _ _ _), run_bind_ok (unitStep_run 4),
    run_bind_ok (unitStep_run 5)]
  rfl

/-- One unit of SSCAN (R181). -/
theorem unitScan_run {u v : Nat} (h : ScanUnit c w v s u s') : (unitScan c w v).run s = .ok (u, s') := by
  obtain ⟨j, xb, s1, s2, hb, hu, rfl⟩ := h
  unfold unitScan
  rw [run_bind_ok (unitAt_run hb), run_bind_ok (maps_load hb.2.2), run_bind_ok hu, aluSub_flags (Nat.zero_lt_of_lt w.one_lt_bits),
    run_bind_ok (setFlags_run _ _ _), run_bind_ok (unitStep_run 5)]
  rfl

/-- One unit of SSTO (R181). -/
theorem unitSto_run {u v : Nat} (h : StoUnit c w v s u s') : (unitSto c w v).run s = .ok (u, s') := by
  obtain ⟨j, xb, s1, s2, hb, hs, rfl, rfl⟩ := h
  unfold unitSto
  rw [run_bind_ok (unitAt_run hb), run_bind_ok (maps_store hb.2.2), run_bind_ok (store_run hs), run_bind_ok (unitStep_run 5)]
  rfl

/-- One unit of SLOD (R181). -/
theorem unitLod_run {v : Nat} {r : Rdy} (h : LodUnit c w r s v s') : (unitLod c w r).run s = .ok (v, s') := by
  obtain ⟨i, xa, s1, s2, ha, hl, hd⟩ := h
  unfold unitLod
  rw [run_bind_ok (unitAt_run ha), run_bind_ok (maps_load ha.2.2), run_bind_ok hl, run_bind_ok (unitStep_run 4),
    run_bind_ok (writeOp_run hd)]
  rfl

end

/-! Runs of units. -/

/-- What ends well between units ends well. -/
theorem betweenUnits_run {α : Type} {c : Nat} {d : Dec} {m : M α} {s s' : State} {a : α} (h : m.run s = .ok (a, s')) :
    (betweenUnits c d m).run s = .ok (a, s') := by
  unfold betweenUnits
  simp only [StateT.run] at h ⊢
  rw [h]

/-- The operand of a run of units: what was read of it before, or its first reading. -/
def readOnce (src : M Nat) : Option Nat → M Nat
  | some v => pure v
  | none => src

/-- One unit, counted off G12 (R182). -/
def countedUnit (c : Nat) (unit : Nat → StrUnit) (v : Nat) : M (Nat × Nat) := do
  let u ← unit v
  modify fun s =>
    let k := s.core c
    let b := k.cur
    s.setCore c (k.setCur { b with g := vset b.g 12 (w36 (s.g12 c - 1)) })
  pure (v, u)

section
variable {c p : Nat} {d : Dec} {src : M Nat} {unit : Nat → StrUnit} {fin : M Unit}

/-- A run of units that begins with no interruption pending does its first unit, s having been read before it (R137, R182). -/
theorem strRun_unit {n u v : Nat} {ov : Option Nat} {s0 s s1 : State} (quiet : (s0.core c).nextIrq = none)
    (read : (readOnce src ov).run s0 = .ok (v, s)) (h : (unit v).run s = .ok (u, s1)) :
    (strRun c d p src unit fin (n + 1) ov).run s0 =
      (if repEnds p ((s1.counted c).flags c).z u then fin else strRun c d p src unit fin n (some v)).run (s1.counted c) := by
  have body : (countedUnit c unit v).run s = .ok ((v, u), s1.counted c) := by
    rw [countedUnit, run_bind_ok h]
    rfl
  rw [strRun, run_bind_ok (get_run s0)]
  simp only [quiet]
  cases ov with
  | none => exact run_bind_ok (betweenUnits_run ((run_bind_ok (f := countedUnit c unit) read).trans body))
  | some v' =>
    obtain ⟨rfl, rfl⟩ : v' = v ∧ s0 = s := by injection read with read; injection read; constructor <;> assumption
    exact run_bind_ok (betweenUnits_run body)

/-- A run of units in which an interruption is accepted at a boundary, with the PSW at the instruction (R182, R183). -/
theorem strRun_interrupted {n : Nat} {i : Irq} {ov : Option Nat} {s t : State} (hn : n ≠ 0) (irq : (s.core c).nextIrq = some i)
    (h : (s.withIa c (pswIa (s.core c).psw + 2 ^ 38 - d.len)).asyncEnter c i = some t) :
    (strRun c d p src unit fin n ov).run s = .ok ((), t) := by
  obtain ⟨n, rfl⟩ := Nat.exists_eq_succ_of_ne_zero hn
  rw [strRun, run_bind_ok (get_run s)]
  simp only [irq]
  rw [run_bind_ok (a := ()) (s1 := s.withIa c (pswIa (s.core c).psw + 2 ^ 38 - d.len)) rfl]
  exact betweenUnits_run (doStall_run h)

/-- A run of units goes on, after the units done, with those that are left. -/
theorem strRun_units {rel : State → Nat → State → Prop} {v : Nat} (does : ∀ s u s', rel s u s' → (unit v).run s = .ok (u, s')) {n m : Nat}
    {s s' : State} (h : Units c p rel n s m s') {ov : Option Nat} {s0 : State} (quiet : (s0.core c).nextIrq = none)
    (read : (readOnce src ov).run s0 = .ok (v, s)) :
    (strRun c d p src unit fin n ov).run s0 = (strRun c d p src unit fin m (some v)).run s' := by
  induction h generalizing ov s0 with
  | last hu he =>
    rw [strRun_unit quiet read (does _ _ _ hu), if_pos he]
    rfl
  | one hu he => rw [strRun_unit quiet read (does _ _ _ hu), if_neg (by simp [he])]
  | more hu he _ next _ ih =>
    rw [strRun_unit quiet read (does _ _ _ hu), if_neg (by simp [he])]
    exact ih next rfl

end

/-! The rows. -/

/-- What a string instruction that does not repeat leaves. -/
theorem isaStr_single {t : Tmpl} {n : Insn} {hasSrc : Bool} {unit : Dec → List Rdy → Nat → StrUnit} {s s1 sf s2 s3 s4 : State} {d : Dec}
    {fs : List Formed} {rs : List Rdy} {v u : Nat} (hb : Begins t n s d s1) (single : d.rep = none) (hf : Forms n.core.val d s1 fs sf)
    (hr : (readyOps n.core.val false fs).run sf = .ok (rs, s2))
    (read : (if hasSrc then readOp n.core.val false (opAt rs 0) else pure 0 : M Nat).run s2 = .ok (v, s3))
    (h : (unit d rs v).run s3 = .ok (u, s4)) : s.isaStr t n hasSrc unit = .next (s.after n.core.val s4) := by
  unfold State.isaStr
  rw [insnD_run hb, single]
  dsimp only
  rw [run_bind_ok hf, run_bind_ok hr]
  have rest : (unit d rs v >>= fun _ => pure ()).run s3 = .ok ((), s4) := by
    rw [run_bind_ok h]
    rfl
  cases hasSrc <;> exact congrArg _ (outcome_ok ((run_bind_ok read).trans rest))

/-- The first reading of the operand of a repeated string instruction, where it has one. -/
def strSource (hasSrc : Bool) (c : Nat) (d : Dec) (s : State) : M Nat :=
  if hasSrc then do
    let rs ← readyOps c false (s.formed c d)
    readOp c false (opAt rs 0)
  else pure 0

/-- What a repeated string instruction does: its units, with its operand formed without its pointer update (R137). -/
theorem isaStr_repeated {t : Tmpl} {n : Insn} {hasSrc : Bool} {unit : Dec → List Rdy → Nat → StrUnit} {s s1 : State} {d : Dec} {p : Nat}
    (hb : Begins t n s d s1) (rep : d.rep = some p) :
    s.isaStr t n hasSrc unit = .next (outcome s n.core.val ((strRun n.core.val d p (strSource hasSrc n.core.val d s1)
      (unit d ((s1.formed n.core.val d).map fun f => { f := f, xl := none }))
      (d.ops.forM (lateUpdate n.core.val (s1.g12 n.core.val == 0))) (s1.g12 n.core.val) none).run s1)) := by
  unfold State.isaStr
  rw [insnD_run hb, rep]
  rfl

/-- A repeated string row whose source and units are what its meaning runs does what the row says (R137, R182-R185). -/
theorem repeatRow_intro {mk : Insn → Instr} {t : Tmpl} {hasSrc : Bool} {unit : Insn → Dec → List Rdy → Nat → StrUnit}
    {src : Nat → Dec → State → Nat → State → Prop} {rel : Nat → Dec → State → Nat → State → Nat → State → Prop}
    (means : ∀ n s, exec (mk n) s = s.isaStr t n hasSrc (unit n))
    (reads : ∀ c d s v s', src c d s v s' → (strSource hasSrc c d s).run s = .ok (v, s'))
    (does : ∀ n d s1 v s u s', rel n.core.val d s1 v s u s' →
      (unit n d ((s1.formed n.core.val d).map fun f => { f := f, xl := none }) v).run s = .ok (u, s')) :
    RepeatRow mk t src rel := by
  intro n s d s1 p hb rep c
  rw [means, isaStr_repeated hb rep]
  refine ⟨fun zero t ht => ?_, fun i t pos irq ht => ?_, fun v s2 t pos quiet hv h => ?_⟩
  · rw [zero]
    exact congrArg _ (outcome_ok ht)
  · exact congrArg _ (outcome_ok (strRun_interrupted pos.ne' irq ht))
  · have read := reads c d s1 v s2 hv
    have step : ∀ s u s', rel c d s1 v s u s' → _ := does n d s1 v
    have more : (s1.g12 n.core.val == 0) = false := by simpa using pos.ne'
    cases h with
    | ends hu hl =>
      rw [strRun_units (ov := none) (src := strSource hasSrc c d s1) step hu quiet read, more]
      exact congrArg _ (outcome_ok hl)
    | breaks hu hm irq ht =>
      rw [strRun_units (ov := none) (src := strSource hasSrc c d s1) step hu quiet read]
      exact congrArg _ (outcome_ok (strRun_interrupted hm irq ht))

end Sys2Proof.Machine

open Sys2Proof Sys2Proof.Machine

/-- Settles O16. A row that does not repeat is its reads and one unit (`isaStr_single`); a repeated one is a run of units, by induction on
the units done (`strRun_units`), that ends or is interrupted at a boundary. -/
theorem stringRows : Obligations.StringRows := by
  unfold Obligations.StringRows
  refine ⟨⟨?mov, ?cmp, ?scan, ?sto, ?lod⟩, ?movs, ?cmps, ?scans, ?stos, ?lods⟩
  case mov => exact fun n s d s1 v t hb single h => isaStr_single hb single (hb.forms_nil rfl) rfl rfl (unitMov_run h)
  case cmp => exact fun n s d s1 v t hb single h => isaStr_single hb single (hb.forms_nil rfl) rfl rfl (unitCmp_run h)
  case scan => exact fun n s d s1 fs sf rs s2 v s3 u t hb single hf hr hv h => isaStr_single hb single hf hr hv (unitScan_run h)
  case sto => exact fun n s d s1 fs sf rs s2 v s3 u t hb single hf hr hv h => isaStr_single hb single hf hr hv (unitSto_run h)
  case lod => exact fun n s d s1 fs sf rs s2 v t hb single hf hr h => isaStr_single hb single hf hr rfl (unitLod_run h)
  case movs =>
    exact repeatRow_intro exec_smov (fun _ _ _ _ _ ⟨hv, hs⟩ => by rw [hv, hs]; rfl) fun _ _ _ _ _ _ _ => unitMov_run
  case cmps =>
    exact repeatRow_intro exec_scmp (fun _ _ _ _ _ ⟨hv, hs⟩ => by rw [hv, hs]; rfl) fun _ _ _ _ _ _ _ => unitCmp_run
  case scans =>
    exact repeatRow_intro exec_sscan (fun _ _ _ _ _ ⟨_, _, hr, hv⟩ => (run_bind_ok hr).trans hv) fun _ _ _ _ _ _ _ => unitScan_run
  case stos =>
    exact repeatRow_intro exec_ssto (fun _ _ _ _ _ ⟨_, _, hr, hv⟩ => (run_bind_ok hr).trans hv) fun _ _ _ _ _ _ _ => unitSto_run
  case lods =>
    exact repeatRow_intro exec_slod (fun _ _ _ _ _ ⟨hv, hs⟩ => by rw [hv, hs]; rfl) fun _ _ _ _ _ _ _ => unitLod_run

end

section
/-! Floating point (O17, O18): rows that round a result under FPC and raise exceptions, comparisons, FPC, and rows that write one
destination or change the state from their sources. -/

namespace Sys2Proof.Machine
open Sys2Proof

/-! What an operation's exceptions do. -/

section
variable {c x : Nat} {s before : State}

/-- Exceptions of which FPC enables none become sticky flags (R216). -/
theorem fpRaise_sticky (h : field (s.core c).fpc 21 25 &&& x = 0) :
    (fpRaise c before x).run s =
      .ok ((), s.withFpc c (setField (s.core c).fpc 31 35 (field (s.core c).fpc 31 35 ||| x))) := by
  unfold fpRaise
  rw [run_bind_ok (get_run s), if_neg (not_not_intro h)]
  rfl

/-- An exception that FPC enables undoes the instruction, writes CAUSE and traps (R220). -/
theorem fpRaise_traps (h : field (s.core c).fpc 21 25 &&& x ≠ 0) :
    let k := (before.undone c s).withFpc c (setField ((before.undone c s).core c).fpc 26 30 x)
    (fpRaise c before x).run s = .error { trap := .check 0o012 [], keep := some k, met := k } := by
  intro k
  unfold fpRaise
  rw [run_bind_ok (get_run s), if_pos h]
  rfl

end

/-- A row whose meaning is a rounded floating-point result does what the row says. -/
theorem fpRow_intro {mk : Insn → Instr} {t : Tmpl} {i : Nat} {f : Fmt → FEnv → List Nat → FRes}
    (means : ∀ n s, exec (mk n) s = s.isaF t n i f) : FpRow mk t i f := by
  intro n s d s1 hb c rs s2 vs s' hr w r
  obtain ⟨fs, s3, hf, hready⟩ := hr.ready
  rw [means, State.isaF, isa_run hb, run_bind_ok hf, run_bind_ok hready, run_bind_ok hr.read, run_bind_ok (get_run s')]
  refine ⟨fun quiet s4 hd => ?_, fun enabled => ?_⟩
  · rw [run_bind_ok (fpRaise_sticky quiet), writeOp_run hd]
    rfl
  · rw [run_bind_error (fpRaise_traps enabled)]
    rfl

/-- A row with another account of the same results. -/
theorem FpRow.congr {mk : Insn → Instr} {t : Tmpl} {i : Nat} {f g : Fmt → FEnv → List Nat → FRes} (h : FpRow mk t i f)
    (same : ∀ t v ss, f t v ss = g t v ss) : FpRow mk t i g := by
  obtain rfl : f = g := funext fun t => funext fun v => funext (same t v)
  exact h

/-! Rows that write one destination, and rows that change the state. -/

/-- A row of one source whose meaning is a change of the state does what the row says. -/
theorem srcRow_intro {mk : Insn → Instr} {t : Tmpl} {f : Nat → State → List Nat → Except Nat State} {k : Insn → Nat → M Unit}
    (means : ∀ n s, exec (mk n) s = s.isa t n fun d fs => do
      let rs ← readyOps n.core.val false fs
      let v ← readOp n.core.val d.acq (opAt rs 0)
      k n v)
    (ht : t.ops.length = 1)
    (does : ∀ n s vs, match f n.core.val s vs with
      | .ok r => (k n (srcAt vs 0)).run s = .ok ((), r)
      | .error code => (k n (srcAt vs 0)).run s = .error { trap := .check code [], keep := none, met := s }) :
    SrcRow mk t f := by
  intro n s d s1 hb c rs s2 vs s' hr
  rw [means, isa_source hb hr ht fun _ _ v => k n v]
  have := does n s' vs
  cases hf : f n.core.val s' vs <;> simp only [c, hf] at this ⊢ <;> rw [this] <;> rfl

/-- A row of two sources whose meaning is a change of the state does what the row says. -/
theorem srcRow_intro₂ {mk : Insn → Instr} {t : Tmpl} {f : Nat → State → List Nat → Except Nat State} {k : Insn → Nat → Nat → M Unit}
    (means : ∀ n s, exec (mk n) s = s.isa t n fun d fs => do
      let rs ← readyOps n.core.val false fs
      let u ← readOp n.core.val d.acq (opAt rs 0)
      let v ← readOp n.core.val d.acq (opAt rs 1)
      k n u v)
    (ht : t.ops.length = 2)
    (does : ∀ n s vs, match f n.core.val s vs with
      | .ok r => (k n (srcAt vs 0) (srcAt vs 1)).run s = .ok ((), r)
      | .error code => (k n (srcAt vs 0) (srcAt vs 1)).run s = .error { trap := .check code [], keep := none, met := s }) :
    SrcRow mk t f := by
  intro n s d s1 hb c rs s2 vs s' hr
  rw [means, isa_sources hb hr ht fun _ _ u v => k n u v]
  have := does n s' vs
  cases hf : f n.core.val s' vs <;> simp only [c, hf] at this ⊢ <;> rw [this] <;> rfl

/-- A row of a destination alone whose meaning writes a value of the state does what the row says. -/
theorem dstRow_intro {mk : Insn → Instr} {t : Tmpl} {f : Nat → State → Nat} {rel : Dec → Bool}
    (means : ∀ n s, exec (mk n) s = s.isa t n fun d fs => do
      let rs ← readyOps n.core.val false fs
      let s ← get
      writeOp n.core.val (rel d) (opAt rs 0) (f n.core.val s))
    (ht : t.ops.length = 1) (hrel : ∀ n s d s1, Begins t n s d s1 → rel d = d.rel) :
    DstRow mk t fun c s _ => .ok (f c s) := by
  intro n s d s1 hb c rs s2 vs s' hr s3 hd
  rw [means, isa_alone hb hr ht fun d rs => do
    let s ← get
    writeOp n.core.val (rel d) (opAt rs 0) (f n.core.val s), run_bind_ok (get_run s'), hrel _ _ _ _ hb, writeOp_run hd]
  rfl

/-- An instruction of a row that does not take REL does not release. -/
theorem Begins.rel_false {t : Tmpl} {n : Insn} {s s1 : State} {d : Dec} (hb : Begins t n s d s1) (h : t.accepts pREL = false) :
    d.rel = false := by
  have dec := hb.dec
  unfold decodeInsn at dec
  cases hp : decPre [] 0 n.pre with
  | error e => simp [hp] at dec
  | ok ps =>
    have excluded : (ps.any fun n => !t.accepts n) = false → ps.contains pREL = false := by
      intro ok
      simp only [List.any_eq_false, Bool.not_eq_true, Bool.not_eq_false'] at ok
      simp only [List.contains_eq_mem, decide_eq_false_iff_not]
      intro mem
      simp [ok _ mem] at h
    simp only [hp] at dec
    grind

/-- A row of a destination and a source whose meaning writes a value does what the row says. -/
theorem dstRow_intro₂ {mk : Insn → Instr} {t : Tmpl} {f : Nat → State → List Nat → Except Nat Nat} {k : Insn → Rdy → Nat → M Unit}
    (means : ∀ n s, exec (mk n) s = s.isa t n fun d fs => do
      let rs ← readyOps n.core.val false fs
      let v ← readOp n.core.val d.acq (opAt rs 1)
      k n (opAt rs 0) v)
    (ht : t.ops.length = 2) (plain : t.accepts pREL = false)
    (does : ∀ n r s vs, match f n.core.val s vs with
      | .ok v => (k n r (srcAt vs 0)).run s = (writeOp n.core.val false r v).run s
      | .error code => (k n r (srcAt vs 0)).run s = .error { trap := .check code [], keep := none, met := s }) :
    DstRow mk t f := by
  intro n s d s1 hb c rs s2 vs s' hr
  rw [means, isa_second hb hr ht fun d rs v => k n (opAt rs 0) v, hb.rel_false plain]
  have := does n (opAt rs 0) s' vs
  cases hf : f n.core.val s' vs with
  | error code =>
    simp only [c, hf] at this ⊢
    rw [this]
    rfl
  | ok r =>
    simp only [c, hf] at this ⊢
    intro s3 hd
    rw [this, writeOp_run hd]
    rfl

/-! Signs and integer ends. -/

/-- A sign before a magnitude. -/
theorem Fmt.signed_eq (t : Fmt) (neg : Bool) (m : Nat) : t.signed neg m = m + (if neg then 2 ^ (t.w - 1) else 0) := by
  cases neg <;> simp [Fmt.signed, b2n, Nat.add_comm]

/-- A NaN becomes the most negative integer, invalid (R228). -/
theorem fpToInt_nan {t : Fmt} {x : Nat} (v : FEnv) (w : Nat) (h : t.isNan x = true) : fpToInt t v w x = (2 ^ (w - 1), fNV) := by
  simp [fpToInt, h]

/-- An infinity is not a NaN (R211). -/
theorem Fmt.isNan_of_isInf {t : Fmt} {x : Nat} (h : t.isInf x = true) : t.isNan x = false := by
  simp only [Fmt.isInf, Fmt.isNan, Bool.and_eq_true, beq_iff_eq] at h ⊢
  simp [h.2]

/-- An infinity becomes the end of the integers on its side, invalid (R228). -/
theorem fpToInt_inf {t : Fmt} {x : Nat} (v : FEnv) (w : Nat) (h : t.isInf x = true) :
    fpToInt t v w x = (if t.sign x then 2 ^ (w - 1) else 2 ^ (w - 1) - 1, fNV) := by
  simp [fpToInt, h, Fmt.isNan_of_isInf h]

/-! The comparisons and the loading of FPC. -/

/-- A floating-point comparison sets its flags, or traps where FPC enables an exception it raises (R191, R220). -/
theorem isaFcmp_run {code : Nat} {n : Insn} {signal : Bool} {s s1 s2 s' : State} {d : Dec} {rs : List Rdy} {vs : List Nat}
    (hb : Begins (prim code [ow .s .f, ow .s .f] wWD [pACQ]) n s d s1) (hr : Reads n.core.val d s1 false 0 rs s2 vs s') :
    let c := n.core.val
    let w := (s'.core c).fpc
    let r := fpCmp (fmtOf d.wid) signal (srcAt vs 0) (srcAt vs 1)
    (field w 21 25 &&& r.2 = 0 → s.isaFcmp code n signal =
      .next (s.after c ((s'.withFpc c (setField w 31 35 (field w 31 35 ||| r.2))).withFlags c r.1))) ∧
    (field w 21 25 &&& r.2 ≠ 0 →
      let u := s.undone c s'
      s.isaFcmp code n signal = .next (s.stops c (u.withFpc c (setField (u.core c).fpc 26 30 r.2)) (.check 0o012 []))) := by
  intro c w r
  obtain ⟨fs, s3, hf, hready⟩ := hr.ready
  rw [State.isaFcmp, isa_run hb, run_bind_ok hf, run_bind_ok hready, run_bind_ok hr.read]
  refine ⟨fun quiet => ?_, fun enabled => ?_⟩
  · rw [run_bind_ok (fpRaise_sticky quiet)]
    rfl
  · rw [run_bind_error (fpRaise_traps enabled)]
    rfl

end Sys2Proof.Machine

open Sys2Proof Sys2Proof.Machine

/-- Settles O17: each row is a result rounded under FPC (`fpRow_intro`). -/
theorem floatArithmeticRows : Obligations.FloatArithmeticRows := by
  unfold Obligations.FloatArithmeticRows
  exact ⟨fpRow_intro exec_fadd, fpRow_intro exec_fsub, fpRow_intro exec_fmul, fpRow_intro exec_fdiv, fpRow_intro exec_fsqrt,
    fpRow_intro exec_fma, fpRow_intro exec_fms, fpRow_intro exec_fnma, fpRow_intro exec_fnms, fpRow_intro exec_frnd⟩

/-- Settles O18: the rows of results by `fpRow_intro`, the comparisons by `isaFcmp_run`, and the ends of the integers by the cases of
`fpToInt`. -/
theorem floatSignAndConversionRows : Obligations.FloatSignAndConversionRows := by
  unfold Obligations.FloatSignAndConversionRows
  refine ⟨⟨fpRow_intro exec_fabs, (fpRow_intro exec_fneg).congr fun t _ ss => ?neg, (fpRow_intro exec_fcpys).congr fun t _ ss => ?copy,
    fpRow_intro exec_fmov, fpRow_intro exec_fmin, fpRow_intro exec_fmax, fpRow_intro exec_fclass, ?cmp, ?lfpc, ?sfpc⟩,
    fpRow_intro exec_cvtws, fpRow_intro exec_cvtwd, fpRow_intro exec_cvtls, fpRow_intro exec_cvtld, fpRow_intro exec_cvtsw,
    fpRow_intro exec_cvtdw, fpRow_intro exec_cvtsl, fpRow_intro exec_cvtdl, fpRow_intro exec_cvtsd, fpRow_intro exec_cvtds,
    fun t v w x _ h => fpToInt_nan v w h, fun t v w x _ h => fpToInt_inf v w h⟩
  case neg => cases h : msb t.w (srcAt ss 0) <;> simp [Fmt.negate, Fmt.signed_eq, Fmt.sign, h]
  case copy => simp [Fmt.signed_eq, Fmt.sign]
  case cmp =>
    intro q hq n s d s1 hb c rs s2 vs s' hr
    simp only [List.mem_cons, List.not_mem_nil, or_false] at hq
    obtain rfl | rfl := hq
    · exact isaFcmp_run hb hr
    · exact isaFcmp_run hb hr
  case lfpc =>
    refine srcRow_intro exec_lfpc rfl fun n s vs => ?_
    by_cases reserved : field (w36 (srcAt vs 0)) 0 17 ≠ 0 ∨ 4 < field (w36 (srcAt vs 0)) 18 20
    · simp only [if_pos reserved]
      rfl
    · simp only [if_neg reserved]
      rfl
  case sfpc => exact dstRow_intro exec_sfpc rfl fun _ _ _ _ _ => rfl

end

section
/-! Barriers, SVC, BRK, the clock and the flag word (O20). -/

namespace Sys2Proof.Machine
open Sys2Proof

section
variable {c : Nat} {d : Dec} {s s1 : State}

/-- A change that has to wait is not begun. -/
theorem doStall_none {f : State → Option State} (h : f s = none) :
    (doStall f).run s = .error { trap := .stall, keep := none, met := s } := by
  unfold doStall
  rw [run_bind_ok (get_run s), h]
  rfl

/-- A barrier's first part: it emits the gather buffer, and asks for the reads that show where the OUTs are (R269, R277). -/
def State.barred (s : State) (c : Nat) (ends_ : Bool) : State := if ends_ then (s.gatherEmit c).askOuts c else s.gatherEmit c

/-- The rest of a barrier that drains: its waits, and the stores performed. -/
def barrierRest (c : Nat) (d : Dec) (outs ends_ : Bool) : M Unit := do
  let s ← get
  if (outs && s.outOpen c) || (ends_ && !(s.core c).outs.isEmpty) then waitHere c d
  match s.drainAll c with
  | some s => set s
  | none => waitHere c d

/-- A barrier that drains is its first part and its rest. -/
theorem barrier_run {outs ends_ : Bool} : (barrier c d true outs ends_).run s = (barrierRest c d outs ends_).run (s.barred c ends_) := by
  cases ends_ <;> rfl

/-- A barrier whose OUTs are where it waits for them performs every earlier store (R266, R282). -/
theorem barrierRest_drains {outs ends_ : Bool} (go : (outs && s.outOpen c || ends_ && !(s.core c).outs.isEmpty) = false)
    (drained : s.drainAll c = some s1) : (barrierRest c d outs ends_).run s = .ok ((), s1) := by
  rw [barrierRest, run_bind_ok (get_run _)]
  simp only [go, drained]
  rfl

/-- A barrier with an OUT where it waits for it, or with a store that has to wait, waits with the PSW at it (R266). -/
theorem barrierRest_waits {outs ends_ : Bool}
    (wait : (outs && s.outOpen c || ends_ && !(s.core c).outs.isEmpty) = true ∨ s.drainAll c = none) :
    (barrierRest c d outs ends_).run s = (waitHere c d : M Unit).run s := by
  rw [barrierRest, run_bind_ok (get_run _)]
  cases pending : (outs && s.outOpen c || ends_ && !(s.core c).outs.isEmpty) with
  | true => rfl
  | false =>
    have busy := wait.resolve_left (by simp [pending])
    simp only [busy]
    rfl

end

/-- What a barrier that drains leaves. -/
theorem barrierRow {mk : Insn → Instr} {code : Nat} {outs ends_ : Bool}
    (means : ∀ n s, exec (mk n) s = s.isa (prim code [] [] []) n fun d _ => barrier n.core.val d true outs ends_)
    {n : Insn} {s s1 : State} {d : Dec} (hb : Begins (prim code [] [] []) n s d s1) :
    let c := n.core.val
    let s2 := s1.barred c ends_
    let wait := outs && s2.outOpen c || ends_ && !(s2.core c).outs.isEmpty
    (∀ s3, wait = false → s2.drainAll c = some s3 → exec (mk n) s = .next (s.after c s3)) ∧
      ((wait = true ∨ s2.drainAll c = none) → exec (mk n) s = .next (s2.withIa c (pswIa (s2.core c).psw + 2 ^ 38 - d.len)).follow) := by
  intro c s2 wait
  rw [means, isa_none hb rfl, barrier_run]
  refine ⟨fun s3 go drained => ?_, fun waits => ?_⟩
  · exact congrArg _ (outcome_ok (barrierRest_drains go drained))
  · rw [barrierRest_waits waits]
    rfl

/-- A synchronous entry at a level whose bank is free (R246, R256). -/
theorem syncEnter_free {s s4 : State} {c l code param : Nat} {v : DWord} {info : Word} (free : (((s.gatherEmit c).core c).bank l).busy = false)
    (h : (s.gatherEmit c).vector c l = some (some v, s4)) :
    s.syncEnter c l code param info = some (.ok (s4.setCore c ((s4.core c).enter v l code 0 param info false))) := by
  unfold State.syncEnter
  simp [free, h]

/-- What SVC does with the value it has read (R202). -/
def serviceCall (c v : Nat) : M Unit := do
  doStall fun s => s.drainEvent c
  let s ← get
  match s.syncEnter c 1 0 (v % 2 ^ 18) 0 with
  | none => trap .stall
  | some (.ok s) => set s
  | some (.error cause) => trap (.stop cause)

/-- The low bits of a number as flags (R203). -/
theorem flgOf_eq (x : Nat) : flgOf x = { n := x.testBit 3, z := x.testBit 2, c := x.testBit 1, v := x.testBit 0 } := by
  simp [flgOf, Nat.testBit_eq_decide_div_mod_eq, beq_eq_decide]

end Sys2Proof.Machine

open Sys2Proof Sys2Proof.Machine

/-- Settles O20: the barriers by the two cases of a wait (`barrierRow`), SVC by `syncEnter_free`. -/
theorem barrierAndServiceRows : Obligations.BarrierAndServiceRows := by
  unfold Obligations.BarrierAndServiceRows
  refine ⟨⟨?fence, ?light, ?complete, ?isync⟩, ?svc, ?brk, ?clock, ?getf, ?setf⟩
  case fence =>
    intro q hq n s d s1 hb
    simp only [List.mem_cons, List.not_mem_nil, or_false] at hq
    obtain rfl | rfl := hq
    · simpa [State.barred] using barrierRow exec_fence hb
    · simpa [State.barred] using barrierRow exec_fenceSs hb
  case light =>
    intro q hq n s d s1 hb
    simp only [List.mem_cons, List.not_mem_nil, or_false] at hq
    obtain rfl | rfl := hq
    · rw [exec_fenceLl]
      exact isa_none hb rfl _
    · rw [exec_fenceLs]
      exact isa_none hb rfl _
  case complete =>
    intro n s d s1 hb
    obtain ⟨done, waits⟩ := barrierRow exec_fenceC hb
    refine ⟨fun s3 performed => done s3 ?_, fun h => waits (h.imp_left fun pending => ?_)⟩
    · simp [State.barred, State.outOpen, performed]
    · simp [State.barred, pending]
  case isync =>
    intro n s d s1 hb
    have run : exec (.isync n) s = _ := isa_none hb rfl fun _ => doStall fun s => s.drainAll n.core.val
    refine ⟨fun s2 h => run.trans (congrArg _ (outcome_ok (doStall_run h))), fun h => run.trans ?_⟩
    rw [doStall_none h]
    rfl
  case svc =>
    intro n s d s1 rs s2 vs s' s3 hb hr c drained
    have run : exec (.svc n) s = .next (outcome s c ((serviceCall c (srcAt vs 0)).run s')) := isa_source hb hr rfl fun _ _ => serviceCall c
    rw [run, serviceCall, run_bind_ok (doStall_run drained), run_bind_ok (get_run s3)]
    refine ⟨fun v s4 free h => ?_, fun cause h => ?_⟩
    · rw [syncEnter_free free h]
      rfl
    · rw [h]
      rfl
  case brk =>
    intro n s d s1 hb
    rw [exec_brk]
    exact isa_none hb rfl _
  case clock => exact dstRow_intro exec_rdclk rfl fun _ _ _ _ hb => (hb.rel_false rfl).symm
  case getf => exact dstRow_intro exec_getf rfl fun _ _ _ _ hb => (hb.rel_false rfl).symm
  case setf =>
    refine srcRow_intro exec_setf rfl fun n s vs => ?_
    rw [flgOf_eq]
    rfl

end

section
/-! The PSW, the control registers and the banks (O22), and the orders to other cores (O23). -/

namespace Sys2Proof.Machine
open Sys2Proof

/-! The PSW in storage. -/

/-- An address that is a doubleword's (R202). -/
theorem oddCheck_run {fs : List Formed} {s : State} (h : addrAt fs 0 % 2 = 0) : (oddCheck fs).run s = .ok (addrAt fs 0, s) := by
  have : ¬ (fs.map Formed.addr).getD 0 0 % 2 = 1 := by
    change ¬ addrAt fs 0 % 2 = 1
    omega
  simp only [oddCheck, if_neg this]
  rfl

/-- An address that is not a doubleword's (R202). -/
theorem oddCheck_odd {fs : List Formed} {s : State} (h : addrAt fs 0 % 2 = 1) :
    (oddCheck fs).run s = .error { trap := .check 6 [], keep := none, met := s } := by
  change (fs.map Formed.addr).getD 0 0 % 2 = 1 at h
  simp only [oddCheck, if_pos h]
  rfl

/-- A bit of a field (R9). -/
theorem testBit_field {w lo hi i : Nat} (x : BitVec w) (hl : lo ≤ i) (hi' : i ≤ hi) (hw : hi < w) :
    (field x lo hi).testBit (hi - i) = dbit x i := by
  rw [field, Nat.testBit_mod_two_pow, Nat.testBit_div_two_pow, dbit, BitVec.getLsbD, decide_eq_true (by omega), Bool.true_and]
  congr 1
  omega

/-- LPSW keeps CHAIN, SPL, LEVEL and PLVL and loads every other field (R241). -/
theorem dbit_lpswOf (old v : DWord) {i : Nat} (hi : i < 72) :
    dbit (lpswOf old v) i = if (3 ≤ i ∧ i ≤ 4) ∨ (8 ≤ i ∧ i ≤ 13) then dbit old i else dbit v i := by
  unfold lpswOf
  rw [dbit_setField _ _ (by omega) (by omega) hi, dbit_setField _ _ (by omega) (by omega) hi]
  by_cases level : 8 ≤ i ∧ i ≤ 13
  · rw [if_pos level, if_pos (.inr level), testBit_field old level.1 level.2 (by omega)]
  · by_cases chain : 3 ≤ i ∧ i ≤ 4
    · rw [if_neg level, if_pos chain, if_pos (.inl chain), testBit_field old chain.1 chain.2 (by omega)]
    · rw [if_neg level, if_neg chain, if_neg (by omega)]

/-- The reserved fields of a PSW (R240). -/
theorem pswOk_iff (p : DWord) : pswOk p = true ↔ field p 5 7 = 0 ∧ field p 14 15 = 0 ∧ field p 21 31 = 0 := by
  simp [pswOk, and_assoc]

/-- A PSW with a reserved field that is not zero (R240). -/
theorem pswOk_eq_false (p : DWord) : pswOk p = false ↔ field p 5 7 ≠ 0 ∨ field p 14 15 ≠ 0 ∨ field p 21 31 ≠ 0 := by
  rw [← Bool.not_eq_true, pswOk_iff]
  tauto

/-- A field takes the low bits of what is put into it. -/
theorem setField_mod {w : Nat} (x : BitVec w) (lo hi v : Nat) : setField x lo hi (v % 2 ^ (hi + 1 - lo)) = setField x lo hi v := by
  simp [setField]

/-- The control registers that exist (R245). -/
theorem mem_ctlNumbers (r : Nat) : r ∈ ctlNumbers ↔ r ≤ 4 ∨ (0o11 ≤ r ∧ r ≤ 0o17) := by
  simp only [ctlNumbers, List.mem_cons, List.not_mem_nil, or_false]
  omega

/-! Bank registers. -/

/-- A bank selector names no register of a bank that may be used (R206). -/
def BadBank (s : State) (c v : Nat) : Prop := 8 < v / 32 % 16 ∨ 0o31 < v % 32 ∨ (v / 32 % 16 = 8 ∧ dbit (s.core c).psw 2 = false)

/-- BANK and REG of a selector (R206). -/
theorem bank_fields (v : Nat) : field (w36 v) 27 30 = v / 32 % 16 ∧ field (w36 v) 31 35 = v % 32 := by
  simp only [field, w36, BitVec.toNat_ofNat]
  omega

/-- A selector that passes its check (R206). -/
theorem bankSel_run {s : State} {c v : Nat} (h : ¬ BadBank s c v) : (bankSel c v).run s = .ok ((v / 32 % 16, v % 32), s) := by
  obtain ⟨hb, hr⟩ := bank_fields v
  unfold bankSel
  rw [run_bind_ok (get_run s)]
  simp only [hb, hr]
  exact congrFun (if_neg h) s

/-- A selector that does not (R206). -/
theorem bankSel_fails {s : State} {c v : Nat} (h : BadBank s c v) :
    (bankSel c v).run s = .error { trap := .check 6 [], keep := none, met := s } := by
  obtain ⟨hb, hr⟩ := bank_fields v
  unfold bankSel
  rw [run_bind_ok (get_run s)]
  simp only [hb, hr]
  exact congrFun (if_pos h) s

/-- An element of a vector within it. -/
theorem vget_eq {α : Type} {n : Nat} (v : Vector α n) {i : Nat} (d : α) (h : i < n) : vget v i d = v[i] := by
  simp [vget, h]

/-- What SBNK does with what it has read (R206, R241). -/
def bankStore (c sel v : Nat) : M Unit := do
  let br ← bankSel c sel
  let s ← get
  let k := s.core c
  let dw := BitVec.ofNat 72 v
  if br.1 = k.level ∨ (br.2 = 0o30 ∧ pswOk dw = false) then pcheck 6
  let b := k.bank br.1
  let b' : Bank :=
    if br.2 < 16 then { b with g := vset b.g br.2 (w36 v) }
    else if br.2 < 0o30 then { b with p := vset b.p (br.2 - 16) dw }
    else if br.2 = 0o30 then { b with psw := setField dw 8 10 (field b.psw 8 10) }
    else { b with slim := dw }
  set (s.setCore c (k.setBank br.1 b'))

/-- What SBNK leaves (R206, R241). -/
theorem bankStore_run {s : State} {c sel v : Nat} (ok : ¬ BadBank s c sel)
    (other : ¬ (sel / 32 % 16 = (s.core c).level ∨ (sel % 32 = 0o30 ∧ pswOk (BitVec.ofNat 72 v) = false))) :
    (bankStore c sel v).run s = .ok ((), s.setCore c ((s.core c).setBank (sel / 32 % 16)
      (let b := (s.core c).bank (sel / 32 % 16)
       if sel % 32 < 16 then { b with g := vset b.g (sel % 32) (w36 v) }
       else if sel % 32 < 0o30 then { b with p := vset b.p (sel % 32 - 16) (BitVec.ofNat 72 v) }
       else if sel % 32 = 0o30 then { b with psw := setField (BitVec.ofNat 72 v) 8 10 (field b.psw 8 10) }
       else { b with slim := BitVec.ofNat 72 v }))) := by
  unfold bankStore
  rw [run_bind_ok (bankSel_run ok), run_bind_ok (get_run s)]
  dsimp only
  rw [if_neg other]
  rfl

/-- What SBNK refuses (R206, R241). -/
theorem bankStore_fails {s : State} {c sel v : Nat}
    (bad : BadBank s c sel ∨ sel / 32 % 16 = (s.core c).level ∨ (sel % 32 = 0o30 ∧ pswOk (BitVec.ofNat 72 v) = false)) :
    (bankStore c sel v).run s = .error { trap := .check 6 [], keep := none, met := s } := by
  unfold bankStore
  by_cases refused : BadBank s c sel
  · rw [run_bind_error (bankSel_fails refused)]
  · rw [run_bind_ok (bankSel_run refused), run_bind_ok (get_run s)]
    dsimp only
    rw [if_pos (bad.resolve_left refused)]
    rfl

/-- What SCTL does with what it has read (R207, R245). -/
def ctlStore (c : Nat) (r : Rdy) (sel : Nat) : M Unit := do
  if !ctlNumbers.contains (sel % 64) then pcheck 6
  let s ← get
  writeOp c false r ((s.core c).ctlReg (sel % 64)).toNat

/-- What LCTL does with what it has read (R207, R245). -/
def ctlLoad (c sel v : Nat) : M Unit := do
  let r := sel % 64
  if !ctlNumbers.contains r then pcheck 6
  modify fun s =>
    let k := (s.core c).setCtl r (BitVec.ofNat 72 v)
    s.setCore c (if r = 4 then { k with pend := k.pend.filter fun i => i.code != 0o400 } else k)

/-- What LBNK does with what it has read (R206, R241). -/
def bankLoad (c : Nat) (r : Rdy) (sel : Nat) : M Unit := do
  let br ← bankSel c sel
  let s ← get
  let b := (s.core c).bank br.1
  writeOp c false r
    (if br.2 < 16 then (vget b.g br.2 0).toNat
     else if br.2 < 0o30 then (vget b.p (br.2 - 16) 0).toNat
     else if br.2 = 0o30 then b.psw.toNat else b.slim.toNat)

section
variable {c sel v : Nat} {r : Rdy} {s : State}

/-- LCTL of a register that exists (R207, R245). -/
theorem ctlLoad_run (h : sel % 64 ∈ ctlNumbers) : (ctlLoad c sel v).run s = .ok ((), s.setCore c
    (let k := (s.core c).setCtl (sel % 64) (BitVec.ofNat 72 v)
     if sel % 64 = 4 then { k with pend := k.pend.filter fun i => i.code != 0o400 } else k)) := by
  unfold ctlLoad
  simp only [List.contains_iff_mem.2 h]
  rfl

/-- The test of an interruption's code, as a decision. -/
theorem code_ne (k : Nat) : (fun i : Irq => i.code != k) = fun i => decide (i.code ≠ k) := by
  funext i
  simp [bne, beq_eq_decide]

/-- LCTL of another number (R207). -/
theorem ctlLoad_fails (h : sel % 64 ∉ ctlNumbers) :
    (ctlLoad c sel v).run s = .error { trap := .check 6 [], keep := none, met := s } := by
  unfold ctlLoad
  simp only [Bool.eq_false_of_not_eq_true (mt List.contains_iff_mem.1 h)]
  rfl

/-- SCTL of a register that exists (R207, R245). -/
theorem ctlStore_run (h : sel % 64 ∈ ctlNumbers) :
    (ctlStore c r sel).run s = (writeOp c false r ((s.core c).ctlReg (sel % 64)).toNat).run s :=
  (congrFun (if_neg (by simp [h])) s).trans (run_bind_ok (get_run s))

/-- SCTL of another number (R207). -/
theorem ctlStore_fails (h : sel % 64 ∉ ctlNumbers) :
    (ctlStore c r sel).run s = .error { trap := .check 6 [], keep := none, met := s } := by
  unfold ctlStore
  simp only [Bool.eq_false_of_not_eq_true (mt List.contains_iff_mem.1 h)]
  rfl

/-- LBNK of a register that may be read (R206, R241). -/
theorem bankLoad_run (h : ¬ BadBank s c sel) : (bankLoad c r sel).run s =
    (writeOp c false r
      (let b := (s.core c).bank (sel / 32 % 16)
       if sel % 32 < 16 then (vget b.g (sel % 32) 0).toNat
       else if sel % 32 < 0o30 then (vget b.p (sel % 32 - 16) 0).toNat
       else if sel % 32 = 0o30 then b.psw.toNat else b.slim.toNat)).run s := by
  unfold bankLoad
  rw [run_bind_ok (bankSel_run h), run_bind_ok (get_run s)]

/-- LBNK of another selector (R206). -/
theorem bankLoad_fails (h : BadBank s c sel) :
    (bankLoad c r sel).run s = .error { trap := .check 6 [], keep := none, met := s } := run_bind_error (bankSel_fails h)

end

/-- A row of an m operand alone goes on with its address. -/
theorem isa_formed {t : Tmpl} {n : Insn} {s s1 sf : State} {d : Dec} {fs : List Formed} (hb : Begins t n s d s1)
    (hf : Forms n.core.val d s1 fs sf) (k : List Formed → M Unit) :
    s.isa t n (fun _ fs => k fs) = .next (outcome s n.core.val ((k fs).run sf)) := by
  rw [isa_run hb, run_bind_ok hf]

/-- What LPSW does with its formed operand (R202, R241). -/
def pswLoad (c : Nat) (fs : List Formed) : M Unit := do
  let a ← oddCheck fs
  let x ← xlateM c true 1 a
  let v ← load c x 0 .wD false
  let v := BitVec.ofNat 72 v
  if !pswOk v then pcheck 6
  modify fun s => s.setCore c ((s.core c).setPsw (lpswOf (s.core c).psw v))

/-- What SPSW does with its formed operand (R202). -/
def pswStore (c : Nat) (fs : List Formed) : M Unit := do
  let a ← oddCheck fs
  let x ← xlateM c true 2 a
  let s ← get
  store c x 0 .wD (s.core c).psw.toNat false

section
variable {n : Insn} {s s1 sf : State} {d : Dec} {fs : List Formed}

/-- LPSW loads the PSW of its doubleword, or checks (R202, R241). -/
theorem lpsw_row (hb : Begins (secd 0o061 [opM]) n s d s1) (hf : Forms n.core.val d s1 fs sf) :
    let c := n.core.val
    let a := addrAt fs 0
    (a % 2 = 1 → exec (.lpsw n) s = .next (s.trapped c sf (.check 0o006 []))) ∧
    (∀ x s2 v s3, a % 2 = 0 → Maps sf c 1 a x s2 → (load c x 0 .wD false).run s2 = .ok (v, s3) →
      if field (BitVec.ofNat 72 v) 5 7 = 0 ∧ field (BitVec.ofNat 72 v) 14 15 = 0 ∧ field (BitVec.ofNat 72 v) 21 31 = 0 then
        ∃ p : DWord, exec (.lpsw n) s = .next (s.after c (s3.setCore c ((s3.core c).setPsw p))) ∧
          ∀ i < 72, dbit p i =
            if (3 ≤ i ∧ i ≤ 4) ∨ (8 ≤ i ∧ i ≤ 13) then dbit (s3.core c).psw i else dbit (BitVec.ofNat 72 v) i
      else exec (.lpsw n) s = .next (s.trapped c s3 (.check 0o006 []))) := by
  intro c a
  have run := (exec_lpsw n s).trans (isa_formed hb hf (pswLoad n.core.val))
  rw [run, pswLoad]
  refine ⟨fun odd => ?_, fun x s2 v s3 even hx hl => ?_⟩
  · rw [run_bind_error (oddCheck_odd odd), outcome_check]
  · rw [run_bind_ok (oddCheck_run even), run_bind_ok (maps_load hx), run_bind_ok hl]
    split
    next ok =>
      simp only [(pswOk_iff _).2 ok]
      exact ⟨_, rfl, fun i hi => dbit_lpswOf _ _ hi⟩
    next bad =>
      simp only [Bool.eq_false_of_not_eq_true (mt (pswOk_iff _).1 bad)]
      rfl

/-- SPSW stores the PSW in its doubleword, or checks (R202). -/
theorem spsw_row (hb : Begins (secd 0o062 [opM]) n s d s1) (hf : Forms n.core.val d s1 fs sf) :
    let c := n.core.val
    let a := addrAt fs 0
    (a % 2 = 1 → exec (.spsw n) s = .next (s.trapped c sf (.check 0o006 []))) ∧
    (∀ x s2 s3, a % 2 = 0 → Maps sf c 2 a x s2 → Stores s2 c x 0 .wD (s2.core c).psw.toNat false s3 →
      exec (.spsw n) s = .next (s.after c s3)) := by
  intro c a
  have run := (exec_spsw n s).trans (isa_formed hb hf (pswStore n.core.val))
  rw [run, pswStore]
  refine ⟨fun odd => ?_, fun x s2 s3 even hx hs => ?_⟩
  · rw [run_bind_error (oddCheck_odd odd), outcome_check]
  · rw [run_bind_ok (oddCheck_run even), run_bind_ok (maps_store hx), run_bind_ok (get_run s2), store_run hs]
    rfl

/-- WAIT drains the core and leaves it waiting (R202, R282). -/
theorem wait_row {s2 : State} (hb : Begins (secd 0o063 []) n s d s1) (h : s1.drainEvent n.core.val = some s2) :
    exec (.wait n) s = .next (s.after n.core.val (s2.setCore n.core.val { s2.core n.core.val with run := .wait })) := by
  rw [exec_wait]
  exact (isa_none hb rfl _).trans (congrArg _ (outcome_ok (run_bind_ok (doStall_run h))))

end

end Sys2Proof.Machine

open Sys2Proof Sys2Proof.Machine

/-- Settles O22: the PSW's fields by `dbit_lpswOf`, the control registers by `mem_ctlNumbers`, the banks by the two cases of their
selector's check. -/
theorem pswAndControlRows : Obligations.PswAndControlRows := by
  unfold Obligations.PswAndControlRows
  refine ⟨⟨?lpsw, ?spsw, ?spri, ?wait⟩, ?lctl, ?sctl, ?lbnk, ?sbnk, ?lslim, ?sslim⟩
  case lpsw => exact fun n s d s1 fs sf hb hf => lpsw_row hb hf
  case spsw => exact fun n s d s1 fs sf hb hf => spsw_row hb hf
  case spri =>
    refine srcRow_intro exec_spri rfl fun n s vs => ?_
    rw [show (8 : Nat) = 2 ^ (20 + 1 - 18) from rfl, setField_mod]
    rfl
  case wait => exact fun n s d s1 s2 hb h => wait_row hb h
  case lctl =>
    refine srcRow_intro₂ (k := fun n => ctlLoad n.core.val) exec_lctl rfl fun n s vs => ?_
    have known := mem_ctlNumbers (srcAt vs 0 % 64)
    dsimp only
    split_ifs with plain clock
    · rw [ctlLoad_run (known.2 (by omega)), if_neg (by omega)]
      rfl
    · rw [ctlLoad_run (known.2 (by omega)), if_pos clock]
      simp only [State.withCtl, State.core_setCore, State.setCore_setCore, code_ne]
    · exact ctlLoad_fails (mt known.1 (by omega))
  case sctl =>
    refine dstRow_intro₂ (k := fun n => ctlStore n.core.val) exec_sctl rfl rfl fun n r s vs => ?_
    have known := mem_ctlNumbers (srcAt vs 0 % 64)
    dsimp only
    split_ifs with h
    · exact ctlStore_run (known.2 h)
    · exact ctlStore_fails (mt known.1 h)
  case lbnk =>
    refine dstRow_intro₂ (k := fun n => bankLoad n.core.val) exec_lbnk rfl rfl fun n r s vs => ?_
    dsimp only
    split_ifs with bad general pointer psw
    · exact bankLoad_fails bad
    · rw [bankLoad_run bad, if_pos general, vget_eq _ _ general]
    · rw [bankLoad_run bad, if_neg general, if_pos pointer, vget_eq _ _ (by omega)]
    · rw [bankLoad_run bad, if_neg general, if_neg pointer, if_pos psw]
    · rw [bankLoad_run bad, if_neg general, if_neg pointer, if_neg psw]
  case sbnk =>
    refine srcRow_intro₂ (k := fun n => bankStore n.core.val) exec_sbnk rfl fun n s vs => ?_
    dsimp only
    split_ifs with bad general pointer psw reserved
    · refine bankStore_fails ?_
      unfold BadBank
      tauto
    · rw [bankStore_run (fun h => bad (by unfold BadBank at h; tauto)) (by omega)]
      simp only [if_pos general]
      rfl
    · rw [bankStore_run (fun h => bad (by unfold BadBank at h; tauto)) (by omega)]
      simp only [if_neg general, if_pos pointer]
      rfl
    · exact bankStore_fails (.inr (.inr ⟨psw, (pswOk_eq_false _).2 reserved⟩))
    · rw [bankStore_run (fun h => bad (by unfold BadBank at h; tauto)) (by rw [pswOk_eq_false]; tauto)]
      simp only [if_neg general, if_neg pointer, if_pos psw]
    · rw [bankStore_run (fun h => bad (by unfold BadBank at h; tauto)) (by omega)]
      simp only [if_neg general, if_neg pointer, if_neg psw]
  case lslim => exact srcRow_intro exec_lslim rfl fun n s vs => rfl
  case sslim => exact dstRow_intro exec_sslim rfl fun _ _ _ _ hb => (hb.rel_false rfl).symm

end

section
/-! Orders to other cores (O23). -/

namespace Sys2Proof.Machine
open Sys2Proof

/-- The flags of a condition code (R194). -/
theorem withFlags_ccFlags (s : State) (c : Nat) {cc : Nat} (h : cc < 4) : s.withFlags c (ccFlags cc) = s.withCc c cc := by
  unfold State.withCc
  congr 1
  interval_cases cc <;> rfl

/-- The high nonet of a word. -/
theorem setField_high (v : Nat) : setField (0 : Word) 0 8 (v % 512) = BitVec.ofNat 36 (v % 512 * 2 ^ 27) := by
  simp [setField]

/-- The targets of an order (R205). -/
theorem xcoreOk_iff (s : State) (c t : Nat) : s.xcoreOk c t = true ↔
    t < 192 ∧ (s.core t).cstate = .active ∧ (s.core t).run ≠ .frozen ∧ (s.core t).sheet = (s.core c).sheet := by
  simp [State.xcoreOk, Core.active, and_assoc]

/-- What XCORE does with what it has read (R202, R205). -/
def coreOrder (c r v : Nat) : M Unit := do
  let order := v % 512
  if order = 0 ∨ 5 < order then pcheck 6
  let s ← get
  let x := s.xcore c (r % 2 ^ 18) order (v / 512 % 512)
  set x.2
  setFlags c (ccFlags x.1)

/-- An order that there is not (R205). -/
theorem coreOrder_fails {c r v : Nat} {s : State} (h : v % 512 = 0 ∨ 5 < v % 512) :
    (coreOrder c r v).run s = .error { trap := .check 6 [], keep := none, met := s } := congrFun (if_pos h) s

/-- An order and its condition code (R194, R205). -/
theorem coreOrder_run {c r v cc : Nat} {s t : State} (h : ¬ (v % 512 = 0 ∨ 5 < v % 512))
    (does : s.xcore c (r % 2 ^ 18) (v % 512) (v / 512 % 512) = (cc, t)) (small : cc < 4) :
    (coreOrder c r v).run s = .ok ((), t.withCc c cc) := by
  have run : (coreOrder c r v).run s = .ok ((), t.withFlags c (ccFlags cc)) := by
    refine (congrFun (if_neg h) s).trans ?_
    change (do
      let s ← get
      let x := s.xcore c (r % 2 ^ 18) (v % 512) (v / 512 % 512)
      set x.2
      setFlags c (ccFlags x.1) : M Unit).run s = _
    rw [run_bind_ok (get_run s)]
    dsimp only
    rw [does, run_bind_ok (set_run t s), setFlags_run]
  rw [run, withFlags_ccFlags _ _ small]

section
variable {s : State} {c t value : Nat}

/-- A target that is not there (R205). -/
theorem xcore_absent (order : Nat) (h : s.xcoreOk c t = false) : s.xcore c t order value = (3, s) := by
  simp [State.xcore, h]

/-- QUERY reports what the target does (R205). -/
theorem xcore_query (h : s.xcoreOk c t = true) : s.xcore c t 1 value =
    (if (s.core t).run = .wait then 1 else if (s.core t).run = .stopped true ∨ (s.core t).run = .stopped false then 2 else 0, s) := by
  unfold State.xcore
  rw [h]
  cases run : (s.core t).run with
  | stopped w => cases w <;> simp [run]
  | _ => simp [run]

/-- POST makes an interruption pending, one at a time (R205). -/
theorem xcore_post (h : s.xcoreOk c t = true) (v : Nat) : s.xcore c t 2 (v % 512) =
    if 0o401 ∈ (s.core t).pend.map Irq.code then (2, s)
    else (0, s.setCore t { s.core t with pend := (s.core t).pend ++ [
      { level := 4, code := 0o401, param := c, info := BitVec.ofNat 36 (v % 512 * 2 ^ 27) }] }) := by
  have pending : ((s.core t).pend.any fun i => i.code == 0o401) = true ↔ 0o401 ∈ (s.core t).pend.map Irq.code := by
    simp [List.any_eq_true]
  unfold State.xcore
  simp only [h, Bool.not_true, Bool.false_eq_true, if_false, pending, setField_high]
  rfl

/-- PAUSE stops a core that runs or waits (R205). -/
theorem xcore_pause (h : s.xcoreOk c t = true) : s.xcore c t 3 value =
    match (s.core t).run with
    | .running => (0, s.setCore t { s.core t with run := .stopped false })
    | .wait => (0, s.setCore t { s.core t with run := .stopped true })
    | .stopped _ => (1, s)
    | .devIn _ _ | .held _ _ _ _ | .frozen => (0, s.setCore t { s.core t with pausing := true }) := by
  have live := ((xcoreOk_iff s c t).1 h).2.2.1
  unfold State.xcore State.pauseCore
  rw [h]
  cases run : (s.core t).run with
  | frozen => exact absurd run live
  | _ => simp [run]

/-- RESUME starts a stopped core (R205). -/
theorem xcore_resume (h : s.xcoreOk c t = true) : s.xcore c t 4 value =
    match (s.core t).run with
    | .stopped w => (0, s.setCore t { s.core t with run := if w then .wait else .running })
    | _ => (1, s) := by
  unfold State.xcore State.resumeCore
  rw [h]
  cases run : (s.core t).run <;> simp [run]

/-- WAKE ends a WAIT (R205). -/
theorem xcore_wake (h : s.xcoreOk c t = true) : s.xcore c t 5 value =
    if (s.core t).run = .wait then (0, (s.setCore t { s.core t with run := .running }).wakeCold t) else (1, s) := by
  simp [State.xcore, h]

end

end Sys2Proof.Machine

open Sys2Proof Sys2Proof.Machine

/-- Settles O23: every row is the same order, which `coreOrder_run` carries out as the lemma of its number says. -/
theorem coreOrders : Obligations.CoreOrders := by
  unfold Obligations.CoreOrders
  intro mk hm
  have means : ∀ n s, exec (mk n) s = s.isaXcore n := by
    simp only [List.mem_cons, List.not_mem_nil, or_false] at hm
    obtain rfl | rfl | rfl | rfl | rfl := hm
    · exact exec_xcoreQuery
    · exact exec_xcorePost
    · exact exec_xcorePause
    · exact exec_xcoreResume
    · exact exec_xcoreWake
  refine srcRow_intro₂ (k := fun n => coreOrder n.core.val) means rfl fun n s vs => ?_
  dsimp only
  by_cases bad : srcAt vs 1 % 512 = 0 ∨ 5 < srcAt vs 1 % 512
  · rw [if_pos bad]
    exact coreOrder_fails bad
  rw [if_neg bad]
  cases ok : s.xcoreOk n.core.val (srcAt vs 0 % 2 ^ 18) with
  | false =>
    rw [if_pos (mt (xcoreOk_iff _ _ _).2 (Bool.not_eq_true _ ▸ ok))]
    exact coreOrder_run bad (xcore_absent _ ok) (by decide)
  | true =>
    rw [if_neg (not_not_intro ((xcoreOk_iff _ _ _).1 ok))]
    by_cases query : srcAt vs 1 % 512 = 1
    · rw [if_pos query]
      exact coreOrder_run bad (by rw [query, xcore_query ok]) (by split_ifs <;> decide)
    rw [if_neg query]
    by_cases post : srcAt vs 1 % 512 = 2
    · rw [if_pos post]
      split_ifs with posted
      · exact coreOrder_run bad (by rw [post, xcore_post ok, if_pos posted]) (by decide)
      · exact coreOrder_run bad (by rw [post, xcore_post ok, if_neg posted]) (by decide)
    rw [if_neg post]
    by_cases pause : srcAt vs 1 % 512 = 3
    · rw [if_pos pause]
      cases run : (s.core (srcAt vs 0 % 2 ^ 18)).run <;> exact coreOrder_run bad (by rw [pause, xcore_pause ok]; simp only [run]) (by decide)
    rw [if_neg pause]
    by_cases resume : srcAt vs 1 % 512 = 4
    · rw [if_pos resume]
      cases run : (s.core (srcAt vs 0 % 2 ^ 18)).run <;> exact coreOrder_run bad (by rw [resume, xcore_resume ok]; simp only [run]) (by decide)
    rw [if_neg resume]
    have wake : srcAt vs 1 % 512 = 5 := by omega
    split_ifs with waits
    · exact coreOrder_run bad (by rw [wake, xcore_wake ok, if_pos waits]) (by decide)
    · exact coreOrder_run bad (by rw [wake, xcore_wake ok, if_neg waits]) (by decide)

end

section
/-! The save areas (O24). -/

namespace Sys2Proof.Machine
open Sys2Proof

section
variable {c list : Nat} {x : Xl} {s s' : State}

/-- A list whose head can be used (R199, R201). -/
theorem areaHead_run (h : Heads s c list x s') : (areaHead c list).run s = .ok ((ptrAddr ((s.core c).ctlReg list), x), s') := by
  obtain ⟨nonempty, aligned, y, s1, hr, hw⟩ := h
  unfold areaHead
  rw [run_bind_ok (get_run s)]
  dsimp only
  rw [if_neg nonempty, if_neg (not_not_intro aligned), run_bind_ok (maps_load hr), run_bind_ok (maps_store hw)]
  rfl

/-- An empty list (R199). -/
theorem areaHead_empty (h : ptrAddr ((s.core c).ctlReg list) = 0) :
    (areaHead c list).run s = .error { trap := .check 0o015 [], keep := none, met := s } := by
  unfold areaHead
  rw [run_bind_ok (get_run s)]
  exact congrFun (if_pos h) s

/-- An area that is not aligned (R199). -/
theorem areaHead_misaligned (h : ptrAddr ((s.core c).ctlReg list) % 32 ≠ 0) :
    (areaHead c list).run s = .error { trap := .check 6 [], keep := none, met := s } := by
  have nonempty : ptrAddr ((s.core c).ctlReg list) ≠ 0 := fun empty => h (by rw [empty])
  unfold areaHead
  rw [run_bind_ok (get_run s)]
  exact congrFun ((if_neg nonempty).trans (if_pos h)) s

/-- Doublewords stored in an area. -/
theorem areaPuts_run {l : List (Nat × DWord)} (h : Stored c x s l s') :
    (l.forM fun y : Nat × DWord => areaPut c x y.1 y.2.toNat).run s = .ok ((), s') := by
  induction h with
  | nil s => rfl
  | cons hs _ ih => exact (run_bind_ok (x := areaPut c x _ _) (store_run hs)).trans ih

/-- An area moved from one list to another (R200). -/
theorem areaMove_run {src dst n : Nat} (h : Stores s c (x.plus 2) 0 .wD ((s.core c).ctlReg dst).toNat false s') :
    (areaMove c x src dst n).run s = .ok ((), (s'.withCtl c dst ((s.core c).ctlReg src)).withCtl c src (BitVec.ofNat 72 n)) := by
  unfold areaMove
  rw [run_bind_ok (get_run s), run_bind_ok (x := areaPut c x 2 _) (store_run h), modify_run]
  simp only [State.withCtl, State.core_setCore, State.setCore_setCore]

end

/-- Loads paired with their offsets. -/
theorem mapM_pair {f : Nat → M Nat} (g : Nat → DWord) {os vs : List Nat} {s s' : State} (h : (os.mapM f).run s = .ok (vs, s')) :
    (os.mapM fun o => do
      let v ← f o
      pure (o, g v)).run s = .ok (os.zip (vs.map g), s') ∧ vs.length = os.length := by
  induction os generalizing s vs with
  | nil =>
    rw [List.mapM_nil] at h ⊢
    obtain ⟨rfl, rfl⟩ := pure_ok h
    exact ⟨rfl, rfl⟩
  | cons o os ih =>
    rw [List.mapM_cons] at h ⊢
    obtain ⟨v, s1, hv, h⟩ := bind_ok h
    obtain ⟨vs', s2, hvs, h⟩ := bind_ok h
    obtain ⟨rfl, rfl⟩ := pure_ok h
    obtain ⟨hrest, len⟩ := ih hvs
    refine ⟨?_, by simp [len]⟩
    rw [bind_assoc, run_bind_ok hv, pure_bind, run_bind_ok hrest]
    rfl

/-- A half bank depends on what is at the offsets of its doublewords (R252). -/
theorem loadHalf_congr {f g : Nat → DWord} (b : Bank) (upper : Bool) (h : ∀ o ∈ [4, 6, 8, 10, 12, 14, 16, 18], f o = g o) :
    loadHalf b upper f = loadHalf b upper g := by
  simp only [List.forall_mem_cons] at h
  obtain ⟨h4, h6, h8, h10, h12, h14, h16, h18, -⟩ := h
  simp [loadHalf, List.range, List.range.loop, h4, h6, h8, h10, h12, h14, h16, h18]

/-- The header of a saved half bank (R252). -/
theorem saHeader_toNat (upper : Bool) :
    (saHeader upper false 0).toNat = if upper then 2 ^ 27 + 2 ^ 16 else 2 ^ 27 + 2 * 2 ^ 16 := by
  cases upper <;> rfl

/-- The doublewords of a loaded area by their offsets. -/
theorem dwAt_zip {ds : List Nat} (h : ds.length = 8) :
    ∀ o ∈ [4, 6, 8, 10, 12, 14, 16, 18], dwAt (List.zip [4, 6, 8, 10, 12, 14, 16, 18] (ds.map (BitVec.ofNat 72))) o =
      BitVec.ofNat 72 (ds.getD ((o - 4) / 2) 0) := by
  obtain ⟨a, b, c, d, e, f, g, i, rfl⟩ : ∃ a b c d e f g i, ds = [a, b, c, d, e, f, g, i] := by
    match ds, h with
    | [a, b, c, d, e, f, g, i], _ => exact ⟨a, b, c, d, e, f, g, i, rfl⟩
  simp [dwAt, Tab.get]

section
variable {code : Nat} {n : Insn} {upper : Bool} {s s1 : State} {d : Dec}

/-- What a save leaves: the half bank is in the area, which moves from the free-area list to the save list (R200, R252, R253). -/
theorem isaSave_row (hb : Begins (secd code []) n s d s1) :
    let c := n.core.val
    let a := ptrAddr ((s1.core c).ctlReg 0)
    let head := if upper then 2 ^ 27 + 2 ^ 16 else 2 ^ 27 + 2 * 2 ^ 16
    (a = 0 → s.isaSave code n upper = .next (s.trapped c s1 (.check 0o015 []))) ∧
    (a % 32 ≠ 0 → s.isaSave code n upper = .next (s.trapped c s1 (.check 0o006 []))) ∧
    (∀ x s2 link s3 s4 s5 s6, Heads s1 c 0 x s2 → (load c (x.plus 2) 0 .wD false).run s2 = .ok (link, s3) →
      Stores s3 c x 0 .wW head false s4 → Stored c x s4 (halfDws (s4.curBank c) upper) s5 →
      Stores s5 c (x.plus 2) 0 .wD ((s5.core c).ctlReg 1).toNat false s6 →
      s.isaSave code n upper = .next (s.after c ((s6.withCtl c 1 ((s5.core c).ctlReg 0)).withCtl c 0 (BitVec.ofNat 72 link)))) := by
  intro c a head
  rw [State.isaSave, secNone, isa_none hb rfl]
  refine ⟨fun empty => ?_, fun odd => ?_, fun x s2 link s3 s4 s5 s6 hx hl hh hs hm => ?_⟩
  · rw [run_bind_error (areaHead_empty empty), outcome_check]
  · rw [run_bind_error (areaHead_misaligned odd), outcome_check]
  · rw [run_bind_ok (areaHead_run hx), run_bind_ok (x := areaGet c x 2) hl, saHeader_toNat, run_bind_ok (store_run hh),
      run_bind_ok (get_run s4), run_bind_ok (areaPuts_run hs)]
    exact congrArg _ (outcome_ok (areaMove_run hm))

/-- What a restore leaves: the half bank is loaded from the area, which moves back to the free-area list (R200, R252, R253). -/
theorem isaRestore_row (hb : Begins (secd code []) n s d s1) :
    let c := n.core.val
    let a := ptrAddr ((s1.core c).ctlReg 1)
    let head := if upper then 2 ^ 27 + 2 ^ 16 else 2 ^ 27 + 2 * 2 ^ 16
    (a = 0 → s.isaRestore code n upper = .next (s.trapped c s1 (.check 0o015 []))) ∧
    (a % 32 ≠ 0 → s.isaRestore code n upper = .next (s.trapped c s1 (.check 0o006 []))) ∧
    (∀ x s2 h s3, Heads s1 c 1 x s2 → (load c x 0 .wW false).run s2 = .ok (h, s3) →
      (h ≠ head → s.isaRestore code n upper = .next (s.trapped c s3 (.check 0o015 []))) ∧
      (∀ link ds s4, h = head →
        ([2, 4, 6, 8, 10, 12, 14, 16, 18].mapM fun o => load c (x.plus o) 0 .wD false).run s3 = .ok (link :: ds, s4) →
        let s5 := s4.setCurBank c (loadHalf (s4.curBank c) upper (fun o => BitVec.ofNat 72 (ds.getD ((o - 4) / 2) 0)))
        ∀ s6, Stores s5 c (x.plus 2) 0 .wD ((s5.core c).ctlReg 0).toNat false s6 →
          s.isaRestore code n upper = .next (s.after c
            ((s6.withCtl c 0 ((s5.core c).ctlReg 1)).withCtl c 1 (BitVec.ofNat 72 link))))) := by
  intro c a head
  rw [State.isaRestore, secNone, isa_none hb rfl]
  refine ⟨fun empty => ?_, fun odd => ?_, fun x s2 h s3 hx hh => ⟨fun other => ?_, ?_⟩⟩
  · rw [run_bind_error (areaHead_empty empty), outcome_check]
  · rw [run_bind_error (areaHead_misaligned odd), outcome_check]
  · rw [run_bind_ok (areaHead_run hx), run_bind_ok hh, saHeader_toNat, if_pos other]
    rfl
  · intro link ds s4 ours hl s5 s6 hm
    rw [List.mapM_cons] at hl
    obtain ⟨link', s3', hlink, hl⟩ := bind_ok hl
    obtain ⟨ds', s4', hds, hl⟩ := bind_ok hl
    obtain ⟨eq, rfl⟩ := pure_ok hl
    obtain ⟨rfl, rfl⟩ := List.cons.inj eq
    obtain ⟨hpairs, len⟩ := mapM_pair (f := areaGet c x) (BitVec.ofNat 72) hds
    have half := loadHalf_congr (s4'.curBank c) upper (dwAt_zip len)
    rw [run_bind_ok (areaHead_run hx), run_bind_ok hh, saHeader_toNat, if_neg (not_not_intro ours),
      run_bind_ok (x := areaGet c x 2) hlink]
    refine congrArg _ (outcome_ok ((run_bind_ok hpairs).trans ?_))
    rw [run_bind_ok (modify_run _ s4'), half]
    exact areaMove_run hm

end

end Sys2Proof.Machine

open Sys2Proof Sys2Proof.Machine

/-- Settles O24: both saves and both restores are one meaning with the half named (`isaSave_row`, `isaRestore_row`). -/
theorem saveRows : Obligations.SaveRows := by
  unfold Obligations.SaveRows
  refine ⟨fun q hq n s d s1 hb => ?_, fun q hq n s d s1 hb => ?_⟩
  all_goals
    simp only [List.mem_cons, List.not_mem_nil, or_false] at hq
    obtain rfl | rfl := hq
  · exact isaSave_row hb
  · exact isaSave_row hb
  · exact isaRestore_row hb
  · exact isaRestore_row hb

end

section
/-! Cache maintenance, PRELOAD and the locks (O26). -/

namespace Sys2Proof.Machine
open Sys2Proof

/-- The kind of access that the page of a line maintenance instruction has to permit (R126, R306). -/
def lineAccess : StoreKind → Nat
  | .czero | .cinv => 2
  | _ => 1

/-- A line maintenance instruction retires into one entry of the store buffer, CZERO with D set (R279, R307). -/
theorem lineOp_run {c a : Nat} {kind : StoreKind} {x : Xl} {s s2 s3 : State} (hx : Maps s c (lineAccess kind) a x s2) (room : s2.room c)
    (hd : if kind = .czero then s2.setD (.core c) ((s2.core c).sheet.getD 64) x.leafAt = some s3 else s3 = s2) :
    (lineOp c kind a).run s = .ok ((), s3.setCore c { s3.core c with stores := (s3.core c).stores ++ [
      { kind := kind, addr := x.mp, mask := 0, value := 0, rel := false }] }) := by
  have space : ¬ 96 ≤ (s2.core c).stores.length := Nat.not_le.2 room
  have access : (xlateM c true (lineAccess kind) a).run s = .ok (x, s2) := by
    cases kind with
    | czero | cinv => exact maps_store hx
    | _ => exact maps_load hx
  unfold lineOp
  cases kind with
  | czero =>
    refine (run_bind_ok access).trans ?_
    rw [run_bind_ok (get_run s2), if_neg space]
    exact run_bind_ok (doStall_run hd)
  | _ =>
    obtain rfl : s3 = s2 := hd
    refine (run_bind_ok access).trans ?_
    rw [run_bind_ok (get_run s3), if_neg space]
    rfl

/-- A row of line maintenance does what the row says. -/
theorem lineOp_row {mk : Insn → Instr} {t : Tmpl} {kind : StoreKind}
    (means : ∀ n s, exec (mk n) s = s.isa t n fun _ fs => lineOp n.core.val kind (mAddr fs 0)) {n : Insn} {s s1 sf s2 s3 : State} {d : Dec}
    {fs : List Formed} {x : Xl} (hb : Begins t n s d s1) (hf : Forms n.core.val d s1 fs sf)
    (hx : Maps sf n.core.val (lineAccess kind) (addrAt fs 0) x s2) (room : s2.room n.core.val)
    (hd : if kind = .czero then s2.setD (.core n.core.val) ((s2.core n.core.val).sheet.getD 64) x.leafAt = some s3 else s3 = s2) :
    exec (mk n) s = .next (s.after n.core.val (s3.setCore n.core.val { s3.core n.core.val with stores := (s3.core n.core.val).stores ++ [
      { kind := kind, addr := x.mp, mask := 0, value := 0, rel := false }] })) := by
  rw [means, isa_formed hb hf fun fs => lineOp n.core.val kind (mAddr fs 0)]
  exact congrArg _ (outcome_ok (lineOp_run hx room hd))

/-- Changes made one after the other, none of which has to wait. -/
theorem forM_doStall {α : Type} {f : State → α → Option State} {l : List α} {s s' : State} (h : l.foldlM f s = some s') :
    (l.forM fun a => doStall fun s => f s a).run s = .ok ((), s') := by
  induction l generalizing s with
  | nil =>
    obtain rfl := Option.some.inj h
    rfl
  | cons a l ih =>
    rw [List.foldlM_cons] at h
    obtain ⟨s1, ha, hl⟩ := Option.bind_eq_some_iff.1 h
    exact (run_bind_ok (doStall_run ha)).trans (ih hl)

/-- CWB.ALL writes every dirty line the quire owns (R306). -/
theorem cwbAll_row {n : Insn} {s s1 s2 s3 : State} {d : Dec} (hb : Begins (secd 0o043 []) n s d s1)
    (drained : s1.drainAll n.core.val = some s2)
    (clean : ((s2.qlines.filter fun (y : Nat × QLine) => y.1 / 2 ^ 34 = n.core.val / 6 ∧ y.2.st.owns = true ∧ y.2.isDirty = true).map
      fun (y : Nat × QLine) => y.1 % 2 ^ 34).foldlM (fun s l => s.mClean (n.core.val / 6) l) s2 = some s3) :
    exec (.cwbAll n) s = .next (s.after n.core.val s3) := by
  have dirty : (fun y : Nat × QLine => y.1 / 2 ^ 34 == quireOf n.core.val && y.2.st.owns && y.2.isDirty) =
      fun y => decide (y.1 / 2 ^ 34 = n.core.val / 6 ∧ y.2.st.owns = true ∧ y.2.isDirty = true) := by
    funext y
    simp [quireOf, Bool.and_assoc, beq_eq_decide]
  rw [exec_cwbAll, execCwbAll, secNone]
  refine (isa_none hb rfl _).trans (congrArg _ (outcome_ok ((run_bind_ok (doStall_run drained)).trans ?_)))
  rw [run_bind_ok (get_run s2)]
  dsimp only
  rw [dirty]
  exact forM_doStall clean

/-- Caches emptied one after the other hold what is in none of them. -/
theorem clearArrays_eq (s : State) (l : List CacheSel) : l.foldl (fun (s : State) x => s.clearArray x) s =
    { s with arrays := s.arrays.filter fun y => l.all fun x => y.1 / 2 ^ 34 != cacheNo x } := by
  induction l generalizing s with
  | nil => simp
  | cons x l ih =>
    have both : (s.clearArray x).arrays.filter (fun y => l.all fun x => y.1 / 2 ^ 34 != cacheNo x) =
        s.arrays.filter fun y => (x :: l).all fun x => y.1 / 2 ^ 34 != cacheNo x := by
      simp only [State.clearArray, List.filter_filter, List.all_cons, Bool.and_comm]
    rw [List.foldl_cons, ih, both]
    rfl

/-- The caches that CINV.ALL reaches (R306). -/
def State.reachedCaches (s : State) (c : Nat) : List CacheSel :=
  [.l1i (coreFin c), .l1d (coreFin c)] ++
    if s.ownsQuire ((s.core c).sheet.getD 64) (quireOf c) then [.l2 (quireFin (quireOf c))] else []

/-- The caches that CINV.ALL reaches (R306). -/
theorem mem_reachedCaches (s : State) (c : CoreId) (x : CacheSel) : x ∈ s.reachedCaches c.val ↔
    x = .l1i c ∨ x = .l1d c ∨
      (x = .l2 (quireFin (quireOf c.val)) ∧ s.ownsQuire ((s.core c.val).sheet.getD 64) (quireOf c.val) = true) := by
  have self : coreFin c.val = c := Fin.ofNat_val_eq_self c
  cases own : s.ownsQuire ((s.core c.val).sheet.getD 64) (quireOf c.val) <;> simp [State.reachedCaches, self, own]

/-- CINV.ALL empties the caches in reach that are off and do not drain (R304, R306). -/
theorem cinvAll_row {n : Insn} {s s1 s2 : State} {d : Dec} (hb : Begins (secd 0o041 []) n s d s1)
    (drained : s1.drainAll n.core.val = some s2) :
    let q := quireOf n.core.val
    ∃ l, exec (.cinvAll n) s = .next (s.after n.core.val { s2 with arrays := l }) ∧
      (∀ y, y ∈ l ↔ y ∈ s2.arrays ∧ ¬ ∃ x, (x = .l1i n.core ∨ x = .l1d n.core ∨
          (x = .l2 (quireFin q) ∧ s2.ownsQuire ((s2.core n.core.val).sheet.getD 64) q = true)) ∧
        s2.cacheIdle x = true ∧ y.1 / 2 ^ 34 = cacheNo x) := by
  intro q
  refine ⟨s2.arrays.filter fun y => ((s2.reachedCaches n.core.val).filter s2.cacheIdle).all fun x => y.1 / 2 ^ 34 != cacheNo x,
    ?_, fun y => ?_⟩
  · rw [exec_cinvAll, execCinvAll, secNone, ← clearArrays_eq]
    exact (isa_none hb rfl _).trans (congrArg _ (outcome_ok (run_bind_ok (doStall_run drained))))
  · simp only [List.mem_filter, List.all_eq_true, mem_reachedCaches, bne_iff_ne, ne_eq, and_imp, not_exists, not_and, q]

/-- PRELOAD where its address fails or its line is busy (R198). -/
theorem preloadLine_fails {c a : Nat} {s : State} {e : XFail} (h : s.xlate c true 1 1 a = .error e) : (preloadLine c a).run s = .ok ((), s) := by
  unfold preloadLine
  rw [run_bind_ok (get_run s), h]
  rfl

/-- PRELOAD of a line that is busy (R198). -/
theorem preloadLine_busy {c a : Nat} {s s2 : State} {x : Xl} (h : s.xlate c true 1 1 a = .ok (x, s2))
    (busy : s2.quireRead (quireOf c) (x.mp / 16) = none) : (preloadLine c a).run s = .ok ((), s) := by
  unfold preloadLine
  rw [run_bind_ok (get_run s), h]
  simp only [busy]
  rfl

/-- PRELOAD of a line that comes into the quire (R198). -/
theorem preloadLine_run {c a : Nat} {s s2 s3 : State} {x : Xl} {l : Line} (h : s.xlate c true 1 1 a = .ok (x, s2))
    (read : s2.quireRead (quireOf c) (x.mp / 16) = some (l, s3)) : (preloadLine c a).run s = .ok ((), s3) := by
  unfold preloadLine
  rw [run_bind_ok (get_run s), h]
  simp only [read]
  rfl

/-- What PRELOAD.L does with its formed operands (R296, R297). -/
def preloadLock (c : Nat) (d : Dec) (fs : List Formed) : M Unit := do
  let s ← get
  let q := quireOf c
  let a := mAddr fs 0
  if !s.ownsQuire ((s.core c).sheet.getD 64) q then preloadLine c a
  else do
    let x ← xlateM c true 1 a
    let rs ← readyOps c false (fs.drop 1)
    let v ← readOp c d.acq (opAt rs 0)
    let way := v % 16
    if 11 < way then pcheck 6
    if s.l2On q then doStall fun s => s.lockLine q (x.mp / 16) way

/-- PRELOAD.L of a sheet that does not own the quire is PRELOAD (R297). -/
theorem preloadLock_shared {c : Nat} {d : Dec} {fs : List Formed} {s : State}
    (own : s.ownsQuire ((s.core c).sheet.getD 64) (quireOf c) = false) :
    (preloadLock c d fs).run s = (preloadLine c (addrAt fs 0)).run s := by
  unfold preloadLock
  rw [run_bind_ok (get_run s)]
  simp only [own]
  rfl

/-- PRELOAD.L of a sheet that owns the quire, its operands read (R296). -/
theorem preloadLock_owned {c v : Nat} {d : Dec} {fs : List Formed} {rs : List Rdy} {x : Xl} {s s2 s3 s4 : State}
    (own : s.ownsQuire ((s.core c).sheet.getD 64) (quireOf c) = true) (hx : Maps s c 1 (addrAt fs 0) x s2)
    (hr : (readyOps c false (fs.drop 1)).run s2 = .ok (rs, s3)) (hv : (readOp c d.acq (opAt rs 0)).run s3 = .ok (v, s4)) :
    (preloadLock c d fs).run s = (do
      if 11 < v % 16 then pcheck 6
      if s.l2On (quireOf c) then doStall fun s => s.lockLine (quireOf c) (x.mp / 16) (v % 16) : M Unit).run s4 := by
  unfold preloadLock
  rw [run_bind_ok (get_run s)]
  simp only [own]
  exact (run_bind_ok (maps_load hx)).trans ((run_bind_ok hr).trans (run_bind_ok hv))

/-- The locks that CUNLK leaves (R297, R298). -/
theorem unlocked_eq (s : State) (c way : Nat) :
    (if 11 < way || !s.ownsQuire ((s.core c).sheet.getD 64) (quireOf c) then s
      else { s with locks := s.locks.filter fun (x : Nat × LockSlot) => !(x.1 / 2 ^ 18 == quireOf c && x.1 % 16 == way) }) =
    if 11 < way ∨ s.ownsQuire ((s.core c).sheet.getD 64) (c / 6) = false then s
      else { s with locks := s.locks.filter fun (y : Nat × LockSlot) => ¬ (y.1 / 2 ^ 18 = c / 6 ∧ y.1 % 16 = way) } := by
  have others : (fun x : Nat × LockSlot => !(x.1 / 2 ^ 18 == quireOf c && x.1 % 16 == way)) =
      fun y => decide (¬ (y.1 / 2 ^ 18 = c / 6 ∧ y.1 % 16 = way)) := by
    funext y
    simp [quireOf, beq_eq_decide]
  rw [others]
  simp only [Bool.or_eq_true, decide_eq_true_eq, Bool.not_eq_true', quireOf]

end Sys2Proof.Machine

open Sys2Proof Sys2Proof.Machine

/-- Settles O26: the line instructions by `lineOp_row`, CWB.ALL and CINV.ALL by induction on the lines and the caches, PRELOAD by the
cases of its access. -/
theorem cacheRows : Obligations.CacheRows := by
  unfold Obligations.CacheRows
  refine ⟨?lines, fun n s d s1 s2 s3 hb => cwbAll_row hb, fun n s d s1 s2 hb => cinvAll_row hb, ?preload, ?lock, ?unlock⟩
  case lines =>
    intro q hq n s d s1 fs sf x s2 s3 hb c hf hx room hd
    simp only [List.mem_cons, List.not_mem_nil, or_false] at hq
    obtain rfl | rfl | rfl | rfl := hq
    · exact lineOp_row exec_cwb hb hf hx room hd
    · exact lineOp_row exec_czero hb hf hx room hd
    · exact lineOp_row exec_cinv hb hf hx room hd
    · exact lineOp_row exec_cwbi hb hf hx room hd
  case preload =>
    intro n s d s1 fs sf hb hf c
    have run := (exec_preload n s).trans (isa_formed hb hf fun fs => preloadLine n.core.val (mAddr fs 0))
    rw [run]
    exact ⟨fun e h => congrArg _ (outcome_ok (preloadLine_fails h)), fun x s2 h =>
      ⟨fun busy => congrArg _ (outcome_ok (preloadLine_busy h busy)), fun l s3 read => congrArg _ (outcome_ok (preloadLine_run h read))⟩⟩
  case lock =>
    intro n s d s1 fs sf hb hf c q sh
    have run : exec (.preloadL n) s = .next (outcome s c ((preloadLock c d fs).run sf)) := by
      rw [exec_preloadL, execPreloadL, isa_run hb, run_bind_ok hf]
      rfl
    rw [run]
    refine ⟨fun x s2 rs s3 v s4 own hx hr hv => ?_, fun x s2 l s3 own h read => ?_⟩
    · rw [preloadLock_owned own hx hr hv]
      refine ⟨fun beyond => ?_, fun way off => ?_, fun s5 way on locked => ?_⟩
      · rw [if_pos beyond]
        rfl
      · rw [if_neg (Nat.not_lt.2 way), if_neg (by simp [off, q])]
        rfl
      · rw [if_neg (Nat.not_lt.2 way), if_pos on]
        exact congrArg _ (outcome_ok (doStall_run locked))
    · rw [preloadLock_shared own]
      exact congrArg _ (outcome_ok (preloadLine_run h read))
  case unlock =>
    refine srcRow_intro exec_cunlk rfl fun n s vs => ?_
    dsimp only
    rw [modify_run, unlocked_eq]
    split_ifs <;> rfl

end

section
/-! The channel instructions (O28): how a block is stored, how a vat answers, and the vat's actions as lists of tests. -/

namespace Sys2Proof.Machine
open Sys2Proof

/-! Words stored in a block. -/

section
variable {c i : Nat} {r : MArea} {w : Word} {ws : List Word} {s s' : State}

/-- The first word is stored before the rest. -/
theorem Wrote.cons (h : Wrote s c r i (w :: ws) s') :
    ∃ s1, Stores s c (r.at_ i) 0 .wW w.toNat false s1 ∧ Wrote s1 c r (i + 1) ws s' := by
  obtain ⟨ss, len, first, last, each⟩ := h
  match ss, len with
  | a :: b :: ss, len =>
    obtain rfl := Option.some.inj first
    refine ⟨b, by simpa using each 0 w a b rfl rfl rfl, b :: ss, by simpa using len, rfl, by simpa using last, ?_⟩
    intro k w' x y hw hx hy
    have next := each (k + 1) w' x y (by simpa using hw) (by simpa using hx) (by simpa using hy)
    rwa [show i + (k + 1) = i + 1 + k by omega] at next

/-- No words, nothing stored. -/
theorem Wrote.nil (h : Wrote s c r i [] s') : s' = s := by
  obtain ⟨ss, len, first, last, -⟩ := h
  obtain ⟨a, rfl⟩ := List.length_eq_one_iff.1 len
  exact (Option.some.inj last).symm.trans (Option.some.inj first)

/-- Words of a block stored from word `i`, the first of them at place `k` of what is stored. -/
theorem zipIdx_stores (k : Nat) (h : Wrote s c r (i + k) ws s') :
    ((ws.zipIdx k).forM fun x : Word × Nat => store c (r.at_ (i + x.2)) 0 .wW x.1.toNat false).run s = .ok ((), s') := by
  induction ws generalizing s k with
  | nil =>
    obtain rfl := h.nil
    rfl
  | cons w ws ih =>
    obtain ⟨s1, hs, rest⟩ := h.cons
    exact (run_bind_ok (store_run hs)).trans (ih (k + 1) rest)

/-- A block is written word by word. -/
theorem areaWrite_run (h : Wrote s c r i ws s') : (areaWrite c r i ws).run s = .ok ((), s') := zipIdx_stores 0 h

end

/-! Answers. -/

section
variable {s : State} {k cc : Nat} {p : Prop} {l : List (Nat × Prop)} {done : State → Prop} {t : State}

/-- The first test answers, or the others do. -/
theorem Answers.cons (h : Answers s ((k, p) :: l) done cc t) : (p ∧ cc = k ∧ t = s) ∨ (¬ p ∧ Answers s l done cc t) := by
  rcases h with ⟨a, q, b, eq, hq, others, rfl⟩ | ⟨rfl, others, hd⟩
  · cases a with
    | nil =>
      obtain ⟨⟨rfl, rfl⟩, rfl⟩ : (k = cc ∧ p = q) ∧ l = b := by simpa using eq
      exact .inl ⟨hq, rfl, rfl⟩
    | cons x a =>
      obtain ⟨rfl, rfl⟩ := List.cons.inj eq
      exact .inr ⟨others _ List.mem_cons_self, .inl ⟨a, q, b, rfl, hq, fun y hy => others y (List.mem_cons_of_mem _ hy), rfl⟩⟩
  · exact .inr ⟨others _ List.mem_cons_self, .inr ⟨rfl, fun y hy => others y (List.mem_cons_of_mem _ hy), hd⟩⟩

/-- With no test left the order is done. -/
theorem Answers.nil (h : Answers s [] done cc t) : cc = 0 ∧ done t := by
  rcases h with ⟨a, q, b, eq, -⟩ | ⟨rfl, -, hd⟩
  · simp at eq
  · exact ⟨rfl, hd⟩

/-- The answers of three tests, by the first that holds. -/
theorem Answers.cases {p1 p2 p3 : Prop} (h : Answers s [(3, p1), (2, p2), (1, p3)] done cc t) :
    (p1 ∧ cc = 3 ∧ t = s) ∨ (¬ p1 ∧ p2 ∧ cc = 2 ∧ t = s) ∨ (¬ p1 ∧ ¬ p2 ∧ p3 ∧ cc = 1 ∧ t = s) ∨
      (¬ p1 ∧ ¬ p2 ∧ ¬ p3 ∧ cc = 0 ∧ done t) := by
  rcases h.cons with h | ⟨h1, h⟩
  · exact .inl h
  rcases h.cons with h | ⟨h2, h⟩
  · exact .inr (.inl ⟨h1, h⟩)
  rcases h.cons with h | ⟨h3, h⟩
  · exact .inr (.inr (.inl ⟨h1, h2, h⟩))
  · exact .inr (.inr (.inr ⟨h1, h2, h3, h.nil⟩))

/-- Three tests in order give what they answer. -/
theorem Answers.ite {p1 p2 p3 : Prop} [Decidable p1] [Decidable p2] [Decidable p3] {u : State}
    (h : Answers s [(3, p1), (2, p2), (1, p3)] (fun t => t = u) cc t) :
    cc < 4 ∧ (if p1 then (3, s) else if p2 then (2, s) else if p3 then (1, s) else (0, u)) = (cc, t) := by
  rcases h.cases with ⟨h1, rfl, rfl⟩ | ⟨h1, h2, rfl, rfl⟩ | ⟨h1, h2, h3, rfl, rfl⟩ | ⟨h1, h2, h3, rfl, rfl⟩
  · simp [h1]
  · simp [h1, h2]
  · simp [h1, h2, h3]
  · simp [h1, h2, h3]

end

/-! The checks before a vat or an engine is reached. -/

section
variable {fs : List Formed} {k align : Nat} {s : State}

/-- A subchannel number (R194). -/
theorem subNo_run (h : valAt fs 0 < 2 ^ 16) : (subNo fs).run s = .ok (valAt fs 0, s) := by
  have small : ¬ (fs.map Formed.val).getD 0 0 / 2 ^ 16 ≠ 0 := not_not_intro (Nat.div_eq_of_lt h)
  exact congrFun (if_neg small) s

/-- A number that is too large (R194). -/
theorem subNo_fails (h : 2 ^ 16 ≤ valAt fs 0) : (subNo fs).run s = .error { trap := .check 6 [], keep := none, met := s } := by
  have large : (fs.map Formed.val).getD 0 0 / 2 ^ 16 ≠ 0 := (Nat.div_pos h (Nat.two_pow_pos 16)).ne'
  exact congrFun (if_pos large) s

/-- An aligned block (R429, R505). -/
theorem blockAt_run (h : addrAt fs k % align = 0) : (blockAt fs k align).run s = .ok (addrAt fs k, s) :=
  congrFun (if_neg (not_not_intro h)) s

/-- A block that is not aligned (R429, R505). -/
theorem blockAt_fails (h : addrAt fs k % align ≠ 0) :
    (blockAt fs k align).run s = .error { trap := .check 6 [], keep := none, met := s } := congrFun (if_pos h) s

/-- A release with every OUT performed (R265, R273). -/
theorem releaseAll_run {c : Nat} {s4 : State} (out : s.outPending c = false) (h : s.drainAll c = some s4) :
    (releaseAll c).run s = .ok ((), s4) := doStall_run (by simpa [out] using h)

end

/-- An instruction that reaches its vat does there what the vat's action says (R429, R430). -/
theorem atVat_intro {n : Insn} {i : Instr} {sub : Nat} {s s4 : State} {act : Nat → State → Prop} {body : State → M Nat}
    (run : exec i s = .next (outcome s n.core.val ((atVat s n.core.val sub i body).run s4)))
    (does : ∀ cc t, act cc t → cc < 4 ∧ (body s4).run s4 = .ok (cc, t)) : AtVat s n i sub s4 act := by
  unfold AtVat
  intro c own b
  have reach : (atVat s c sub i body).run s4 = (do
      let cc ← if !own then pure 3 else do
        if s4.inReset.contains b then holdAt s c i b false
        body s4
      setFlags c (ccFlags cc) : M Unit).run s4 := run_bind_ok (get_run s4)
  rw [run, reach]
  refine ⟨fun h => ?_, fun h held => ?_, fun h free cc t ht => ?_⟩
  · rw [h]
    exact congrArg (fun u => Host.Outcome.next (s.after c u)) (withFlags_ccFlags s4 c (by decide))
  · rw [h, List.contains_iff_mem.2 held]
    rfl
  · obtain ⟨small, hbody⟩ := does cc t ht
    rw [h, Bool.eq_false_of_not_eq_true (mt List.contains_iff_mem.1 free), ← withFlags_ccFlags t c small]
    exact congrArg _ (outcome_ok (run_bind_ok (x := body s4) hbody))

/-! The actions of a vat. -/

section
variable {c sub cc : Nat} {s t : State} {ws : List Word}

/-- A vat's action that needs no block. -/
theorem vatOnly_run {f : State → Nat → Nat × State} (h : f s sub = (cc, t)) : (vatOnly f sub s).run s = .ok (cc, t) := by
  unfold vatOnly
  rw [h]
  rfl

/-- SSCH as tests in order (R430). -/
theorem sschVat_eq : s.sschVat c sub ws =
    if dbit (s.cb sub 0) 4 = false ∨ s.subFrz sub = true ∨
        ∀ i ∈ List.range 8, (field (ws.getD 2 0) 17 24).testBit (7 - i) = true → s.pst sub i = 0 then (3, s)
    else if s.subSp sub = true then (2, s)
    else if s.subSt sub ≠ 0 ∨ s.moving sub = true then (1, s)
    else (0, s.startExchange c sub (some ws)) := by
  have paths : ((List.range 8).all fun i => !((field (ws.getD 2 0) 17 24).testBit (7 - i) && s.pst sub i != 0)) = true ↔
      ∀ i ∈ List.range 8, (field (ws.getD 2 0) 17 24).testBit (7 - i) = true → s.pst sub i = 0 := by
    rw [List.all_eq_true]
    refine forall₂_congr fun i _ => ?_
    cases (field (ws.getD 2 0) 17 24).testBit (7 - i) <;> simp
  unfold State.sschVat
  simp only [Bool.or_eq_true, Bool.not_eq_true', paths, or_assoc]

/-- HSCH as tests in order (R430). -/
theorem hschVat_eq : s.hschVat sub =
    if s.subFrz sub = true then (3, s) else if s.subSp sub = true then (2, s)
    else if s.subSt sub = 5 ∨ (false = false ∧ s.subSt sub = 4) then (1, s) else (0, s.stopExchange sub 0o011 false) := by
  simp only [State.hschVat, true_and, or_comm]

/-- CSCH as tests in order (R430). -/
theorem cschVat_eq : s.cschVat sub =
    if s.subFrz sub = true then (3, s) else if s.subSp sub = true then (2, s)
    else if s.subSt sub = 5 ∨ (true = false ∧ s.subSt sub = 4) then (1, s) else (0, s.stopExchange sub 0o012 true) := by
  simp only [State.cschVat, Bool.true_eq_false, false_and, or_false]

/-- MSCH as tests in order (R430, R433). -/
theorem mschVat_eq : s.mschVat sub ws =
    if s.subFrz sub = true then (3, s) else if s.subSp sub = true then (2, s)
    else if s.subSt sub ≠ 0 then (1, s) else (0, (s.mschVat sub ws).2) := by
  by_cases frz : s.subFrz sub = true
  · rw [if_pos frz, State.mschVat, if_pos frz]
  rw [if_neg frz]
  by_cases sp : s.subSp sub = true
  · rw [if_pos sp, State.mschVat, if_neg frz, if_pos sp]
  rw [if_neg sp]
  by_cases st : s.subSt sub ≠ 0
  · rw [if_pos st, State.mschVat, if_neg frz, if_neg sp, if_pos st]
  · rw [if_neg st, State.mschVat, if_neg frz, if_neg sp, if_neg st]

end

/-! A vat that reads a control block wakes the banks that hold it, and no more. -/

/-- The registers other than an Easel's first keep their values when a bank wakes (R414). -/
theorem reg_easelTouch (s : State) (t e : Nat) {b : Blk} {o : Nat} (h : ∀ t, regKey b o ≠ regKey (.easel t) 0) :
    (s.easelTouch t e).reg b o = s.reg b o := by
  unfold State.easelTouch
  dsimp only
  split_ifs
  · exact Tab.get_set_ne _ _ _ (h _)
  · rfl

/-- A bank that wakes keeps its words and the moves (R414). -/
theorem easelTouch_frame (s : State) (t e : Nat) : (s.easelTouch t e).easel = s.easel ∧ (s.easelTouch t e).moves = s.moves := by
  unfold State.easelTouch
  dsimp only
  split_ifs
  · exact ⟨State.setReg_easel .., State.setReg_moves ..⟩
  · exact ⟨rfl, rfl⟩

/-- A DECKLE register is no Easel's first. -/
theorem regKey_deckle_ne (o : Nat) (t : TileId) : regKey .deckle o ≠ regKey (.easel t) 0 := by
  simp only [regKey, blkCoreNo, blkDigits]
  omega

/-- ISTAT of a vat is no Easel's first register. -/
theorem regKey_vat_ne (v : Nat) (t : TileId) : regKey (vatBlk v) 1 ≠ regKey (.easel t) 0 := by
  simp only [regKey, vatBlk, blkCoreNo, blkDigits]
  omega

/-- What a subchannel's record rests on: the Easel's words, the moves and the registers named (R433). -/
structure SameRecord (s t : State) : Prop where
  /-- The words of the Easel. -/
  easel : t.easel = s.easel
  /-- The moves not done. -/
  moves : t.moves = s.moves
  /-- The registers of DECKLE. -/
  deckle : ∀ o, t.reg .deckle o = s.reg .deckle o
  /-- A register of each vat. -/
  vat : ∀ v, t.reg (vatBlk v) 1 = s.reg (vatBlk v) 1

/-- A bank that wakes leaves the records. -/
theorem SameRecord.touch {s t : State} (h : SameRecord s t) (i e : Nat) : SameRecord s (t.easelTouch i e) where
  easel := (easelTouch_frame t i e).1.trans h.easel
  moves := (easelTouch_frame t i e).2.trans h.moves
  deckle := fun o => (reg_easelTouch t i e (regKey_deckle_ne o)).trans (h.deckle o)
  vat := fun v => (reg_easelTouch t i e (regKey_vat_ne v)).trans (h.vat v)

/-- A subchannel's banks that wake leave the records. -/
theorem sameRecord_subTouch (s : State) (n : Nat) : SameRecord s (s.subTouch n) := by
  have go (l : List Nat) (f : Nat → Nat × Nat) (t : State) (h : SameRecord s t) :
      SameRecord s (l.foldl (fun s w => s.easelTouch (f w).1 (f w).2) t) := by
    induction l generalizing t with
    | nil => exact h
    | cons w l ih => exact ih _ (h.touch _ _)
  exact go _ (fun w => ((s.subLoc n).1 / 2, cbAt (s.subLoc n).2 w)) s ⟨rfl, rfl, fun _ => rfl, fun _ => rfl⟩

/-- The record of a subchannel is what it rests on (R433). -/
theorem SameRecord.subRecord {s t : State} (h : SameRecord s t) (n : Nat) : t.subRecord n = s.subRecord n := by
  have loc : t.subLoc n = s.subLoc n := by simp only [State.subLoc, State.fld, h.moves, h.deckle]
  have words (w : Nat) : t.cb n w = s.cb n w := by simp only [State.cb, State.easelWord, loc, h.easel]
  simp only [State.subRecord, State.cbF, State.subSt, State.subSp, State.subFrz, State.subVat, State.subGen, State.pathW, loc, words, h.vat]

/-! The rows. -/

section
variable {n : Insn} {s s1 sf : State} {d : Dec} {fs : List Formed} {code : Nat}

/-- A row of a subchannel's number, begun and formed, whose number is too large is a check (R194). -/
theorem chan_numberFails {t : Tmpl} {i : Instr} {body : Nat → Dec → List Formed → M Unit} (hb : Begins t n s d s1)
    (hf : Forms n.core.val d s1 fs sf) (means : exec i s = s.isa t n fun d fs => subNo fs >>= fun sub => body sub d fs)
    (h : 2 ^ 16 ≤ valAt fs 0) : exec i s = .next (s.trapped n.core.val sf (.check 0o006 [])) := by
  rw [means, isa_run hb, run_bind_ok hf, run_bind_error (subNo_fails h), outcome_check]

/-- A row of a subchannel's number and a block, whose number is too large or whose block is off its alignment, is a check (R194, R429). -/
theorem chan_blockFails {t : Tmpl} {i : Instr} {body : Nat → Nat → Dec → List Formed → M Unit} (hb : Begins t n s d s1)
    (hf : Forms n.core.val d s1 fs sf)
    (means : exec i s = s.isa t n fun d fs => subNo fs >>= fun sub => blockAt fs 1 8 >>= fun a => body sub a d fs)
    (h : 2 ^ 16 ≤ valAt fs 0 ∨ addrAt fs 1 % 8 ≠ 0) : exec i s = .next (s.trapped n.core.val sf (.check 0o006 [])) := by
  by_cases large : 2 ^ 16 ≤ valAt fs 0
  · exact chan_numberFails hb hf (body := fun sub d fs => blockAt fs 1 8 >>= fun a => body sub a d fs) means large
  · rw [means, isa_run hb, run_bind_ok hf, run_bind_ok (subNo_run (Nat.lt_of_not_le large)),
      run_bind_error (blockAt_fails (h.resolve_left large)), outcome_check]

end

end Sys2Proof.Machine
end

section
/-! The rows of the channel instructions, and O28. -/

namespace Sys2Proof.Machine
open Sys2Proof

section
variable {n : Insn} {s s1 sf s2 s3 : State} {d : Dec} {fs : List Formed} {r : MArea} {ws : List Word}

/-- An instruction whose earlier accesses are performed goes on (R265, R273). -/
theorem outcome_released {c : Nat} {s4 : State} {m : M Unit} (out : s3.outPending c = false) (h : s3.drainAll c = some s4) :
    (.next (outcome s c ((releaseAll c >>= fun _ => m).run s3)) : Host.Outcome State Fault Refusal) = .next (outcome s c (m.run s4)) :=
  congrArg (fun x => Host.Outcome.next (outcome s c x)) (run_bind_ok (releaseAll_run out h))

/-- SSCH, its block read (R430-R432). -/
theorem ssch_row (hb : Begins (rowChanM 0o020) n s d s1) (hf : Forms n.core.val d s1 fs sf) (hs : valAt fs 0 < 2 ^ 16)
    (ha : addrAt fs 1 % 8 = 0) (hx : (areaXlate n.core.val [1] (addrAt fs 1) 8).run sf = .ok (r, s2))
    (hr : (areaRead n.core.val r 8).run s2 = .ok (ws, s3)) :
    let c := n.core.val
    let sub := valAt fs 0
    (requestBad ws = true → exec (.ssch n) s = .next (s.trapped c s3 (.check 0o006 []))) ∧
    (∀ s4, requestBad ws = false → s3.outPending c = false → s3.drainAll c = some s4 →
      AtVat s n (.ssch n) sub s4 (Answers s4
        [(3, dbit (s4.cb sub 0) 4 = false ∨ s4.subFrz sub = true ∨
           ∀ i ∈ List.range 8, (field (ws.getD 2 0) 17 24).testBit (7 - i) = true → s4.pst sub i = 0),
         (2, s4.subSp sub = true), (1, s4.subSt sub ≠ 0 ∨ s4.moving sub = true)]
        fun t => t = s4.startExchange c sub (some ws))) := by
  intro c sub
  have run : exec (.ssch n) s = .next (outcome s c ((do
      if requestBad ws then pcheck 6
      releaseAll c
      atVat s c sub (.ssch n) fun s => vatOnly (fun s k => s.sschVat c k ws) sub s : M Unit).run s3)) := by
    rw [exec_ssch, execSsch, isa_run hb, run_bind_ok hf, run_bind_ok (subNo_run hs), run_bind_ok (blockAt_run ha), run_bind_ok hx,
      run_bind_ok hr]
  refine ⟨fun bad => ?_, fun s4 ok out drained => ?_⟩
  · rw [run, bad]
    rfl
  · rw [ok] at run
    refine atVat_intro (run.trans (outcome_released out drained)) fun cc t h => ?_
    obtain ⟨small, does⟩ := h.ite
    exact ⟨small, vatOnly_run (sschVat_eq.trans does)⟩

/-- RSCH (R430, R432, R441). -/
theorem rsch_row {s4 : State} (hb : Begins (rowChan 0o025) n s d s1) (hf : Forms n.core.val d s1 fs sf) (hs : valAt fs 0 < 2 ^ 16)
    (out : sf.outPending n.core.val = false) (drained : sf.drainAll n.core.val = some s4) :
    let sub := valAt fs 0
    AtVat s n (.rsch n) sub s4 (Answers s4
      [(3, s4.subSt sub = 0 ∨ dbit (s4.cb sub 0) 4 = false ∨ s4.subFrz sub = true), (2, s4.subSp sub = true),
       (1, s4.subSt sub ≠ 3 ∨ s4.moving sub = true)]
      fun t => t = s4.startExchange n.core.val sub none) := by
  intro sub
  have run : exec (.rsch n) s = .next (outcome s n.core.val ((do
      releaseAll n.core.val
      atVat s n.core.val sub (.rsch n) fun s => vatOnly (fun s k => s.rschVat n.core.val k) sub s : M Unit).run sf)) := by
    rw [exec_rsch, execRsch, isa_run hb, run_bind_ok hf, run_bind_ok (subNo_run hs)]
  refine atVat_intro (run.trans (outcome_released out drained)) fun cc t h => ?_
  obtain ⟨small, does⟩ := h.ite
  exact ⟨small, vatOnly_run does⟩

/-- HSCH (R430, R447). -/
theorem hsch_row (hb : Begins (rowChan 0o022) n s d s1) (hf : Forms n.core.val d s1 fs sf) (hs : valAt fs 0 < 2 ^ 16) :
    let sub := valAt fs 0
    AtVat s n (.hsch n) sub sf (Answers sf
      [(3, sf.subFrz sub = true), (2, sf.subSp sub = true), (1, sf.subSt sub = 5 ∨ (false = false ∧ sf.subSt sub = 4))]
      fun t => t = sf.stopExchange sub 0o011 false) := by
  intro sub
  have run : exec (.hsch n) s = .next (outcome s n.core.val
      ((atVat s n.core.val sub (.hsch n) fun s => vatOnly State.hschVat sub s).run sf)) := by
    rw [exec_hsch, execHsch, isa_run hb, run_bind_ok hf, run_bind_ok (subNo_run hs)]
  refine atVat_intro run fun cc t h => ?_
  obtain ⟨small, does⟩ := h.ite
  exact ⟨small, vatOnly_run (hschVat_eq.trans does)⟩

/-- CSCH (R430, R447). -/
theorem csch_row (hb : Begins (rowChan 0o023) n s d s1) (hf : Forms n.core.val d s1 fs sf) (hs : valAt fs 0 < 2 ^ 16) :
    let sub := valAt fs 0
    AtVat s n (.csch n) sub sf (Answers sf
      [(3, sf.subFrz sub = true), (2, sf.subSp sub = true), (1, sf.subSt sub = 5 ∨ (true = false ∧ sf.subSt sub = 4))]
      fun t => t = sf.stopExchange sub 0o012 true) := by
  intro sub
  have run : exec (.csch n) s = .next (outcome s n.core.val
      ((atVat s n.core.val sub (.csch n) fun s => vatOnly State.cschVat sub s).run sf)) := by
    rw [exec_csch, execCsch, isa_run hb, run_bind_ok hf, run_bind_ok (subNo_run hs)]
  refine atVat_intro run fun cc t h => ?_
  obtain ⟨small, does⟩ := h.ite
  exact ⟨small, vatOnly_run (cschVat_eq.trans does)⟩

/-- MSCH, its record read (R430, R433). -/
theorem msch_row (hb : Begins (rowChanM 0o024) n s d s1) (hf : Forms n.core.val d s1 fs sf) (hs : valAt fs 0 < 2 ^ 16)
    (ha : addrAt fs 1 % 8 = 0) (hx : (areaXlate n.core.val [1] (addrAt fs 1) 16).run sf = .ok (r, s2))
    (hr : (areaRead n.core.val r 16).run s2 = .ok (ws, s3)) :
    let c := n.core.val
    let sub := valAt fs 0
    let bad := s3.recordBad ((s3.core c).sheet.getD 64) ws
    (bad = true → exec (.msch n) s = .next (s.trapped c s3 (.check 0o006 []))) ∧
    (∀ s4, bad = false → s3.outPending c = false → s3.drainAll c = some s4 →
      AtVat s n (.msch n) sub s4 (Answers s4
        [(3, s4.subFrz sub = true), (2, s4.subSp sub = true), (1, s4.subSt sub ≠ 0)] fun t => t = (s4.mschVat sub ws).2)) := by
  intro c sub bad
  have run : exec (.msch n) s = .next (outcome s c ((do
      if bad then pcheck 6
      releaseAll c
      atVat s c sub (.msch n) fun s => vatOnly (fun s k => s.mschVat k ws) sub s : M Unit).run s3)) := by
    rw [exec_msch, execMsch, isa_run hb, run_bind_ok hf, run_bind_ok (subNo_run hs), run_bind_ok (blockAt_run ha), run_bind_ok hx,
      run_bind_ok hr, run_bind_ok (get_run s3)]
  refine ⟨fun wrong => ?_, fun s4 ok out drained => ?_⟩
  · rw [run, wrong]
    rfl
  · rw [ok] at run
    refine atVat_intro (run.trans (outcome_released out drained)) fun cc t h => ?_
    obtain ⟨small, does⟩ := h.ite
    exact ⟨small, vatOnly_run (mschVat_eq.trans does)⟩

/-- STSCH, its block translated (R433). -/
theorem stsch_row (hb : Begins (rowChanM 0o026) n s d s1) (hf : Forms n.core.val d s1 fs sf) (hs : valAt fs 0 < 2 ^ 16)
    (ha : addrAt fs 1 % 8 = 0) (hx : (areaXlate n.core.val [2] (addrAt fs 1) 16).run sf = .ok (r, s2)) :
    let c := n.core.val
    let sub := valAt fs 0
    AtVat s n (.stsch n) sub s2 fun cc t => cc = 0 ∧ Wrote (s2.subTouch sub) c r 0 ((s2.subTouch sub).subRecord sub) t := by
  intro c sub
  have run : exec (.stsch n) s = .next (outcome s c ((atVat s c sub (.stsch n) fun s => do
      set (s.subTouch sub)
      areaWrite c r 0 (s.subRecord sub)
      pure 0).run s2)) := by
    rw [exec_stsch, execStsch, isa_run hb, run_bind_ok hf, run_bind_ok (subNo_run hs), run_bind_ok (blockAt_run ha), run_bind_ok hx]
  refine atVat_intro run fun cc t ⟨zero, wrote⟩ => ?_
  rw [(sameRecord_subTouch s2 sub).subRecord] at wrote
  rw [run_bind_ok (set_run (s2.subTouch sub) s2), run_bind_ok (areaWrite_run wrote), zero]
  exact ⟨by decide, rfl⟩

/-- TSCH, its block translated (R273, R434, R435). -/
theorem tsch_row (hb : Begins (rowChanM 0o021) n s d s1) (hf : Forms n.core.val d s1 fs sf) (hs : valAt fs 0 < 2 ^ 16)
    (ha : addrAt fs 1 % 8 = 0) (hx : (areaXlate n.core.val [2] (addrAt fs 1) 8).run sf = .ok (r, s2)) :
    let c := n.core.val
    let sub := valAt fs 0
    AtVat s n (.tsch n) sub s2 fun cc t =>
      ∃ s3, (if (s2.subTouch sub).subSp sub then (s2.subTouch sub).drainRel c else some (s2.subTouch sub)) = some s3 ∧
        let took := s3.subSp sub && !dbit (s3.cb sub 0) 8
        cc = (if took then 0 else 2) ∧
          Wrote (if took then (s3.setCbF sub 0 6 6 0).withdrawIo sub else s3) c r 0 (s3.irb sub took) t := by
  intro c sub
  have run : exec (.tsch n) s = .next (outcome s c ((atVat s c sub (.tsch n) fun _ => do
      modify fun s => s.subTouch sub
      doStall fun s => if s.subSp sub then s.drainRel c else some s
      let s ← get
      let x := s.tschVat sub
      set x.2.2
      areaWrite c r 0 x.2.1
      pure x.1).run s2)) := by
    rw [exec_tsch, execTsch, isa_run hb, run_bind_ok hf, run_bind_ok (subNo_run hs), run_bind_ok (blockAt_run ha), run_bind_ok hx]
  refine atVat_intro run fun cc t ⟨s3, drained, eq, wrote⟩ => ?_
  rw [run_bind_ok (modify_run _ s2), run_bind_ok (doStall_run drained), run_bind_ok (get_run s3), State.tschVat]
  cases took : s3.subSp sub && !dbit (s3.cb sub 0) 8
  all_goals
    rw [took] at eq wrote
    refine ⟨by rw [eq]; decide, ?_⟩
    exact (run_bind_ok (set_run _ s3)).trans ((run_bind_ok (areaWrite_run wrote)).trans (by rw [eq]; rfl))

end

end Sys2Proof.Machine

open Sys2Proof Sys2Proof.Machine

/-- Settles O28: each row runs to its vat's action, which is a list of tests in order (`Answers.ite`) or stores a block word by word
(`areaWrite_run`). -/
theorem channelRows : Obligations.ChannelRows := by
  unfold Obligations.ChannelRows
  refine ⟨?checks, ⟨fun n s d s1 fs sf r s2 ws s3 hb => ssch_row hb, fun n s d s1 fs sf s4 hb => rsch_row hb, ?stops⟩,
    fun n s d s1 fs sf r s2 ws s3 hb => msch_row hb, fun n s d s1 fs sf r s2 hb => stsch_row hb,
    fun n s d s1 fs sf r s2 hb => tsch_row hb⟩
  case checks =>
    intro q hq n s d s1 fs sf hb hf h
    simp only [List.mem_cons, List.not_mem_nil, or_false] at hq
    obtain rfl | rfl | rfl | rfl | rfl | rfl | rfl := hq
    · exact chan_blockFails hb hf (exec_ssch n s) (h.imp_right And.right)
    · exact chan_blockFails hb hf (exec_tsch n s) (h.imp_right And.right)
    · exact chan_numberFails hb hf (exec_hsch n s) (h.resolve_right (by simp))
    · exact chan_numberFails hb hf (exec_csch n s) (h.resolve_right (by simp))
    · exact chan_blockFails hb hf (exec_msch n s) (h.imp_right And.right)
    · exact chan_numberFails hb hf (exec_rsch n s) (h.resolve_right (by simp))
    · exact chan_blockFails hb hf (exec_stsch n s) (h.imp_right And.right)
  case stops =>
    intro q hq n s d s1 fs sf hb sub hf hs
    simp only [List.mem_cons, List.not_mem_nil, or_false] at hq
    obtain rfl | rfl := hq
    · exact hsch_row hb hf hs
    · exact csch_row hb hf hs

end

section
/-! The engine instructions (O29). -/

namespace Sys2Proof.Machine
open Sys2Proof

/-- Word 0 of a block as the engines see it. -/
theorem vget_vec12 (ws : List Word) : vget (vec12 ws) 0 0 = ws.getD 0 0 := by
  rw [vget_eq _ _ (by decide)]
  simp [vec12]

/-- A row of a block whose alignment is wrong is a check (R505). -/
theorem engine_blockFails {t : Tmpl} {n : Insn} {s s1 sf : State} {d : Dec} {fs : List Formed} {i : Instr} {align : Nat}
    {body : Nat → List Formed → M Unit} (hb : Begins t n s d s1) (hf : Forms n.core.val d s1 fs sf)
    (means : exec i s = s.isa t n fun _ fs => blockAt fs 0 align >>= fun a => body a fs) (h : addrAt fs 0 % align ≠ 0) :
    exec i s = .next (s.trapped n.core.val sf (.check 0o006 [])) := by
  rw [means, isa_run hb, run_bind_ok hf, run_bind_error (blockAt_fails h), outcome_check]

/-- An instruction that has come to its engine: it is held at an engine in reset, and otherwise ends with its condition code, having
been taken where that is 0 (R505, R537). -/
theorem engineRow_intro {i : Instr} {c code : Nat} {b : Blk} {s s4 : State} {m : M Unit} {p1 p2 p3 : Prop} {done : State → Prop}
    [Decidable p1] [Decidable p2] [Decidable p3] (run : exec i s = .next (outcome s c (m.run s4)))
    (held : b ∈ s4.inReset → m.run s4 = (holdAt s c i b false : M Unit).run s4)
    (answer : b ∉ s4.inReset → code = if p1 then 3 else if p2 then 2 else if p3 then 1 else 0)
    (refused : b ∉ s4.inReset → code ≠ 0 → m.run s4 = (setFlags c (ccFlags code)).run s4)
    (taken : b ∉ s4.inReset → code = 0 → ∀ u, done u → m.run s4 = (setFlags c (ccFlags code)).run u) :
    (b ∈ s4.inReset → exec i s = .next (s.heldBy c i b (pswIa (s4.core c).psw))) ∧
    (b ∉ s4.inReset → ∀ cc u, Answers s4 [(3, p1), (2, p2), (1, p3)] done cc u → exec i s = .next (s.after c (u.withCc c cc))) := by
  refine ⟨fun reset => ?_, fun free cc u h => ?_⟩
  · rw [run, held reset]
    rfl
  · have ends (small : cc < 4) (hm : m.run s4 = (setFlags c (ccFlags cc)).run u) : exec i s = .next (s.after c (u.withCc c cc)) := by
      rw [run, hm, setFlags_run, withFlags_ccFlags u c small]
      rfl
    have given := answer free
    rcases h.cases with ⟨h1, rfl, rfl⟩ | ⟨h1, h2, rfl, rfl⟩ | ⟨h1, h2, h3, rfl, rfl⟩ | ⟨h1, h2, h3, rfl, hd⟩
    · rw [if_pos h1] at given
      exact ends (by decide) (given ▸ refused free (by omega))
    · rw [if_neg h1, if_pos h2] at given
      exact ends (by decide) (given ▸ refused free (by omega))
    · rw [if_neg h1, if_neg h2, if_pos h3] at given
      exact ends (by decide) (given ▸ refused free (by omega))
    · rw [if_neg h1, if_neg h2, if_neg h3] at given
      exact ends (by decide) (given ▸ taken free given u hd)

/-- The condition code of a Calender out of reset, as tests in order (R505). -/
theorem calCc_eq {s : State} {t sh : Nat} (h : calBlk t ∉ s.inReset) : s.calCc t sh =
    if s.rbit (calBlk t) (0o100 + sh) 0 = false then 3 else if 32 ≤ (s.calQueue t sh).length then 2
    else if s.calFrz t sh = true then 1 else 0 := by
  have free := Bool.eq_false_of_not_eq_true (mt List.contains_iff_mem.1 h)
  simp only [State.calCc, free, Bool.false_or, Bool.not_eq_true']

/-- The condition code of a Varnish out of reset, as tests in order (R533, R537). -/
theorem varCc_eq {s : State} {t sh : Nat} {slot : Bool} (h : varBlk t ∉ s.inReset) : s.varCc t sh slot =
    if s.rbit (varBlk t) (0o100 + sh) 0 = false then 3
    else if 32 ≤ (s.varQueue t sh).length ∨ (slot = true ∧ s.kused t sh = s.fld (varBlk t) (0o100 + sh) 16 28) then 2
    else if s.rbit (varBlk t) (0o100 + sh) 15 = true then 1 else 0 := by
  have free := Bool.eq_false_of_not_eq_true (mt List.contains_iff_mem.1 h)
  simp only [State.varCc, free, Bool.false_or, Bool.not_eq_true', Bool.or_eq_true, decide_eq_true_eq, Bool.and_eq_true, beq_iff_eq]

section
variable {n : Insn} {s s1 sf s2 s3 : State} {d : Dec} {fs : List Formed} {r : MArea} {ws : List Word}

/-- What XCMP and XEXP do once their block is read and every earlier access is performed (R505, R506). -/
def calSubmit (before : State) (c : Nat) (expand : Bool) (i : Instr) (r : MArea) (blk : Vector Word 12) : M Unit := do
  let s1 ← get
  let t := field (vget blk 0 0) 24 26
  let sh := (s1.core c).sheet.getD 64
  if s1.inReset.contains (calBlk t) then holdAt before c i (calBlk t) false
  let cc := s1.calCc t sh
  if cc = 0 then do
    areaWrite c r 12 [0, 0, 0, 0]
    doStall fun s => s.drainAll c
    modify fun s => s.calAccept t {
      block := r.first.sa, words := blk, expand := expand, ctx := s.capture c t, running := false, console := none, result := none }
  setFlags c (ccFlags cc)

/-- XCMP and XEXP, their block read (R503-R506). -/
theorem isaCal_row {i : Instr} {code : Nat} {expand : Bool} (means : exec i s = s.isaCal code n expand i)
    (hb : Begins (prim code [opM] [] []) n s d s1) (hf : Forms n.core.val d s1 fs sf) (ha : addrAt fs 0 % 16 = 0)
    (hx : (areaXlate n.core.val [1, 2] (addrAt fs 0) 16).run sf = .ok (r, s2)) (hr : (areaRead n.core.val r 12).run s2 = .ok (ws, s3)) :
    let c := n.core.val
    let t := field (ws.getD 0 0) 24 26
    let bad := calBad (addrAt fs 0) (vec12 ws) expand
    (bad = true → exec i s = .next (s.trapped c s3 (.check 0o006 []))) ∧
    (∀ s4, bad = false → s3.outPending c = false → s3.drainAll c = some s4 →
      let sh := (s4.core c).sheet.getD 64
      (calBlk t ∈ s4.inReset → exec i s = .next (s.heldBy c i (calBlk t) (pswIa (s4.core c).psw))) ∧
      (calBlk t ∉ s4.inReset → ∀ cc u, Answers s4
          [(3, s4.rbit (calBlk t) (0o100 + sh) 0 = false), (2, 32 ≤ (s4.calQueue t sh).length), (1, s4.calFrz t sh = true)]
          (fun u => ∃ s5 s6, Wrote s4 c r 12 [0, 0, 0, 0] s5 ∧ s5.drainAll c = some s6 ∧
            let x := s6.capture c t
            u = s6.setCalQueue t x.sheet (s6.calQueue t x.sheet ++ [
              { block := r.first.sa, words := vec12 ws, expand := expand, ctx := x, running := false, console := none,
                result := none }])) cc u →
        exec i s = .next (s.after c (u.withCc c cc)))) := by
  intro c t bad
  have run : exec i s = .next (outcome s c ((do
      if bad then pcheck 6
      releaseAll c
      calSubmit s c expand i r (vec12 ws) : M Unit).run s3)) := by
    rw [means, State.isaCal, isa_run hb, run_bind_ok hf, run_bind_ok (blockAt_run ha), run_bind_ok hx, run_bind_ok hr]
    rfl
  refine ⟨fun wrong => ?_, fun s4 ok out drained => ?_⟩
  · rw [run, wrong]
    rfl
  · intro sh
    rw [ok] at run
    refine engineRow_intro (code := s4.calCc t sh) (run.trans (outcome_released out drained)) (fun reset => ?_) calCc_eq
      (fun free nonzero => ?_) fun free zero u => ?_
    all_goals
      rw [calSubmit, run_bind_ok (get_run s4)]
      simp only [vget_vec12]
    · rw [if_pos (List.contains_iff_mem.2 reset)]
      rfl
    · rw [if_neg (mt List.contains_iff_mem.1 free), if_neg nonzero]
    · rintro ⟨s5, s6, hw, hd, rfl⟩
      rw [if_neg (mt List.contains_iff_mem.1 free), if_pos zero, run_bind_ok (areaWrite_run hw), run_bind_ok (doStall_run hd)]
      exact run_bind_ok (modify_run _ s6)

/-- What XCIP does once its block is read and every earlier access is performed (R534-R537). -/
def cipSubmit (before : State) (c : Nat) (i : Instr) (r : MArea) (ws : List Word) : M Unit := do
  let s1 ← get
  let t := field (ws.getD 0 0) 13 15
  let sh := (s1.core c).sheet.getD 64
  if s1.inReset.contains (varBlk t) then holdAt before c i (varBlk t) false
  let cc := s1.varCc t sh false
  if cc = 0 then
    modify fun s => s.varAccept t {
      block := r.first.sa, words := vec12 ws, key := false, slot := none, ctx := s.capture c t, running := false, result := none }
  setFlags c (ccFlags cc)

/-- XCIP, its block read (R534-R537). -/
theorem xcip_row (hb : Begins (prim 0o262 [opM] [] []) n s d s1) (hf : Forms n.core.val d s1 fs sf) (ha : addrAt fs 0 % 16 = 0)
    (hx : (areaXlate n.core.val [1] (addrAt fs 0) 16).run sf = .ok (r, s2)) (hr : (areaRead n.core.val r 14).run s2 = .ok (ws, s3)) :
    let c := n.core.val
    let t := field (ws.getD 0 0) 13 15
    let bad := cipBad (addrAt fs 0) (vec14 ws)
    (bad = true → exec (.xcip n) s = .next (s.trapped c s3 (.check 0o006 []))) ∧
    (∀ s4, bad = false → s3.outPending c = false → s3.drainAll c = some s4 →
      let sh := (s4.core c).sheet.getD 64
      (varBlk t ∈ s4.inReset → exec (.xcip n) s = .next (s.heldBy c (.xcip n) (varBlk t) (pswIa (s4.core c).psw))) ∧
      (varBlk t ∉ s4.inReset → ∀ cc u, Answers s4
          [(3, s4.rbit (varBlk t) (0o100 + sh) 0 = false), (2, 32 ≤ (s4.varQueue t sh).length),
           (1, s4.rbit (varBlk t) (0o100 + sh) 15 = true)]
          (fun u => let x := s4.capture c t
            u = s4.setVarQueue t x.sheet (s4.varQueue t x.sheet ++ [
              { block := r.first.sa, words := vec12 ws, key := false, slot := none, ctx := x, running := false, result := none }])) cc u →
        exec (.xcip n) s = .next (s.after c (u.withCc c cc)))) := by
  intro c t bad
  have run : exec (.xcip n) s = .next (outcome s c ((do
      if bad then pcheck 6
      releaseAll c
      cipSubmit s c (.xcip n) r ws : M Unit).run s3)) := by
    rw [exec_xcip, execXcip, isa_run hb, run_bind_ok hf, run_bind_ok (blockAt_run ha), run_bind_ok hx, run_bind_ok hr]
    rfl
  refine ⟨fun wrong => ?_, fun s4 ok out drained => ?_⟩
  · rw [run, wrong]
    rfl
  · intro sh
    rw [ok] at run
    refine engineRow_intro (code := s4.varCc t sh false) (run.trans (outcome_released out drained)) (fun reset => ?_)
      (fun free => by simpa using varCc_eq (slot := false) free) (fun free nonzero => ?_) fun free zero u => ?_
    all_goals
      rw [cipSubmit, run_bind_ok (get_run s4)]
      dsimp only
    · rw [if_pos (List.contains_iff_mem.2 reset)]
      rfl
    · rw [if_neg (mt List.contains_iff_mem.1 free), if_neg nonzero]
    · rintro rfl
      rw [if_neg (mt List.contains_iff_mem.1 free), if_pos zero]
      exact run_bind_ok (modify_run _ s4)

/-- What XKEY does once its block is read and every earlier access is performed (R531-R533). -/
def keySubmit (before : State) (c : Nat) (i : Instr) (r : MArea) (rs : List Rdy) (blk : Vector Word 12) : M Unit := do
  let s1 ← get
  let t := field (vget blk 0 0) 3 5
  let sh := (s1.core c).sheet.getD 64
  if s1.inReset.contains (varBlk t) then holdAt before c i (varBlk t) false
  let cc := s1.varCc t sh (field (vget blk 0 0) 0 2 != 3)
  if cc = 0 then do
    let s2 ← get
    let h := s2.xkeyAccept t r.first.sa blk (s2.capture c t)
    set h.2
    writeOp c false (opAt rs 0) h.1.toNat
  setFlags c (ccFlags cc)

/-- XKEY, its block read (R531-R533). -/
theorem isaXkey_row {i : Instr} {rs : List Rdy} {sr : State} (means : exec i s = s.isaXkey n i)
    (hb : Begins (prim 0o263 [opM, fw .d .i .wW] [] []) n s d s1) (hf : Forms n.core.val d s1 fs sf) (ha : addrAt fs 0 % 8 = 0)
    (hx : (areaXlate n.core.val [1] (addrAt fs 0) 8).run sf = .ok (r, s2))
    (hd : (readyOps n.core.val false (fs.drop 1)).run s2 = .ok (rs, sr)) (hr : (areaRead n.core.val r 6).run sr = .ok (ws, s3)) :
    let c := n.core.val
    let t := field (ws.getD 0 0) 3 5
    let fn := field (ws.getD 0 0) 0 2
    let bad := xkeyBad (addrAt fs 0) (vec12 ws)
    (bad = true → exec i s = .next (s.trapped c s3 (.check 0o006 []))) ∧
    (∀ s4, bad = false → s3.outPending c = false → s3.drainAll c = some s4 →
      let sh := (s4.core c).sheet.getD 64
      (varBlk t ∈ s4.inReset → exec i s = .next (s.heldBy c i (varBlk t) (pswIa (s4.core c).psw))) ∧
      (varBlk t ∉ s4.inReset → ∀ cc u, Answers s4
          [(3, s4.rbit (varBlk t) (0o100 + sh) 0 = false),
           (2, 32 ≤ (s4.varQueue t sh).length ∨ (fn ≠ 3 ∧ s4.kused t sh = s4.fld (varBlk t) (0o100 + sh) 16 28)),
           (1, s4.rbit (varBlk t) (0o100 + sh) 15 = true)]
          (fun u => let h := s4.xkeyAccept t r.first.sa (vec12 ws) (s4.capture c t)
            Deposits h.2 c false (opAt rs 0) h.1.toNat u) cc u →
        exec i s = .next (s.after c (u.withCc c cc)))) := by
  intro c t fn bad
  have run : exec i s = .next (outcome s c ((do
      if bad then pcheck 6
      releaseAll c
      keySubmit s c i r rs (vec12 ws) : M Unit).run s3)) := by
    rw [means, State.isaXkey, isa_run hb, run_bind_ok hf, run_bind_ok (blockAt_run ha), run_bind_ok hx]
    exact congrArg (fun x => Host.Outcome.next (outcome s c x)) ((run_bind_ok hd).trans (run_bind_ok hr))
  refine ⟨fun wrong => ?_, fun s4 ok out drained => ?_⟩
  · rw [run, wrong]
    rfl
  · intro sh
    rw [ok] at run
    refine engineRow_intro (code := s4.varCc t sh (fn != 3)) (run.trans (outcome_released out drained)) (fun reset => ?_)
      (fun free => by simpa using varCc_eq (slot := fn != 3) free) (fun free nonzero => ?_) fun free zero u => ?_
    all_goals
      rw [keySubmit, run_bind_ok (get_run s4)]
      simp only [vget_vec12]
    · rw [if_pos (List.contains_iff_mem.2 reset)]
      rfl
    · rw [if_neg (mt List.contains_iff_mem.1 free), if_neg nonzero]
    · intro hw
      rw [if_neg (mt List.contains_iff_mem.1 free), if_pos zero, run_bind_ok (get_run s4), run_bind_ok (set_run _ s4)]
      exact run_bind_ok (writeOp_run hw)

end

end Sys2Proof.Machine

open Sys2Proof Sys2Proof.Machine

/-- Settles O29: each row runs to its engine, which holds it, refuses it with the condition code of the first test that holds, or takes
it (`engineRow_intro`). -/
theorem engineRows : Obligations.EngineRows := by
  unfold Obligations.EngineRows
  refine ⟨?checks, ?cal, fun n s d s1 fs sf r s2 ws s3 hb => xcip_row hb, ?key⟩
  case checks =>
    intro q hq n s d s1 fs sf hb hf h
    simp only [List.mem_cons, List.not_mem_nil, or_false] at hq
    obtain rfl | rfl | rfl | rfl | rfl | rfl := hq
    · exact engine_blockFails hb hf (exec_xcmp n s) h
    · exact engine_blockFails hb hf (exec_xexp n s) h
    · exact engine_blockFails hb hf (exec_xcip n s) h
    · exact engine_blockFails hb hf (exec_xkeyUnwrap n s) h
    · exact engine_blockFails hb hf (exec_xkeyGenerate n s) h
    · exact engine_blockFails hb hf (exec_xkeyFree n s) h
  case cal =>
    intro q hq n s d s1 fs sf r s2 ws s3 hb
    simp only [List.mem_cons, List.not_mem_nil, or_false] at hq
    obtain rfl | rfl := hq
    · exact isaCal_row (exec_xcmp n s) hb
    · exact isaCal_row (exec_xexp n s) hb
  case key =>
    intro mk hm n s d s1 fs sf r s2 rs sr ws s3 hb
    simp only [List.mem_cons, List.not_mem_nil, or_false] at hm
    obtain rfl | rfl | rfl := hm
    · exact isaXkey_row (exec_xkeyUnwrap n s) hb
    · exact isaXkey_row (exec_xkeyGenerate n s) hb
    · exact isaXkey_row (exec_xkeyFree n s) hb

end

section
/-! Rounding a magnitude (O19). One rounding is the lower or the upper neighbour of the magnitude; which of them, and so how far off it
may be, is decided by the remainder. -/

namespace Sys2Proof.Machine

section
variable (neg : Bool) (m k : Nat)

theorem roundShift_nearestEven : roundShift 0 neg m k =
    if 2 ^ k < 2 * (m % 2 ^ k) ∨ 2 * (m % 2 ^ k) = 2 ^ k ∧ m / 2 ^ k % 2 = 1 then m / 2 ^ k + 1 else m / 2 ^ k := by
  simp [roundShift]

theorem roundShift_towardZero : roundShift 1 neg m k = m / 2 ^ k := rfl

theorem roundShift_towardPlus_neg : roundShift 2 true m k = m / 2 ^ k := rfl

theorem roundShift_towardPlus_pos : roundShift 2 false m k = if m % 2 ^ k = 0 then m / 2 ^ k else m / 2 ^ k + 1 := by
  simp [roundShift]

/-- Towards minus infinity is towards plus infinity on the negated value. -/
theorem roundShift_towardMinus : roundShift 3 neg m k = roundShift 2 (!neg) m k := by
  simp [roundShift]

theorem roundShift_nearestAway : roundShift 4 neg m k =
    if 2 ^ k ≤ 2 * (m % 2 ^ k) ∧ m % 2 ^ k ≠ 0 then m / 2 ^ k + 1 else m / 2 ^ k := by
  simp [roundShift]

theorem upperNeighbour_add_rem : (m / 2 ^ k + 1) * 2 ^ k + m % 2 ^ k = m + 2 ^ k := by
  rw [Nat.succ_mul, Nat.add_right_comm, Nat.div_add_mod']

theorem lowerNeighbour_bounds : m / 2 ^ k * 2 ^ k ≤ m ∧ m < (m / 2 ^ k + 1) * 2 ^ k := by
  have hu := upperNeighbour_add_rem m k
  exact ⟨Nat.div_mul_le_self m _, by omega⟩

theorem roundShift_towardPlus_pos_bounds :
    m ≤ roundShift 2 false m k * 2 ^ k ∧ roundShift 2 false m k * 2 ^ k < m + 2 ^ k := by
  rw [roundShift_towardPlus_pos]
  split
  case isTrue multiple =>
    have hl := Nat.div_add_mod' m (2 ^ k)
    omega
  case isFalse between =>
    have hu := upperNeighbour_add_rem m k
    omega

theorem roundShift_towardPlus_bounds :
    if neg then roundShift 2 neg m k * 2 ^ k ≤ m ∧ m < (roundShift 2 neg m k + 1) * 2 ^ k
    else m ≤ roundShift 2 neg m k * 2 ^ k ∧ roundShift 2 neg m k * 2 ^ k < m + 2 ^ k := by
  cases neg with
  | false => exact roundShift_towardPlus_pos_bounds m k
  | true => simpa only [if_true, roundShift_towardPlus_neg] using lowerNeighbour_bounds m k

theorem roundShift_towardMinus_bounds :
    if neg then m ≤ roundShift 3 neg m k * 2 ^ k ∧ roundShift 3 neg m k * 2 ^ k < m + 2 ^ k
    else roundShift 3 neg m k * 2 ^ k ≤ m ∧ m < (roundShift 3 neg m k + 1) * 2 ^ k := by
  rw [roundShift_towardMinus]
  cases neg with
  | false => exact roundShift_towardPlus_bounds true m k
  | true => exact roundShift_towardPlus_bounds false m k

theorem roundShift_nearestEven_bounds :
    2 * m ≤ 2 * (roundShift 0 neg m k * 2 ^ k) + 2 ^ k ∧ 2 * (roundShift 0 neg m k * 2 ^ k) ≤ 2 * m + 2 ^ k := by
  rw [roundShift_nearestEven]
  split
  case isTrue up =>
    have hu := upperNeighbour_add_rem m k
    omega
  case isFalse down =>
    have hl := Nat.div_add_mod' m (2 ^ k)
    omega

/-- Half a step off on either side, the remainder is half a step, and then the even neighbour is the one chosen. -/
theorem roundShift_nearestEven_tie
    (tie : 2 * m = 2 * (roundShift 0 neg m k * 2 ^ k) + 2 ^ k ∨ 2 * (roundShift 0 neg m k * 2 ^ k) = 2 * m + 2 ^ k) :
    roundShift 0 neg m k % 2 = 0 := by
  rw [roundShift_nearestEven] at tie ⊢
  split at tie
  case isTrue up =>
    have hu := upperNeighbour_add_rem m k
    have half : 2 * (m % 2 ^ k) = 2 ^ k := by omega
    rw [if_pos up]
    omega
  case isFalse down =>
    have hl := Nat.div_add_mod' m (2 ^ k)
    have half : 2 * (m % 2 ^ k) = 2 ^ k := by omega
    rw [if_neg down]
    omega

theorem roundShift_nearestAway_bounds :
    2 * m < 2 * (roundShift 4 neg m k * 2 ^ k) + 2 ^ k ∧ 2 * (roundShift 4 neg m k * 2 ^ k) ≤ 2 * m + 2 ^ k := by
  rw [roundShift_nearestAway]
  split
  case isTrue up =>
    have hu := upperNeighbour_add_rem m k
    omega
  case isFalse down =>
    have hl := Nat.div_add_mod' m (2 ^ k)
    omega

end

end Sys2Proof.Machine

open Sys2Proof Sys2Proof.Machine

/-- Settles O19: each mode picks the lower or the upper neighbour by the remainder, which bounds its error. -/
theorem roundingIsNearest : Obligations.RoundingIsNearest := by
  unfold Obligations.RoundingIsNearest
  intro neg m k
  obtain ⟨below, above⟩ := roundShift_nearestEven_bounds neg m k
  have towardZero := lowerNeighbour_bounds m k
  rw [← roundShift_towardZero neg] at towardZero
  exact ⟨⟨below, above, roundShift_nearestEven_tie neg m k⟩, towardZero, roundShift_towardPlus_bounds neg m k,
    roundShift_towardMinus_bounds neg m k, roundShift_nearestAway_bounds neg m k⟩

end

section
/-! Entering a level (O6), the interruption that is accepted (O30), and what reset leaves (O2). -/

namespace Sys2Proof.Machine
open Sys2Proof

/-! Fields of a word. -/

/-- The bits of a field, counted from its least significant (R9). -/
theorem testBit_field_eq {w : Nat} (x : BitVec w) (lo hi j : Nat) :
    (field x lo hi).testBit j = (decide (j < hi + 1 - lo) && x.getLsbD (w - 1 - hi + j)) := by
  rw [field, Nat.testBit_mod_two_pow, Nat.testBit_div_two_pow, BitVec.getLsbD, Nat.add_comm j]

/-- A field is below the power of two of its width. -/
theorem field_lt {w : Nat} (x : BitVec w) (lo hi : Nat) : field x lo hi < 2 ^ (hi + 1 - lo) := Nat.mod_lt _ (Nat.two_pow_pos _)

/-- No bit is set in a field of zero. -/
@[simp] theorem field_zero (w lo hi : Nat) : field (0 : BitVec w) lo hi = 0 := by simp [field]

/-- A replaced field holds the low bits of what was put into it. -/
theorem field_setField {w lo hi : Nat} (x : BitVec w) (v : Nat) (hlo : lo ≤ hi) (hhi : hi < w) :
    field (setField x lo hi v) lo hi = v % 2 ^ (hi + 1 - lo) := by
  refine Nat.eq_of_testBit_eq fun j => ?_
  rw [testBit_field_eq, Nat.testBit_mod_two_pow]
  by_cases inside : j < hi + 1 - lo
  · rw [getLsbD_setField x v hlo hhi (by omega), if_pos (by omega), Nat.add_sub_cancel_left]
  · simp only [inside, decide_false, Bool.false_and]

/-- A field beside the replaced one stays. -/
theorem field_setField_ne {w lo hi a b : Nat} (x : BitVec w) (v : Nat) (hlo : lo ≤ hi) (hhi : hi < w) (hb : b < w)
    (apart : b < lo ∨ hi < a) : field (setField x lo hi v) a b = field x a b := by
  refine Nat.eq_of_testBit_eq fun j => ?_
  rw [testBit_field_eq, testBit_field_eq]
  by_cases inside : j < b + 1 - a
  · rw [getLsbD_setField x v hlo hhi (by omega), if_neg (by omega)]
  · simp only [inside, decide_false, Bool.false_and]

/-- A bit is a field of one bit (R9). -/
theorem dbit_eq_testBit_field {w i : Nat} (x : BitVec w) (h : i < w) : dbit x i = (field x i i).testBit 0 := by
  rw [← testBit_field x (le_refl i) (le_refl i) h, Nat.sub_self]

/-- A field of one bit put back into one bit. -/
theorem field_bit_mod {w : Nat} (x : BitVec w) (i : Nat) : field x i i % 2 ^ (i + 1 - i) = field x i i := Nat.mod_eq_of_lt (field_lt x i i)

/-- A field of a doubleword's even word (R77). -/
theorem field_dword_even (h l : Word) {lo hi : Nat} (hhi : hi < 36) : field (dword h l) lo hi = field h lo hi := by
  refine Nat.eq_of_testBit_eq fun j => ?_
  rw [testBit_field_eq, testBit_field_eq, dword, BitVec.getLsbD_append, if_neg (by omega)]
  congr 2
  omega

/-- The odd word of a doubleword (R77). -/
theorem field_dword_odd (h l : Word) : field (dword h l) 36 71 = l.toNat := by
  refine Nat.eq_of_testBit_eq fun j => ?_
  rw [testBit_field_eq, dword, BitVec.getLsbD_append, BitVec.testBit_toNat]
  by_cases inside : j < 36
  · simp [inside]
  · rw [BitVec.getLsbD_of_ge l j (by omega), decide_eq_false (by omega), Bool.false_and]

/-! Entering a level. -/

/-- A mask that entry builds is one of the eight values (R249). -/
theorem entry_mask_lt {l : Nat} (old vec : DWord) (h : l < 8) : Nat.max l (Nat.max (pswMask old) (pswMask vec)) < 8 :=
  Nat.max_lt.2 ⟨h, Nat.max_lt.2 ⟨field_lt old 18 20, field_lt vec 18 20⟩⟩

/-- The bits of the entered bank's PSW (R249). -/
theorem entryPsw_bits (vec old : DWord) (l lc : Nat) (spl : Bool) :
    let p := entryPsw vec old l lc spl
    pswProb p = pswProb vec ∧ pswDat p = pswDat vec ∧ pswUp p = pswUp old ∧ pswChain p = true ∧ pswSpl p = spl := by
  have told : (b2n spl % 2 ^ (4 + 1 - 4)).testBit 0 = spl := by cases spl <;> rfl
  simp (disch := omega) only [entryPsw, pswProb, pswDat, pswUp, pswChain, pswSpl, dbit_eq_testBit_field, field_setField_ne,
    field_setField, field_bit_mod, told]
  exact ⟨trivial, trivial, trivial, rfl, trivial⟩

/-- The fields of the entered bank's PSW (R249). -/
theorem entryPsw_fields (vec old : DWord) {l lc : Nat} (spl : Bool) (hl : l < 8) (hlc : lc < 8) :
    let p := entryPsw vec old l lc spl
    field p 8 10 = l ∧ pswPlvl p = lc ∧ pswMask p = Nat.max l (Nat.max (pswMask old) (pswMask vec)) ∧
      field p 16 17 = field vec 16 17 ∧ field p 32 35 = 0 ∧ field p 36 71 = field vec 36 71 := by
  simp (disch := omega) only [entryPsw, pswPlvl, pswMask, field_setField_ne, field_setField, field_zero]
  exact ⟨Nat.mod_eq_of_lt hl, Nat.mod_eq_of_lt hlc, Nat.mod_eq_of_lt (entry_mask_lt old vec hl), Nat.mod_eq_of_lt (field_lt vec 16 17),
    trivial, Nat.mod_eq_of_lt (field_lt vec 36 71)⟩

/-- The entered bank's PSW has no reserved bit set (R240, R249). -/
theorem entryPsw_ok (vec old : DWord) (l lc : Nat) (spl : Bool) : pswOk (entryPsw vec old l lc spl) = true := by
  rw [pswOk_iff]
  simp (disch := omega) only [entryPsw, field_setField_ne, field_zero, and_self]

/-- The fields of an interruption record (R247). -/
theorem irecOf_fields {code sub param : Nat} (info : Word) (hc : code < 512) (hs : sub < 512) (hp : param < 2 ^ 18) :
    let r := irecOf code sub param info
    field r 0 8 = code ∧ field r 9 17 = sub ∧ field r 18 35 = param ∧ field r 36 71 = info.toNat := by
  simp (disch := omega) only [irecOf, field_dword_even, field_dword_odd, field_setField_ne, field_setField]
  exact ⟨Nat.mod_eq_of_lt hc, Nat.mod_eq_of_lt hs, Nat.mod_eq_of_lt hp, trivial⟩

section
variable (k : Core) (vec : DWord) (l code sub param : Nat) (info : Word) (spl : Bool)

/-- The bank of an entered level: busy, with the PSW built for it (R249). -/
@[simp] theorem Core.bank_enter : (k.enter vec l code sub param info spl).bank l =
    { k.bank l with busy := true, psw := entryPsw vec k.psw l k.level spl } := Core.bank_setBank k l _

/-- Entering a level leaves the other banks (R249). -/
theorem Core.bank_enter_ne {i : Nat} (h : i ≠ l) : (k.enter vec l code sub param info spl).bank i = k.bank i :=
  Core.bank_setBank_ne k l _ h

/-- Entering a level writes its interruption record (R247). -/
@[simp] theorem Core.ctlReg_enter : (k.enter vec l code sub param info spl).ctlReg (0o10 + l) = irecOf code sub param info :=
  Core.ctlReg_setCtl _ _ _

/-- Entering a level leaves the other control registers (R249). -/
theorem Core.ctlReg_enter_ne {r : Nat} (h : r ≠ 0o10 + l) : (k.enter vec l code sub param info spl).ctlReg r = k.ctlReg r :=
  (Core.ctlReg_setCtl_ne _ _ _ h).trans (Core.ctlReg_setBank k l _ r)

end

/-! The interruption that is accepted. -/

/-- The first greatest element of a list: those before it are less, those after it are not greater. -/
theorem argmax_eq_some_iff_split {α : Type} [DecidableEq α] {f : α → Nat} {l : List α} {m : α} :
    l.argmax f = some m ↔ ∃ a b, l = a ++ m :: b ∧ (∀ x ∈ a, f x < f m) ∧ ∀ x ∈ b, f x ≤ f m := by
  rw [List.argmax_eq_some_iff]
  constructor
  · rintro ⟨mem, greatest, first⟩
    obtain ⟨a, b, rfl, fresh⟩ := List.eq_append_cons_of_mem mem
    refine ⟨a, b, rfl, fun x hx => lt_of_le_of_ne (greatest x (by simp [hx])) fun same => ?_, fun x hx => greatest x (by simp [hx])⟩
    have later := first x (by simp [hx]) same.ge
    have earlier := List.idxOf_lt_length_of_mem hx
    rw [List.idxOf_append_of_notMem fresh, List.idxOf_append_of_mem hx] at later
    omega
  · rintro ⟨a, b, rfl, before, after⟩
    have fresh : m ∉ a := fun h => lt_irrefl _ (before m h)
    refine ⟨by simp, fun x hx => ?_, fun x _ hle => ?_⟩
    · rcases List.mem_append.1 hx with hx | hx
      · exact (before x hx).le
      · rcases List.mem_cons.1 hx with rfl | hx
        · exact le_refl _
        · exact after x hx
    · have late : x ∉ a := fun h => absurd (before x h) hle.not_gt
      rw [List.idxOf_append_of_notMem fresh, List.idxOf_append_of_notMem late, List.idxOf_cons_self]
      omega

/-- The interruption that a core accepts is the first of the highest level among those that qualify (R243). -/
theorem Core.nextIrq_eq_argmax (k : Core) : k.nextIrq = (k.pend.filter k.accepts).argmax Irq.level := by
  unfold Core.nextIrq List.argmax
  congr
  funext b i
  cases b <;> rfl

/-- A place in the selected part of a list is a place in the list. -/
theorem filter_eq_append_cons_iff {α : Type} {p : α → Bool} {l a b : List α} {x : α} :
    l.filter p = a ++ x :: b ↔ ∃ a' b', l = a' ++ x :: b' ∧ p x = true ∧ a'.filter p = a ∧ b'.filter p = b := by
  constructor
  · intro h
    obtain ⟨c, r, rfl, ha, hr⟩ := List.filter_eq_append_iff.1 h
    obtain ⟨n, b', rfl, hn, hx, hb⟩ := List.filter_eq_cons_iff.1 hr
    exact ⟨c ++ n, b', (List.append_assoc c n _).symm, hx, by simpa [ha] using hn, hb⟩
  · rintro ⟨a', b', rfl, hx, rfl, rfl⟩
    simp [hx]

/-! Reset. -/

/-- A register whose fields all reset to zero resets to zero (R15). -/
theorem regReset_eq_zero {fs : List Fld} (h : ∀ f ∈ fs, f.rst = 0) : regReset fs = 0 := by
  have keep (f : Fld) (hf : f.rst = 0) : setField (0 : Word) f.lo f.hi f.rst = 0 := by simp [setField, hf]
  unfold regReset
  induction fs with
  | nil => rfl
  | cons f fs ih =>
    rw [List.foldl_cons, keep f (h f List.mem_cons_self)]
    exact ih fun g hg => h g (List.mem_cons_of_mem f hg)

/-- The fields of a register with one for each fault source reset as each of them does (R603). -/
theorem rst_of_mem_perSource {srcs : List (Bool × Nat)} {at_ v : Nat} {mk : Nat → Nat → Fld} (hv : ∀ lo hi, (mk lo hi).rst = v)
    {f : Fld} (h : f ∈ perSource srcs at_ mk) : f.rst = v := by
  obtain ⟨x, _, rfl⟩ := List.mem_map.1 h
  exact hv _ _

/-- The status and mask registers of a block's faults reset to zero (R605, R606). -/
theorem regReset_faultReg {b : Blk} {o : Nat} (h : o = 0o777700 ∨ o = 0o777701) : regReset (regFields b o) = 0 := by
  refine regReset_eq_zero fun f hf => ?_
  rcases h with rfl | rfl
  · rcases List.mem_append.1 hf with hf | hf
    · exact rst_of_mem_perSource (mk := f1) (fun _ _ => rfl) hf
    · exact rst_of_mem_perSource (mk := f1) (fun _ _ => rfl) hf
  · exact rst_of_mem_perSource (mk := fun lo hi => fL lo hi 0) (fun _ _ => rfl) hf

/-- The offset that a register's key ends in (R36). -/
theorem regKey_mod (b : Blk) {o : Nat} (h : o < 2 ^ 18) : regKey b o % 2 ^ 18 = o := by
  unfold regKey
  omega

/-- At reset a register holds its Reset value (R15). -/
theorem State.reg_reset (b : Blk) (o : Nat) : State.reset.reg b o = regDefault (regKey b o) := by
  have unwritten : State.reset.regs = [] := rfl
  rw [State.reg, unwritten, Tab.get]

/-- At reset the status and mask registers of a block's faults are zero (R605, R606). -/
theorem State.reg_reset_fault {b : Blk} {o : Nat} (h : o = 0o777700 ∨ o = 0o777701) : State.reset.reg b o = 0 := by
  rw [State.reg_reset, regDefault, regAtKey]
  rw [regKey_mod b (by omega)]
  cases blkOfDigits (regKey b o / 2 ^ 18 % 2 ^ 18) (regKey b o / 2 ^ 36) with
  | none => rfl
  | some x => exact regReset_faultReg h

/-- No bit of a register that is zero is set. -/
theorem State.rbit_of_reg_eq_zero {s : State} {b : Blk} {o : Nat} (h : s.reg b o = 0) (i : Nat) : s.rbit b o i = false := by
  rw [State.rbit_eq_getLsbD, h, BitVec.ofNat_eq_ofNat, BitVec.getLsbD_zero]

/-- Every core is as reset leaves it. -/
@[simp] theorem State.core_reset (c : Nat) : State.reset.core c = coreReset := rfl

/-- A bank other than that of level 0 is free at reset, with a PSW of zero (R240, R259). -/
theorem bankReset_free {l : Nat} (h : l ≠ 0) : (bankReset l).busy = false ∧ (bankReset l).psw = 0 := by
  simp [bankReset, h]

end Sys2Proof.Machine

open Sys2Proof Sys2Proof.Machine

/-- Settles O6: the new bank and record by the laws of `Core.enter`, their fields by `entryPsw_bits`, `entryPsw_fields` and
`irecOf_fields`. -/
theorem interruptionEntry : Obligations.InterruptionEntry := by
  unfold Obligations.InterruptionEntry
  intro k vec l code sub param info spl hl hlc hc hs hp t p
  have hbank : t.bank l = { k.bank l with busy := true, psw := entryPsw vec k.psw l k.level spl } := Core.bank_enter ..
  have hpsw : p = entryPsw vec k.psw l k.level spl := congrArg Bank.psw hbank
  have hrec : t.ctlReg (0o10 + l) = irecOf code sub param info := Core.ctlReg_enter ..
  obtain ⟨prob, dat, up, chain, spill⟩ := entryPsw_bits vec k.psw l k.level spl
  obtain ⟨level, plvl, mask, nidx, flags, waddr⟩ := entryPsw_fields vec k.psw spl hl hlc
  rw [hpsw, hrec]
  exact ⟨rfl, congrArg Bank.busy hbank, prob, dat, up, chain, spill, level, plvl, mask, nidx, flags, waddr, entryPsw_ok ..,
    irecOf_fields info hc hs hp, fun r hr => Core.ctlReg_enter_ne k vec l code sub param info spl hr,
    fun i hi => Core.bank_enter_ne k vec l code sub param info spl hi, by rw [hbank], by rw [hbank], by rw [hbank], rfl⟩

/-- Settles O30: the accepted interruption is the first greatest of those that qualify, and its place among them is its place among
those pending. -/
theorem acceptedInterruption : Obligations.AcceptedInterruption := by
  unfold Obligations.AcceptedInterruption
  intro k i
  rw [Core.nextIrq_eq_argmax, argmax_eq_some_iff_split]
  constructor
  · rintro ⟨a, b, h, before, after⟩
    obtain ⟨a', b', hp, hi, rfl, rfl⟩ := filter_eq_append_cons_iff.1 h
    exact ⟨a', b', hp, hi, fun j hj ok => before j (List.mem_filter.2 ⟨hj, ok⟩),
      fun j hj ok => after j (List.mem_filter.2 ⟨hj, ok⟩)⟩
  · rintro ⟨a, b, hp, hi, before, after⟩
    have place := filter_eq_append_cons_iff.2 ⟨a, b, hp, hi, rfl, rfl⟩
    refine ⟨a.filter k.accepts, b.filter k.accepts, place, fun j hj => ?_, fun j hj => ?_⟩
    · obtain ⟨mem, ok⟩ := List.mem_filter.1 hj
      exact before j mem ok
    · obtain ⟨mem, ok⟩ := List.mem_filter.1 hj
      exact after j mem ok

/-- Settles O2: each core is `coreReset`, whose banks are `bankReset`, and each fault register has its Reset value. -/
theorem resetState : Obligations.ResetState := by
  unfold Obligations.ResetState
  refine ⟨rfl, rfl, rfl, rfl, rfl, fun c _ => ?core, fun b i _ => ⟨?status, ?mask⟩⟩
  case core =>
    rw [State.core_reset]
    exact ⟨rfl, rfl, rfl, rfl, by decide, by decide, by decide, by decide, by decide, fun l hl => bankReset_free hl, rfl, rfl, rfl, rfl⟩
  case status => exact State.rbit_of_reg_eq_zero (State.reg_reset_fault (.inl rfl)) i
  case mask => exact State.rbit_of_reg_eq_zero (State.reg_reset_fault (.inr rfl)) i

end

section
/-! IRET (O21) and what happens to a core beside its instructions (O31). -/

namespace Sys2Proof.Machine
open Sys2Proof

/-! IRET. -/

/-- What IRET does (R251). -/
def levelReturn (c : Nat) : M Unit := do
  let s ← get
  let k := s.core c
  let psw := k.psw
  let back := pswPlvl psw
  if !pswChain psw || !(k.bank back).busy then pcheck 6
  if pswSpl psw then
    match s.refill c k.level with
    | .stall => trap .stall
    | .failed => trap (.stop 0o11)
    | .done s => set (s.setCore c { s.core c with level := back })
  else
    let k := k.setBank k.level { k.cur with busy := false }
    set (s.setCore c { k with level := back })

section
variable {c : Nat} {s : State}

/-- IRET with nowhere to return to (R251). -/
theorem levelReturn_fails (h : pswChain (s.core c).psw = false ∨ ((s.core c).bank (pswPlvl (s.core c).psw)).busy = false) :
    (levelReturn c).run s = .error { trap := .check 6 [], keep := none, met := s } := by
  have bad : (!pswChain (s.core c).psw || !((s.core c).bank (pswPlvl (s.core c).psw)).busy) = true := by
    rcases h with h | h <;> simp [h]
  unfold levelReturn
  rw [run_bind_ok (get_run s)]
  dsimp only
  rw [if_pos bad]
  rfl

variable (chain : pswChain (s.core c).psw = true) (busy : ((s.core c).bank (pswPlvl (s.core c).psw)).busy = true)
include chain busy

/-- IRET with a level to return to takes the branch of SPL (R251). -/
theorem levelReturn_run : (levelReturn c).run s =
    (if pswSpl (s.core c).psw then
      match s.refill c (s.core c).level with
      | .stall => trap .stall
      | .failed => trap (.stop 0o11)
      | .done t => set (t.setCore c { t.core c with level := pswPlvl (s.core c).psw })
    else set (s.setCore c { ((s.core c).setBank (s.core c).level { (s.core c).cur with busy := false }) with
      level := pswPlvl (s.core c).psw }) : M Unit).run s := by
  have good : ¬ (!pswChain (s.core c).psw || !((s.core c).bank (pswPlvl (s.core c).psw)).busy) = true := by simp [chain, busy]
  unfold levelReturn
  rw [run_bind_ok (get_run s)]
  dsimp only
  rw [if_neg good]

/-- IRET without a spilled occupant frees the bank (R251). -/
theorem levelReturn_frees (plain : pswSpl (s.core c).psw = false) : (levelReturn c).run s = .ok ((), s.setCore c
    { ((s.core c).setBank (s.core c).level { (s.core c).cur with busy := false }) with level := pswPlvl (s.core c).psw }) := by
  rw [levelReturn_run chain busy, plain]
  rfl

variable (spilled : pswSpl (s.core c).psw = true)
include spilled

/-- IRET with a spilled occupant that comes back (R258). -/
theorem levelReturn_refills {t : State} (h : s.refill c (s.core c).level = .done t) :
    (levelReturn c).run s = .ok ((), t.setCore c { t.core c with level := pswPlvl (s.core c).psw }) := by
  rw [levelReturn_run chain busy, spilled, h]
  rfl

/-- IRET with a spilled occupant that fails a check (R256, R258). -/
theorem levelReturn_stops (h : s.refill c (s.core c).level = .failed) :
    (levelReturn c).run s = .error { trap := .stop 0o11, keep := none, met := s } := by
  rw [levelReturn_run chain busy, spilled, h]
  rfl

end

/-- IRET is what it does, from the state in which it begins. -/
theorem iret_run {n : Insn} {s s1 : State} {d : Dec} (hb : Begins (secd 0o060 []) n s d s1) :
    exec (.iret n) s = .next (outcome s n.core.val ((levelReturn n.core.val).run s1)) :=
  (exec_iret n s).trans (isa_none hb rfl fun _ => levelReturn n.core.val)

/-! An instruction within a command. -/

/-- An attempt that ends well leaves its state, and a notice that waited for it is due (R367). -/
theorem attempt_ok {s t : State} {c : Nat} {m : M Unit} (h : m.run s = .ok ((), t)) :
    s.attempt c m = if s.waits.isEmpty then t else t.ran c := by
  unfold State.attempt
  rw [h]

/-- An instruction that begins and whose effect ends well leaves the effect's state. -/
theorem insn_ok {t : Tmpl} {n : Insn} {s s1 u : State} {d : Dec} {body : Dec → List Formed → M Unit} (hb : Begins t n s d s1)
    (h : (do let fs ← formM n.core.val d.ops; body d fs : M Unit).run s1 = .ok ((), u)) :
    s.insn t n body = some (if s.waits.isEmpty then u else u.ran n.core.val) := by
  obtain ⟨s0, hfetch, rfl⟩ := hb.start
  simp only [State.insn, State.insnD, hb.dec]
  exact congrArg some (attempt_ok ((run_bind_ok hfetch).trans h))

/-! Interruptions. -/

/-- A core that is not cold, at a boundary, enters its next interruption (R243, R244). -/
theorem State.acceptIrq_enters {s : State} {c : Nat} {i : Irq} (hb : s.atBoundary c = true) (hi : (s.core c).nextIrq = some i)
    (warm : (s.core c).cold = false) : s.acceptIrq c = (s.asyncEnter c i).getD s := by
  simp [State.acceptIrq, hb, hi, warm]

/-- An asynchronous interruption with a good vector entry is entered (R249, R273). -/
theorem State.asyncEnter_vector {s s0 s1 : State} {c : Nat} {i : Irq} {v : DWord}
    (acquire : (if i.level = 3 then s.drainRel c else some s) = some s0) (entry : s0.vector c i.level = some (some v, s1)) :
    s.asyncEnter c i =
      let s2 := s1.gatherEmit c
      let k := { s2.core c with pend := (s2.core c).pend.erase i, run := .running }
      some (s2.setCore c (k.enter v i.level i.code 0 i.param i.info false)) := by
  unfold State.asyncEnter
  rw [acquire, Option.bind_some, entry, Option.bind_some]

/-- The comparator of a core in service, its time come, makes its interruption pending where it is not (R245). -/
theorem State.comparator_due {s : State} {c : Nat} (act : (s.core c).cstate = .active) (set : (s.core c).ctlReg 4 ≠ 0)
    (due : ((s.core c).ctlReg 4).toNat ≤ s.clock.toNat) :
    s.comparator c = if ∃ i ∈ (s.core c).pend, i.level = 4 ∧ i.code = 0o400 then s
      else s.post c { level := 4, code := 0o400, param := 0, info := 0 } := by
  have ready : ((s.core c).active && s.clkPending (s.core c)) = true := by
    rw [Core.active, act, State.clkPending, bne_iff_ne.2 set, decide_eq_true due]
    rfl
  have known : ((s.core c).pend.any fun i => i.level == 4 && i.code == 0o400) = true ↔
      ∃ i ∈ (s.core c).pend, i.level = 4 ∧ i.code = 0o400 := by simp
  simp only [State.comparator, ready, Bool.true_and, Bool.not_eq_true', ← known]
  cases ((s.core c).pend.any fun i => i.level == 4 && i.code == 0o400) <;> rfl

/-! Stores and OUTs. -/

/-- The oldest entry of the store buffer is performed and leaves it; a release write only once every OUT is (R265, R279). -/
theorem State.drainOne_cons {s s1 : State} {c : Nat} {x : Store} {r : List Store} (head : (s.core c).stores = x :: r)
    (free : x.rel = false ∨ s.outPending c = false) (h : s.perform c x = some s1) :
    s.drainOne c = some (s1.setCore c { s1.core c with stores := (s1.core c).stores.drop 1 }) := by
  have go : ¬ (x.rel && s.outPending c) = true := by rcases free with h | h <;> simp [h]
  unfold State.drainOne
  rw [head]
  dsimp only
  rw [if_neg go, h, Option.map_some]

/-- A gather buffer with words is emitted as one write (R277). -/
theorem State.gatherEmit_some {s : State} {c : Nat} {g : Gather} (h : (s.core c).gather = some g) :
    s.gatherEmit c = (s.setCore c { s.core c with gather := none }).windowWrite c ((s.core c).sheet.getD 64) g.window
      (g.words.filterMap fun x => x.2.map fun v => (g.block * 16 + x.1, v)) := by
  unfold State.gatherEmit
  dsimp only
  rw [h]

/-- The first OUT whose zero-length read was asked for reaches its end point (R276). -/
theorem State.zeroReadDone_first {s : State} {c : Nat} {a b : List DevOut} {o : DevOut} (outs : (s.core c).outs = a ++ o :: b)
    (before : ∀ x ∈ a, x.asked = false) (asked : o.asked = true) :
    s.zeroReadDone c = s.setCore c { s.core c with outs := a ++ b } := by
  have first : (s.core c).outs.find? (·.asked) = some o := by
    rw [outs, List.find?_append, List.find?_eq_none.2 fun x hx => by simp [before x hx], Option.none_or, List.find?_cons_of_pos asked]
  have fresh : o ∉ a := fun h => absurd asked (by simp [before o h])
  have rest : (s.core c).outs.erase o = a ++ b := by rw [outs, List.erase_append_right _ fresh, List.erase_cons_head]
  unfold State.zeroReadDone
  dsimp only
  rw [first]
  dsimp only
  rw [rest]

/-! The data of an IN. -/

/-- What an IN does whose data have come (R276). -/
def inTakes (c v : Nat) (fs : List Formed) : M Unit := do
  let rs ← readyOps c false fs
  let _ ← readOp c false (opAt rs 1)
  writeOp c false (opAt rs 0) v

/-- An IN whose operands can be read takes its data (R276). -/
theorem inTakes_run {c v a : Nat} {fs : List Formed} {s sr sa t : State} {rs : List Rdy}
    (ready : (readyOps c false fs).run s = .ok (rs, sr)) (read : (readOp c false (opAt rs 1)).run sr = .ok (a, sa))
    (h : Deposits sa c false (opAt rs 0) v t) : (inTakes c v fs).run s = .ok ((), t) := by
  unfold inTakes
  rw [run_bind_ok ready, run_bind_ok read, writeOp_run h]

/-- The IN that waited goes on in its core and ends with its data (R276). -/
theorem State.inDone_takes {s s1 sf t : State} {c : Nat} {n : Insn} {v : Word} {d : Dec} {fs : List Formed} (core : n.core.val = c)
    (hb : Begins tIn n (s.setCore c { s.core c with run := .running }) d s1) (hf : Forms c d s1 fs sf)
    (h : (inTakes c v.toNat fs).run sf = .ok ((), t)) :
    s.inDone c n v = (if (s.setCore c { s.core c with run := .running }).waits.isEmpty then t else t.ran c).paused c := by
  subst core
  have ends := insn_ok (body := fun _ fs => inTakes n.core.val v.toNat fs) hb ((run_bind_ok hf).trans h)
  exact congrArg (fun u => (u.getD (s.setCore n.core.val { s.core n.core.val with run := .running })).paused n.core.val) ends

/-- The data of an IN in a core in service: with EP all ones, and the port keeps the error (R276, R564). -/
theorem State.devInDone_active {s : State} {c : Nat} {n : Insn} {p : Nat} (hrun : (s.core c).run = .devIn n p)
    (act : (s.core c).cstate = .active) (v : Word) (ep : Bool) :
    s.devInDone c v ep = (if ep then s.setFld (rpBlk (p / 2) (p % 2)) 1 12 12 1 else s).inDone c n
      (if ep then BitVec.allOnes 36 else v) := by
  have serves : ¬ (!(s.core c).active) = true := by simp [Core.active, act]
  unfold State.devInDone
  rw [hrun]
  dsimp only
  rw [if_neg serves]
  cases ep <;> rfl

/-! Power gating. -/

/-- The last core of a quire to go cold takes the L2 into retention, where the quire's duties are carried out (R372, R638). -/
theorem State.retain_eq (s : State) (q : Nat) : s.retain q =
    if s.acts (.quire (quireFin q)) = true ∧ (∀ i < (6 : Nat), (s.core (6 * q + i)).cold = true) ∧ s.rbit (qpwrBlk q) 0 9 = true then
      s.setFld (qpwrBlk q) 1 14 14 1
    else s := by
  simp only [State.retain, Bool.and_eq_true, List.all_eq_true, List.mem_range, and_assoc]

/-- A core that waits with PGW = 1 and drains goes cold (R282, R638). -/
theorem State.powerGate_cold {s s1 : State} {c : Nat} (duty : s.acts (.quire (quireFin (quireOf c))) = true)
    (act : (s.core c).cstate = .active) (waits : (s.core c).run = .wait) (warm : (s.core c).cold = false)
    (pgw : s.rbit (qpwrBlk (quireOf c)) 0 8 = true) (drained : s.drainEvent c = some s1) : s.powerGate c = s1.coreCold c := by
  have gates : ¬ (!(s.acts (.quire (quireFin (quireOf c))) && (s.core c).active && (s.core c).run == .wait && !(s.core c).cold &&
      s.rbit (qpwrBlk (quireOf c)) 0 8)) = true := by simp [duty, Core.active, act, waits, warm, pgw]
  unfold State.powerGate
  dsimp only
  rw [if_neg gates, drained]

end Sys2Proof.Machine

open Sys2Proof Sys2Proof.Machine

/-- Settles O21: IRET is `levelReturn`, in the cases of CHAIN, the bank of PLVL, SPL and the refill. -/
theorem returnRows : Obligations.ReturnRows := by
  unfold Obligations.ReturnRows
  intro n s d s1 hb c k back
  rw [iret_run hb]
  refine ⟨fun h => ?check, fun chain busy plain => ?frees, fun s2 chain busy spilled h => ?refills, fun chain busy spilled h => ?stops⟩
  case check => rw [levelReturn_fails h, outcome_check]
  case frees => rw [outcome_ok (levelReturn_frees chain busy plain)]; rfl
  case refills => rw [outcome_ok (levelReturn_refills chain busy spilled h)]; rfl
  case stops => rw [levelReturn_stops chain busy spilled h, outcome_trap]

/-- Settles O31: each event is its operation once the module is out of reset, and the operation's lemma gives the state. -/
theorem coreEvents : Obligations.CoreEvents := by
  unfold Obligations.CoreEvents
  intro c s alive
  have event {f : State → State} {t : State} (h : f s = t) : ends (s.whenAlive f) = .next t.follow := by rw [ends_whenAlive alive, h]
  refine ⟨?accept, ?comparator, ?drain, ?gather, ?zeroRead, ?data, ?cold⟩
  case accept =>
    intro i s0 v s1 hb hi warm acquire entry
    exact event ((State.acceptIrq_enters hb hi warm).trans (congrArg (Option.getD · s) (State.asyncEnter_vector acquire entry)))
  case comparator =>
    intro act set due
    exact event (State.comparator_due act set due)
  case drain =>
    intro x r s1 go head free h
    refine event ?_
    rw [if_pos go, State.drainOne_cons head free h, Option.getD_some]
  case gather =>
    intro g go h
    refine event ?_
    rw [if_pos go, State.gatherEmit_some h]
  case zeroRead =>
    intro a o b outs before asked
    exact event (State.zeroReadDone_first outs before asked)
  case data =>
    intro n p v ep hrun act core s1 s2 d s3 fs sf rs sr a sa t hb hf ready read h
    have value : (if ep then BitVec.allOnes 36 else v).toNat = if ep then 2 ^ 36 - 1 else v.toNat := by cases ep <;> rfl
    rw [← value] at h
    have done := (State.devInDone_active hrun act v ep).trans
      (State.inDone_takes (congrArg Fin.val core) hb hf (inTakes_run ready read h))
    exact event done
  case cold =>
    intro s1 duty act waits warm pgw drained s2
    exact event ((State.powerGate_cold duty act waits warm pgw drained).trans (State.retain_eq s2 (c.val / 6)))

end

section
/-! Root ports (O46): configuration requests and completions, inbound requests, containment and its release, the enable of the link, and
the rows from them. -/

namespace Sys2Proof.Machine
open Sys2Proof

/-! Configuration requests. -/

/-- A write of ROOTP_CFGA without GO issues nothing (R569). -/
theorem State.rpConfig_noGo (s : State) (t i : Nat) {v : Word} (go : dbit v 0 = false) :
    s.rpConfig t i v = s.setReg (rpBlk t i) 3 (v &&& maskOf 1 31) := by
  unfold State.rpConfig
  dsimp only
  rw [if_pos (by rw [go]; rfl)]

/-- A GO while no request is outstanding issues one at a port that is not contained, and ends with STAT 0o5 at one that is
(R569, R571). -/
theorem State.rpConfig_go {s s1 : State} {t i : Nat} {v : Word} (written : s1 = s.setReg (rpBlk t i) 3 (v &&& maskOf 1 31))
    (go : dbit v 0 = true) (idle : s1.rbit (rpBlk t i) 4 0 = false) :
    s.rpConfig t i v =
      if s1.contained t i then s1.setFld (rpBlk t i) 4 1 3 5
      else (s1.setFld (rpBlk t i) 4 0 0 1).emit (.rootConfig t i (field v 5 12 != (s1.setFld (rpBlk t i) 4 0 0 1).fld (rpBlk t i) 0 12 19)
        (v &&& maskOf 1 31) ((s1.setFld (rpBlk t i) 4 0 0 1).reg (rpBlk t i) 5)) := by
  unfold State.rpConfig
  dsimp only
  rw [← written, if_neg (by simp [go, idle])]

/-- A completion other than a timeout ends the outstanding request and contains nothing (R569). -/
theorem State.rpConfigDone_answered {s s1 : State} {t i stat : Nat} (busy : s.rbit (rpBlk t i) 4 0 = true) (answered : stat ≠ 7)
    (ended : s1 = (s.setFld (rpBlk t i) 4 0 0 0).setFld (rpBlk t i) 4 1 3 stat) (data : BitVec 32) :
    s.rpConfigDone t i stat data =
      if stat = 0 ∧ s1.rbit (rpBlk t i) 3 31 = false then s1.setFld (rpBlk t i) 5 4 35 data.toNat else s1 := by
  unfold State.rpConfigDone
  dsimp only
  rw [if_neg (by simp [busy]), if_neg answered, ← ended]

/-! Inbound requests. -/

/-- A requester that no valid ROOTP_RIDn names is refused at the first step: URRID, and a read gets Unsupported Request (R570). -/
theorem State.rpInbound_unknown {s : State} {t i : Nat} {r : InboundReq} (up : s.rpUp t i = true)
    (unknown : ∀ k < 64, ¬ (s.rbit (rpBlk t i) (0o100 + k) 0 = true ∧ s.fld (rpBlk t i) (0o100 + k) 20 35 = r.rid.toNat)) :
    s.rpInbound t i r =
      if r.write = none then (s.setFld (rpBlk t i) 1 13 13 1).emit (.rootUnsupported t i) else s.setFld (rpBlk t i) 1 13 13 1 := by
  have unmatched : ((List.range 64).find? fun k =>
      s.rbit (rpBlk t i) (0o100 + k) 0 && s.fld (rpBlk t i) (0o100 + k) 20 35 == r.rid.toNat) = none :=
    List.find?_eq_none.2 fun k hk => by simpa using unknown k (List.mem_range.1 hk)
  unfold State.rpInbound
  dsimp only
  rw [if_neg (by simp [up]), unmatched]
  simp only [Option.isNone_iff_eq_none]

/-! Containment. -/

/-- A cause that contains whatever CNF and CTO hold, with no header to log and no request outstanding: CONT, CAUSE and LSTATE are set,
the fault is raised, and what the cores have outstanding at the port ends (R571). -/
theorem State.rpContain_headless {s s1 : State} {t i cause : Nat} {hdr : List Word} (root : s.isRootPort t i = true)
    (free : s.contained t i = false) (contains : cause = 1 ∨ cause = 2 ∨ cause = 4) (headless : ∀ w ∈ hdr, w = 0)
    (held : s1 = ((s.setFld (rpBlk t i) 2 0 0 1).setFld (rpBlk t i) 2 1 4 cause).setFld (rpBlk t i) 1 0 2 4)
    (idle : s1.rbit (rpBlk t i) 4 0 = false) :
    s.rpContain t i cause hdr = (s1.fault (rpBlk t i) 0 (w36 cause)).rpRelease t i := by
  have enters : ¬ (!s.isRootPort t i || s.contained t i || !decide (1 ≤ cause ∧ cause ≤ 5) || (cause == 3 && !s.rbit (rpBlk t i) 0 10) ||
      (cause == 5 && !s.rbit (rpBlk t i) 0 11)) = true := by
    rcases contains with rfl | rfl | rfl <;> simp [root, free]
  have unlogged : (hdr.all (· == 0)) = true := List.all_eq_true.2 fun w hw => beq_iff_eq.2 (headless w hw)
  unfold State.rpContain State.setRpState
  dsimp only
  rw [if_neg enters, if_pos unlogged, ← held, if_neg (by rw [idle]; exact Bool.false_ne_true)]

/-- Bits of a register are kept by a store of a field at another offset of the block. -/
theorem State.rbit_setFld_ne (s : State) (b : Blk) {o o' : Nat} (lo hi v i : Nat) (h : o' ≠ o) :
    (s.setFld b o lo hi v).rbit b o' i = s.rbit b o' i :=
  State.rbit_setReg_ne s b _ i h

/-- A contained port acts on a REL that it holds: CONT and CAUSE clear, and the link trains again where LEN is 1 (R572). -/
theorem State.rpRelAct_held {s s2 : State} {t i : Nat} (contained : s.contained t i = true) (rel : 2 * t + i ∈ s.relHeld)
    (cleared : s2 = (({ s with relHeld := s.relHeld.filter (· ≠ 2 * t + i) } : State).setFld (rpBlk t i) 2 0 0 0).setFld (rpBlk t i) 2 1 4 0) :
    s.rpRelAct t i = s2.setFld (rpBlk t i) 1 0 2 (if s2.rbit (rpBlk t i) 0 0 then 1 else 0) := by
  have len : s2.rbit (rpBlk t i) 0 0 = s.rbit (rpBlk t i) 0 0 := by
    rw [cleared, State.rbit_setFld_ne _ _ _ _ _ _ (by decide), State.rbit_setFld_ne _ _ _ _ _ _ (by decide)]
    rfl
  have same : s.relHeld.filter (· != 2 * t + i) = s.relHeld.filter (· ≠ 2 * t + i) :=
    List.filter_congr fun x _ => by simp [bne, beq_eq_decide]
  unfold State.rpRelAct State.setRpState
  dsimp only
  rw [if_neg (by simp [contained, rel]), same, ← cleared, len]
  rfl

/-! The enable of the link. -/

/-- A write of LEN at a root port that is not contained: a disabled link starts detection, and one that is disabled goes down
(R568, R573). -/
theorem State.rpEnable_root {s s1 : State} {t i : Nat} {en : Bool} (written : s1 = s.setFld (rpBlk t i) 0 0 0 (if en then 1 else 0))
    (root : s1.isRootPort t i = true) (free : s1.contained t i = false) :
    s.rpEnable t i en =
      if en then (if s1.fld (rpBlk t i) 1 0 2 = 0 then s1.setFld (rpBlk t i) 1 0 2 1 else s1) else s1.setFld (rpBlk t i) 1 0 2 0 := by
  unfold State.rpEnable State.setRpState State.rpState b2n
  dsimp only
  rw [← written, if_neg (by simp [root, free])]

end Sys2Proof.Machine

open Sys2Proof Sys2Proof.Machine

/-- Settles O46, row by row: out of reset each row is its operation at the port, and the operation's lemma for the case gives the state. -/
theorem rootPortRows : Obligations.RootPortRows := by
  unfold Obligations.RootPortRows
  intro p s alive b t i
  refine ⟨fun v => ⟨fun go => ?written, fun go idle free => ?issued, fun go idle contained => ?ended⟩, fun stat data busy answered => ?completed,
    fun r up unknown => ?refused, fun cause hdr root free contains headless idle => ?contains, fun contained rel => ?released,
    fun w => ?armed, fun en root free => ?enabled⟩
  case written =>
    rw [exec_rootpConfigIssue, execRootpConfigIssue, ends_whenAlive alive, State.rpConfig_noGo s t i go]
  case issued =>
    rw [exec_rootpConfigIssue, execRootpConfigIssue, ends_whenAlive alive, State.rpConfig_go rfl go idle, if_neg (Bool.eq_false_iff.1 free)]
  case ended =>
    rw [exec_rootpConfigIssue, execRootpConfigIssue, ends_whenAlive alive, State.rpConfig_go rfl go idle, if_pos contained]
  case completed =>
    rw [exec_rootpConfigCompletion, execRootpConfigCompletion, ends_whenAlive alive, State.rpConfigDone_answered busy answered rfl]
  case refused =>
    rw [exec_inboundRequest, execInboundRequest, ends_whenAlive alive, State.rpInbound_unknown up unknown]
  case contains =>
    rw [exec_containment, execContainment, ends_whenAlive alive, State.rpContain_headless root free contains headless rfl idle]
    rfl
  case released =>
    rw [exec_containmentRelease, execContainmentRelease, ends_whenAlive alive, State.rpRelAct_held contained rel rfl]
  case armed =>
    rw [exec_rootpWindowArm, execRootpWindowArm, ends_whenAlive alive, State.rpArm]
  case enabled =>
    rw [exec_rootpLinkEnable, execRootpLinkEnable, ends_whenAlive alive, State.rpEnable_root rfl root free]

end

section
/-! Requests at a home (O34): how a request that arrives comes to be run, what the home's table answers to each kind, and the rows from
them. -/

namespace Sys2Proof.Machine
open Sys2Proof

/-! The arrival of a request. -/

/-- A home written twice holds the second value. -/
theorem State.setHome_setHome (s : State) (h : Nat) (x y : Home) : (s.setHome h x).setHome h y = s.setHome h y := by
  simp only [State.setHome, Tab.set_set]

/-- The requester's own record of a request leaves every home (R328). -/
theorem State.home_issued (s : State) (r l : Nat) (k : ReqKind) (cnt h : Nat) : (s.issued r l k cnt).home h = s.home h := by
  have onOpen {p f t} (found : s.onOpen p f = some t) : t.home h = s.home h := by
    unfold State.onOpen at found
    split at found
    · cases found
    · cases found
      rfl
  unfold State.issued
  split
  · split
    next t reissued =>
      split at reissued
      · cases reissued
      · exact onOpen reissued
    next => rfl
  · dsimp only
    split <;> rw [State.home_of_setQline]

/-- A list whose one entry `a` gives `x`, each other entry nothing, gives `x` once. -/
theorem flatMap_single {α β : Type} {l : List α} {f : α → List β} {a : α} {x : β} (distinct : l.Nodup) (mem : a ∈ l)
    (here : f a = [x]) (away : ∀ i ∈ l, i ≠ a → f i = []) : l.flatMap f = [x] := by
  obtain ⟨u, v, rfl⟩ := List.append_of_mem mem
  have apart : a ∉ u ++ v := (List.nodup_cons.1 (List.nodup_middle.1 distinct)).1
  have before : u.flatMap f = [] := List.flatMap_eq_nil_iff.2 fun i hi => away i (by simp [hi]) (by rintro rfl; simp [hi] at apart)
  have behind : v.flatMap f = [] := List.flatMap_eq_nil_iff.2 fun i hi => away i (by simp [hi]) (by rintro rfl; simp [hi] at apart)
  rw [List.flatMap_append, List.flatMap_cons, before, here, behind, List.nil_append, List.append_nil]

/-- A request that is alone in its cycle has its turn, wherever the rotation pointer stands (R327). -/
theorem turn_single {rq : HReq} (who : rq.who < 40) (ptr : Nat) :
    ((List.range 40).flatMap fun i => [rq].filter fun q => q.who == (ptr + i) % 40) = [rq] := by
  refine flatMap_single (a := (rq.who + 40 - ptr % 40) % 40) List.nodup_range (List.mem_range.2 (Nat.mod_lt _ (by decide))) ?_ ?_
  · exact List.filter_eq_self.2 fun q hq => by rw [List.mem_singleton.1 hq, beq_iff_eq]; omega
  · intro i hi other
    have lt := List.mem_range.1 hi
    exact List.filter_eq_nil_iff.2 fun q hq => by rw [List.mem_singleton.1 hq, beq_iff_eq]; omega

/-- Where no other request for the line is in the cycle, the cycle is the request, once the rotation pointer has moved past it (R327). -/
theorem State.homeCycle_single {s : State} {h l : Nat} {k : Home} {rq : HReq} (who : rq.who < 40) (others : ∀ x ∈ k.arrivals, x.1 ≠ l) :
    (s.setHome h { k with arrivals := k.arrivals ++ [(l, rq)] }).homeCycle h l =
      (s.setHome h { k with ptr := (rq.who + 1) % 40 }).homeOne h l rq := by
  have mine : (k.arrivals ++ [(l, rq)]).filter (·.1 == l) = [(l, rq)] := by
    rw [List.filter_append, List.filter_eq_nil_iff.2 fun x hx => by simp [others x hx]]
    simp
  have rest : (k.arrivals ++ [(l, rq)]).filter (·.1 != l) = k.arrivals := by
    rw [List.filter_append, List.filter_eq_self.2 fun x hx => by simp [others x hx]]
    simp
  unfold State.homeCycle
  simp only [State.home_setHome, State.setHome_setHome, mine, rest, List.map_cons, List.map_nil, turn_single who, List.foldl_cons,
    List.foldl_nil]

/-- A home takes a request that arrives for a line free to run it: it runs it, or the request waits for the memory controller
(R326, R339, R389). -/
theorem Arrives.take {s s1 : State} {h r l cnt : Nat} {k : ReqKind} {a : Ask} (A : Arrives s h r l k cnt a s1) {rq : HReq}
    (kind : rq.kind = k) : s1.homeTake h l rq false = some ((s1.homeRun h l rq).getD (s1.homeWait h l rq)) := by
  have idle : (s1.dirE h l).idle = true := by rw [DirEntry.idle, A.idle.1, A.idle.2]; rfl
  have clear : ((s1.home h).waiting.any (·.1 == l)) = false := List.any_eq_false.2 fun w hw => by simpa using A.clear w hw
  have start : s1.homeStart h l rq false = some ((s1.homeRun h l rq).getD (s1.homeWait h l rq)) := by
    unfold State.homeStart
    by_cases needs : (k.allocates && (s1.dirE h l).st == .di) = true
    · obtain ⟨free, unreserved⟩ := A.way (Bool.and_eq_true_iff.1 needs).1 (beq_iff_eq.1 (Bool.and_eq_true_iff.1 needs).2)
      simp [kind, needs, free, unreserved]
    · simp [kind, needs]
  unfold State.homeTake
  simp [idle, clear, start]

/-- A row whose request arrives for a line free to run it, and is answered by the home's table: it has been taken (R326, R333). -/
theorem Arrives.answered {s s1 s2 : State} {h r l cnt : Nat} {k : ReqKind} {a : Ask} (A : Arrives s h r l k cnt a s1) (index : r < 40)
    {data : Option Line} (run : s1.homeRun h l (reqOf k r cnt data) = some s2) :
    ends (s.homeReq h r l k cnt data a) = .next (s2.tookReq h r l).follow := by
  have cycle : s.homeReq h r l k cnt data a = s1.homeOne h l (reqOf k r cnt data) := by
    unfold State.homeReq
    simp only [A.live, A.owned, A.alone.1, bne_self_eq_false, Bool.not_true, Bool.false_eq_true, if_false, State.home_issued, A.noted]
    exact State.homeCycle_single index A.alone.2
  unfold State.homeOne at cycle
  rw [ends_follow, cycle, A.take rfl, run]
  rfl

/-- A quire is among the 40 requesters (R316). -/
theorem quire_index (q : QuireId) : q.val < 40 := q.isLt.trans (by decide)

/-! The home's table, one lemma a row and state (R333-R335). -/

section
variable {s s2 : State} {h l r cnt o : Nat} {d : Line}

/-- GetS of a line that no quire holds (R333). -/
theorem State.homeRun_getS_di (st : (s.dirE h l).st = .di) (data : s.homeData h l = some (d, s2)) :
    s.homeRun h l (reqOf .getS r cnt none) =
      some ((s2.web "DataE" h r l (some d) 0).busy h l (txnOf .bd (reqOf .getS r cnt none) [] false false)) := by
  simp only [State.homeRun, reqOf, st, data, Option.map_some]

/-- GetS of a line that quires share (R333). -/
theorem State.homeRun_getS_ds (st : (s.dirE h l).st = .ds) (data : s.homeData h l = some (d, s2)) :
    s.homeRun h l (reqOf .getS r cnt none) =
      some ((s2.web "DataS" h r l (some d) 0).busy h l (txnOf .bd (reqOf .getS r cnt none) [] false false)) := by
  simp only [State.homeRun, reqOf, st, data, Option.map_some]

/-- GetS of a line with an owner (R333). -/
theorem State.homeRun_getS_owned (st : (s.dirE h l).st = .dO ∨ (s.dirE h l).st = .dx) (owner : (s.dirE h l).owner = some o) :
    s.homeRun h l (reqOf .getS r cnt none) =
      some ((s.web "FwdGetS" h o l none r).busy h l (txnOf .bd (reqOf .getS r cnt none) [] false true)) := by
  rcases st with st | st <;> simp only [State.homeRun, reqOf, st, owner, Option.getD_some]

/-- GetM of a line that no quire holds (R333). -/
theorem State.homeRun_getM_di (st : (s.dirE h l).st = .di) (data : s.homeData h l = some (d, s2)) :
    s.homeRun h l (reqOf .getM r cnt none) =
      some ((s2.web "DataM" h r l (some d) 0).busy h l (txnOf .bd (reqOf .getM r cnt none) [] false false)) := by
  simp only [State.homeRun, reqOf, st, data, Option.map_some]

/-- GetM of a line that quires share, each of which is sent an Inv (R333). -/
theorem State.homeRun_getM_ds {sh : List Nat} (sharers : sh = s.shOf l (s.dirE h l) (some r)) (st : (s.dirE h l).st = .ds)
    (data : s.homeData h l = some (d, s2)) :
    s.homeRun h l (reqOf .getM r cnt none) =
      some (((s2.web "DataM" h r l (some d) sh.length).sendInv h l (s.dirE h l).bc sh r).busy h l
        (txnOf .bd (reqOf .getM r cnt none) [] false false)) := by
  simp only [State.homeRun, reqOf, st, data, Option.map_some, sharers]

/-- GetM of the owner of a shared line (R333). -/
theorem State.homeRun_getM_owner {sh : List Nat} (sharers : sh = s.shOf l (s.dirE h l) (some r)) (st : (s.dirE h l).st = .dO)
    (owner : (s.dirE h l).owner = some r) :
    s.homeRun h l (reqOf .getM r cnt none) =
      some (((s.web "GrantM" h r l none sh.length).sendInv h l (s.dirE h l).bc sh r).busy h l
        (txnOf .bd (reqOf .getM r cnt none) [] false false)) := by
  simp only [State.homeRun, reqOf, st, owner, sharers, beq_self_eq_true, if_true, Bool.not_true]

/-- GetM of a shared line with another owner (R333). -/
theorem State.homeRun_getM_dO {sh : List Nat} (sharers : sh = s.shOf l (s.dirE h l) (some r)) (st : (s.dirE h l).st = .dO)
    (owner : (s.dirE h l).owner = some o) (other : o ≠ r) :
    s.homeRun h l (reqOf .getM r cnt none) =
      some (((s.web "FwdGetM" h o l none (64 * r + sh.length)).sendInv h l (s.dirE h l).bc sh r).busy h l
        (txnOf .bd (reqOf .getM r cnt none) [] false true)) := by
  have notMine : (some o == some r) = false := by simpa using other
  simp only [State.homeRun, reqOf, st, owner, sharers, notMine, Bool.false_eq_true, if_false, Option.getD_some, Bool.not_false]

/-- GetM of a line that its owner alone holds (R333). -/
theorem State.homeRun_getM_dx (st : (s.dirE h l).st = .dx) (owner : (s.dirE h l).owner = some o) :
    s.homeRun h l (reqOf .getM r cnt none) =
      some ((s.web "FwdGetM" h o l none (64 * r)).busy h l (txnOf .bd (reqOf .getM r cnt none) [] false true)) := by
  simp only [State.homeRun, reqOf, st, owner, Option.getD_some]

/-- GetZ of a line that no quire holds (R333). -/
theorem State.homeRun_getZ_di (st : (s.dirE h l).st = .di) :
    s.homeRun h l (reqOf .getZ r cnt none) =
      some ((s.web "GrantM" h r l none 0).busy h l (txnOf .bd (reqOf .getZ r cnt none) [] false false)) := by
  simp only [State.homeRun, reqOf, st]

/-- GetZ of a line that quires share: the home collects their InvAcks (R333). -/
theorem State.homeRun_getZ_ds {sh : List Nat} (sharers : sh = s.shOf l (s.dirE h l) (some r)) (st : (s.dirE h l).st = .ds) :
    s.homeRun h l (reqOf .getZ r cnt none) =
      some (((s.sendInv h l (s.dirE h l).bc sh homeCollects).busy h l (txnOf .bc (reqOf .getZ r cnt none) sh false false)).tryComplete
        h l) := by
  simp only [State.homeRun, reqOf, st, sharers, Bool.false_eq_true, if_false]

/-- GetZ or MFlush of a line that its owner alone holds: the home recalls it (R333). -/
theorem State.homeRun_recall {k : ReqKind} (kind : k = .getZ ∨ k = .mFlush) (st : (s.dirE h l).st = .dx)
    (owner : (s.dirE h l).owner = some o) :
    s.homeRun h l (reqOf k r cnt none) =
      some ((((s.sendInv h l (s.dirE h l).bc [] homeCollects).web "Recall" h o l none 0).busy h l
        (txnOf .bc (reqOf k r cnt none) [] true false)).tryComplete h l) := by
  rcases kind with rfl | rfl <;> simp only [State.homeRun, reqOf, st, owner, if_true, State.sendRecall]

/-- A Put of a quire that is not the owner is stale (R334, R341). -/
theorem State.homeRun_put_stale {k : ReqKind} {data : Option Line} (kind : k = .putM ∨ k = .putE)
    (notOwner : (s.dirE h l).owner ≠ some r) :
    s.homeRun h l (reqOf k r cnt data) = some (s.web "StaleAck" h r l none 0) := by
  rcases kind with rfl | rfl <;> simp [State.homeRun, reqOf, notOwner]

/-- What a Put of its owner leaves of a line's entry: a shared line stays, without an owner (R334). -/
def State.putEntry (s : State) (h l : Nat) (e : DirEntry) : State :=
  if e.st = .dx then s.freeEntry h l else s.putDir h l { e with owner := none, st := .ds }

/-- PutM of the owner (R334). -/
theorem State.homeRun_putM_owner (owner : (s.dirE h l).owner = some r) (takes : s.canWrite h l = true) :
    s.homeRun h l (reqOf .putM r cnt (some d)) =
      some (((s.homeWrite h l d).putEntry h l (s.dirE h l)).web "PutAck" h r l none 0) := by
  simp [State.homeRun, reqOf, owner, takes, State.putEntry]

/-- PutE of the owner (R334). -/
theorem State.homeRun_putE_owner (owner : (s.dirE h l).owner = some r) :
    s.homeRun h l (reqOf .putE r cnt none) = some ((s.putEntry h l (s.dirE h l)).web "PutAck" h r l none 0) := by
  simp [State.homeRun, reqOf, owner, State.putEntry]

/-- MClean of a line without an owner (R333). -/
theorem State.homeRun_mClean_unowned (st : (s.dirE h l).st = .di ∨ (s.dirE h l).st = .ds) (clean : s.l3Clean h l = some s2) :
    s.homeRun h l (reqOf .mClean r cnt none) = some (s2.web "Cmp" h r l none 0) := by
  rcases st with st | st <;> simp only [State.homeRun, reqOf, st, clean, Option.map_some]

/-- MClean of a line with an owner, which is asked for it (R333). -/
theorem State.homeRun_mClean_owned (st : (s.dirE h l).st = .dO ∨ (s.dirE h l).st = .dx) (owner : (s.dirE h l).owner = some o) :
    s.homeRun h l (reqOf .mClean r cnt none) =
      some ((s.web "Snp" h o l none 1).busy h l (txnOf .bs (reqOf .mClean r cnt none) [] true false)) := by
  rcases st with st | st <;> simp only [State.homeRun, reqOf, st, owner, Option.getD_some]

/-- MFlush of a line that only the L3 holds, dirty (R333, R335). -/
theorem State.homeRun_mFlush_dirty (st : (s.dirE h l).st = .di) (up : s.memUp l = true)
    (l3 : s.l3Line h l = some { data := d, dirty := true }) :
    s.homeRun h l (reqOf .mFlush r cnt none) =
      some ((((s.memWrite l d).setL3 h l none).freeEntry h l).web "Cmp" h r l none 0) := by
  simp [State.homeRun, State.complete, reqOf, txnOf, st, up, l3]

/-- MFlush of a line that no quire holds and that the L3 does not hold dirty (R333, R335). -/
theorem State.homeRun_mFlush_clean (st : (s.dirE h l).st = .di) (l3 : ∀ x, s.l3Line h l = some x → x.dirty = false) :
    s.homeRun h l (reqOf .mFlush r cnt none) = some (((s.setL3 h l none).freeEntry h l).web "Cmp" h r l none 0) := by
  cases line : s.l3Line h l with
  | none => simp [State.homeRun, State.complete, reqOf, txnOf, st, line]
  | some x => simp [State.homeRun, State.complete, reqOf, txnOf, st, line, l3 x line]

/-- MPurge of a line that no quire holds (R333, R335). -/
theorem State.homeRun_mPurge_di (st : (s.dirE h l).st = .di) :
    s.homeRun h l (reqOf .mPurge r cnt none) = some (((s.setL3 h l none).freeEntry h l).web "Cmp" h r l none 0) := by
  simp only [State.homeRun, State.complete, reqOf, txnOf, st]

/-- ReadNC of a line without an owner (R333). -/
theorem State.homeRun_readNC_unowned (st : (s.dirE h l).st = .di ∨ (s.dirE h l).st = .ds)
    (data : (s.useDir h l).homeData h l = some (d, s2)) :
    s.homeRun h l (reqOf .readNC r cnt none) = some (s2.web "DataNC" h r l (some d) 0) := by
  rcases st with st | st <;> simp only [State.homeRun, reqOf, st, data, Option.map_some]

/-- ReadNC of a line with an owner, which is asked for it (R333). -/
theorem State.homeRun_readNC_owned (st : (s.dirE h l).st = .dO ∨ (s.dirE h l).st = .dx) (owner : (s.dirE h l).owner = some o) :
    s.homeRun h l (reqOf .readNC r cnt none) =
      some ((s.web "Snp" h o l none 0).busy h l (txnOf .bs (reqOf .readNC r cnt none) [] true false)) := by
  rcases st with st | st <;> simp only [State.homeRun, reqOf, st, owner, Option.getD_some]

/-- WriteNC of a line that no quire holds (R333, R335). -/
theorem State.homeRun_writeNC_di {mask : BitVec 16} {ws : Vector Word 16} (st : (s.dirE h l).st = .di)
    (data : s.homeData h l = some (d, s2)) (takes : s2.canWrite h l = true) :
    s.homeRun h l (reqOf (.writeNC mask ws) r cnt none) =
      some ((s2.homeWrite h l (ncApply (.writeNC mask ws) d).1).web "CmpNC" h r l none 0) := by
  simp [State.homeRun, reqOf, st, data, takes, ncApply]

/-- AtomNC of a line that no quire holds (R333, R335). -/
theorem State.homeRun_atomNC_di {op : AtomOp} {dbl : Bool} {i : Nat} {v : DWord} (st : (s.dirE h l).st = .di)
    (data : s.homeData h l = some (d, s2)) (takes : s2.canWrite h l = true) :
    s.homeRun h l (reqOf (.atomNC op dbl i v) r cnt none) =
      some ((s2.homeWrite h l (ncApply (.atomNC op dbl i v) d).1).web "CmpNC" h r l none (ncApply (.atomNC op dbl i v) d).2.toNat) := by
  simp [State.homeRun, reqOf, st, data, takes]

end

/-! What an interlocked operation writes and answers (R170, R187, R335). -/

/-- An AtomNC on a word: the word where the operation gives one, and the old word as the answer. -/
theorem ncApply_atomNC_word (op : AtomOp) (i : Fin 16) (v : DWord) (d : Line) :
    ncApply (.atomNC op false i.val v) d =
      ((atomValue op 36 d.words[i].toNat (v.toNat % 2 ^ 36)).elim d fun n => { d with words := d.words.set i (BitVec.ofNat 36 n) },
        BitVec.ofNat 72 d.words[i].toNat) := by
  have old : vget d.words i.val 0 = d.words[i] := vget_eq _ _ i.isLt
  have put (w : Word) : vset d.words i.val w = d.words.set i w :=
    Vector.ext fun k _ => by simp [vset, Vector.getElem_set, Vector.getElem_setIfInBounds]
  simp only [ncApply, old, put, Bool.false_eq_true, if_false]
  cases atomValue op 36 d.words[i].toNat (v.toNat % 2 ^ 36) <;> rfl

/-- An AtomNC on a doubleword: the doubleword where the operation gives one, and the old doubleword as the answer. -/
theorem ncApply_atomNC_dword (op : AtomOp) (i : Nat) (v : DWord) (d : Line) :
    ncApply (.atomNC op true i v) d =
      ((atomValue op 72 (lineDw d (i / 2)).toNat v.toNat).elim d fun n => linePutDw d (i / 2) (BitVec.allOnes 72) (BitVec.ofNat 72 n),
        lineDw d (i / 2)) := by
  simp only [ncApply, if_true]
  cases atomValue op 72 (lineDw d (i / 2)).toNat v.toNat <;> rfl

/-- A word is the same number in 72 bits. -/
theorem toNat_ofNat_word (w : Word) : (BitVec.ofNat 72 w.toNat).toNat = w.toNat := by
  rw [BitVec.toNat_ofNat, Nat.mod_eq_of_lt (w.isLt.trans (by decide))]

end Sys2Proof.Machine

open Sys2Proof Sys2Proof.Machine

/-- Settles O34, clause by clause: a request that arrives for a free line is run by the home's table (`Arrives.answered`), whose answer is the
lemma of its row and state. -/
theorem homeRequests : Obligations.HomeRequests := by
  refine ⟨?reads, ?others⟩
  case' reads =>
    intro h q line cnt a s s1 l e sh
    refine ⟨fun A => ?getS, fun A => ?getM, fun A => ?getZ⟩
  case' others =>
    intro h line cnt a s s1 l e
    refine ⟨fun q data A => ?putM, fun q A => ?putE, fun q A => ?mClean, fun q A => ?mFlush, fun q A st => ?mPurge,
      fun r A => ?readNC, fun r mask ws d s2 A st found takes => ?writeNC,
      fun r op i v d s2 => ⟨fun A st found takes => ?atomWord, fun A st found takes => ?atomDword⟩⟩
  case getS =>
    simp only [exec_gets, execGets]
    exact ⟨fun d s2 st found => A.answered (quire_index q) (State.homeRun_getS_di st found),
      fun d s2 st found => A.answered (quire_index q) (State.homeRun_getS_ds st found),
      fun o st owner => A.answered (quire_index q) (State.homeRun_getS_owned st owner)⟩
  case getM =>
    simp only [exec_getm, execGetm]
    exact ⟨fun d s2 st found => A.answered (quire_index q) (State.homeRun_getM_di st found),
      fun d s2 st found => A.answered (quire_index q) (State.homeRun_getM_ds rfl st found),
      fun st owner => A.answered (quire_index q) (State.homeRun_getM_owner rfl st owner),
      fun o st owner other => A.answered (quire_index q) (State.homeRun_getM_dO rfl st owner other),
      fun o st owner => A.answered (quire_index q) (State.homeRun_getM_dx st owner)⟩
  case getZ =>
    simp only [exec_getz, execGetz]
    exact ⟨fun st => A.answered (quire_index q) (State.homeRun_getZ_di st),
      fun st => A.answered (quire_index q) (State.homeRun_getZ_ds rfl st),
      fun o st owner => A.answered (quire_index q) (State.homeRun_recall (.inl rfl) st owner)⟩
  case putM =>
    simp only [exec_putm, execPutm]
    exact ⟨fun owner takes => A.answered (quire_index q) (State.homeRun_putM_owner owner takes),
      fun notOwner => A.answered (quire_index q) (State.homeRun_put_stale (.inl rfl) notOwner)⟩
  case putE =>
    simp only [exec_pute, execPute]
    exact ⟨fun owner => A.answered (quire_index q) (State.homeRun_putE_owner owner),
      fun notOwner => A.answered (quire_index q) (State.homeRun_put_stale (.inr rfl) notOwner)⟩
  case mClean =>
    simp only [exec_mclean, execMclean]
    exact ⟨fun s2 st clean => A.answered (quire_index q) (State.homeRun_mClean_unowned st clean),
      fun o st owner => A.answered (quire_index q) (State.homeRun_mClean_owned st owner)⟩
  case mFlush =>
    simp only [exec_mflush, execMflush]
    exact ⟨fun d st up l3 => A.answered (quire_index q) (State.homeRun_mFlush_dirty st up l3),
      fun st l3 => A.answered (quire_index q) (State.homeRun_mFlush_clean st l3),
      fun o st owner => A.answered (quire_index q) (State.homeRun_recall (.inr rfl) st owner)⟩
  case mPurge =>
    rw [exec_mpurge, execMpurge, A.answered (quire_index q) (State.homeRun_mPurge_di st)]
  case readNC =>
    simp only [exec_readnc, execReadnc]
    exact ⟨fun d s2 st found => A.answered r.isLt (State.homeRun_readNC_unowned st found),
      fun o st owner => A.answered r.isLt (State.homeRun_readNC_owned st owner)⟩
  case writeNC =>
    rw [exec_writenc, execWritenc, A.answered r.isLt (State.homeRun_writeNC_di st found takes)]
    rfl
  case atomWord =>
    intro x
    have written : ncApply (.atomNC op false i.val v) d = (x, BitVec.ofNat 72 d.words[i].toNat) := by
      rw [ncApply_atomNC_word]
      simp only [x]
      cases atomValue op 36 d.words[i].toNat (v.toNat % 2 ^ 36) <;> rfl
    rw [exec_atomnc, execAtomnc, A.answered r.isLt (State.homeRun_atomNC_di st found takes), written, toNat_ofNat_word]
  case atomDword =>
    intro old x
    have written : ncApply (.atomNC op true i.val v) d = (x, old) := by
      rw [ncApply_atomNC_dword]
      simp only [x]
      cases atomValue op 72 old.toNat v.toNat <;> rfl
    rw [exec_atomnc, execAtomnc, A.answered r.isLt (State.homeRun_atomNC_di st found takes), written]

end

section
/-! Answers at a home (O35): what Done, SData, RData, an InvAck and a time-out do to a busy line, and the rows from them. -/

namespace Sys2Proof.Machine
open Sys2Proof

/-! Sharers of an entry (R338). -/

/-- A quire that is no sharer becomes one where a pointer is free. -/
theorem DirEntry.share_room {e : DirEntry} {q : Nat} (bc : e.bc = false) (fresh : q ∉ e.sharers) (room : e.sharers.length < 4) :
    e.share q = { e with sharers := e.sharers ++ [q] } := by
  simp [DirEntry.share, bc, fresh, room]

/-- One for which no pointer is free sets BC. -/
theorem DirEntry.share_full {e : DirEntry} {q : Nat} (bc : e.bc = false) (fresh : q ∉ e.sharers) (full : 4 ≤ e.sharers.length) :
    e.share q = { e with bc := true, sharers := [] } := by
  simp [DirEntry.share, bc, fresh, Nat.not_lt.2 full]

/-! Messages at a line whose home and sheet serve. -/

section
variable {s : State} {h q l : Nat} {t : Txn} (live : s.lineLive h l = true)
include live

/-- Done of the requester that came to own the line (R336). -/
theorem State.homeDone_owned {f : FinalState} (final : f = .m ∨ f = .e) (runs : (s.dirE h l).txn = some t) (busy : t.busy = .bd)
    (who : t.req.who = q) :
    s.homeDone h q l f =
      (s.putDir h l { s.dirE h l with txn := none, st := .dx, owner := some q, sharers := [], bc := false }).homeAfter h l := by
  rcases final with rfl | rfl <;> simp [State.homeDone, live, runs, busy, who]

/-- Done of the requester that came to share the line (R336). -/
theorem State.homeDone_shared {e : DirEntry} (runs : (s.dirE h l).txn = some t) (busy : t.busy = .bd) (who : t.req.who = q)
    (shares : ({ s.dirE h l with txn := none } : DirEntry).share q = e) :
    s.homeDone h q l .s = (s.putDir h l { e with st := if t.fwd then .dO else .ds }).homeAfter h l := by
  cases fwd : t.fwd <;> simp [State.homeDone, live, runs, busy, who, fwd, shares]

/-- SData that is awaited of the owner (R334, R335). -/
theorem State.homeSData_awaited {x : Line} {d : Bool} (runs : (s.dirE h l).txn = some t) (busy : t.busy = .bs)
    (needs : t.needD = true) (owner : (s.dirE h l).owner = some q) :
    s.homeSData h q l x d = (s.busy h l { t with needD := false, got := some (x, d) }).homeAfter h l := by
  simp [State.homeSData, live, runs, busy, needs, owner]

/-- RData that is awaited of the owner (R334, R335). -/
theorem State.homeRData_awaited {x : Line} {d : Bool} (runs : (s.dirE h l).txn = some t) (busy : t.busy = .bc)
    (needs : t.needD = true) (owner : (s.dirE h l).owner = some q) :
    s.homeRData h q l x d = (s.busy h l { t with needD := false, got := some (x, d) }).homeAfter h l := by
  simp [State.homeRData, live, runs, busy, needs, owner]

/-- An InvAck that is awaited (R334, R335). -/
theorem State.homeAck_awaited (runs : (s.dirE h l).txn = some t) (busy : t.busy = .bc) (awaited : q ∈ t.acks) :
    s.homeAck h q l = (s.busy h l { t with acks := t.acks.erase q }).homeAfter h l := by
  simp [State.homeAck, live, runs, busy, awaited]

/-- Each answer to a line that runs no transaction is a protocol error (R343). -/
theorem State.badAtHome_of_unasked (runsNone : (s.dirE h l).txn = none) (f : FinalState) (x : Line) (d : Bool) :
    s.homeDone h q l f = s.badAtHome h q ∧ s.homeSData h q l x d = s.badAtHome h q ∧ s.homeRData h q l x d = s.badAtHome h q ∧
      s.homeAck h q l = s.badAtHome h q := by
  simp [State.homeDone, State.homeSData, State.homeRData, State.homeAck, live, runsNone]

/-- A transaction that has stayed busy for T cycles shows the agents dead that it waits for: its requester for Done, otherwise those
whose InvAck is missing and an owner whose data are (R343). -/
theorem State.homeTimedOut_busy (runs : (s.dirE h l).txn = some t) :
    s.homeTimedOut h l = (s.fault (dirBlk h) 1 (w36 l)).quiresDead
      ((if t.busy = .bd then [t.req.who] else t.acks ++ if t.needD then (s.dirE h l).owner.toList else []).filter fun r => r < 32) 1 := by
  simp [State.homeTimedOut, live, runs]

end

end Sys2Proof.Machine

open Sys2Proof Sys2Proof.Machine

/-- Settles O35, row by row: each row is its operation at the home, and the operation's lemma for the case gives the state. -/
theorem homeAnswers : Obligations.HomeAnswers := by
  intro h q line s live l e
  refine ⟨fun t runs busy who => ⟨?owned, ?owned, fun bc fresh room => ?shared, fun bc fresh full => ?broadcast⟩,
    fun t x d runs needs owner => ⟨fun busy => ?sdata, fun busy => ?rdata⟩, fun t runs busy awaited => ?invAck, fun f x d runsNone => ?unasked,
    fun t runs => ?timeout⟩
  case owned =>
    rw [exec_done, execDone, ends_follow, State.homeDone_owned live (by simp) runs busy who]
  case shared =>
    rw [exec_done, execDone, ends_follow, State.homeDone_shared live runs busy who (DirEntry.share_room bc fresh room)]
  case broadcast =>
    rw [exec_done, execDone, ends_follow, State.homeDone_shared live runs busy who (DirEntry.share_full bc fresh full)]
  case sdata =>
    rw [exec_sdata, execSdata, ends_follow, State.homeSData_awaited live runs busy needs owner]
  case rdata =>
    rw [exec_rdata, execRdata, ends_follow, State.homeRData_awaited live runs busy needs owner]
  case invAck =>
    rw [exec_homeInvack, execHomeInvack, ends_follow, State.homeAck_awaited live runs busy awaited]
  case unasked =>
    obtain ⟨done, sdata, rdata, ack⟩ := State.badAtHome_of_unasked (q := q.val) live runsNone f x d
    rw [exec_done, execDone, exec_sdata, execSdata, exec_rdata, execRdata, exec_homeInvack, execHomeInvack, done, sdata, rdata, ack]
    exact ⟨rfl, rfl, rfl, rfl⟩
  case timeout =>
    rw [exec_homeTimeout, execHomeTimeout, ends_follow, State.homeTimedOut_busy live runs]
    rfl

end

section
/-! Answers and forwards at a quire (O36): what each message does to the quire's line, what a Retry, a reissue and the answers to requests
without a line state do, and the rows from them. -/

namespace Sys2Proof.Machine
open Sys2Proof

/-! Answers to the requests of a quire's line (R330). -/

/-- A set with a way for the line gives up no other (R286, R299). -/
theorem State.fillRoom_way {s : State} {q l : Nat} (way : (s.wayFor q l).isSome = true) : s.fillRoom q l = s := by
  rw [State.fillRoom, if_pos way]

/-- The line is in M, and its home told, where every InvAck is in (R321, R330). -/
theorem State.qOwn_complete {s : State} {q l n : Nat} {x : QLine} (d : Line) (all : x.acks = n) :
    s.qOwn q l x d n = (((s.fillRoom q l).qput q l (x.filled .m d true)).sendDone q l 2).drainFill q l := by
  rw [State.qOwn, if_pos all]

/-- It waits for the InvAcks that are missing (R321, R330). -/
theorem State.qOwn_waits {s : State} {q l n : Nat} {x : QLine} (d : Line) (missing : x.acks ≠ n) :
    s.qOwn q l x d n = (s.fillRoom q l).qput q l { x with st := .imA, data := d, dirty := true, expect := some n } := by
  rw [State.qOwn, if_neg missing]

section
variable {s : State} {q l : Nat} (live : s.quireLive q l = true)
include live

/-- DataS or DataE that is awaited. -/
theorem State.qDataS_awaited (st : (s.qline q l).st = .isD) (d : Line) (ex : Bool) :
    s.qDataS q l d ex = (((s.fillRoom q l).qput q l ((s.qline q l).filled (if ex then .e else .s) d false)).sendDone q l
      (if ex then 1 else 0)).drainFill q l := by
  simp [State.qDataS, live, st]

/-- DataM that is awaited. -/
theorem State.qDataM_awaited (st : (s.qline q l).st = .imAD ∨ (s.qline q l).st = .smAD) (d : Line) (n : Nat) :
    s.qDataM q l d n = s.qOwn q l (s.qline q l) d n := by
  rcases st with st | st <;> simp [State.qDataM, live, st]

/-- GrantM of GetM to an owner, which keeps its data. -/
theorem State.qGrantM_owner (st : (s.qline q l).st = .omAD) (req : (s.qline q l).req = some .getM) (n : Nat) :
    s.qGrantM q l n = s.qOwn q l (s.qline q l) (s.qline q l).data n := by
  simp [State.qGrantM, live, st, req]

/-- GrantM of GetZ to a quire without a copy, which makes the line zero (R306). -/
theorem State.qGrantM_zero (st : (s.qline q l).st = .imAD) (n : Nat) :
    s.qGrantM q l n = s.qOwn q l (s.qline q l) zeroLine (s.qline q l).acks := by
  simp [State.qGrantM, live, st]

/-- An InvAck that comes before the data or the grant is counted. -/
theorem State.qInvAck_early (st : (s.qline q l).st = .imAD ∨ (s.qline q l).st = .smAD ∨ (s.qline q l).st = .omAD) :
    s.qInvAck q l = s.setQline q l { s.qline q l with acks := (s.qline q l).acks + 1 } := by
  rcases st with st | st | st <;> simp [State.qInvAck, live, st]

/-- The last InvAck of a line that has its data. -/
theorem State.qInvAck_last (st : (s.qline q l).st = .imA) (last : (s.qline q l).expect = some ((s.qline q l).acks + 1)) :
    s.qInvAck q l = ((s.qput q l ((s.qline q l).filled .m (s.qline q l).data true)).sendDone q l 2).drainFill q l := by
  simp [State.qInvAck, live, st, last]

/-- PutAck ends a Put. -/
theorem State.qPutAck_awaited (st : (s.qline q l).st = .miA ∨ (s.qline q l).st = .eiA) :
    s.qPutAck q l = s.qput q l ((s.qline q l).filled .i zeroLine false) := by
  rcases st with st | st <;> simp [State.qPutAck, live, st]

/-- StaleAck ends a Put whose line has gone (R341). -/
theorem State.qStaleAck_awaited (st : (s.qline q l).st = .iiA) :
    s.qStaleAck q l = s.qput q l ((s.qline q l).filled .i zeroLine false) := by
  simp [State.qStaleAck, live, st]

end

/-! Open requests without a line state (R316, R332). -/

/-- The answer to the first open request that satisfies a test ends it. -/
theorem State.onOpen_first {s : State} {p : OpenReq → Bool} {a b : List OpenReq} {y : OpenReq} (reqs : s.openReqs = a ++ y :: b)
    (before : ∀ z ∈ a, p z = false) (asked : p y = true) : s.onOpen p (fun _ => none) = some { s with openReqs := a ++ b } := by
  have first : s.openReqs.find? p = some y := by
    rw [reqs, List.find?_append, List.find?_eq_none.2 fun z hz => by simp [before z hz], Option.none_or, List.find?_cons_of_pos asked]
  have fresh : y ∉ a := fun h => absurd asked (by simp [before y h])
  have rest : s.openReqs.erase y = a ++ b := by rw [reqs, List.erase_append_right _ fresh, List.erase_cons_head]
  unfold State.onOpen
  rw [first]
  dsimp only
  rw [rest]

/-- Cmp ends the first maintenance request of the quire for the line (R332). -/
theorem State.qCmp_first {s : State} {q l : Nat} {a b : List OpenReq} {y : OpenReq} (live : s.quireLive q l = true)
    (reqs : s.openReqs = a ++ y :: b) (who : y.who = q) (line : y.line = l) (kind : y.kind.maint = true)
    (before : ∀ z ∈ a, z.who ≠ q ∨ z.line ≠ l ∨ z.kind.maint = false) : s.qCmp q l = { s with openReqs := a ++ b } := by
  have ended := State.onOpen_first (p := fun y => y.who == q && y.line == l && y.kind.maint) reqs
    (fun z hz => by rcases before z hz with h | h | h <;> simp [h]) (by simp [who, line, kind])
  simp [State.qCmp, live, ended]

/-- An answer to a non-caching requester ends its first open request for the line (R316). -/
theorem State.ncAnswer_first {s : State} {r l : Nat} {kind : ReqKind → Bool} {a b : List OpenReq} {y : OpenReq} (alive : s.alive = true)
    (reqs : s.openReqs = a ++ y :: b) (who : y.who = r) (line : y.line = l) (before : ∀ z ∈ a, z.who ≠ r ∨ z.line ≠ l)
    (answered : kind y.kind = true) : s.ncAnswer r l kind = { s with openReqs := a ++ b } := by
  have ended := State.onOpen_first (p := fun y => y.who == r && y.line == l && kind y.kind) reqs
    (fun z hz => by rcases before z hz with h | h <;> simp [h]) (by simp [who, line, answered])
  simp [State.ncAnswer, alive, ended]

/-! Time-outs, retries and reissues (R328, R340, R343). -/

/-- A quire whose agent takes messages is out of reset. -/
theorem State.alive_of_quireLive {s : State} {q l : Nat} (live : s.quireLive q l = true) : s.alive = true := by
  unfold State.quireLive at live
  simp only [Bool.and_eq_true] at live
  exact live.1.1.1

/-- A quire that has waited 2T cycles finds the line's home dead. -/
theorem State.quireTimedOut_open {s : State} {q : QuireId} {l : Nat} (alive : s.alive = true)
    (waits : (s.qline q.val l).req ≠ none ∨ ∃ y ∈ s.openReqs, y.who = q.val ∧ y.line = l) :
    s.quireTimedOut q.val l = (s.fault (.quire q) 0 (w36 (s.homeNo l))).homeDead (s.homeNo l) 0 := by
  have asked : ((s.qline q.val l).asked || s.openReqs.any fun x => x.who == q.val && x.line == l) = true := by
    rcases waits with req | ⟨y, mem, who, line⟩
    · rw [QLine.asked, Option.isSome_iff_ne_none.2 req, Bool.true_or]
    · rw [List.any_eq_true.2 ⟨y, mem, by simp [who, line]⟩, Bool.or_true]
  simp [State.quireTimedOut, alive, asked, quireFin]

/-- A Retry with the count of the line's request is noted, and the request kept. -/
theorem State.qRetry_line {s : State} {r l cnt : Nat} (alive : s.alive = true) (req : (s.qline r l).req ≠ none)
    (fresh : (s.qline r l).retried = false) (count : (s.qline r l).count = cnt) :
    s.qRetry r l cnt = s.setQline r l { s.qline r l with retried := true } := by
  have asked : (s.qline r l).asked = true := Option.isSome_iff_ne_none.2 req
  simp [State.qRetry, alive, asked, fresh, count]

/-- The retried request of a line goes out again with its count raised. -/
theorem State.reissue_line {s : State} {r l : Nat} {k : ReqKind} (alive : s.alive = true) (req : (s.qline r l).req = some k)
    (retried : (s.qline r l).retried = true) (below : (s.qline r l).count < 63) :
    s.reissue r l = (s.setQline r l { s.qline r l with count := (s.qline r l).count + 1, retried := false }).web k.name r (s.homeNo l) l
      (if k = .putM then some (s.qline r l).data else none) ((s.qline r l).count + 1) := by
  have raised : Nat.min 64 ((s.qline r l).count + 1) = (s.qline r l).count + 1 := Nat.min_eq_right (by omega)
  have notLast : (s.qline r l).count + 1 ≠ 64 := by omega
  simp [State.reissue, alive, req, retried, raised, notLast]

/-! Messages of other agents' requests (R331). -/

/-- A quire whose L2 is not in retention serves a forwarded message at once (R638). -/
theorem State.forwarded_awake {s : State} {q : QuireId} {l : Nat} (live : s.quireLive q.val l = true)
    (awake : s.rbit (.qpwr q) 1 14 = false) (i : Instr) (f : State → State) : s.forwarded q.val l i f = f s := by
  simp [State.forwarded, State.retentive, live, quireFin, awake]

section
variable {x : QLine}

/-- FwdGetS at a line in M or E, which becomes O. -/
theorem qFwdGetS_sole (st : x.st = .m ∨ x.st = .e) :
    qFwdGetS x = some ({ x with st := .o, dirty := x.dirty || x.st == .m, perm := none, l1dirty := none }, x.data) := by
  rcases st with st | st <;> simp [qFwdGetS, st, QLine.collected]

/-- FwdGetS at any other owner, which stays as it is. -/
theorem qFwdGetS_owner (st : x.st = .o ∨ x.st = .omAD ∨ x.st = .miA ∨ x.st = .eiA) : qFwdGetS x = some (x, x.data) := by
  rcases st with st | st | st | st <;> simp [qFwdGetS, st]

/-- FwdGetS at a line in S is not in the table. -/
theorem qFwdGetS_s (st : x.st = .s) : qFwdGetS x = none := by
  simp [qFwdGetS, st]

/-- FwdGetM at a line in M, O or E. -/
theorem qFwdGetM_stable (st : x.st = .m ∨ x.st = .o ∨ x.st = .e) : qFwdGetM x = some ({ x with st := .i }, x.data) := by
  rcases st with st | st | st <;> simp [qFwdGetM, st]

/-- FwdGetM at a line whose own GetM is open. -/
theorem qFwdGetM_omAD (st : x.st = .omAD) : qFwdGetM x = some ({ x with st := .imAD }, x.data) := by
  simp [qFwdGetM, st]

/-- FwdGetM at a line whose Put is open. -/
theorem qFwdGetM_put (st : x.st = .miA ∨ x.st = .eiA) : qFwdGetM x = some ({ x with st := .iiA }, x.data) := by
  rcases st with st | st <;> simp [qFwdGetM, st]

/-- Inv at a line in S. -/
theorem qInv_s (st : x.st = .s) : qInv x = some { x with st := .i } := by
  simp [qInv, st]

/-- Inv at a line in S whose own GetM is open. -/
theorem qInv_smAD (st : x.st = .smAD) : qInv x = some { x with st := .imAD } := by
  simp [qInv, st]

/-- Inv at a line without a copy. -/
theorem qInv_absent (st : x.st = .i ∨ x.st = .isD ∨ x.st = .imAD ∨ x.st = .iiA) : qInv x = some x := by
  rcases st with st | st | st | st <;> simp [qInv, st]

/-- Recall at a line in M. -/
theorem qRecall_m (st : x.st = .m) : qRecall x = some ({ x with st := .i }, x.data, true) := by
  simp [qRecall, qFwdGetM_stable (.inl st), QLine.isDirty, st]

/-- Recall at a clean line in E. -/
theorem qRecall_e (st : x.st = .e) (clean : x.dirty = false) : qRecall x = some ({ x with st := .i }, x.data, false) := by
  simp [qRecall, qFwdGetM_stable (.inr (.inr st)), QLine.isDirty, st, clean]

/-- Snp at a line in M. -/
theorem qSnp_m (st : x.st = .m) : qSnp false x = some ({ x with perm := none, l1dirty := none }, x.data, true) := by
  simp [qSnp, st, QLine.collected]

/-- Snp with the clean flag at a line in M, which becomes a clean E. -/
theorem qSnp_m_clean (st : x.st = .m) :
    qSnp true x = some ({ x with st := .e, dirty := false, perm := none, l1dirty := none }, x.data, true) := by
  simp [qSnp, st, QLine.collected]

end

section
variable {s : State} {q l : Nat} {x : QLine} {d : Line}

/-- The data that answer a FwdGetS go to the requester. -/
theorem State.qFwdS_data (r : Nat) (answer : qFwdGetS (s.qline q l) = some (x, d)) :
    s.qFwdS q l r = (s.qput q l x).web "DataS" q r l (some d) 0 := by
  rw [State.qFwdS, answer]

/-- A FwdGetS that the table does not admit shows the home dead (R343). -/
theorem State.qFwdS_refused {q : QuireId} (r : Nat) (answer : qFwdGetS (s.qline q.val l) = none) :
    s.qFwdS q.val l r = (s.fault (.quire q) 1 (w36 (s.homeNo l))).homeDead (s.homeNo l) 1 := by
  rw [State.qFwdS, answer]
  simp only [State.badFromHome, quireFin, Fin.ofNat_val_eq_self]

/-- The data that answer a FwdGetM go to the requester, with the count of its InvAcks. -/
theorem State.qFwdM_data (r n : Nat) (answer : qFwdGetM (s.qline q l) = some (x, d)) :
    s.qFwdM q l r n = (s.qput q l x).web "DataM" q r l (some d) n := by
  rw [State.qFwdM, answer]

/-- An InvAck to its collector, the requester or the home. -/
def State.ackTo (s t : State) (q l : Nat) : Collector → State
  | .quire r => t.web "InvAck" q r.val l none 0
  | .home => t.web "InvAck" q (s.homeNo l) l none homeCollects

/-- The InvAck that answers an Inv goes to the collector that it names. -/
theorem State.qInvMsg_ack (c : Collector) (answer : qInv (s.qline q l) = some x) :
    s.qInvMsg q l c = s.ackTo (s.qput q l x) q l c := by
  unfold State.qInvMsg
  rw [answer]
  cases c <;> rfl

/-- The data that answer a Recall go to the home, with their dirty flag. -/
theorem State.qRecallMsg_data {dirty : Bool} (answer : qRecall (s.qline q l) = some (x, d, dirty)) :
    s.qRecallMsg q l = (s.qput q l x).web "RData" q (s.homeNo l) l (some d) (b2n dirty) := by
  rw [State.qRecallMsg, answer]

/-- The data that answer a Snp go to the home, with their dirty flag. -/
theorem State.qSnpMsg_data {clean dirty : Bool} (answer : qSnp clean (s.qline q l) = some (x, d, dirty)) :
    s.qSnpMsg q l clean = (s.qput q l x).web "SData" q (s.homeNo l) l (some d) (b2n dirty) := by
  rw [State.qSnpMsg, answer]

end

end Sys2Proof.Machine

open Sys2Proof Sys2Proof.Machine

/-- Settles O36, row by row: each row is its operation at the quire, and the operation's lemma for the state of the line gives the state. -/
theorem quireAnswers : Obligations.QuireAnswers := by
  refine ⟨?answers, ?forwards, ?requests⟩
  case answers =>
    intro q line s live l x put room tell
    refine ⟨State.fillRoom_way, fun d st => ⟨?datas, ?datae⟩, fun d n st => ⟨fun all => ?datam, fun missing => ?datamWaits⟩,
      fun n st req all => ?grantm, fun n st => ?grantz, fun st => ?invackEarly, fun st last => ?invackLast, fun st => ?putack,
      fun st => ?staleack, fun a y b reqs who here kind before => ?cmp, fun waits => ?timeout⟩
    case datas =>
      rw [exec_datas, execDatas, ends_follow, State.qDataS_awaited live st]
      rfl
    case datae =>
      rw [exec_datas, execDatas, ends_follow, State.qDataS_awaited live st]
      rfl
    case datam =>
      rw [exec_datam, execDatam, ends_follow, State.qDataM_awaited live st, State.qOwn_complete d all]
      rfl
    case datamWaits =>
      rw [exec_datam, execDatam, ends_follow, State.qDataM_awaited live st, State.qOwn_waits d missing]
    case grantm =>
      rw [exec_grantm, execGrantm, ends_follow, State.qGrantM_owner live st req, State.qOwn_complete _ all]
      rfl
    case grantz =>
      rw [exec_grantm, execGrantm, ends_follow, State.qGrantM_zero live st, State.qOwn_complete _ rfl]
      rfl
    case invackEarly =>
      rw [exec_invack, execInvack, ends_follow, State.qInvAck_early live st]
    case invackLast =>
      rw [exec_invack, execInvack, ends_follow, State.qInvAck_last live st last]
      rfl
    case putack =>
      rw [exec_putack, execPutack, ends_follow, State.qPutAck_awaited live st]
      rfl
    case staleack =>
      rw [exec_staleack, execStaleack, ends_follow, State.qStaleAck_awaited live st]
      rfl
    case cmp =>
      rw [exec_quireCmp, execQuireCmp, ends_follow, State.qCmp_first live reqs who here kind before]
    case timeout =>
      rw [exec_quireTimeout, execQuireTimeout, ends_follow, State.quireTimedOut_open (State.alive_of_quireLive live) waits]
      rfl
  case forwards =>
    intro q line s live awake l x
    simp only [exec_fwdgets, execFwdgets, exec_fwdgetm, execFwdgetm, exec_inv, execInv, exec_recall, execRecall, exec_snp, execSnp, ends_follow,
      State.forwarded_awake live awake]
    refine ⟨fun r => ⟨fun st => ?getsSole, fun st => ?getsOwner⟩, fun r n => ⟨fun st => ?getmStable, fun st => ?getmOpen, fun st => ?getmPut⟩,
      fun cl => ?inv, fun st => ?recallM, fun st clean => ?recallE, fun st => ⟨?snp, ?snpClean⟩, fun r st => ?refused⟩
    case getsSole => rw [State.qFwdS_data _ (qFwdGetS_sole st)]
    case getsOwner => rw [State.qFwdS_data _ (qFwdGetS_owner st)]
    case getmStable => rw [State.qFwdM_data _ _ (qFwdGetM_stable st)]
    case getmOpen => rw [State.qFwdM_data _ _ (qFwdGetM_omAD st)]
    case getmPut => rw [State.qFwdM_data _ _ (qFwdGetM_put st)]
    case inv =>
      refine ⟨fun st => ?_, fun st => ?_, fun st => ?_⟩
      · rw [State.qInvMsg_ack cl (qInv_s st)]
        cases cl <;> rfl
      · rw [State.qInvMsg_ack cl (qInv_smAD st)]
        cases cl <;> rfl
      · rw [State.qInvMsg_ack cl (qInv_absent st)]
        cases cl <;> rfl
    case recallM =>
      rw [State.qRecallMsg_data (qRecall_m st)]
      rfl
    case recallE =>
      rw [State.qRecallMsg_data (qRecall_e st clean)]
      rfl
    case snp =>
      rw [State.qSnpMsg_data (qSnp_m st)]
      rfl
    case snpClean =>
      rw [State.qSnpMsg_data (qSnp_m_clean st)]
      rfl
    case refused =>
      rw [State.qFwdS_refused r.val (qFwdGetS_s st)]
      rfl
  case requests =>
    intro r line s alive l x
    refine ⟨fun cnt req fresh count => ?retry, fun k req retried below => ?reissue,
      fun d old a y b reqs who here before => ⟨fun kind => ?datanc, fun kind other => ?cmpnc⟩⟩
    case retry =>
      rw [exec_retry, execRetry, ends_follow, State.qRetry_line alive req fresh count]
    case reissue =>
      rw [exec_requestReissue, execRequestReissue, ends_follow, State.reissue_line alive req retried below]
    case datanc =>
      rw [exec_datanc, execDatanc, ends_follow, State.ncAnswer_first alive reqs who here before (by simp [kind])]
    case cmpnc =>
      rw [exec_cmpnc, execCmpnc, ends_follow, State.ncAnswer_first alive reqs who here before (by simp [kind, other])]

end

section
/-! Fault reactions over a step (O3): a command either leaves the state it found or ends with what follows a command, which carries out
every reaction that is due. -/

namespace Sys2Proof.Machine
open Sys2Proof

/-- No fault reaction that is due is outstanding (R612, R613). -/
def State.NoneDue (s : State) : Prop := ∀ x ∈ s.reacts, s.reactDue x = false

/-- What is due depends on the registers and on who carries out a duty, not on the queue of commands. -/
theorem State.NoneDue.dequeue {s : State} (h : s.NoneDue) (rest : List Instr) : ({ s with pending := rest } : State).NoneDue := h

/-- A cycle of the supervisor clock makes no reaction due. -/
theorem State.NoneDue.tick {s : State} (h : s.NoneDue) : (tick s).NoneDue := h

/-- An event leaves the state, as a refresh of a stack does, or ends as a command. -/
theorem exec_event_ends {i : Instr} (h : i.insn = none) (s : State) : exec i s = .next s ∨ ∃ u, exec i s = ends u := by
  cases i
  case refresh => exact .inl rfl
  case l2RetentionWake q => exact .inr (execL2RetentionWake_ends q s)
  all_goals cases h -- leaves the events
  all_goals exact .inr ⟨_, rfl⟩

/-- An instruction's command that is not refused leaves the state or ends as a command. -/
theorem isaEnd_next {s t : State} {c : Nat} {r : Option State} (h : s.isaEnd c r = .next t) : t = s ∨ ∃ u : State, t = u.follow := by
  cases hx : s.executes c with
  | false =>
    rw [isaEnd_stopped hx] at h
    exact .inl (Host.Outcome.next.inj h).symm
  | true =>
    simp only [State.isaEnd, hx, Bool.not_true, Bool.false_eq_true, if_false] at h
    cases r with
    | none => cases h
    | some u => exact .inr ⟨u, (Host.Outcome.next.inj h).symm⟩

/-- Whatever a command leaves is the state it found or what follows a command. -/
theorem exec_next {i : Instr} {s t : State} (h : exec i s = .next t) : t = s ∨ ∃ u : State, t = u.follow := by
  cases hi : i.insn with
  | some n =>
    obtain ⟨r, hr⟩ := exec_of_insn hi s
    exact isaEnd_next (hr.symm.trans h)
  | none =>
    rcases exec_event_ends hi s with he | ⟨u, he⟩
    · exact .inl (Host.Outcome.next.inj (he.symm.trans h)).symm
    · exact .inr ⟨u, (Host.Outcome.next.inj (he.symm.trans h)).symm⟩

/-- A command leaves no reaction that is due where it found none. -/
theorem State.NoneDue.exec {i : Instr} {s t : State} (hs : s.NoneDue) (h : exec i s = .next t) : t.NoneDue := by
  rcases exec_next h with rfl | ⟨u, rfl⟩
  · exact hs
  · exact u.follow_due

/-- Neither does a step. -/
theorem State.NoneDue.step {s t : State} (hs : s.NoneDue) (h : step s = .next t) : t.NoneDue := by
  cases hp : s.pending with
  | nil =>
    cases (step_nil hp).symm.trans h
    exact hs.tick
  | cons i rest => exact (hs.dequeue rest).exec ((step_cons hp).symm.trans h)

end Sys2Proof.Machine

open Sys2Proof Sys2Proof.Machine

/-- Settles O3: being free of due reactions is kept by every step (`State.NoneDue.step`), since a command that does anything ends in
`State.follow`, whose rounds leave none; and a quiet state is what follows itself. -/
theorem stepsLeaveNoReaction : Obligations.StepsLeaveNoReaction := by
  unfold Obligations.StepsLeaveNoReaction
  exact ⟨fun _ _ hs h => State.NoneDue.step hs h, State.follow_quiet⟩

end

section
/-! Triptychs (O33): who is outvoted and what that leads to, the reload of a fenced panel, halts, restarts and take-over, and the rows
from them. -/

namespace Sys2Proof.Machine
open Sys2Proof

/-- The two tests that what a function gives for an element differs from a value agree. -/
theorem filter_map_bne {α β : Type} [DecidableEq β] (xs : List α) (f : α → β) (b : β) :
    (xs.filter fun x => f x != b) = xs.filter fun x => f x ≠ b :=
  List.filter_congr fun x _ => by rw [bne, beq_eq_decide, decide_not]

/-! The vote. -/

/-- The panels whose output differs from the voted one, in order (R371, R373). -/
def outvotedPanels (a b c : Word) : List Nat := ([(0, a), (1, b), (2, c)].filter fun x : Nat × Word => x.2 ≠ voted a b c).map (·.1)

/-- An output that two of the panels give carries the vote (R371). -/
theorem voted_of_two {a b c x : Word} (h : a = x ∧ b = x ∨ a = x ∧ c = x ∨ b = x ∧ c = x) : voted a b c = x := by
  rcases h with ⟨rfl, rfl⟩ | ⟨rfl, rfl⟩ | ⟨rfl, rfl⟩
  all_goals
    ext i hi
    simp only [voted, BitVec.getElem_or, BitVec.getElem_and]
    grind

/-- Who is outvoted where at least two panels agree on `x`: those that give another output (R371, R373). -/
theorem outvotedPanels_of_two {a b c x : Word} (h : a = x ∧ b = x ∨ a = x ∧ c = x ∨ b = x ∧ c = x) :
    outvotedPanels a b c = ([(0, a), (1, b), (2, c)].filter fun y : Nat × Word => y.2 ≠ x).map (·.1) := by
  rw [outvotedPanels, voted_of_two h]

/-- No panel is outvoted where all agree. -/
theorem outvotedPanels_none (a : Word) : outvotedPanels a a a = [] := by
  rw [outvotedPanels_of_two (.inl ⟨rfl, rfl⟩)]
  simp

/-- Panel A alone against the other two (R373). -/
theorem outvotedPanels_a {a b : Word} (h : a ≠ b) : outvotedPanels a b b = [0] := by
  rw [outvotedPanels_of_two (.inr (.inr ⟨rfl, rfl⟩))]
  simp [h]

/-- Panel B alone against the other two (R373). -/
theorem outvotedPanels_b {a b : Word} (h : a ≠ b) : outvotedPanels a b a = [1] := by
  rw [outvotedPanels_of_two (.inr (.inl ⟨rfl, rfl⟩))]
  simp [h.symm]

/-- Panel C alone against the other two (R373). -/
theorem outvotedPanels_c {a c : Word} (h : a ≠ c) : outvotedPanels a a c = [2] := by
  rw [outvotedPanels_of_two (.inl ⟨rfl, rfl⟩)]
  simp [h.symm]

/-- What a vote of a TRIPLEX triptych leads to: nothing, the fence of the one outvoted panel, or a halt (R373, R374, R376). -/
def State.outvote (s : State) (t : Trip) (test : PanelTest) : List Nat → State
  | [] => s
  | [p] => s.panelFence t p test
  | ps => (ps.foldl (fun s p => (s.count (tripBlk t) 0 18 26).fault (tripBlk t) 0 (w36 p)) s).tripHalt t

/-- More than one panel outvoted halts the triptych (R376). -/
theorem State.outvote_many (s : State) (t : Trip) (test : PanelTest) {ps : List Nat} (h : 2 ≤ ps.length) :
    s.outvote t test ps = (ps.foldl (fun s p => (s.count (tripBlk t) 0 18 26).fault (tripBlk t) 0 (w36 p)) s).tripHalt t := by
  match ps, h with
  | _ :: _ :: _, _ => rfl

section
variable {s : State} {t : Trip}

/-- A TRIPLEX triptych without a fenced panel votes over all three outputs (R371, R373). -/
theorem State.panelOutvote_triplex (hm : s.tmode t = 0) (hf : ∀ i < 3, s.rbit (tripBlk t) 0 (3 + i) = false) (a b c : Word)
    (test : PanelTest) : s.panelOutvote t a b c test = s.outvote t test (outvotedPanels a b c) := by
  have live : ([(0, a), (1, b), (2, c)].filter fun x : Nat × Word => !s.rbit (tripBlk t) 0 (3 + x.1)) = [(0, a), (1, b), (2, c)] :=
    List.filter_eq_self.2 fun x hx => by
      have : x.1 < 3 := by
        simp only [List.mem_cons, List.not_mem_nil, or_false] at hx
        rcases hx with rfl | rfl | rfl <;> simp
      rw [hf _ this, Bool.not_false]
  unfold State.panelOutvote outvotedPanels
  simp only [hm, live, filter_map_bne _ Prod.snd]
  rcases List.filter (fun x : Nat × Word => decide (x.2 ≠ voted a b c)) [(0, a), (1, b), (2, c)] with _ | ⟨x, _ | ⟨y, l⟩⟩
  · rfl
  · rfl
  · rw [State.outvote_many _ _ _ (by simp), List.foldl_map]

/-- In DUPLEX or SELFTEST with panel A fenced, the other two agree or the triptych halts (R373, R376). -/
theorem State.panelOutvote_fencedA (hm : s.tmode t = 1 ∨ s.tmode t = 2) (h0 : s.rbit (tripBlk t) 0 3 = true)
    (h1 : s.rbit (tripBlk t) 0 4 = false) (h2 : s.rbit (tripBlk t) 0 5 = false) (a b c : Word) (test : PanelTest) :
    s.panelOutvote t a b c test = if c = b then s else s.tripHalt t := by
  have live : ([(0, a), (1, b), (2, c)].filter fun x : Nat × Word => !s.rbit (tripBlk t) 0 (3 + x.1)) = [(1, b), (2, c)] := by
    simp [h0, h1, h2]
  unfold State.panelOutvote
  simp only [live]
  rcases hm with hm | hm <;> simp [hm]

end

/-! Reloads. -/

/-- What the end of the reload of panel `p` makes of the triptych once its memory has been copied and counted (R374, R375). -/
def State.reloadEnd (s : State) (t : Trip) (p : Nat) (test : PanelTest) : State :=
  if test.pass = false then s else if loopFails test = true then s.wireFault t p else (s.setFld (tripBlk t) 0 3 5 0).setTmode t 0

/-- The state once the memory of panel `p` is that of panel `x`, with the reload counted (R374). -/
def State.reloaded (s : State) (t : Trip) (p x : Nat) : State :=
  ({ s with panels := ((s.panelMem t x).foldl (fun m e => Tab.set panelDefault m (panelKey t p e.1) e.2)
      (s.panels.filter fun e => e.1 / 2 ^ 22 ≠ 3 * tripNo t + p)) } : State).count (tripBlk t) 0 27 35

/-- One panel of three is fenced, and the other two are not. -/
theorem fenced_one {fenced : Nat → Bool} {p x y : Nat} (h : (p, x, y) ∈ [(0, 1, 2), (1, 0, 2), (2, 0, 1)]) (hp : fenced p = true)
    (hx : fenced x = false) (hy : fenced y = false) :
    ((List.range 3).filter fun k => !fenced k) = [x, y] ∧ (List.range 3).filter fenced = [p] := by
  simp only [List.mem_cons, Prod.mk.injEq, List.not_mem_nil, or_false] at h
  rcases h with ⟨rfl, rfl, rfl⟩ | ⟨rfl, rfl, rfl⟩ | ⟨rfl, rfl, rfl⟩ <;> simp [List.range_succ, hp, hx, hy]

/-- The reload of the one fenced panel ends: the memory of the other two is compared and copied (R374). -/
theorem State.panelReload_one {s : State} {t : Trip} {p x y : Nat} (hm : s.tmode t = 1) (h : (p, x, y) ∈ [(0, 1, 2), (1, 0, 2), (2, 0, 1)])
    (hp : s.rbit (tripBlk t) 0 (3 + p) = true) (hx : s.rbit (tripBlk t) 0 (3 + x) = false) (hy : s.rbit (tripBlk t) 0 (3 + y) = false)
    (test : PanelTest) :
    s.panelReload t none test = if s.panelMem t x = s.panelMem t y then (s.reloaded t p x).reloadEnd t p test else s.tripHalt t := by
  obtain ⟨live, out⟩ := fenced_one (fenced := fun k => s.rbit (tripBlk t) 0 (3 + k)) h hp hx hy
  unfold State.panelReload
  rw [if_neg (not_not.2 hm)]
  simp only [live, out, filter_map_bne _ fun e : Nat × Word => e.1 / 2 ^ 22, bne_iff_ne, ne_eq, ite_not, Bool.not_eq_true']
  rfl

/-! Halts, restarts and take-over. -/

section
variable {s : State} {t : Trip}

/-- A parent restarts a halted child that it has not restarted yet (R379). -/
theorem State.tripRestart_go (ht : t ≠ .module) (hm : s.tmode t = 3) (ha : s.acting t ≠ 3) (hr : t ∉ s.restarted) :
    s.tripRestart t = ({ s with restarted := s.restarted ++ [t] } : State).tripReload t := by
  unfold State.tripRestart
  rw [if_neg (by simp [hm, ht, ha, hr])]

/-- The child as its restart leaves it where its self-test passes: no panel fenced, TRIPLEX, and the console told (R379, R581). -/
def State.childUp (s : State) (t : Trip) : State := ((s.setFld (tripBlk t) 0 3 8 0).setTmode t 0).tripOps t 0

/-- A restarted child that passes its self-test takes its duties back (R379). -/
theorem State.restartDone_pass (ht : t ≠ .module) (hm : s.tmode t = 4) :
    s.restartDone t true = ({ s.childUp t with
      carried := (s.childUp t).carried.filter (· ≠ t), restarted := (s.childUp t).restarted.filter (· ≠ t)
      outvotes := (s.childUp t).outvotes.filter fun x => x.1 ≠ t } : State).dutiesGo := by
  unfold State.restartDone
  rw [if_neg (by simp [hm, ht]), if_pos rfl, ← filter_map_bne _ Prod.fst, ← filter_bne, ← filter_bne]
  rfl

/-- One that fails it after its parent's restart stays halted (R379). -/
theorem State.restartDone_fail (ht : t ≠ .module) (hm : s.tmode t = 4) (hr : t ∈ s.restarted) :
    s.restartDone t false = (s.setTmode t 3).tripOps t 0xF := by
  unfold State.restartDone
  rw [if_neg (by simp [hm, ht]), if_neg Bool.false_ne_true, if_pos (List.contains_iff_mem.2 hr)]

/-- A parent takes over the duties of a child that is out (R377). -/
theorem State.takeover_go (h0 : s.acting t ≠ 0) (h3 : s.acting t ≠ 3) (hc : t ∉ s.carried) :
    s.takeover t = ({ s with carried := s.carried ++ [t] } : State).dutiesGo := by
  unfold State.takeover
  rw [if_neg (by simp [h0, h3, hc])]

end

/-! The supervisor-only reset. -/

/-- One that is in progress is not begun again (R382). -/
theorem State.superReset_busy {s : State} (h : s.tmode .module = 4) (byReaction : Bool) : s.superReset byReaction = s := by
  unfold State.superReset
  rw [if_pos h]

/-- One begins from HALTED, or from the halt made at this instant: `s0` is the state that is halted (R382, R594). -/
theorem State.superReset_go {s s0 : State} (h : s.tmode .module ≠ 4)
    (h0 : s0 = if s.tmode .module = 3 then s else s.tripHalt .module) (hm : s0.tmode .module = 3) :
    let s1 : State := { s0 with nonce := none, restarted := (s0.restarted.filter fun x => x ≠ .module) ++ [.module] }
    s.superReset false =
      ((s1.setBar 0 0x20 (s1.bar 0 0x20 ||| 8#32)).setReg .mtrip 0 (setField 0 0 2 3)).tripReload .module := by
  intro s1
  unfold State.superReset
  simp only [h, if_false, Bool.false_eq_true, ← h0, hm, if_true, filter_bne]
  exact congrArg (fun m => ((s1.setBar 0 0x20 (s1.bar 0 0x20 ||| 8#32)).setReg .mtrip 0 (setField 0 0 2 m)).tripReload .module) hm

/-- The state in which the reset has ended: SVBUSY is clear (R382). -/
def State.superEnd (s : State) : State := s.setBar 0 0x20 (s.bar 0 0x20 &&& ~~~8#32)

/-- Where the image or the panels fail, the module triptych is HALTED (R373, R382). -/
theorem State.superDone_fail {s : State} (h : s.tmode .module = 4) : s.superDone false = s.superEnd.tripHalt .module := by
  unfold State.superDone
  rw [if_neg (not_not.2 h)]
  rfl

/-- The module triptych back in TRIPLEX with its record of outvotes and restarts cleared (R382). -/
def State.moduleUp (s : State) : State :=
  { s.setTmode .module 0 with
    outvotes := (s.setTmode .module 0).outvotes.filter fun x => x.1 != .module
    restarted := (s.setTmode .module 0).restarted.filter (· != .module) }

/-- The same with the tests of inequality as propositions. -/
theorem State.moduleUp_eq (s : State) : s.moduleUp =
    { s.setTmode .module 0 with
      outvotes := (s.setTmode .module 0).outvotes.filter fun x => x.1 ≠ .module
      restarted := (s.setTmode .module 0).restarted.filter (· ≠ .module) } := by
  rw [State.moduleUp, filter_map_bne _ Prod.fst, filter_bne]

/-- Its duties resumed: the replies that waited are given, and what waited for a supervisor goes on (R381, R382). -/
def State.moduleGoes (s : State) : State :=
  ((s.longOps.filterMap fun o => o.reply.map fun r => (o.slot, r)).foldl (fun s x => s.slotDone x.1 x.2) s).dutiesGo

/-- Where they pass and a commit is held, it resumes its duties (R382). -/
theorem State.superDone_pass {s : State} (h : s.tmode .module = 4) (hc : s.superEnd.moduleUp.moduleGoes.commit ≠ none) :
    s.superDone true = s.superEnd.moduleUp.moduleGoes := by
  have held : s.superEnd.moduleUp.moduleGoes.commit.isSome = true := Option.isSome_iff_ne_none.2 hc
  unfold State.superDone
  rw [if_neg (not_not.2 h), if_neg (by decide)]
  exact if_pos held

end Sys2Proof.Machine

open Sys2Proof Sys2Proof.Machine

/-- Settles O33, clause by clause: each row is its operation once the module is out of reset, and the operation's lemma for the case gives
the state. -/
theorem triptychEvents : Obligations.TriptychEvents := by
  refine ⟨fun t s a b c test ha => ⟨?triplex, ?fencedA, ?reload, ?restart, ?restartDone, ?takeover⟩, fun s ha => ⟨?busy, ?begins, ?done⟩⟩
  case triplex =>
    intro hm hf
    rw [exec_panelOutvote, execPanelOutvote, ends_whenAlive ha, State.panelOutvote_triplex hm hf]
    refine ⟨?alike, ?onlyA, ?onlyB, ?onlyC, ?many⟩
    case alike =>
      rintro rfl rfl
      rw [outvotedPanels_none, State.outvote]
    case onlyA =>
      rintro hne rfl
      rw [outvotedPanels_a hne, State.outvote]
    case onlyB =>
      rintro hne rfl
      rw [outvotedPanels_b hne, State.outvote]
    case onlyC =>
      rintro hne rfl
      rw [outvotedPanels_c hne, State.outvote]
    case many =>
      rintro out rfl hl
      rw [State.outvote_many (ps := outvotedPanels a b c) _ _ _ hl]
      rfl
  case fencedA =>
    intro hm h0 h1 h2
    rw [exec_panelOutvote, execPanelOutvote, ends_whenAlive ha, State.panelOutvote_fencedA hm h0 h1 h2]
  case reload =>
    intro p x y hm h hp hx hy
    rw [exec_panelReloadDone, execPanelReloadDone, ends_whenAlive ha, Option.map_none, State.panelReload_one hm h hp hx hy]
    exact ⟨fun hne => by rw [if_neg hne], fun he => by rw [if_pos he]; rfl⟩
  case restart =>
    intro ht hm h3 hr
    rw [exec_triptychRestart, execTriptychRestart, ends_whenAlive ha, State.tripRestart_go ht hm h3 hr]
  case restartDone =>
    intro ht hm
    refine ⟨?_, fun hr => ?_⟩
    · rw [exec_triptychRestartDone, execTriptychRestartDone, ends_whenAlive ha, State.restartDone_pass ht hm]
      rfl
    · rw [exec_triptychRestartDone, execTriptychRestartDone, ends_whenAlive ha, State.restartDone_fail ht hm hr]
  case takeover =>
    intro h0 h3 hc
    rw [exec_triptychTakeover, execTriptychTakeover, ends_whenAlive ha, State.takeover_go h0 h3 hc]
  case busy =>
    intro hm
    rw [exec_supervisorOnlyReset, execSupervisorOnlyReset, ends_whenAlive ha, State.superReset_busy hm]
  case begins =>
    intro hm s0 h3 s1
    rw [exec_supervisorOnlyReset, execSupervisorOnlyReset, ends_whenAlive ha, State.superReset_go hm rfl h3]
  case done =>
    intro hm
    refine ⟨?fails, fun hc => ?passes⟩
    case fails =>
      rw [exec_supervisorOnlyResetDone, execSupervisorOnlyResetDone, ends_whenAlive ha, State.superDone_fail hm]
      rfl
    case passes =>
      have committing : s.superEnd.moduleUp.moduleGoes.commit ≠ none := by
        rw [State.moduleUp_eq]
        exact hc
      rw [exec_supervisorOnlyResetDone, execSupervisorOnlyResetDone, ends_whenAlive ha, State.superDone_pass hm committing, State.moduleUp_eq]
      rfl

end

section
/-! The engines (O47): which job a free run position or AES core starts, how a job that has run ends, and the slots of a sealed engine. -/

namespace Sys2Proof.Machine
open Sys2Proof

/-- A command that is a duty of a triptych, out of reset and where some triptych carries out the duty (R372). -/
theorem ends_onDuty {s : State} {t : Trip} (ha : s.alive = true) (hd : s.acts t = true) (f : State → State) :
    ends (s.whenAlive fun s => s.onDuty t f) = .next (f s).follow := by
  rw [ends_whenAlive ha, State.onDuty, if_pos hd]

/-- The place of the first job that satisfies a test, with the jobs before it that do not. -/
theorem findIdx?_middle {α : Type} {p : α → Bool} {a b : List α} {x : α} (ha : ∀ y ∈ a, p y = false) (hx : p x = true) :
    (a ++ x :: b).findIdx? p = some a.length := by
  rw [List.findIdx?_append, List.findIdx?_eq_none_iff.2 ha, List.findIdx?_cons, hx]
  simp

/-! The Calender. -/

section
variable {s s1 : State} {t sh i : Nat} {j : CalJob}

section
variable (hb : calBlk t ∉ s.inReset) (hn : s.calRunning t < 4)
  (hsh : (s.calReady t)[(s.free 36).1 % (s.calReady t).length]? = some sh)
  (hi : (s.calQueue t sh).findIdx? (fun x => !x.running) = some i) (hj : (s.calQueue t sh)[i]? = some j)
include hb hn hsh hi hj

/-- A free run position runs the job that it takes (R499, R506). -/
theorem State.calJobStart_new {r : Vector Word 4} (hr : j.result = none) (hrun : (calRun t j).run (s.free 36).2 = some (.ok r, s1)) :
    s.calJobStart t = s1.setCalJob t sh i { j with running := true, result := some r } := by
  unfold State.calJobStart
  rw [if_neg (by simp [hb, hn])]
  simp only [hsh, hi, hj, hr, hrun]

/-- A job that a slot's end stopped goes on (R501). -/
theorem State.calJobStart_again (hr : j.result ≠ none) :
    s.calJobStart t = (s.free 36).2.setCalJob t sh i { j with running := true } := by
  obtain ⟨r, hr⟩ := Option.ne_none_iff_exists'.1 hr
  unfold State.calJobStart
  rw [if_neg (by simp [hb, hn])]
  simp only [hsh, hi, hj, hr]

end

/-- The counters of a Calender job that ended with status words `r`: jobs, failures and octets (R507, R514). -/
def State.calCounted (s : State) (t : Nat) (r : Vector Word 4) : State :=
  let s1 := s.count (calBlk t) 0o200 0 35
  let s2 := if field (vget r 0 0) 1 8 = 2 then s1.count (calBlk t) 0o201 0 35 else s1
  s2.countOct (calBlk t) 0o202 t (vget r 1 0).toNat

/-- The first job of a queue that has run ends once its status words are written, word 12 last (R507, R514). -/
theorem State.calJobEnd_first {a b : List CalJob} {r : Vector Word 4} (hq : s.calQueue t sh = a ++ j :: b)
    (ha : ∀ x ∈ a, x.running = false ∨ x.result = none) (hrun : j.running = true) (hr : j.result = some r) (hc : j.console = none)
    (hw : s.writeStatus false t sh j.block 13 [vget r 1 0, vget r 2 0, vget r 3 0] (vget r 0 0) 12 = some s1) :
    s.calJobEnd t sh = (s1.calCounted t r).setCalQueue t sh (a ++ b) := by
  have place : (a ++ j :: b).findIdx? (fun x => x.running && x.result.isSome) = some a.length :=
    findIdx?_middle (fun x hx => by rcases ha x hx with h | h <;> simp [h]) (by simp [hrun, hr])
  have here : (a ++ j :: b)[a.length]? = some j := by simp
  have out : (a ++ j :: b).eraseIdx a.length = a ++ b := by simp [List.eraseIdx_append_of_length_le]
  unfold State.calJobEnd
  simp only [hq, place, here, Option.bind_some, hr, hc, hw, out]
  rfl

/-- The end of a sealed slot with no job running ends the slot and stops nothing (R501). -/
theorem State.calPreempt_idle (hs : s.rbit (calBlk t) 0 0 = true) (hj : ∀ sh < 64, ∀ j ∈ s.calQueue t sh, j.running = false) :
    s.calPreempt t = ({ s with calSlot := Tab.set (fun _ => none) s.calSlot t none } : State) := by
  have noneRuns : ((List.range 64).flatMap fun sh =>
      (s.calQueue t sh).zipIdx.filterMap fun x => if x.1.running then some (sh, x.2, x.1) else none) = [] := by
    simp only [List.flatMap_eq_nil_iff, List.mem_range, List.filterMap_eq_nil_iff]
    intro sh hsh x hx
    rw [if_neg (by simp [hj sh hsh x.1 (List.fst_mem_of_mem_zipIdx hx)])]
  unfold State.calPreempt
  simp only [hs, Bool.not_true, Bool.false_eq_true, if_false, noneRuns, List.foldl_nil]

/-- A sealed slot of a valid entry begins: it is noted, and the stopped jobs of its sheet continue (R501). -/
theorem State.calSlotBegin_valid {k : Nat} (hs : s.rbit (calBlk t) 0 0 = true) (hv : s.rbit (calBlk t) (0o20 + k / 4) (9 * (k % 4)) = true)
    (hsh : sh = s.fld (calBlk t) (0o20 + k / 4) (9 * (k % 4) + 3) (9 * (k % 4) + 8)) :
    s.calSlotBegin t k = ({ s with calSlot := Tab.set (fun _ => none) s.calSlot t (some k) } : State).setCalQueue t sh
      ((s.calQueue t sh).map fun j => { j with running := j.running || j.result.isSome }) := by
  have continued : (fun j : CalJob => if j.result.isSome then { j with running := true } else j) =
      fun j => { j with running := j.running || j.result.isSome } := by
    funext j
    cases hr : j.result.isSome <;> simp
  unfold State.calSlotBegin
  rw [if_neg (by simp [hs])]
  extract_lets begun o b
  rw [if_neg (by simp [show begun.rbit (calBlk t) o b = true from hv]), continued, hsh]
  rfl

end

/-! The Varnish. -/

section
variable {s s1 : State} {t sh i : Nat} {j : VarJob}

/-- A free AES core runs the job that it takes (R523, R532). -/
theorem State.varJobStart_new {r : Nat × Nat} (hb : varBlk t ∉ s.inReset) (hn : s.varRunning t < 8)
    (hsh : (s.varReady t)[(s.free 36).1 % (s.varReady t).length]? = some sh)
    (hi : (s.varQueue t sh).findIdx? (fun x => !x.running) = some i) (hj : (s.varQueue t sh)[i]? = some j) (hr : j.result = none)
    (hrun : (if j.key then xkeyRun t j else cipRun t j).run (s.free 36).2 = some (.ok r, s1)) :
    s.varJobStart t = s1.setVarJob t sh i { j with running := true, result := some r } := by
  unfold State.varJobStart
  rw [if_neg (by simp [hb, hn])]
  simp only [hsh, hi, hj, hr, hrun]

/-- The counters of a Varnish job or key operation that ended with status word `w`: those done and those that failed (R532, R538). -/
def State.varCounted (s : State) (t : Nat) (w : Word) : State :=
  let s1 := s.count (varBlk t) 0o300 0 35
  if field w 1 8 = 2 then s1.count (varBlk t) 0o301 0 35 else s1

/-- The first job of a queue may end where it has run and is no FREE. -/
theorem State.find_mayEnd_first {r : Nat × Nat} (b : List VarJob) (hrun : j.running = true) (hr : j.result = some r)
    (hf : j.key = false ∨ j.slot ≠ none) :
    ((j :: b).zipIdx.find? fun x => x.1.running && x.1.result.isSome && s.varMayEnd t (j :: b) x.2 x.1) = some (j, 0) := by
  have may : s.varMayEnd t (j :: b) 0 j = true := by
    unfold State.varMayEnd
    rw [if_neg, hrun, hr]
    · rfl
    · rcases hf with hf | hf <;> simp [hf]
  rw [List.zipIdx_cons, List.find?_cons_of_pos (by simp [hrun, hr, may])]

section
variable {b : List VarJob} {r : Nat × Nat} (hq : s.varQueue t sh = j :: b) (hrun : j.running = true) (hr : j.result = some r)
include hq hrun hr

/-- A job that has run ends once its status words are written, word 14 last (R538). -/
theorem State.varJobEnd_job (hk : j.key = false) (hw : s.writeStatus true t sh j.block 15 [w36 r.2] (w36 r.1) 14 = some s1) :
    s.varJobEnd t sh = ((s1.varCounted t (w36 r.1)).countOct (varBlk t) 0o302 (8 + t) (blkN j.words 4)).setVarQueue t sh b := by
  unfold State.varJobEnd
  simp only [State.find_mayEnd_first b hrun hr (.inl hk), hr, hk, Bool.false_eq_true, if_false, hw, hq, List.eraseIdx_zero, List.tail_cons]
  rfl

/-- A key operation that has run makes its slot READY or frees it once its status words are written, word 6 last (R532). -/
theorem State.varJobEnd_key {k : Nat} {len : Nat × State} (hk : j.key = true) (hs : j.slot = some k)
    (hl : len = if field (vget j.words 0 0) 0 2 = 2 then (r.2, s) else s.free 36)
    (hw : len.2.writeStatus true t sh j.block 7 [w36 len.1] (w36 r.1) 6 = some s1) :
    s.varJobEnd t sh = ((if field (w36 r.1) 1 8 = 1 then s1.setKeySlot t k { s1.keySlot t k with st := .ready }
      else s1.freeKey t k).varCounted t (w36 r.1)).setVarQueue t sh b := by
  have drawn : (if (true && field (vget j.words 0 0) 0 2 != 2) = true then s.free 36 else (r.2, s)) = len := by
    simp only [hl, Bool.true_and, bne_iff_ne, ne_eq, ite_not]
  unfold State.varJobEnd
  simp only [State.find_mayEnd_first b hrun hr (.inr (by simp [hs])), hr, hk, drawn, if_true, hw, hq, List.eraseIdx_zero, List.tail_cons,
    State.keyEnd, hs, beq_iff_eq]
  rfl

end

/-- The end of a sealed slot with no job queued ends the slot and stops nothing (R524). -/
theorem State.varPreempt_idle (hs : s.rbit (varBlk t) 0 0 = true) (hj : ∀ sh < 64, s.varQueue t sh = []) :
    s.varPreempt t = ({ s with varSlot := Tab.set (fun _ => none) s.varSlot t none } : State) := by
  have kept : ∀ l : List Nat, (∀ sh ∈ l, sh < 64) → l.foldl (fun s sh =>
      if (s.varQueue t sh).isEmpty then s
      else s.setVarQueue t sh ((s.varQueue t sh).map fun (j : VarJob) => { j with running := false })) s = s := by
    intro l hl
    induction l with
    | nil => rfl
    | cons sh l ih =>
      rw [List.foldl_cons, if_pos (by simp [hj sh (hl sh List.mem_cons_self)])]
      exact ih fun x hx => hl x (List.mem_cons_of_mem _ hx)
  unfold State.varPreempt
  rw [if_neg (by simp [hs]), kept _ fun sh => List.mem_range.1]

/-- A sealed slot of a valid entry begins: it is noted, and the stopped jobs of its sheet continue (R524). -/
theorem State.varSlotBegin_valid {k : Nat} (hs : s.rbit (varBlk t) 0 0 = true) (hv : s.rbit (varBlk t) (0o20 + k / 4) (9 * (k % 4)) = true)
    (hsh : sh = s.fld (varBlk t) (0o20 + k / 4) (9 * (k % 4) + 3) (9 * (k % 4) + 8)) :
    s.varSlotBegin t k = ({ s with varSlot := Tab.set (fun _ => none) s.varSlot t (some k) } : State).setVarQueue t sh
      ((s.varQueue t sh).map fun j => { j with running := j.running || j.result.isSome }) := by
  have continued : (fun j : VarJob => if j.result.isSome then { j with running := true } else j) =
      fun j => { j with running := j.running || j.result.isSome } := by
    funext j
    cases hr : j.result.isSome <;> simp
  unfold State.varSlotBegin
  rw [if_neg (by simp [hs])]
  extract_lets begun o b
  rw [if_neg (by simp [show begun.rbit (varBlk t) o b = true from hv]), continued, hsh]
  rfl

end
end Sys2Proof.Machine

open Sys2Proof Sys2Proof.Machine

/-- Settles O47, clause by clause: each row is its engine's operation, where the tile's triptych does its duty, and the operation's lemma for
the case gives the state. -/
theorem engineEvents : Obligations.EngineEvents := by
  intro t s ha
  refine ⟨?calStart, ?calEnd, ?calStop, ?calSlot, ?varStart, ?varEnd, ?keyEnd, ?varStop, ?varSlot⟩
  case calStart =>
    intro sh i j r s1 hd hb hn hsh hi hj
    rw [exec_calJobStart, execCalJobStart, ends_onDuty ha hd]
    refine ⟨fun hr hrun => ?_, fun hr => ?_⟩
    · rw [State.calJobStart_new hb hn hsh hi hj hr hrun]
    · rw [State.calJobStart_again hb hn hsh hi hj hr]
  case calEnd =>
    intro q a j b r s1 hq hbefore hrun hr hc hw
    rw [exec_calJobEnd, execCalJobEnd, ends_whenAlive ha, State.calJobEnd_first hq hbefore hrun hr hc hw]
    rfl
  case calStop =>
    intro hd hs hj
    rw [exec_calSlotPreempt, execCalSlotPreempt, ends_onDuty ha hd, State.calPreempt_idle hs hj]
  case calSlot =>
    intro k hd hs hv sh hsh
    rw [exec_calSlotStart, execCalSlotStart, ends_onDuty ha hd, State.calSlotBegin_valid hs hv hsh]
  case varStart =>
    intro sh i j r s1 hd hb hn hsh hi hj hr hrun
    rw [exec_varJobStart, execVarJobStart, ends_onDuty ha hd, State.varJobStart_new hb hn hsh hi hj hr hrun]
  case varEnd =>
    intro q j b r s1 hq hrun hr hk hw
    rw [exec_varJobEnd, execVarJobEnd, ends_whenAlive ha, State.varJobEnd_job hq hrun hr hk hw]
    rfl
  case keyEnd =>
    intro q j b r k s1 hq hrun hr hk hs len hw
    rw [exec_varJobEnd, execVarJobEnd, ends_whenAlive ha, State.varJobEnd_key hq hrun hr hk hs rfl hw]
    rfl
  case varStop =>
    intro hd hs hj
    rw [exec_varSlotPreempt, execVarSlotPreempt, ends_onDuty ha hd, State.varPreempt_idle hs hj]
  case varSlot =>
    intro k hd hs hv sh hsh
    rw [exec_varSlotStart, execVarSlotStart, ends_onDuty ha hd, State.varSlotBegin_valid hs hv hsh]

end

section
/-! The console's commands on cores, triptychs, fault registers and links (O52): what each does once firmware hears it, and the rows from
them. -/

namespace Sys2Proof.Machine
open Sys2Proof

section
variable {h : ConHdr} {s s1 : State}

/-! Cores. -/

section
variable {c : Nat}

/-- CORE_QUERY, heard (R581). -/
theorem State.coreQueryOp_heard (H : Hears h 0x30 1 s s1) (hc : c < 192) :
    s.coreQueryOp h c = s1.conAns h 0 (replyWords [w36 (s1.core c).cstate.digit, (s1.portView true (retryBlk c) 0).1]) :=
  conCmd_go H _ _ (decide_eq_false (Nat.not_le.2 hc))

/-- CORE_RESTART, heard, of a core that is not stopped (R357). -/
theorem State.coreRestartOp_notStopped (H : Hears h 0x31 1 s s1) (hc : c < 192) (hs : (s1.core c).cstate ≠ .stopped) :
    s.coreRestartOp h c = s1.conAns h 7 [] := by
  rw [State.coreRestartOp, conCmd_go H _ _ (decide_eq_false (Nat.not_le.2 hc)), if_pos (by simp [hs])]

/-- CORE_RESTART, heard, of a stopped core whose sheet runs: the core goes on from its checkpoint, running or in WAIT (R351, R357). -/
theorem State.coreRestartOp_go {sh : Nat} (H : Hears h 0x31 1 s s1) (hc : c < 192) (hs : (s1.core c).cstate = .stopped)
    (hd : (s1.core c).discard = false) (hsh : (s1.core c).sheet = some sh) (hr : (s1.sheet sh).running = true)
    (hcs : (s1.sheet sh).checkstop = false) (hh : s1.sheetHeld sh = false) :
    s.coreRestartOp h c = (s1.setCore c { s1.core c with
      cstate := .active, gesso := false
      run := if (s1.core c).run = .stopped true then .wait else .running }).conAns h 0 [] := by
  have goesOn : (match (s1.core c).run with | .stopped true => Run.wait | _ => Run.running) =
      if (s1.core c).run = .stopped true then .wait else .running := by
    split <;> simp_all
  rw [State.coreRestartOp, conCmd_go H _ _ (decide_eq_false (Nat.not_le.2 hc))]
  simp only [hs, hd, hsh, hr, hcs, hh, ← goesOn]
  rfl

/-- CORE_RETEST, heard, of a core that has not failed or whose couching is not over (R359). -/
theorem State.coreRetestOp_notFailed (H : Hears h 0x32 1 s s1) (hc : c < 192) (hs : (s1.core c).cstate ≠ .failed ∨ (s1.core c).couch ≠ none)
    (pass : Bool) : s.coreRetestOp h c pass = s1.conAns h 7 [] := by
  rw [State.coreRetestOp, conCmd_go H _ _ (decide_eq_false (Nat.not_le.2 hc)),
    if_pos (by simpa [Option.isSome_iff_ne_none] using hs)]

/-- A core of a quire is its spare, or is on its way to be one's replacement. -/
def State.hasSpare (s : State) (q : Nat) : Bool :=
  (List.range 6).any fun i => (s.core (6 * q + i)).cstate == .spare || (s.core (6 * q + i)).cstate == .couching

/-- The registers of a core and of its RETRY block at their reset values (R359). -/
def State.coreCleared (s : State) (c : Nat) : State := (s.resetAll (retryBlk c)).resetAll (coreBlk c)

/-- CORE_RETEST runs: a core that fails stays failed; one that passes is off, or its quire's spare where the quire has none (R359). -/
def State.retestRun (c : Nat) (pass : Bool) (s : State) (k : Nat) : State :=
  if pass = false then s.slotDone k 0xF
  else if s.hasSpare (quireOf c) then ((s.coreCleared c).setCore c coreReset).slotDone k 0
  else
    let s4 := (s.coreCleared c).setCore c { coreReset with cstate := .spare }
    (({ s4 with spareOf := Tab.set (fun _ => 5) s4.spareOf (quireOf c) (c % 6) } : State).setHave (quireOf c) true).slotDone k 0

/-- CORE_RETEST, heard, of a failed core with a token slot free (R359, R577). -/
theorem State.coreRetestOp_go {k : Nat} (H : Hears h 0x32 1 s s1) (hc : c < 192) (hs : (s1.core c).cstate = .failed)
    (hx : (s1.core c).couch = none) (hk : s1.tokenSlot = some k) (pass : Bool) :
    s.coreRetestOp h c pass = State.retestRun c pass (s1.started h 0x32 c k) k := by
  rw [State.coreRetestOp, conCmd_go H _ _ (decide_eq_false (Nat.not_le.2 hc)), if_neg (by simp [hs, hx]), conLong_go hk]
  simp only [Bool.not_eq_true', State.retestRun]
  rfl

/-- A quire with a spare, or with one being couched in. -/
theorem State.hasSpare_of {q : Nat} (hq : ∃ i < 6, (s.core (6 * q + i)).cstate = .spare ∨ (s.core (6 * q + i)).cstate = .couching) :
    s.hasSpare q = true := by
  simpa [State.hasSpare] using hq

/-- A quire without. -/
theorem State.hasSpare_none {q : Nat} (hq : ∀ i < 6, (s.core (6 * q + i)).cstate ≠ .spare ∧ (s.core (6 * q + i)).cstate ≠ .couching) :
    s.hasSpare q = false := by
  simpa [State.hasSpare] using hq

/-- CKPT_READ, heard and authorised or at a core of no sheet: the register of a failed core's checkpoint, a register of which the
selector names (R588, R671). -/
theorem State.ckptReadOp_heard {kind : Nat} {sel : HostWord} {d : DWord} (H : Hears h 0x34 1 s s1) (hc : c < 192) (hk : kind ≤ 4)
    (hsel : sel.toNat < 2 ^ 36) (hd : s1.ckptReg c kind (devWord sel) = some d) (ha : h.sig = .valid ∨ (s1.core c).sheet = none) :
    s.ckptReadOp h c kind sel =
      if (s1.core c).cstate ≠ .failed then s1.conAns h 7 [] else s1.conAns h 0 (replyWords [dhi d, dlo d]) := by
  have inRange : (decide (192 ≤ c) || decide (4 < kind) || wordBad sel || (s1.ckptReg c kind (devWord sel)).isNone) = false := by
    simpa [wordBad, hd] using ⟨⟨hc, hk⟩, hsel⟩
  rw [State.ckptReadOp, conCmd_go H _ _ inRange, if_neg (by rcases ha with ha | ha <;> simp [ha])]
  simp only [bne_iff_ne, hd, Option.getD_some]

end

/-! Triptychs. -/

/-- SUPERVISOR_RESTART, heard, of a quire's triptych that no such command is restarting: one that is halted is reloaded, as a long
command (R379, R577). -/
theorem State.superRestartOp_heard {q : Nat} (H : Hears h 0x33 1 s s1) (hq : q < 32)
    (hfree : ∀ o ∈ s1.longOps, ¬ (o.op = 0x33 ∧ o.target = tripSubject (.quire (quireFin q)))) :
    s.superRestartOp h 1 q =
      if s1.tmode (.quire (quireFin q)) ≠ 3 then s1.conAns h 7 []
      else s1.conLong h 0x33 (tripSubject (.quire (quireFin q))) fun s _ => s.tripReload (.quire (quireFin q)) := by
  have unheld : (s1.longOps.any fun o => o.op == 0x33 && o.target == tripSubject (.quire (quireFin q))) = false :=
    List.any_eq_false.2 fun o ho => by simpa using hfree o ho
  rw [State.superRestartOp, conCmd_go H _ _ (by simp [hq])]
  simp only [if_true, unheld, Bool.false_eq_true, if_false]

/-! Fault registers. -/

/-- FAULT_SCAN, heard with a token slot free, where no block of the scope has a fault status bit set: the count of hits is 0 (R672). -/
theorem State.faultScanOp_none {scope tile k : Nat} (H : Hears h 0x40 1 s s1) (hs : scope ≤ 3) (ht : tile ≤ 7) (hk : s1.tokenSlot = some k)
    (hn : ∀ b ∈ scanBlks scope tile, (s1.started h 0x40 0 k).reg b 0o777700 = 0) :
    s.faultScanOp h scope tile = (((s1.started h 0x40 0 k).setPartial k 1 0).slotProgress k 0).slotDone k 0 := by
  have clean : ((scanBlks scope tile).filter fun b => (s1.started h 0x40 0 k).reg b 0o777700 != 0) = [] :=
    List.filter_eq_nil_iff.2 fun b hb => by simp [hn b hb]
  rw [State.faultScanOp, conCmd_go H _ _ (by simpa using ⟨hs, ht⟩), conLong_go hk]
  simp only [clean]
  rfl

/-- A register write of the console path, to one register: held at a block in reset, else made and answered (R581, R590). -/
theorem State.conWrite_one (s : State) (h : ConHdr) (b : Blk) (o : Nat) (v : Word) :
    s.conWrite h b [(o, v)] =
      if b ∈ s.inReset then s.heldAtPort (.write h b [(o, v)]) else (s.portWrite true b o v).conAns h 0 [] :=
  State.consoleHeld_eq s b _ _

/-- A write of FINJ by the console path (R608, R611). -/
theorem State.portWrite_finj (s : State) (b : Blk) (v : Word) : s.portWrite true b 0o777704 v = s.finjWrite b v := by
  unfold State.portWrite
  rw [if_neg (by simp), if_pos rfl]

section
variable {a : HostWord} {core o : Nat} {b : Blk} (ha : conAddr a core = some (b, o))
include ha

/-- FAULT_INJECT, heard: FINJ of the block is written, or the write is held (R608, R620). -/
theorem State.faultInjectOp_heard {src : Nat} (H : Hears h 0x41 1 s s1) (hs : src ≤ 17) :
    let v := setField (setField (setField (0 : Word) 0 4 src) 5 5 1) 6 8 7
    s.faultInjectOp h a core src =
      if b ∈ s1.inReset then s1.heldAtPort (.write h b [(0o777704, v)]) else (s1.finjWrite b v).conAns h 0 [] := by
  intro v
  rw [State.faultInjectOp, conCmd_go H _ _ (by simpa [ha] using hs), ha]
  simp only [State.conWrite_one, State.portWrite_finj]
  rfl

/-- FAULT_CLEAR, heard: FSTAT of the block is written with the mask, or the write is held (R605, R611). -/
theorem State.faultClearOp_heard {mask : HostWord} (H : Hears h 0x42 1 s s1) (hm : mask.toNat < 2 ^ 36) :
    s.faultClearOp h a core mask =
      if b ∈ s1.inReset then s1.heldAtPort (.write h b [(0o777700, devWord mask)])
      else (s1.portWrite true b 0o777700 (devWord mask)).conAns h 0 [] := by
  rw [State.faultClearOp, conCmd_go H _ _ (by simpa [ha, wordBad] using hm), ha]
  exact State.conWrite_one s1 h b 0o777700 _

end

/-! Links. -/

section
variable {t g i : Nat} (ht : t ≤ 7) (hg : g ≤ 2) (hi : i < if g = 2 then 2 else 8)
include ht hg hi

/-- A link whose tile, group and index are in range exists (R26, R463). -/
theorem linkBad_inRange : linkBad t g i = false := by
  simp only [linkBad, Bool.or_eq_false_iff, decide_eq_false_iff_not]
  omega

/-- LINK_QUERY, heard: the link's registers are read, or the access is held (R581, R590). -/
theorem State.linkQueryOp_heard (H : Hears h 0x50 1 s s1) :
    let n := laneNo (tileFin t) (Fin.ofNat 3 g) i
    let os := lstatAt n :: ((List.range 4).map (pidAt n)) ++ (List.range 4).map (lcntAt n)
    s.linkQueryOp h t g i =
      if linkBlk n ∈ s1.inReset then s1.heldAtPort (.read h (linkBlk n) os)
      else (s1.readRegs (linkBlk n) os).2.conAns h 0 (replyWords (s1.readRegs (linkBlk n) os).1) := by
  intro n os
  rw [State.linkQueryOp, conCmd_go H _ _ (linkBad_inRange ht hg hi)]
  exact State.consoleHeld_eq s1 _ _ _

/-- LINK_RESET, heard: EN is written 0 and then 1, or both writes are held (R479, R590). -/
theorem State.linkResetOp_heard (H : Hears h 0x51 1 s s1) :
    let n := laneNo (tileFin t) (Fin.ofNat 3 g) i
    let o := 0o40 + laneIdx n
    let w := s1.reg (linkBlk n) o
    s.linkResetOp h t g i =
      if linkBlk n ∈ s1.inReset then s1.heldAtPort (.write h (linkBlk n) [(o, setField w 2 2 0), (o, setField w 2 2 1)])
      else ((s1.portWrite true (linkBlk n) o (setField w 2 2 0)).portWrite true (linkBlk n) o (setField w 2 2 1)).conAns h 0 [] := by
  intro n o w
  rw [State.linkResetOp, conCmd_go H _ _ (linkBad_inRange ht hg hi)]
  exact State.consoleHeld_eq s1 _ _ _

end

/-! Stacks. -/

/-- DIE_MIGRATE, heard and authorised or at a controller of no confidential sheet: the controller's MIGRATE is written, or the write is
held (R403, R588). -/
theorem State.dieMigrateOp_heard {t i die : Nat} (H : Hears h 0x74 2 s s1) (ht : t ≤ 7) (hi : i ≤ 1) (hd : die ≤ 15)
    (ha : h.sig = .valid ∨ s1.regConf (stackBlk (2 * t + i)) 1 1 = false) :
    let b := stackBlk (2 * t + i)
    let v := setField (setField (0 : Word) 0 0 1) 6 9 die
    s.dieMigrateOp h t i die =
      if b ∈ s1.inReset then s1.heldAtPort (.write h b [(1, v)]) else (s1.portWrite true b 1 v).conAns h 0 [] := by
  intro b v
  rw [State.dieMigrateOp, conCmd_go H _ _ (by simpa using ⟨⟨ht, hi⟩, hd⟩), if_neg (by rcases ha with ha | ha <;> simp [ha])]
  exact State.conWrite_one s1 h b 1 v

end

end Sys2Proof.Machine

open Sys2Proof Sys2Proof.Machine

/-- Settles O52, row by row: each command, heard, is carried out as the lemma for its case says; a write or read of registers is held where
its block is in reset (`State.consoleHeld_eq`). -/
theorem consoleCoreRows : Obligations.ConsoleCoreRows := by
  intro h s s1
  have one : BitVec.toNat (1 : BitVec 32) = 1 := rfl
  simp only [exec_coreQuery, execCoreQuery, exec_coreRestart, execCoreRestart, exec_coreRetest, execCoreRetest, exec_supervisorRestart,
    execSupervisorRestart, exec_ckptRead, execCkptRead, exec_faultScan, execFaultScan, exec_faultInject, execFaultInject, exec_faultClear,
    execFaultClear, exec_linkQuery, execLinkQuery, exec_linkReset, execLinkReset, exec_dieMigrate, execDieMigrate, ends_follow]
  refine ⟨fun c hc => ⟨?query, fun H => ⟨?notStopped, ?restart⟩, fun H => ⟨?notFailed, ?retest⟩, ?ckpt⟩,
    fun q hq H hfree => ⟨?notHalted, ?reload⟩, ?scan, fun a mask core src b o ha => ⟨?inject, ?clear⟩,
    fun t g i ht hg hi n hn => ⟨?linkQuery, ?linkReset, ?linkHeld⟩, ?migrate⟩
  case query =>
    intro H
    rw [State.coreQueryOp_heard H hc]
  case notStopped =>
    intro hs
    rw [State.coreRestartOp_notStopped H hc hs]
  case restart =>
    intro sh hs hd hsh hr hcs hh
    rw [State.coreRestartOp_go H hc hs hd hsh hr hcs hh]
  case notFailed =>
    intro hs p
    rw [State.coreRetestOp_notFailed H hc hs]
  case retest =>
    intro k hs hx hk
    simp only [State.coreRetestOp_go H hc hs hx hk]
    refine ⟨rfl, fun hq => ?_, fun hq => ?_⟩
    · rw [State.retestRun, if_neg (by decide), if_pos (State.hasSpare_of hq)]
      rfl
    · rw [State.retestRun, if_neg (by decide), if_neg (by simp [State.hasSpare_none hq])]
      rfl
  case ckpt =>
    intro kind sel d H hk hsel hd ha
    rw [State.ckptReadOp_heard H hc hk hsel hd ha]
  case notHalted =>
    intro hm
    rw [one, State.superRestartOp_heard H hq hfree, if_pos hm]
  case reload =>
    intro k hm hk
    rw [one, State.superRestartOp_heard H hq hfree, if_neg (not_not.2 hm), conLong_go hk]
  case scan =>
    intro scope tile k hs ht H hk hn
    rw [State.faultScanOp_none H hs ht hk hn]
  case inject =>
    intro H hs
    rw [State.faultInjectOp_heard ha H hs]
  case clear =>
    intro H hm
    rw [State.faultClearOp_heard ha H hm]
  case linkQuery =>
    intro H hr
    rw [State.linkQueryOp_heard ht hg hi H, ← hn, if_neg hr]
  case linkReset =>
    intro H hr
    rw [State.linkResetOp_heard ht hg hi H, ← hn, if_neg hr]
  case linkHeld =>
    intro hr
    refine ⟨fun H => ?_, fun H => ?_⟩
    · rw [State.linkQueryOp_heard ht hg hi H, ← hn, if_pos hr]
    · rw [State.linkResetOp_heard ht hg hi H, ← hn, if_pos hr]
  case migrate =>
    intro t i die ht hi hd H ha
    rw [State.dieMigrateOp_heard H ht hi hd ha]

end

section
/-! The code of the stacked memory (O38): GF(2^7) and its laws, the polynomials over GF(2) with their values at the code's two points,
and what a codeword decodes to with no error, one or two. -/

namespace Sys2Proof.Machine
open Sys2Proof

/-! Numbers as vectors of bits: what holds of every bit and of exclusive-ors holds of every number. -/

/-- A property of zero and of each single bit that exclusive-or keeps holds of every number of that many bits. -/
theorem xor_induction {P : Nat → Prop} (n : Nat) (zero : P 0) (xor : ∀ x y, P x → P y → P (x ^^^ y)) (bit : ∀ i < n, P (2 ^ i)) :
    ∀ x < 2 ^ n, P x := by
  induction n with
  | zero =>
    intro x hx
    rwa [Nat.lt_one_iff.1 hx]
  | succ n ih =>
    intro x hx
    have ih := ih fun i hi => bit i (hi.trans n.lt_succ_self)
    rcases lt_or_ge x (2 ^ n) with h | h
    · exact ih x h
    · have top : x.testBit n = true := Nat.testBit_of_two_pow_le_and_two_pow_add_one_gt h hx
      have low : x ^^^ 2 ^ n < 2 ^ n := by
        refine Nat.lt_pow_two_of_testBit _ fun i hi => ?_
        rcases hi.eq_or_lt with rfl | hi
        · simp [top]
        · simp [Nat.testBit_lt_two_pow (hx.trans_le (Nat.pow_le_pow_right two_pos hi)), hi.ne]
      have back := xor _ _ (ih _ low) (bit n n.lt_succ_self)
      rwa [Nat.xor_assoc, Nat.xor_self, Nat.xor_zero] at back

/-- Two functions that keep exclusive-or and agree on every bit are equal. -/
theorem eq_of_bits {f g : Nat → Nat} (n : Nat) (hf : ∀ x y, f (x ^^^ y) = f x ^^^ f y) (hg : ∀ x y, g (x ^^^ y) = g x ^^^ g y)
    (bit : ∀ i < n, f (2 ^ i) = g (2 ^ i)) : ∀ x < 2 ^ n, f x = g x := by
  have atZero {h : Nat → Nat} (hh : ∀ x y, h (x ^^^ y) = h x ^^^ h y) : h 0 = 0 := by
    have := hh 0 0
    rwa [Nat.xor_self, Nat.xor_self] at this
  refine xor_induction n ((atZero hf).trans (atZero hg).symm) (fun x y hx hy => ?_) bit
  rw [hf, hg, hx, hy]

/-- Numbers with no bit in common add by exclusive-or. -/
theorem mul_two_pow_add_eq_xor (a : Nat) {r k : Nat} (h : r < 2 ^ k) : a * 2 ^ k + r = a * 2 ^ k ^^^ r := by
  refine Nat.eq_of_testBit_eq fun i => ?_
  rw [Nat.mul_comm, Nat.testBit_two_pow_mul_add _ h, Nat.testBit_xor, Nat.testBit_two_pow_mul]
  rcases lt_or_ge i k with hi | hi
  · simp [hi, Nat.not_le.2 hi]
  · simp [hi, Nat.not_lt.2 hi, Nat.testBit_lt_two_pow (h.trans_le (Nat.pow_le_pow_right two_pos hi))]

/-- Shifting left keeps exclusive-or. -/
theorem xor_mul_two_pow (a b k : Nat) : (a ^^^ b) * 2 ^ k = a * 2 ^ k ^^^ b * 2 ^ k := by
  simp only [← Nat.shiftLeft_eq, Nat.shiftLeft_xor_distrib]

/-- A reduction that takes a constant off for each bit that is set keeps exclusive-or. -/
theorem foldl_reduce_xor (k c : Nat → Nat) (l : List Nat) (x y : Nat) :
    l.foldl (fun r i => if r.testBit (k i) then r ^^^ c i else r) (x ^^^ y) =
      l.foldl (fun r i => if r.testBit (k i) then r ^^^ c i else r) x ^^^
        l.foldl (fun r i => if r.testBit (k i) then r ^^^ c i else r) y := by
  induction l generalizing x y with
  | nil => rfl
  | cons i l ih =>
    have step : (if (x ^^^ y).testBit (k i) then x ^^^ y ^^^ c i else x ^^^ y) =
        (if x.testBit (k i) then x ^^^ c i else x) ^^^ (if y.testBit (k i) then y ^^^ c i else y) := by
      rw [Nat.testBit_xor]
      cases x.testBit (k i) <;> cases y.testBit (k i) <;> simp [Nat.xor_comm, Nat.xor_left_comm]
    rw [List.foldl_cons, step, ih, List.foldl_cons, List.foldl_cons]

/-- A sum of terms that are sums of two is the sum of both sums. -/
theorem foldl_xor_terms (t u : Nat → Nat) (l : List Nat) (x y : Nat) :
    l.foldl (fun r i => r ^^^ (t i ^^^ u i)) (x ^^^ y) = l.foldl (fun r i => r ^^^ t i) x ^^^ l.foldl (fun r i => r ^^^ u i) y := by
  induction l generalizing x y with
  | nil => rfl
  | cons i l ih =>
    rw [List.foldl_cons, List.foldl_cons, List.foldl_cons, ← ih]
    simp only [Nat.xor_assoc, Nat.xor_left_comm]

/-! The field GF(2^7) (R391). -/

/-- The product of the field adds up one term for each bit of its second factor, and reduces. -/
theorem gfMul_eq (a b : Nat) : gfMul a b =
    (List.range 6).foldl (fun r i => if r.testBit (12 - i) then r ^^^ (0b10001001 * 2 ^ (5 - i)) else r)
      ((List.range 7).foldl (fun r i => r ^^^ (if b.testBit i then a * 2 ^ i else 0)) 0) := by
  have term (r i : Nat) : (if b.testBit i then r ^^^ (a * 2 ^ i) else r) = r ^^^ (if b.testBit i then a * 2 ^ i else 0) := by
    split <;> simp
  simp only [gfMul, term]

theorem gfMul_xor_left (a a' b : Nat) : gfMul (a ^^^ a') b = gfMul a b ^^^ gfMul a' b := by
  have term (i : Nat) : (if b.testBit i then (a ^^^ a') * 2 ^ i else 0) =
      (if b.testBit i then a * 2 ^ i else 0) ^^^ (if b.testBit i then a' * 2 ^ i else 0) := by
    split
    · exact xor_mul_two_pow a a' i
    · rfl
  simp only [gfMul_eq, ← foldl_reduce_xor, term, ← foldl_xor_terms, Nat.xor_self]

theorem gfMul_xor_right (a b b' : Nat) : gfMul a (b ^^^ b') = gfMul a b ^^^ gfMul a b' := by
  have term (i : Nat) : (if (b ^^^ b').testBit i then a * 2 ^ i else 0) =
      (if b.testBit i then a * 2 ^ i else 0) ^^^ (if b'.testBit i then a * 2 ^ i else 0) := by
    rw [Nat.testBit_xor]
    cases b.testBit i <;> cases b'.testBit i <;> simp
  simp only [gfMul_eq, ← foldl_reduce_xor, term, ← foldl_xor_terms, Nat.xor_self]

theorem gfMul_comm {a b : Nat} (ha : a < 128) (hb : b < 128) : gfMul a b = gfMul b a := by
  refine eq_of_bits 7 (f := (gfMul · b)) (fun x y => gfMul_xor_left x y b) (gfMul_xor_right b) (fun i hi => ?_) a ha
  refine eq_of_bits 7 (gfMul_xor_right _) (g := (gfMul · (2 ^ i))) (fun x y => gfMul_xor_left x y _) ?_ b hb
  revert i
  decide +kernel

theorem gfMul_zero_left (b : Nat) : gfMul 0 b = 0 := by simpa using gfMul_xor_left 0 0 b

theorem gfMul_lt {a b : Nat} (ha : a < 128) (hb : b < 128) : gfMul a b < 128 := by
  refine xor_induction (P := fun a => gfMul a b < 2 ^ 7) 7 ?_ (fun x y hx hy => ?_) (fun i hi => ?_) a ha
  · rw [gfMul_zero_left]
    decide
  · rw [gfMul_xor_left]
    exact Nat.xor_lt_two_pow hx hy
  · refine xor_induction (P := fun b => gfMul (2 ^ i) b < 2 ^ 7) 7 ?_ (fun x y hx hy => ?_) ?_ b hb
    · rw [gfMul_comm (Nat.pow_lt_pow_right one_lt_two hi) (by decide), gfMul_zero_left]
      decide
    · rw [gfMul_xor_right]
      exact Nat.xor_lt_two_pow hx hy
    · revert i
      decide +kernel

theorem gfMul_assoc {a b c : Nat} (ha : a < 128) (hb : b < 128) (hc : c < 128) : gfMul (gfMul a b) c = gfMul a (gfMul b c) := by
  refine eq_of_bits 7 (f := fun a => gfMul (gfMul a b) c) (g := (gfMul · (gfMul b c))) (fun x y => by simp only [gfMul_xor_left])
    (fun x y => gfMul_xor_left x y _) (fun i hi => ?_) a ha
  refine eq_of_bits 7 (f := fun b => gfMul (gfMul (2 ^ i) b) c) (g := fun b => gfMul (2 ^ i) (gfMul b c))
    (fun x y => by simp only [gfMul_xor_left, gfMul_xor_right]) (fun x y => by simp only [gfMul_xor_left, gfMul_xor_right])
    (fun j hj => ?_) b hb
  refine eq_of_bits 7 (gfMul_xor_right _) (g := fun c => gfMul (2 ^ i) (gfMul (2 ^ j) c)) (fun x y => by simp only [gfMul_xor_right])
    ?_ c hc
  revert i j
  decide +kernel

/-- The inverse of the field's element `a`, its power with exponent 126. -/
def gfInv (a : Nat) : Nat :=
  let a3 := gfCube a
  let a15 := gfMul (gfMul (gfMul a3 a3) (gfMul a3 a3)) a3
  let a30 := gfMul a15 a15
  let a63 := gfMul (gfMul a30 a30) a3
  gfMul a63 a63

theorem gfMul_gfInv : ∀ a < 128, a ≠ 0 → gfInv a < 128 ∧ gfMul (gfInv a) a = 1 := by decide +kernel

theorem gfMul_one_left : ∀ a < 128, gfMul 1 a = a :=
  eq_of_bits 7 (gfMul_xor_right 1) (fun _ _ => rfl) (by decide +kernel)

/-- The field has no divisors of zero. -/
theorem eq_zero_of_gfMul {a b : Nat} (ha : a < 128) (hb : b < 128) (h : gfMul a b = 0) : a = 0 ∨ b = 0 := by
  rcases eq_or_ne a 0 with ha0 | ha0
  · exact .inl ha0
  · obtain ⟨hlt, hinv⟩ := gfMul_gfInv a ha ha0
    refine .inr ?_
    calc b = gfMul (gfMul (gfInv a) a) b := by rw [hinv, gfMul_one_left b hb]
      _ = gfMul (gfInv a) 0 := by rw [gfMul_assoc hlt ha hb, h]
      _ = 0 := by rw [gfMul_comm hlt (by decide), gfMul_zero_left]

/-- The sum of two cubes has the sum as a factor. -/
theorem gfCube_xor_gfCube {x y : Nat} (hx : x < 128) (hy : y < 128) :
    gfCube x ^^^ gfCube y = gfMul (x ^^^ y) (gfMul (x ^^^ y) (x ^^^ y) ^^^ gfMul x y) := by
  have h1 : gfMul y (gfMul x x) = gfMul x (gfMul x y) := by
    rw [gfMul_comm hy (gfMul_lt hx hx), gfMul_assoc hx hx hy]
  have h2 : gfMul y (gfMul x y) = gfMul x (gfMul y y) := by
    rw [gfMul_comm hx hy, ← gfMul_assoc hy hy hx, gfMul_comm (gfMul_lt hy hy) hx]
  simp only [gfCube, gfMul_xor_left, gfMul_xor_right, gfMul_comm hy hx, h1, h2]
  generalize gfMul x (gfMul x x) = p, gfMul y (gfMul y y) = q, gfMul x (gfMul x y) = u, gfMul x (gfMul y y) = v
  refine Nat.eq_of_testBit_eq fun i => ?_
  simp only [Nat.testBit_xor]
  cases p.testBit i <;> cases q.testBit i <;> cases u.testBit i <;> cases v.testBit i <;> rfl

/-- Two elements are determined by their sum and the sum of their cubes, where the sum is not zero: this is why two errors can be found. -/
theorem eq_or_eq_of_sums {x y a b : Nat} (hx : x < 128) (hy : y < 128) (ha : a < 128) (hb : b < 128) (h1 : x ^^^ y = a ^^^ b)
    (h3 : gfCube x ^^^ gfCube y = gfCube a ^^^ gfCube b) (hne : a ^^^ b ≠ 0) : x = a ∨ x = b := by
  have lt {u v : Nat} (hu : u < 128) (hv : v < 128) : u ^^^ v < 128 := Nat.xor_lt_two_pow (n := 7) hu hv
  have prod : gfMul x y = gfMul a b := by
    rw [gfCube_xor_gfCube hx hy, gfCube_xor_gfCube ha hb, h1, ← Nat.xor_eq_zero_iff, ← gfMul_xor_right] at h3
    have := (eq_zero_of_gfMul (lt ha hb) (lt (lt (gfMul_lt (lt ha hb) (lt ha hb)) (gfMul_lt hx hy))
      (lt (gfMul_lt (lt ha hb) (lt ha hb)) (gfMul_lt ha hb))) h3).resolve_left hne
    rw [Nat.xor_eq_zero_iff] at this
    exact Nat.xor_right_injective this
  have root : gfMul (x ^^^ a) (x ^^^ b) = 0 := by
    calc gfMul (x ^^^ a) (x ^^^ b) = gfMul x x ^^^ (gfMul x (a ^^^ b) ^^^ gfMul a b) := by
          simp only [gfMul_xor_left, gfMul_xor_right, gfMul_comm ha hx, Nat.xor_assoc]
      _ = 0 := by rw [← h1, gfMul_xor_right, prod, Nat.xor_assoc, Nat.xor_self, Nat.xor_zero, Nat.xor_self]
  exact (eq_zero_of_gfMul (lt hx ha) (lt hx hb) root).imp Nat.xor_eq_zero_iff.1 Nat.xor_eq_zero_iff.1

/-! Codewords (R390-R395). -/

theorem bchRem_xor (x y : Nat) : bchRem (x ^^^ y) = bchRem x ^^^ bchRem y := foldl_reduce_xor _ _ _ _ _

theorem bchRem_lt {x : Nat} (h : x < 2 ^ 79) : bchRem x < 2 ^ 14 :=
  xor_induction (P := fun x => bchRem x < 2 ^ 14) 79 (by decide +kernel)
    (fun x y hx hy => by rw [bchRem_xor]; exact Nat.xor_lt_two_pow hx hy) (by decide +kernel) x h

theorem parity80_xor (x y : Nat) : parity80 (x ^^^ y) = (parity80 x != parity80 y) := by
  have step (l : List Nat) (p q : Bool) : l.foldl (fun p i => p != (x ^^^ y).testBit i) (p != q) =
      (l.foldl (fun p i => p != x.testBit i) p != l.foldl (fun p i => p != y.testBit i) q) := by
    induction l generalizing p q with
    | nil => rfl
    | cons i l ih =>
      rw [List.foldl_cons, List.foldl_cons, List.foldl_cons, ← ih, Nat.testBit_xor]
      congr 1
      cases p <;> cases q <;> cases x.testBit i <;> cases y.testBit i <;> rfl
  exact step (List.range 80) false false

/-- Doubling leaves the parity. -/
theorem parity80_mul_two {w : Nat} (h : w < 2 ^ 79) : parity80 (w * 2) = parity80 w := by
  have bit (i : Nat) : (w * 2).testBit (i + 1) = w.testBit i := by rw [Nat.testBit_succ, Nat.mul_div_cancel _ two_pos]
  have first : (w * 2).testBit 0 = false := by simp
  calc parity80 (w * 2) = (List.range 79).foldl (fun p i => p != w.testBit i) false := by
        rw [parity80, show List.range 80 = 0 :: (List.range 79).map Nat.succ from List.range_succ_eq_map, List.foldl_cons, List.foldl_map,
          first]
        simp only [Nat.succ_eq_add_one, bit]
        rfl
    _ = parity80 w := by
        rw [parity80, List.range_succ (n := 79), List.foldl_append, List.foldl_cons, Nat.testBit_lt_two_pow h]
        simp

/-- A bit of a codeword, by its place in the number. -/
theorem dbit_ofNat80 (n : Nat) {j : Nat} (h : j < 80) : dbit (BitVec.ofNat 80 n) j = n.testBit (79 - j) := by
  have place : 80 - 1 - j < 80 := by omega
  rw [dbit, BitVec.getLsbD_ofNat, decide_eq_true place, Bool.true_and]

/-- The value at `a` of the polynomial over GF(2) whose coefficients are the bits of `n`. -/
def polyAt (a n : Nat) : Nat := (List.range 79).foldl (fun acc j => gfMul acc a ^^^ b2n (n.testBit (78 - j))) 0

/-- The syndrome of a codeword is the value of its bits 0-78; its parity bit has no part in it. -/
theorem syndrome_ofNat (a w : Nat) (b : Bool) : syndrome a (BitVec.ofNat 80 (w * 2 + b2n b)) = polyAt a w := by
  have half : (w * 2 + b2n b) / 2 = w := by cases b <;> simp [b2n]; omega
  refine List.foldl_ext _ _ _ fun acc j hj => ?_
  have hj := List.mem_range.1 hj
  rw [dbit_ofNat80 _ (by omega), show 79 - j = 78 - j + 1 by omega, Nat.testBit_succ, half]

/-- Horner's rule keeps exclusive-or. -/
theorem foldl_horner_xor (a : Nat) (f g : Nat → Bool) (l : List Nat) (x y : Nat) :
    l.foldl (fun acc j => gfMul acc a ^^^ b2n (f j ^^ g j)) (x ^^^ y) =
      l.foldl (fun acc j => gfMul acc a ^^^ b2n (f j)) x ^^^ l.foldl (fun acc j => gfMul acc a ^^^ b2n (g j)) y := by
  have bit (p q : Bool) : b2n (p ^^ q) = b2n p ^^^ b2n q := by cases p <;> cases q <;> rfl
  induction l generalizing x y with
  | nil => rfl
  | cons i l ih =>
    rw [List.foldl_cons, List.foldl_cons, List.foldl_cons, ← ih, bit, gfMul_xor_left]
    congr 1
    simp only [Nat.xor_assoc, Nat.xor_left_comm]

theorem syndrome_xor (a : Nat) (r r' : BitVec 80) : syndrome a (r ^^^ r') = syndrome a r ^^^ syndrome a r' := by
  simp only [syndrome, ← foldl_horner_xor, dbit, BitVec.getLsbD_xor, Nat.xor_self]

theorem polyAt_xor (a x y : Nat) : polyAt a (x ^^^ y) = polyAt a x ^^^ polyAt a y := by
  simp only [polyAt, ← foldl_horner_xor, Nat.testBit_xor, Nat.xor_self]

theorem polyAt_zero (a : Nat) : polyAt a 0 = 0 := by simpa using polyAt_xor a 0 0

/-- The value of a polynomial times x is its value times the point. -/
theorem polyAt_mul_two (a : Nat) {n : Nat} (h : n < 2 ^ 78) : polyAt a (n * 2) = gfMul (polyAt a n) a := by
  have bits : (List.range 78).foldl (fun acc j => gfMul acc a ^^^ b2n ((n * 2).testBit (78 - j))) 0 =
      (List.range 78).foldl (fun acc j => gfMul acc a ^^^ b2n (n.testBit (78 - (j + 1)))) 0 := by
    refine List.foldl_ext _ _ _ fun acc j hj => ?_
    have hj := List.mem_range.1 hj
    rw [show 78 - j = 78 - (j + 1) + 1 by omega, Nat.testBit_succ, Nat.mul_div_cancel _ two_pos]
  have last : (n * 2).testBit (78 - 78) = false := by simp
  have first : gfMul 0 a ^^^ b2n (n.testBit (78 - 0)) = 0 := by
    rw [gfMul_zero_left, Nat.testBit_lt_two_pow h]
    rfl
  calc polyAt a (n * 2) = gfMul ((List.range 78).foldl (fun acc j => gfMul acc a ^^^ b2n ((n * 2).testBit (78 - j))) 0) a := by
        rw [polyAt, List.range_succ, List.foldl_append, List.foldl_cons, last]
        exact Nat.xor_zero _
    _ = gfMul (polyAt a n) a := by
        rw [bits, polyAt, show List.range 79 = 0 :: (List.range 78).map Nat.succ from List.range_succ_eq_map, List.foldl_cons, first,
          List.foldl_map]

/-- The remainder by g(x) differs by a multiple of g(x), which is zero at the code's two points. -/
theorem polyAt_bchRem {a : Nat} (h : polyAt a 0x4377 = 0) (x : Nat) : polyAt a (x ^^^ bchRem x) = 0 := by
  have generator : ∀ k < 65, polyAt a (0x4377 * 2 ^ k) = 0 := by
    intro k
    induction k with
    | zero => exact fun _ => h
    | succ k ih =>
      intro hk
      have fits : 0x4377 * 2 ^ k < 2 ^ 78 :=
        (Nat.mul_le_mul_left _ (Nat.pow_le_pow_right two_pos (by omega : k ≤ 63))).trans_lt (by decide)
      rw [pow_succ, ← Nat.mul_assoc, polyAt_mul_two a fits, ih (by omega), gfMul_zero_left]
  have step (l : List Nat) (r : Nat) (hr : polyAt a (x ^^^ r) = 0) :
      polyAt a (x ^^^ l.foldl (fun r i => if r.testBit (78 - i) then r ^^^ (0x4377 * 2 ^ (64 - i)) else r) r) = 0 := by
    induction l generalizing r with
    | nil => exact hr
    | cons i l ih =>
      rw [List.foldl_cons]
      refine ih _ ?_
      split
      · rw [← Nat.xor_assoc, polyAt_xor, hr, generator _ (by omega), Nat.xor_self]
      · exact hr
  exact step (List.range 65) x (by rw [Nat.xor_self, polyAt_zero])


/-- A codeword of the code: zero at both points, with even parity (R391). -/
structure IsCodeword (r : BitVec 80) : Prop where
  s1 : syndrome 2 r = 0
  s3 : syndrome (gfCube 2) r = 0
  even : parity80 r.toNat = false

/-- What `cwEncode` builds from the word of its bits 0-78: that word and its parity. -/
def withParity (w : Nat) : BitVec 80 := BitVec.ofNat 80 (w * 2 + b2n (parity80 w))

theorem syndrome_withParity (a w : Nat) : syndrome a (withParity w) = polyAt a w := syndrome_ofNat a w _

theorem parity80_withParity {w : Nat} (h : w < 2 ^ 79) : parity80 (withParity w).toNat = false := by
  have fits : w * 2 + b2n (parity80 w) < 2 ^ 80 := by
    have : b2n (parity80 w) < 2 := by cases parity80 w <;> decide
    omega
  have split : w * 2 + b2n (parity80 w) = w * 2 ^^^ b2n (parity80 w) :=
    mul_two_pow_add_eq_xor (k := 1) w (by cases parity80 w <;> decide)
  have bit (b : Bool) : parity80 (b2n b) = b := by cases b <;> decide +kernel
  rw [withParity, BitVec.toNat_ofNat, Nat.mod_eq_of_lt fits, split, parity80_xor, parity80_mul_two h, bit, bne_self_eq_false]

/-- The data and the fold, ahead of the 14 bits of CHECK. -/
def cwHead (data : Nat) (fold : Bool) : Nat := (data * 2 + b2n fold) * 2 ^ 14

theorem cwHead_lt {data : Nat} (h : data < 2 ^ 64) (fold : Bool) : cwHead data fold < 2 ^ 79 := by
  have : b2n fold < 2 := by cases fold <;> decide
  simp only [cwHead]
  omega

/-- A codeword is its data and fold with the CHECK that R391 or R395 gives, and its parity. -/
theorem cwEncode_eq {data : Nat} (h : data < 2 ^ 64) (fold poison : Bool) : cwEncode data fold poison =
    withParity (cwHead data fold ^^^ bchRem (cwHead data fold) ^^^ (if poison then poisonCheck else 0)) := by
  have low : bchRem (cwHead data fold) ^^^ (if poison then poisonCheck else 0) < 2 ^ 14 :=
    Nat.xor_lt_two_pow (bchRem_lt (cwHead_lt h fold)) (by cases poison <;> decide)
  rw [Nat.xor_assoc]
  exact congrArg withParity (mul_two_pow_add_eq_xor (data * 2 + b2n fold) low)

theorem cwWord_lt {data : Nat} (h : data < 2 ^ 64) (fold poison : Bool) :
    cwHead data fold ^^^ bchRem (cwHead data fold) ^^^ (if poison then poisonCheck else 0) < 2 ^ 79 := by
  have head := cwHead_lt h fold
  refine Nat.xor_lt_two_pow (Nat.xor_lt_two_pow head ((bchRem_lt head).trans (by decide))) ?_
  cases poison <;> decide

theorem gfCube_two : gfCube 2 = 8 := by decide +kernel

theorem cwEncode_isCodeword {data : Nat} (h : data < 2 ^ 64) (fold : Bool) : IsCodeword (cwEncode data fold false) := by
  rw [cwEncode_eq h]
  refine ⟨?_, ?_, parity80_withParity (cwWord_lt h fold false)⟩
  · rw [syndrome_withParity, if_neg Bool.false_ne_true, Nat.xor_zero, polyAt_bchRem (by decide +kernel)]
  · rw [syndrome_withParity, if_neg Bool.false_ne_true, Nat.xor_zero, polyAt_bchRem (by decide +kernel)]

/-- A poison codeword reads as poison: its syndromes are those of the poison pattern (R393, R395). -/
theorem cwDecode_poison {data : Nat} (h : data < 2 ^ 64) (fold : Bool) : cwDecode (cwEncode data fold true) = .poison := by
  have pattern : ∀ a, polyAt a 0x4377 = 0 → syndrome a (cwEncode data fold true) = polyAt a poisonCheck := fun a ha => by
    rw [cwEncode_eq h, syndrome_withParity, if_pos rfl, polyAt_xor, polyAt_bchRem ha, Nat.zero_xor]
  have s1 : syndrome 2 (cwEncode data fold true) = 0 := (pattern 2 (by decide +kernel)).trans (by decide +kernel)
  have s3 : syndrome (gfCube 2) (cwEncode data fold true) = 1 := (pattern _ (by decide +kernel)).trans (by decide +kernel)
  have even : parity80 (cwEncode data fold true).toNat = false := by
    rw [cwEncode_eq h]
    exact parity80_withParity (cwWord_lt h fold true)
  simp [cwDecode, s1, s3, even]

/-- A codeword decodes to itself. -/
theorem IsCodeword.decode {r : BitVec 80} (h : IsCodeword r) : cwDecode r = .good r false := by
  simp [cwDecode, h.s1, h.s3, h.even]

/-! Errors. -/

theorem cwFlip_cwFlip (r : BitVec 80) (j : Nat) : cwFlip (cwFlip r j) j = r := by
  simp [cwFlip]

theorem cwFlip_comm (r : BitVec 80) (i j : Nat) : cwFlip (cwFlip r i) j = cwFlip (cwFlip r j) i := by
  rw [cwFlip, cwFlip, cwFlip, cwFlip, BitVec.xor_assoc, BitVec.xor_assoc, BitVec.xor_comm (BitVec.ofNat 80 (2 ^ (79 - i)))]

/-- Each power of alpha is the one before it times alpha. -/
theorem gfList_getD_succ (n x e : Nat) (h : e + 1 < n) : (gfList x n).getD (e + 1) 0 = gfMul ((gfList x n).getD e 0) 2 := by
  induction n generalizing x e with
  | zero => exact absurd h (Nat.not_lt_zero _)
  | succ n ih =>
    cases e with
    | zero =>
      obtain ⟨n, rfl⟩ := Nat.exists_eq_succ_of_ne_zero (by omega : n ≠ 0)
      rfl
    | succ e => exact ih (gfMul x 2) e (by omega)

theorem gfExps_mem : ∀ x ∈ gfExps, x < 128 ∧ x ≠ 0 := by decide +kernel

theorem gfExps_nodup : gfExps.Nodup := by decide +kernel

theorem gfExps_length : gfExps.length = 79 := by decide +kernel

theorem gfExps_getD {e : Nat} (h : e < 79) : gfExps.getD e 0 = gfExps[e]'(by rwa [gfExps_length]) :=
  List.getD_eq_getElem _ _ _

theorem gfExps_range {e : Nat} (h : e < 79) : gfExps.getD e 0 < 128 ∧ gfExps.getD e 0 ≠ 0 := by
  rw [gfExps_getD h]
  exact gfExps_mem _ (List.getElem_mem _)

/-- The logarithm finds the exponent of a power of alpha, the powers being distinct. -/
theorem gfLog_gfExps {e : Nat} (h : e < 79) : gfLog (gfExps.getD e 0) = some e := by
  have hl : e < gfExps.length := by rwa [gfExps_length]
  refine List.findIdx?_eq_some_iff_getElem.2 ⟨hl, beq_iff_eq.2 (gfExps_getD h).symm, fun j hj => ?_⟩
  rw [gfExps_getD h, beq_iff_eq, gfExps_nodup.getElem_inj_iff]
  exact hj.ne

theorem gfExps_inj {e f : Nat} (he : e < 79) (hf : f < 79) (h : gfExps.getD e 0 = gfExps.getD f 0) : e = f :=
  Option.some.inj ((gfLog_gfExps he).symm.trans ((congrArg gfLog h).trans (gfLog_gfExps hf)))

/-- Cubing is multiplicative. -/
theorem gfCube_gfMul {x y : Nat} (hx : x < 128) (hy : y < 128) : gfCube (gfMul x y) = gfMul (gfCube x) (gfCube y) := by
  have square : gfMul (gfMul x y) (gfMul x y) = gfMul (gfMul x x) (gfMul y y) := by
    rw [gfMul_assoc hx hy (gfMul_lt hx hy), ← gfMul_assoc hy hx hy, gfMul_comm hy hx, gfMul_assoc hx hy hy,
      gfMul_assoc hx hx (gfMul_lt hy hy)]
  have hxx := gfMul_lt hx hx
  have hyy := gfMul_lt hy hy
  rw [gfCube, square, gfMul_assoc hx hy (gfMul_lt hxx hyy), ← gfMul_assoc hy hxx hyy, gfMul_comm hy hxx, gfMul_assoc hxx hy hyy,
    ← gfMul_assoc hx hxx (gfMul_lt hy hyy), gfCube, gfCube]

/-- A single bit has a power of alpha and its cube as its syndromes. -/
theorem polyAt_two_pow {e : Nat} (h : e < 79) :
    polyAt 2 (2 ^ e) = gfExps.getD e 0 ∧ polyAt (gfCube 2) (2 ^ e) = gfCube (gfExps.getD e 0) := by
  induction e with
  | zero => decide +kernel
  | succ e ih =>
    have he : e < 79 := by omega
    have fits : 2 ^ e < 2 ^ 78 := Nat.pow_lt_pow_right one_lt_two (by omega)
    have next : gfExps.getD (e + 1) 0 = gfMul (gfExps.getD e 0) 2 := gfList_getD_succ 79 1 e h
    obtain ⟨h1, h3⟩ := ih he
    rw [pow_succ, polyAt_mul_two 2 fits, polyAt_mul_two _ fits, h1, h3, next, gfCube_gfMul (gfExps_range he).1 (by decide)]
    exact ⟨rfl, rfl⟩

section
variable (r : BitVec 80)

/-- An error in bit `j` of bits 0-78 adds the power of alpha with exponent 78 - j, and its cube, to the syndromes. -/
theorem syndromes_cwFlip {j : Nat} (h : j < 79) :
    syndrome 2 (cwFlip r j) = syndrome 2 r ^^^ gfExps.getD (78 - j) 0 ∧
    syndrome (gfCube 2) (cwFlip r j) = syndrome (gfCube 2) r ^^^ gfCube (gfExps.getD (78 - j) 0) := by
  obtain ⟨h1, h3⟩ := polyAt_two_pow (show 78 - j < 79 by omega)
  have bit (a : Nat) : syndrome a (BitVec.ofNat 80 (2 ^ (79 - j))) = polyAt a (2 ^ (78 - j)) := by
    rw [show 79 - j = 78 - j + 1 by omega, pow_succ]
    exact syndrome_ofNat a (2 ^ (78 - j)) false
  rw [cwFlip, syndrome_xor, syndrome_xor, bit, bit, h1, h3]
  exact ⟨rfl, rfl⟩

/-- An error in the parity bit leaves the syndromes. -/
theorem syndrome_cwFlip_parity (a : Nat) : syndrome a (cwFlip r 79) = syndrome a r := by
  have bit : syndrome a (BitVec.ofNat 80 (2 ^ (79 - 79))) = 0 := (syndrome_ofNat a 0 true).trans (polyAt_zero a)
  rw [cwFlip, syndrome_xor, bit, Nat.xor_zero]

/-- An error in any bit changes the parity. -/
theorem parity80_cwFlip {j : Nat} (h : j < 80) : parity80 (cwFlip r j).toNat = !parity80 r.toNat := by
  have bit : ∀ j < 80, parity80 (BitVec.ofNat 80 (2 ^ (79 - j))).toNat = true := by decide +kernel
  rw [cwFlip, BitVec.toNat_xor, parity80_xor, bit j h, Bool.bne_true]

end

/-- What the search for two errors finds at the exponent `e`: it and the exponent of the other error (R393). -/
def cwPair (s1 s3 e : Nat) : Option (Nat × Nat) :=
  let x := gfExps.getD e 0
  let y := s1 ^^^ x
  if y ≠ 0 ∧ gfCube x ^^^ gfCube y = s3 then (gfLog y).map fun f => (e, f) else none

section
variable {e f : Nat}

/-- Tried at one of the two errors, the search names the other. -/
theorem cwPair_of_error (hf : f < 79) : cwPair (gfExps.getD e 0 ^^^ gfExps.getD f 0)
    (gfCube (gfExps.getD e 0) ^^^ gfCube (gfExps.getD f 0)) e =
    some (e, f) := by
  have other : gfExps.getD e 0 ^^^ gfExps.getD f 0 ^^^ gfExps.getD e 0 = gfExps.getD f 0 := by
    rw [Nat.xor_comm, ← Nat.xor_assoc, Nat.xor_self, Nat.zero_xor]
  simp only [cwPair, other, gfLog_gfExps hf, Option.map_some]
  exact if_pos ⟨(gfExps_range hf).2, trivial⟩

variable (he : e < 79) (hf : f < 79)
include he hf

/-- What the search finds is the two errors, in one order or the other (`eq_or_eq_of_sums`). -/
theorem cwPair_sound (hne : e ≠ f) {k : Nat} (hk : k < 79) {p : Nat × Nat}
    (h : cwPair (gfExps.getD e 0 ^^^ gfExps.getD f 0) (gfCube (gfExps.getD e 0) ^^^ gfCube (gfExps.getD f 0)) k = some p) :
    p = (e, f) ∨ p = (f, e) := by
  have hab : gfExps.getD e 0 ^^^ gfExps.getD f 0 ≠ 0 := fun h => hne (gfExps_inj he hf (Nat.xor_eq_zero_iff.1 h))
  have hlt {k : Nat} (hk : k < 79) := (gfExps_range hk).1
  have explains : gfCube (gfExps.getD k 0) ^^^ gfCube (gfExps.getD e 0 ^^^ gfExps.getD f 0 ^^^ gfExps.getD k 0) =
      gfCube (gfExps.getD e 0) ^^^ gfCube (gfExps.getD f 0) := by
    by_contra hn
    simp only [cwPair, hn, and_false, if_false, reduceCtorEq] at h
  have sum : gfExps.getD k 0 ^^^ (gfExps.getD e 0 ^^^ gfExps.getD f 0 ^^^ gfExps.getD k 0) = gfExps.getD e 0 ^^^ gfExps.getD f 0 := by
    rw [Nat.xor_comm, Nat.xor_assoc, Nat.xor_self, Nat.xor_zero]
  have bound : gfExps.getD e 0 ^^^ gfExps.getD f 0 ^^^ gfExps.getD k 0 < 128 :=
    Nat.xor_lt_two_pow (n := 7) (Nat.xor_lt_two_pow (hlt he) (hlt hf)) (hlt hk)
  rcases eq_or_eq_of_sums (hlt hk) bound (hlt he) (hlt hf) sum explains hab with hx | hx
  · obtain rfl := gfExps_inj hk he hx
    exact .inl (Option.some.inj (h.symm.trans (cwPair_of_error hf)))
  · obtain rfl := gfExps_inj hk hf hx
    rw [Nat.xor_comm, Nat.xor_comm (gfCube _)] at h
    exact .inr (Option.some.inj (h.symm.trans (cwPair_of_error he)))

/-- The search finds the two errors. -/
theorem findSome_cwPair (hne : e ≠ f) : ∃ p, (List.range 79).findSome? (cwPair (gfExps.getD e 0 ^^^ gfExps.getD f 0)
    (gfCube (gfExps.getD e 0) ^^^ gfCube (gfExps.getD f 0))) = some p ∧ (p = (e, f) ∨ p = (f, e)) := by
  obtain ⟨p, hp⟩ := Option.isSome_iff_exists.1 (List.findSome?_isSome_iff.2
    ⟨e, List.mem_range.2 he, Option.isSome_of_eq_some (cwPair_of_error hf)⟩)
  obtain ⟨k, hk, hkp⟩ := List.exists_of_findSome?_eq_some hp
  exact ⟨p, hp, cwPair_sound he hf hne (List.mem_range.1 hk) hkp⟩

end

section
variable {r : BitVec 80} (hr : IsCodeword r)
include hr

theorem IsCodeword.decode_flip_parity : cwDecode (cwFlip r 79) = .good r true := by
  simp [cwDecode, syndrome_cwFlip_parity, hr.s1, hr.s3, parity80_cwFlip, hr.even, cwFlip_cwFlip]

/-- One error in bits 0-78 is found by its logarithm (R393). -/
theorem IsCodeword.decode_flip {j : Nat} (h : j < 79) : cwDecode (cwFlip r j) = .good r true := by
  obtain ⟨h1, h3⟩ := syndromes_cwFlip r h
  have hp := parity80_cwFlip r (show j < 80 by omega)
  have hne := (gfExps_range (show 78 - j < 79 by omega)).2
  have hlog := gfLog_gfExps (show 78 - j < 79 by omega)
  have place : 78 - (78 - j) = j := by omega
  rw [hr.s1, Nat.zero_xor] at h1
  rw [hr.s3, Nat.zero_xor] at h3
  rw [hr.even, Bool.not_false] at hp
  simp only [cwDecode, h1, h3, hp, hne, if_false, if_true, hlog, place, cwFlip_cwFlip]

/-- Two errors in bits 0-78 are found (R393). -/
theorem IsCodeword.decode_flip_two {i j : Nat} (hi : i < 79) (hj : j < 79) (hne : i ≠ j) :
    cwDecode (cwFlip (cwFlip r i) j) = .good r true := by
  have he : 78 - i < 79 := by omega
  have hf : 78 - j < 79 := by omega
  have hef : 78 - i ≠ 78 - j := by omega
  have h1 : syndrome 2 (cwFlip (cwFlip r i) j) = gfExps.getD (78 - i) 0 ^^^ gfExps.getD (78 - j) 0 := by
    rw [(syndromes_cwFlip _ hj).1, (syndromes_cwFlip r hi).1, hr.s1, Nat.zero_xor]
  have h3 : syndrome (gfCube 2) (cwFlip (cwFlip r i) j) = gfCube (gfExps.getD (78 - i) 0) ^^^ gfCube (gfExps.getD (78 - j) 0) := by
    rw [(syndromes_cwFlip _ hj).2, (syndromes_cwFlip r hi).2, hr.s3, Nat.zero_xor]
  have hp : parity80 (cwFlip (cwFlip r i) j).toNat = false := by
    rw [parity80_cwFlip _ (by omega), parity80_cwFlip r (by omega), hr.even, Bool.not_not]
  have hs : gfExps.getD (78 - i) 0 ^^^ gfExps.getD (78 - j) 0 ≠ 0 := fun h => hef (gfExps_inj he hf (Nat.xor_eq_zero_iff.1 h))
  have places : 78 - (78 - i) = i ∧ 78 - (78 - j) = j := by omega
  have fixed : cwFlip (cwFlip (cwFlip (cwFlip r i) j) i) j = r := by
    rw [cwFlip_comm (cwFlip r i) j i, cwFlip_cwFlip, cwFlip_cwFlip]
  obtain ⟨p, hit, hpair⟩ := findSome_cwPair he hf hef
  unfold cwPair at hit
  simp only [cwDecode, h1, h3, hp, hs, hit, Bool.false_eq_true, if_false]
  rcases hpair with rfl | rfl
  · simp only [hef, if_false, places.1, places.2, fixed]
  · simp only [hef.symm, if_false, places.1, places.2, cwFlip_cwFlip]

end

end Sys2Proof.Machine

open Sys2Proof Sys2Proof.Machine

/-- Settles O38. -/
theorem codewordCorrectsTwoErrors : Obligations.CodewordCorrectsTwoErrors := by
  intro data fold hd
  have code := cwEncode_isCodeword hd fold
  refine ⟨code.decode, fun i hi => ?_, fun i hi j hj hne => code.decode_flip_two hi hj hne, cwDecode_poison hd fold⟩
  rcases Nat.lt_succ_iff_lt_or_eq.1 hi with h | rfl
  · exact code.decode_flip h
  · exact code.decode_flip_parity
end

section
/-! Lines of nine codewords (O39): the address fold tells near addresses apart, and what is read back is the line that was stored. -/

namespace Sys2Proof.Machine
open Sys2Proof

/-! The address fold (R392). -/

theorem foldOf_xor (x y : Nat) : foldOf (x ^^^ y) = foldOf x ^^^ foldOf y := by
  have term (l i h : Nat) : (if l.testBit i then h ^^^ ((i + 1) + 64 * ((i + 1) % 7)) else h) =
      h ^^^ (if l.testBit i then (i + 1) + 64 * ((i + 1) % 7) else 0) := by split <;> simp
  have both (i : Nat) : (if (x ^^^ y).testBit i then (i + 1) + 64 * ((i + 1) % 7) else 0) =
      (if x.testBit i then (i + 1) + 64 * ((i + 1) % 7) else 0) ^^^ (if y.testBit i then (i + 1) + 64 * ((i + 1) % 7) else 0) := by
    rw [Nat.testBit_xor]
    cases x.testBit i <;> cases y.testBit i <;> simp
  simp only [foldOf, term, both, ← foldl_xor_terms, Nat.xor_self]

/-- The address bits have distinct folds, none zero. -/
theorem foldOf_bits : ∀ i < 34, ∀ j < 34, foldOf (2 ^ i) ≠ 0 ∧ (i ≠ j → foldOf (2 ^ i) ≠ foldOf (2 ^ j)) := by decide +kernel

/-- The fold has nine bits. -/
theorem foldOf_lt (l : Nat) : foldOf l < 2 ^ 9 := by
  have term : ∀ i ∈ List.range 34, (i + 1) + 64 * ((i + 1) % 7) < 2 ^ 9 := by decide
  have step (is : List Nat) (hs : ∀ i ∈ is, (i + 1) + 64 * ((i + 1) % 7) < 2 ^ 9) (h : Nat) (hh : h < 2 ^ 9) :
      is.foldl (fun h i => if l.testBit i then h ^^^ ((i + 1) + 64 * ((i + 1) % 7)) else h) h < 2 ^ 9 := by
    induction is generalizing h with
    | nil => exact hh
    | cons i is ih =>
      rw [List.forall_mem_cons] at hs
      refine ih hs.2 _ ?_
      dsimp only
      split
      · exact Nat.xor_lt_two_pow hh hs.1
      · exact hh
  exact step _ term 0 (by decide)

/-- Two folds are equal where their nine bits are. -/
theorem foldOf_eq_of_bits {l l' : Nat} (h : ∀ k < 9, foldBit l k = foldBit l' k) : foldOf l = foldOf l' := by
  refine Nat.eq_of_testBit_eq fun i => ?_
  rcases lt_or_ge i 9 with hi | hi
  · have := h (8 - i) (by omega)
    rwa [foldBit, foldBit, show 8 - (8 - i) = i by omega] at this
  · have high (l : Nat) : (foldOf l).testBit i = false := Nat.testBit_lt_two_pow ((foldOf_lt l).trans_le (Nat.pow_le_pow_right two_pos hi))
    rw [high, high]

/-! Digits put together, the most significant first. -/

/-- A digit taken out again. -/
theorem foldl_digits_div_mod {α : Type} (b : Nat) (f : α → Nat) (l : List α) (hf : ∀ x ∈ l, f x < b) {i : Nat} (h : i < l.length) :
    l.foldl (fun n x => n * b + f x) 0 / b ^ (l.length - 1 - i) % b = f l[i] := by
  induction l using List.reverseRecOn with
  | nil => exact absurd h (Nat.not_lt_zero _)
  | append_singleton l x ih =>
    have hx : f x < b := hf x (by simp)
    have hb : 0 < b := by omega
    rw [List.foldl_append, List.foldl_cons, List.foldl_nil, List.length_append, List.length_singleton, Nat.add_sub_cancel]
    rw [List.length_append, List.length_singleton] at h
    rcases Nat.lt_succ_iff_lt_or_eq.1 h with hi | rfl
    · rw [show l.length - i = l.length - 1 - i + 1 by omega, pow_succ', ← Nat.div_div_eq_div_mul, Nat.mul_comm _ b, Nat.mul_add_div hb,
        Nat.div_eq_of_lt hx,
        Nat.add_zero]
      simpa [List.getElem_append_left hi] using ih (fun y hy => hf y (by simp [hy])) hi
    · simp [Nat.mod_eq_of_lt hx]

/-- The `n` digits of base `b` of a number, put together, are the number. -/
theorem foldl_digits_range (b N n : Nat) :
    (List.range n).foldl (fun m k => m * b + N / b ^ (n - 1 - k) % b) 0 = N % b ^ n := by
  induction n generalizing N with
  | zero => simp [Nat.mod_one]
  | succ n ih =>
    have digits : (List.range n).foldl (fun m k => m * b + N / b ^ (n - k) % b) 0 =
        (List.range n).foldl (fun m k => m * b + N / b / b ^ (n - 1 - k) % b) 0 :=
      List.foldl_ext _ _ _ fun m k hk => by
        have hk := List.mem_range.1 hk
        rw [Nat.div_div_eq_div_mul, ← pow_succ', show n - 1 - k + 1 = n - k by omega]
    rw [List.range_succ, List.foldl_append, Nat.add_sub_cancel, digits, ih]
    rw [List.foldl_cons, List.foldl_nil, Nat.sub_self, pow_zero, Nat.div_one, pow_succ', Nat.mod_mul, Nat.mul_comm, Nat.add_comm]

/-- Digits put together stay below the power of their number. -/
theorem foldl_digits_lt {α : Type} (b : Nat) (f : α → Nat) (l : List α) (hf : ∀ x ∈ l, f x < b) :
    l.foldl (fun n x => n * b + f x) 0 < b ^ l.length := by
  induction l using List.reverseRecOn with
  | nil => simp
  | append_singleton l x ih =>
    have hx : f x < b := hf x (by simp)
    have hl := ih fun y hy => hf y (by simp [hy])
    rw [List.foldl_append, List.foldl_cons, List.foldl_nil, List.length_append, List.length_singleton, pow_succ]
    nlinarith

/-! Lines. -/

theorem lineBits_lt (x : Line) : lineBits x < (2 ^ 64) ^ 9 := by
  have words := foldl_digits_lt (2 ^ 36) BitVec.toNat x.words.toList fun w _ => w.isLt
  rw [Vector.length_toList] at words
  exact words.trans_eq (by norm_num)

/-- A line that is not poisoned is the line of its bits. -/
theorem lineOfBits_lineBits {x : Line} (h : x.poison = false) : lineOfBits (lineBits x) = x := by
  have words : (lineOfBits (lineBits x)).words = x.words := by
    refine Vector.ext fun i hi => ?_
    have digit := foldl_digits_div_mod (2 ^ 36) BitVec.toNat x.words.toList (fun w _ => w.isLt) (i := i) (by simpa using hi)
    simp only [← pow_mul, Vector.length_toList, Vector.getElem_toList] at digit
    refine BitVec.eq_of_toNat_eq ?_
    rw [lineOfBits, Vector.getElem_ofFn, BitVec.toNat_ofNat]
    exact digit
  cases x
  simp only [lineOfBits] at words ⊢
  simp only [words, ← h]

/-- The 64 data bits of a codeword of a line. -/
def lineData (x : Line) (k : Nat) : Nat := lineBits x / 2 ^ (64 * (8 - k)) % 2 ^ 64

theorem lineData_lt (x : Line) (k : Nat) : lineData x k < 2 ^ 64 := Nat.mod_lt _ (by decide)

/-- The data and the fold bit that a codeword carries (R390). -/
theorem cwEncode_carries {data : Nat} (h : data < 2 ^ 64) (fold : Bool) :
    (cwEncode data fold false).toNat / 2 ^ 16 = data ∧ dbit (cwEncode data fold false) 64 = fold := by
  have word : cwHead data fold ^^^ bchRem (cwHead data fold) = (data * 2 + b2n fold) * 2 ^ 14 + bchRem (cwHead data fold) :=
    (mul_two_pow_add_eq_xor _ (bchRem_lt (cwHead_lt h fold))).symm
  have rem := bchRem_lt (cwHead_lt h fold)
  have bit (b : Bool) : b2n b < 2 := by cases b <;> decide
  have hf := bit fold
  rw [cwEncode_eq h, if_neg Bool.false_ne_true, Nat.xor_zero, word]
  generalize bchRem (cwHead data fold) = r at rem ⊢
  have hp := bit (parity80 ((data * 2 + b2n fold) * 2 ^ 14 + r))
  rw [withParity, dbit_ofNat80 _ (by decide), BitVec.toNat_ofNat, Nat.testBit_eq_decide_div_mod_eq]
  generalize b2n (parity80 ((data * 2 + b2n fold) * 2 ^ 14 + r)) = p at hp ⊢
  refine ⟨by omega, ?_⟩
  have fifteenth : (((data * 2 + b2n fold) * 2 ^ 14 + r) * 2 + p) / 2 ^ (79 - 64) % 2 = b2n fold := by omega
  rw [fifteenth]
  cases fold <;> rfl

/-- What the nine codewords of a line that is not poisoned are (R390). -/
theorem storedCw_good {x : Line} (h : x.poison = false) (l k : Nat) : storedCw l x k = cwEncode (lineData x k) (foldBit l k) false := by
  rw [storedCw, if_neg (by simp [h]), lineData]

/-- Nine codewords without an error are a line, or misdirected where a fold bit is not the address's (R394). -/
theorem lineDecode_good (l : Nat) (cs : List (BitVec 80)) (h : ∀ c ∈ cs, cwDecode c = .good c false) : lineDecode l cs =
    if cs.zipIdx.all (fun x => dbit x.1 64 == foldBit l x.2) then .ok (lineOfBits (cs.foldl (fun n c => n * 2 ^ 64 + c.toNat / 2 ^ 16) 0)) 0
    else .misdir 0 := by
  have decoded : cs.map cwDecode = cs.map fun c => .good c false := List.map_congr_left h
  have unpoisoned : (cs.map fun c => CwOut.good c false).contains .poison = false := by simp
  have correctable : (cs.map fun c => CwOut.good c false).contains .bad = false := by simp
  have unfixed : (cs.map fun c => (c, false)).filter (·.2) = [] := by simp
  simp only [lineDecode, decoded, unpoisoned, correctable, Bool.false_eq_true, if_false, List.filterMap_map, Function.comp_def,
    List.filterMap_eq_map', List.foldl_map, List.zipIdx_map, List.all_map,
    unfixed, List.length_nil]
  rfl

section
variable {x : Line}

/-- The nine codewords of a line that is not poisoned are read without an error: as the line at an address of the same fold, as misdirected
at any other (R394). -/
theorem lineDecode_storedCw (h : x.poison = false) (l l' : Nat) : lineDecode l' ((List.range 9).map (storedCw l x)) =
    if foldOf l = foldOf l' then LineOut.ok x 0 else .misdir 0 := by
  set cw := fun k => cwEncode (lineData x k) (foldBit l k) false with hcw
  have stored : (List.range 9).map (storedCw l x) = (List.range 9).map cw := List.map_congr_left fun k _ => storedCw_good h l k
  have clean : ∀ c ∈ (List.range 9).map cw, cwDecode c = .good c false :=
    List.forall_mem_map.2 fun k _ => (cwEncode_isCodeword (lineData_lt x k) _).decode
  have carried (k : Nat) := cwEncode_carries (lineData_lt x k) (foldBit l k)
  have bits : ((List.range 9).map cw).foldl (fun n c => n * 2 ^ 64 + c.toNat / 2 ^ 16) 0 = lineBits x := by
    rw [List.foldl_map]
    calc _ = (List.range 9).foldl (fun m k => m * 2 ^ 64 + lineBits x / (2 ^ 64) ^ (9 - 1 - k) % 2 ^ 64) 0 :=
          List.foldl_ext _ _ _ fun m k _ => by rw [(carried k).1, lineData, pow_mul]
      _ = lineBits x := by rw [foldl_digits_range, Nat.mod_eq_of_lt (lineBits_lt x)]
  have folds : ((((List.range 9).map cw).zipIdx.all fun x => dbit x.1 64 == foldBit l' x.2) = true) = (foldOf l = foldOf l') := by
    refine propext ⟨fun all => foldOf_eq_of_bits fun k hk => ?_, fun same => ?_⟩
    · have := List.all_eq_true.1 all (cw k, k) (List.mem_zipIdx_iff_getElem?.2 (by simp [hk]))
      rwa [beq_iff_eq, (carried k).2] at this
    · refine List.all_eq_true.2 fun y hy => ?_
      obtain ⟨k, hk, hy⟩ : ∃ k, k < 9 ∧ y = (cw k, k) := by
        obtain ⟨hk, hval⟩ := List.getElem?_eq_some_iff.1 (List.mem_zipIdx_iff_getElem?.1 hy)
        rw [List.getElem_map, List.getElem_range] at hval
        exact ⟨y.2, by rwa [List.length_map, List.length_range] at hk, Prod.ext hval.symm rfl⟩
      rw [hy, beq_iff_eq, (carried k).2, foldBit, same, foldBit]
  rw [stored, lineDecode_good l' _ clean, bits, lineOfBits_lineBits h]
  simp only [folds]

/-- Those of a poisoned line read as poisoned (R395). -/
theorem lineDecode_poisoned (h : x.poison = true) (l : Nat) : lineDecode l ((List.range 9).map (storedCw l x)) = .poison false := by
  have decoded : ((List.range 9).map (storedCw l x)).map cwDecode = List.replicate 9 .poison := by
    rw [List.map_map, List.map_congr_left (g := fun _ => CwOut.poison) fun k _ => ?_, List.map_const', List.length_range]
    rw [Function.comp_apply, storedCw, if_pos h, cwDecode_poison (by decide)]
  rw [lineDecode, decoded]
  rfl

end

end Sys2Proof.Machine

open Sys2Proof Sys2Proof.Machine

/-- Settles O39: reading back is `lineDecode_storedCw`, and the fold being linear, two addresses have one fold only where the fold of their
difference is zero, which that of one or two bits is not. -/
theorem lineCodewords : Obligations.LineCodewords := by
  refine ⟨fun l x hx => ?good, fun l x hx => lineDecode_poisoned hx l, fun l i j hi hj => ?near, fun l l' x hx hne => ?misdirected⟩
  case good => rw [lineDecode_storedCw hx, if_pos rfl]
  case near =>
    obtain ⟨one, two⟩ := foldOf_bits i hi j hj
    rw [Nat.xor_assoc, foldOf_xor, foldOf_xor, foldOf_xor]
    have moves {a : Nat} (ha : a ≠ 0) : foldOf l ^^^ a ≠ foldOf l := fun h => ha (by
      simpa [← Nat.xor_assoc] using congrArg (foldOf l ^^^ ·) h)
    exact ⟨moves one, fun hij => moves (mt Nat.xor_eq_zero_iff.1 (two hij))⟩
  case misdirected => exact ⟨0, by rw [lineDecode_storedCw hx, if_neg hne]⟩

end

section
/-! What a real fault event records (O56): the registers of its block, and its reaction. -/

namespace Sys2Proof.Machine
open Sys2Proof

/-- An interrupt message that falls due is no reaction. -/
theorem State.msiDue_reacts (s : State) (f v : Nat) : (s.msiDue f v).reacts = s.reacts := by
  unfold State.msiDue
  split <;> rfl

/-- The pin ERR_N is no reaction. -/
theorem State.errRose_reacts (s s0 : State) : (s.errRose s0).reacts = s.reacts := by
  rw [State.errRose, State.istat, apply_ite State.reacts, apply_ite State.reacts, State.msiDue_reacts, State.setBar_reacts, ite_self,
    ite_self]

section
variable (s : State) (b : Blk) (src : Nat) (info : Word)

/-- FFIRST of a real event: that it is real, its source and its time (R609). -/
def faultFirst (src time : Nat) : Word :=
  setField (setField (setField (setField (setField (0 : Word) 0 0 1) 1 1 0) 2 2 1) 3 7 src) 8 35 time

/-- What a real event records before it reacts: status, count, and FFIRST and FINFO where they hold none (R605, R606, R609). -/
def State.recorded (s : State) (b : Blk) (src : Nat) (info : Word) : State :=
  let s1 := (s.setFld b 0o777700 src src 1).count b 0o777705 0 35
  if s1.rbit b 0o777706 0 then s1 else (s1.setReg b 0o777706 (faultFirst src (micros 28 s1))).setReg b 0o777707 info

variable {s b src} in
/-- A real event records, and reacts where its source was clear and is not masked (R612). -/
theorem State.fault_real (h : s.shadowed b src = false) : s.fault b src info =
    (if (s.rbit b 0o777700 src || s.rbit b 0o777700 (18 + src)) || (s.recorded b src info).rbit b 0o777701 src then s.recorded b src info
      else (s.recorded b src info).takeReact b ((s.recorded b src info).react b src).2).errRose s := by
  rw [State.fault, if_neg (by simp [h])]
  rfl

variable {s b src} in
/-- The registers that a real event leaves are those that it records. -/
theorem State.reg_fault (h : s.shadowed b src = false) (b' : Blk) (o : Nat) :
    (s.fault b src info).reg b' o = (s.recorded b src info).reg b' o := by
  have same : (s.fault b src info).regs = (s.recorded b src info).regs := by
    rw [State.fault_real info h, State.errRose_regs]
    split
    · rfl
    · rw [State.takeReact_regs]
  rw [State.reg, same, State.reg]

/-- The block's registers after the event at every offset but FFIRST and FINFO. -/
theorem State.reg_recorded_ne {o : Nat} (h6 : o ≠ 0o777706) (h7 : o ≠ 0o777707) :
    (s.recorded b src info).reg b o = ((s.setFld b 0o777700 src src 1).count b 0o777705 0 35).reg b o := by
  unfold State.recorded
  extract_lets s1
  split
  · rfl
  · rw [State.reg_setReg_ne _ _ _ h7, State.reg_setReg_ne _ _ _ h6]

/-- A register that the event does not record in. -/
theorem State.reg_recorded_other {o : Nat} (h0 : o ≠ 0o777700) (h5 : o ≠ 0o777705) (h6 : o ≠ 0o777706) (h7 : o ≠ 0o777707) :
    (s.recorded b src info).reg b o = s.reg b o := by
  rw [State.reg_recorded_ne s b src info h6 h7, State.count, State.setFld, State.reg_setReg_ne _ _ _ h5, State.setFld,
    State.reg_setReg_ne _ _ _ h0]

/-- Recording is no reaction. -/
theorem State.recorded_reacts : (s.recorded b src info).reacts = s.reacts := by
  unfold State.recorded
  extract_lets s1
  split <;> simp only [s1, State.count, State.setFld, State.setReg_reacts]

/-- FSTAT: the source's REAL bit is set. -/
theorem State.reg_recorded_status : (s.recorded b src info).reg b 0o777700 = setField (s.reg b 0o777700) src src 1 := by
  rw [State.reg_recorded_ne s b src info (by decide) (by decide), State.count, State.setFld, State.reg_setReg_ne _ _ _ (by decide),
    State.setFld,
    State.reg_setReg]

/-- A register whose whole word is replaced. -/
theorem toNat_setField_word (x : Word) (v : Nat) : (setField x 0 35 v).toNat = v % 2 ^ 36 := by
  have whole (y : Word) : field y 0 35 = y.toNat := by simpa [field] using y.isLt
  rw [← whole, field_setField x v (by decide) (by decide)]

/-- FCNT counts the event, saturating. -/
theorem State.reg_recorded_count :
    ((s.recorded b src info).reg b 0o777705).toNat = min (2 ^ 36 - 1) ((s.reg b 0o777705).toNat + 1) := by
  have kept : (s.setFld b 0o777700 src src 1).fld b 0o777705 0 35 = (s.reg b 0o777705).toNat := by
    rw [State.fld, State.setFld, State.reg_setReg_ne _ _ _ (by decide), field]
    simpa using (s.reg b 0o777705).isLt
  have bound := (s.reg b 0o777705).isLt
  rw [State.reg_recorded_ne s b src info (by decide) (by decide), State.count, kept, State.setFld, State.reg_setReg, toNat_setField_word,
    satInc]
  split <;> omega

/-- FFIRST and FINFO hold what they held. -/
theorem State.reg_recorded_held (h : s.rbit b 0o777706 0 = true) {o : Nat} (h0 : o ≠ 0o777700) (h5 : o ≠ 0o777705) :
    (s.recorded b src info).reg b o = s.reg b o := by
  have held : ((s.setFld b 0o777700 src src 1).count b 0o777705 0 35).rbit b 0o777706 0 = true := by
    rwa [State.count, State.rbit_setFld_ne _ _ _ _ _ _ (by decide), State.rbit_setFld_ne _ _ _ _ _ _ (by decide)]
  simp only [State.recorded, if_pos held]
  rw [State.count, State.setFld, State.reg_setReg_ne _ _ _ h5, State.setFld, State.reg_setReg_ne _ _ _ h0]

/-- FFIRST and FINFO take the event where they hold none. -/
theorem State.reg_recorded_first (h : s.rbit b 0o777706 0 = false) :
    (s.recorded b src info).reg b 0o777706 = faultFirst src (micros 28 s) ∧ (s.recorded b src info).reg b 0o777707 = info := by
  have free : ((s.setFld b 0o777700 src src 1).count b 0o777705 0 35).rbit b 0o777706 0 = false := by
    rwa [State.count, State.rbit_setFld_ne _ _ _ _ _ _ (by decide), State.rbit_setFld_ne _ _ _ _ _ _ (by decide)]
  simp only [State.recorded, free, Bool.false_eq_true, if_false]
  rw [State.reg_setReg, State.reg_setReg_ne _ _ _ (by decide), State.reg_setReg, micros, State.count, State.setFld, State.setReg_clock,
    State.setFld,
    State.setReg_clock, micros]
  exact ⟨rfl, rfl⟩

end

/-- The reaction of a real event is the source's own, taken where the source was clear and is not masked (R612). -/
theorem State.fault_reacts {s : State} {b : Blk} {src : Nat} (info : Word) (h : s.shadowed b src = false) :
    (s.fault b src info).reacts = s.reacts ++
    if s.rbit b 0o777700 src = false ∧ s.rbit b 0o777700 (18 + src) = false ∧ s.rbit b 0o777701 src = false ∧
      1 ≤ (s.react b src).2 ∧ (s.react b src).2 ≤ 4 then [(b, (s.react b src).2)] else [] := by
  have mask : (s.recorded b src info).rbit b 0o777701 src = s.rbit b 0o777701 src := by
    rw [State.rbit, State.fld, State.reg_recorded_other _ _ _ _ (by decide) (by decide) (by decide) (by decide), State.rbit, State.fld]
  have code : (s.recorded b src info).react b src = s.react b src := by
    unfold State.react
    extract_lets o at_
    have kept : (s.recorded b src info).reg b o = s.reg b o := by
      refine State.reg_recorded_other _ _ _ _ ?_ ?_ ?_ ?_ <;> simp only [o] <;> split <;> decide
    simp only [State.fld, kept]
  rw [State.fault_real info h, State.errRose_reacts, mask, code]
  cases s.rbit b 0o777700 src
  case true => simp [State.recorded_reacts]
  cases s.rbit b 0o777700 (18 + src)
  case true => simp [State.recorded_reacts]
  cases s.rbit b 0o777701 src
  case true => simp [State.recorded_reacts]
  simp only [Bool.or_self, Bool.false_eq_true, if_false, true_and, State.takeReact]
  split
  · simp only [State.recorded_reacts]
  · rw [State.recorded_reacts, List.append_nil]

/-- The fields of FFIRST of a real event. -/
theorem faultFirst_fields {src : Nat} (h : src < 18) (time : Nat) : field (faultFirst src time) 0 0 = 1 ∧
    field (faultFirst src time) 1 1 = 0 ∧ field (faultFirst src time) 2 2 = 1 ∧ field (faultFirst src time) 3 7 = src := by
  have small : src % 2 ^ (7 + 1 - 3) = src := Nat.mod_eq_of_lt (h.trans (by decide))
  refine ⟨by simp [faultFirst, field_setField, field_setField_ne], by simp [faultFirst, field_setField, field_setField_ne],
    by simp [faultFirst, field_setField, field_setField_ne], ?_⟩
  rw [faultFirst, field_setField_ne _ _ (by decide) (by decide) (by decide) (by decide), field_setField _ _ (by decide) (by decide), small]

end Sys2Proof.Machine

open Sys2Proof Sys2Proof.Machine

/-- Settles O56: what the event leaves in the registers is what it records (`State.reg_fault`), and its reaction is read after that, from
registers in which it does not record (`State.fault_reacts`). -/
theorem faultRecording : Obligations.FaultRecording := by
  intro s b src info hsrc
  refine ⟨fun hs => by rw [State.fault, if_pos hs], fun hs => ?_⟩
  refine ⟨s.rbit_fault_real info (by omega) hs, ?others, ?count, ?held, ?first, State.fault_reacts info hs⟩
  case others =>
    intro i hi hne
    rw [State.rbit, State.fld, State.reg_fault info hs, State.reg_recorded_status,
      field_setField_ne _ _ le_rfl (by omega) hi (by omega), State.rbit, State.fld]
  case count =>
    rw [State.reg_fault info hs]
    exact s.reg_recorded_count b src info
  case held =>
    intro h
    rw [State.reg_fault info hs, State.reg_fault info hs]
    exact ⟨s.reg_recorded_held b src info h (by decide) (by decide), s.reg_recorded_held b src info h (by decide) (by decide)⟩
  case first =>
    intro h
    obtain ⟨first, infos⟩ := s.reg_recorded_first b src info h
    obtain ⟨f0, f1, f2, f3⟩ := faultFirst_fields hsrc (micros 28 s)
    simp only [State.rbit, State.fld, State.reg_fault info hs, first, infos, f0, f1, f2, f3]
    decide

end

section
/-! Token slots (O55): the status word of a slot, what a long command that starts writes there, and OP_RELEASE. -/

namespace Sys2Proof.Machine
open Sys2Proof

/-- Mailbox words are separate (R554). -/
theorem State.mail_setMail_ne (s : State) {i j : Nat} (w : Word) (h : j ≠ i) : (s.setMail i w).mail j = s.mail j := by
  rw [State.mail, State.setMail, State.easelWord_setEasel_ne _ _ _ _ (by omega), State.mail]

/-- The status that a slot is given (R584). -/
theorem State.slotStat_setSlot (s : State) (k seq progress : Nat) {st reply : Nat} (hst : st < 4) (hr : reply < 256) :
    (s.setSlot k seq st reply progress).slotStat k = (seq % 256, st, reply, progress % 2 ^ 18) := by
  have word : (w36 (seq % 256 * 2 ^ 28 + st * 2 ^ 26 + reply * 2 ^ 18 + progress % 2 ^ 18)).toNat =
      seq % 256 * 2 ^ 28 + st * 2 ^ 26 + reply * 2 ^ 18 + progress % 2 ^ 18 := by
    rw [w36, BitVec.toNat_ofNat, Nat.mod_eq_of_lt]
    omega
  rw [State.slotStat, State.mail, State.setSlot, State.setMail, State.easelWord_setEasel, word]
  refine Prod.ext ?_ (Prod.ext ?_ (Prod.ext ?_ ?_)) <;> dsimp only <;> omega

/-- The status of another slot stays. -/
theorem State.slotStat_setSlot_ne (s : State) {k j : Nat} (seq st reply progress : Nat) (h : j ≠ k) :
    (s.setSlot k seq st reply progress).slotStat j = s.slotStat j := by
  rw [State.slotStat, State.setSlot, State.mail_setMail_ne _ _ (by simp only [slotAt]; omega), State.slotStat]

/-- The status of slots is in the mailbox of tile 0's Easel. -/
theorem State.slotStat_congr {s t : State} (h : s.easel = t.easel) (k : Nat) : s.slotStat k = t.slotStat k := by
  simp only [State.slotStat, State.mail, State.easelWord, h]

/-- An interrupt message that falls due writes no Easel. -/
theorem State.msiDue_easel (s : State) (f v : Nat) : (s.msiDue f v).easel = s.easel := by
  unfold State.msiDue
  split <;> rfl

/-- A cause of ISTAT writes no Easel. -/
theorem State.istat_easel (s : State) (v : Nat) : (s.istat v).easel = s.easel := by
  rw [State.istat, apply_ite State.easel, State.msiDue_easel, State.setBar_easel, ite_self]

/-- A reply goes to the host; it writes no Easel. -/
theorem State.reply_easel (s : State) (tag : BitVec 16) (code token : Nat) (data : List Octet) :
    (s.reply tag code token data).easel = s.easel := by
  unfold State.reply
  extract_lets i at_ untaken filled answered
  rw [apply_ite State.easel, State.istat_easel, State.emit_easel]
  simp only [answered, filled, State.emit_easel, apply_ite State.easel, ite_self, untaken]

/-- A long command that starts writes its slot's status, and no other slot's (R583, R586). -/
theorem State.slotStat_started (s : State) (h : ConHdr) (op target k j : Nat) :
    (s.started h op target k).slotStat j = (s.setSlot k (((s.slotStat k).1 + 1) % 256) 1 0 0).slotStat j := by
  rw [State.started]
  exact State.slotStat_congr (by rw [State.reply_easel]) j

section
variable {h : ConHdr} {s s1 : State} {tok : Nat}

/-- OP_RELEASE, heard, by its token: the slot's count and state decide (R586). -/
theorem State.opRelease_heard (H : Hears h 0x04 1 s s1) : s.opRelease h tok =
    if 65536 ≤ tok then s1.reply h.tag 4 0 []
    else if (s1.slotStat (tok % 256)).2.1 = 0 ∨ (s1.slotStat (tok % 256)).1 ≠ tok / 256 then s1.conAns h 7 []
    else if (s1.slotStat (tok % 256)).2.1 = 1 then s1.conAns h 6 []
    else (s1.setSlot (tok % 256) (s1.slotStat (tok % 256)).1 0 0 0).conAns h 0 [] := by
  rw [State.opRelease, conCmd_heard H]
  simp only [decide_eq_true_eq]

end
end Sys2Proof.Machine

open Sys2Proof Sys2Proof.Machine

/-- Settles O55: a start raises the count of its slot alone (`State.slotStat_started`), and a count that has been raised 1 to 255 times
is not the one that the token names. -/
theorem tokensNameOneUse : Obligations.TokensNameOneUse := by
  refine ⟨fun s h op target k hk => ⟨?raised, fun j hj hne => ?others⟩, fun h s s1 tok H hlt => ?release⟩
  case raised =>
    rw [State.slotStat_started, State.slotStat_setSlot _ _ _ _ (by decide) (by decide), Nat.mod_mod, Nat.zero_mod]
  case others => rw [State.slotStat_started, State.slotStat_setSlot_ne _ _ _ _ _ hne]
  case release =>
    intro k st
    have released : s.opRelease h tok.toNat = if st.2.1 = 0 ∨ st.1 ≠ tok.toNat / 256 then s1.conAns h 7 []
        else if st.2.1 = 1 then s1.conAns h 6 [] else (s1.setSlot k st.1 0 0 0).conAns h 0 [] := by
      rw [State.opRelease_heard H, if_neg (Nat.not_le.2 hlt)]
    simp only [exec_opRelease, execOpRelease, ends_follow, released]
    refine ⟨fun done same => ⟨?frees, ?freed⟩, fun runs same => ?busy, fun other => ?stale, fun n h1 h255 later => ?laterUse⟩
    case frees => rw [if_neg (by rintro (free | ne) <;> omega), if_neg (by omega)]
    case freed => rw [State.slotStat_setSlot _ _ _ _ (by decide) (by decide)]
    case busy => rw [if_neg (by rintro (free | ne) <;> omega), if_pos runs]
    case stale => rw [if_pos other]
    case laterUse =>
      have differs : st.1 ≠ tok.toNat / 256 := by omega
      rw [if_pos (.inr differs)]

end

section
/-! The stacked memory's controllers (O40, O41): what a read of a line ends with, and the upkeep of a stack. -/

namespace Sys2Proof.Machine
open Sys2Proof

theorem mcBlk_val (m : McId) : mcBlk m.val = .memc m := by rw [mcBlk, Fin.ofNat_val_eq_self]

theorem stackBlk_val (m : McId) : stackBlk m.val = .stack m := by rw [stackBlk, Fin.ofNat_val_eq_self]

/-- Where a controller's last error was (R418). -/
theorem State.memLast_eq (s : State) (m : McId) (kind ls : Nat) :
    s.memLast m.val kind ls = (s.setFld (.memc m) 7 0 2 kind).setFld (.memc m) 7 6 35 ls := by
  rw [State.memLast, Fin.ofNat_val_eq_self]

section
variable {s : State} {m ls : Nat} {a b : RawRead} {x : Line} {n : Nat}

/-- A read that finds a good line (R396). -/
theorem State.mcLine_ok (h : lineDecode (m * 2 ^ 30 + ls) (s.rawLine m a) = .ok x n) :
    s.mcLine m ls a b = (x, .good, s.scrubbed m ls n x) := by
  simp only [State.mcLine, h]

/-- A poisoned line, which may hold an uncorrectable codeword beside (R398). -/
theorem State.mcLine_poison {bad : Bool} (h : lineDecode (m * 2 ^ 30 + ls) (s.rawLine m a) = .poison bad) : s.mcLine m ls a b =
    (poisonLine, .poison,
      if bad then ((s.count (mcBlk m) 6 0 35).memLast m 4 ls).badCodeword m ls else (s.count (mcBlk m) 6 0 35).memLast m 4 ls) := by
  simp only [State.mcLine, h]

/-- An uncorrectable line is written as poison and reported, and its row spared (R398, R402). -/
theorem State.mcLine_bad (h : lineDecode (m * 2 ^ 30 + ls) (s.rawLine m a) = .bad) : s.mcLine m ls a b = (poisonLine, .bad,
    (((((s.memWrite (m * 2 ^ 30 + ls) poisonLine).count (mcBlk m) 4 0 35).memLast m 2 ls).fault (mcBlk m) 1
      (w36 ls)).badCodeword m ls)) := by
  simp only [State.mcLine, h]

/-- A misdirected read whose second reading is good (R397). -/
theorem State.mcLine_misdir (h : lineDecode (m * 2 ^ 30 + ls) (s.rawLine m a) = .misdir n)
    (h2 : lineDecode (m * 2 ^ 30 + ls) (s.rawLine m b) = .ok x 0) :
    s.mcLine m ls a b = (x, .good, (s.count (mcBlk m) 5 0 35).memLast m 3 ls) := by
  simp only [State.mcLine, h, h2, State.scrubbed, if_true]

/-- A line read with corrected codewords is rewritten, counted and reported (R396). -/
theorem State.scrubbed_corrected (h : 0 < n) : s.scrubbed m ls n x =
    (((((s.setDram (m * 2 ^ 30 + ls) x).count (mcBlk m) 3 0 35).memLast m 1 ls).fault (mcBlk m) 0 (w36 ls)).countCorrected m ls n) := by
  rw [State.scrubbed, if_neg (by omega)]

/-- A read whose controller accepts requests delivers its line (R389). -/
theorem State.memcRead_up (h : s.memUp (m * 2 ^ 30 + ls) = true) :
    s.memcRead m ls a b = (s.mcLine m ls a b).2.2.emit (.lineOut m (s.mcLine m ls a b).1) := by
  rw [State.memcRead, if_neg (by rw [h]; decide)]

/-- A write of a line that no patrol repair is under way for (R389, R401). -/
theorem State.memWrite_unpatrolled (hm : m < 16) (hls : ls < 2 ^ 30) (h : ∀ y ∈ (s.mc m).patrol, y.1 ≠ ls) :
    s.memWrite (m * 2 ^ 30 + ls) x = s.setDram (m * 2 ^ 30 + ls) x := by
  have stack : stackOf (m * 2 ^ 30 + ls) = m := by simp only [stackOf]; omega
  have line : (m * 2 ^ 30 + ls) % 2 ^ 30 = ls := by omega
  have none : ((s.mc m).patrol.any fun y => y.1 == ls) = false := List.any_eq_false.2 fun y hy => by simpa using h y hy
  simp only [State.memWrite, stack, line, none, Bool.false_eq_true, if_false]

/-- The patrol of a good line moves on (R401). -/
theorem State.patrol_good (on : s.rbit (mcBlk m) 1 0 = true) (pos : s.fld (mcBlk m) 1 6 35 = ls) (up : s.memUp (m * 2 ^ 30 + ls) = true)
    (last : ls + 1 < 2 ^ 30)
    (h : lineDecode (m * 2 ^ 30 + ls) ((s.setFld (mcBlk m) 1 6 35 (ls + 1)).rawLine m a) = .ok x 0) :
    s.patrol m a b = s.setFld (mcBlk m) 1 6 35 (ls + 1) := by
  have next : (ls + 1) % 2 ^ 30 = ls + 1 := Nat.mod_eq_of_lt last
  unfold State.patrol
  rw [if_neg (by simp [on]), pos]
  simp only [up, next, State.mcLine_ok h, Bool.not_true, Bool.false_eq_true, if_false, last.ne, State.scrubbed, if_true]

/-! Upkeep. -/

/-- DataNC for a patrolled line (R401). -/
theorem State.patrolRepair_found {newer : Bool} (h : (s.mc m).patrol.find? (·.1 == ls) = some (ls, newer)) :
    let s1 := s.setMc m { s.mc m with patrol := (s.mc m).patrol.filter (·.1 ≠ ls) }
    s.patrolRepair m ls x =
      if x.poison then s1.memCheck (m * 2 ^ 30 + ls) 0o010 else if newer then s1 else s1.setDram (m * 2 ^ 30 + ls) x := by
  have others : ((s.mc m).patrol.filter fun y => y.1 != ls) = (s.mc m).patrol.filter (·.1 ≠ ls) :=
    List.filter_congr fun y _ => by rw [bne, beq_eq_decide, decide_not]
  simp only [State.patrolRepair, h, others]

/-- A controller with no line named in the reset record and one region to be poisoned whole (R400). -/
theorem State.deferredPoison_region {r : Nat} (up : mcBlk m ∉ s.inReset) (unnamed : ∀ i < 4096, s.rbit .rst (0o10000 + 2 * i) 0 = false)
    (one : (s.mc m).defer = [r]) (new : r ∉ s.poisoned) :
    let s1 := s.setMc m { s.mc m with defer := [] }
    let s2 := s1.setMc m { s1.mc m with patrol := (s1.mc m).patrol.map fun y => if y.1 / 2 ^ 24 = r % 64 then (y.1, true) else y }
    s.deferredPoison m = ({ s2 with
      dram := s2.dram.filter fun e => e.1 / 2 ^ 24 != r, poisoned := s2.poisoned ++ [r] } : State).memCheck (r * 2 ^ 24) 0o015 := by
  intro s1 s2
  have kept (l : List Nat) (hl : ∀ i ∈ l, i < 4096) (one : State → Nat → State)
      (skip : ∀ i, s.rbit .rst (0o10000 + 2 * i) 0 = false → one s i = s) : l.foldl one s = s := by
    induction l with
    | nil => rfl
    | cons i l ih =>
      rw [List.foldl_cons, skip i (unnamed i (hl i List.mem_cons_self))]
      exact ih fun j hj => hl j (List.mem_cons_of_mem _ hj)
  unfold State.deferredPoison
  rw [if_neg (by simp [up])]
  extract_lets named t whole rs controller
  have unchanged : t = s := kept _ (fun i => List.mem_range.1) _ fun i hi => by
    simp only [named, hi, Bool.false_and, Bool.false_eq_true, if_false]
  have regions : rs = [r] := by rw [← one]; simp only [rs, unchanged]
  have same : controller = s.mc m := by simp only [controller, unchanged]
  have fresh : ¬ s2.poisoned.contains r = true := by
    simp only [s2, s1, State.setMc_poisoned]
    simpa using new
  rw [regions, List.foldl_cons, List.foldl_nil, unchanged, same]
  dsimp -zeta only [whole]
  extract_lets k u v
  have marked : u = s2 := rfl
  simp -zeta only [v, marked, if_neg fresh]

/-- The copy of a row ends: its 32 lines are copied through the code, and the row is spared (R402). -/
theorem State.rowSpared_copying {blk : Blk} (hb : stackBlk m = blk) {pc bank row key : Nat} {errs : Vector (Vector (BitVec 80) 9) 32}
    {s1 s2 : State} {k : MemCtl} (hk : key = pc * 2 ^ 20 + bank * 2 ^ 15 + row) (h : key ∈ (s.mc m).copying)
    (h1 : s1 = (List.range 32).foldl (fun (s : State) col =>
      let ls := row * 32768 + col * 1024 + bank * 32 + pc
      let r : RawRead := { from_ := Fin.ofNat _ ls, errs := vget errs col (Vector.replicate 9 0) }
      s.copyLine m ls 0o012 r r) s)
    (hm : k = s1.mc m)
    (h2 : s2 = s1.setMc m { k with
      copying := k.copying.filter (· ≠ key)
      rows := Tab.set (fun _ => 0) k.rows key 0
      spared := Tab.set (fun _ => 0) k.spared (key / 2 ^ 15) (Tab.get (fun _ => 0) k.spared (key / 2 ^ 15) + 1) }) :
    s.rowSpared m pc bank row errs = s2.setFld blk 0 18 31 (s2.fld blk 0 18 31 + 1) := by
  subst hb hk h2 hm h1
  simp only [State.rowSpared, List.contains_iff_mem.2 h, Bool.not_true, Bool.false_eq_true, if_false, filter_bne]

/-- A migration starts where none runs or has run (R403). -/
theorem State.migrate_start {die : Nat} (h : s.fld (stackBlk m) 0 0 1 = 0) :
    let s1 := (s.setFld (stackBlk m) 0 0 1 1).setFld (stackBlk m) 0 2 5 die
    let s2 := ((s1.setFld (stackBlk m) 1 6 9 die).setFld (stackBlk m) 1 1 3 0b100).setFld (stackBlk m) 1 10 35 0
    s.migrate m die = s2.setMc m { s2.mc m with ptrs := #v[0, 0] } := by
  rw [State.migrate, if_neg (not_not.2 h)]

/-- A failing spare die aborts the migration (R404). -/
theorem State.migCopy_fails {half : Nat} (h : s.rbit (stackBlk m) 1 1 = true) : s.migCopy m half a b true = s.migAbort m := by
  rw [State.migCopy, if_neg (by simp [h]), if_pos rfl]

/-- A recalibration aborts a migration where it fails on the die that migrates (R404, R406). -/
theorem State.recalibrate_eq (s : State) (m pc : Nat) (fails : Bool) : s.recalibrate m pc fails =
    if fails = true ∧ s.rbit (stackBlk m) 1 1 = true ∧ pc / 2 = s.fld (stackBlk m) 0 2 5 then s.migAbort m else s := by
  simp only [State.recalibrate, Bool.and_eq_true, beq_iff_eq, and_assoc]

/-! Temperature (R407). -/

section
variable {temp : Nat}

/-- A throttled controller at 83 °C or less goes back to the plain refresh rate and asks for the large step out of its throttle. -/
theorem State.stackTemp_cool (ht : temp ≤ 83) :
    let s2 := (s.setFld (stackBlk m) 0 6 14 temp).setFld (mcBlk m) 0 3 3 0
    let s3 : State := { s2 with steps := s2.steps ++ [(.unthrottle m, false)] }
    s2.rbit (mcBlk m) 0 2 = true → (.unthrottle m, false) ∉ s2.steps → (∀ g ∈ s2.granted, g.1 ≠ .unthrottle m) →
    s.stackTemp m temp = s3.setMc m { s3.mc m with hot := false } := by
  intro s2 s3 throttled unasked ungranted
  have free : s2.granted.all (fun g => g.1 != .unthrottle m) = true := by
    cases hg : s2.granted with
    | none => rfl
    | some g => simpa using ungranted g hg
  unfold State.stackTemp
  extract_lets s1 rated want dropped stepped k
  have hrated : rated = s2 := by simp only [rated, if_neg (show ¬ 85 < temp by omega), if_pos ht]; rfl
  have hstepped : stepped = s3 := by
    simp only [stepped, hrated, if_neg (show ¬ 90 < temp by omega)]
    rw [if_pos (by simp [throttled, unasked, free, want]; omega)]
  simp only [k, hstepped, if_neg (show ¬ 95 ≤ temp by omega), if_pos (show temp ≤ 93 by omega)]
  rfl

/-- From 86 to 88 °C an unthrottled controller refreshes at the doubled rate. -/
theorem State.stackTemp_warm (h85 : 85 < temp) (h88 : temp ≤ 88) :
    let s2 := (s.setFld (stackBlk m) 0 6 14 temp).setFld (mcBlk m) 0 3 3 1
    s2.rbit (mcBlk m) 0 2 = false → s.stackTemp m temp = s2.setMc m { s2.mc m with hot := false } := by
  intro s2 unthrottled
  unfold State.stackTemp
  extract_lets s1 rated want dropped stepped k
  have hrated : rated = s2 := by simp only [rated, if_pos h85]; rfl
  have hstepped : stepped = s2 := by
    simp only [stepped, hrated, if_neg (show ¬ 90 < temp by omega)]
    rw [if_neg (by simp [unthrottled])]
  simp only [k, hstepped, if_neg (show ¬ 95 ≤ temp by omega), if_pos (show temp ≤ 93 by omega)]
  rfl

/-- From 91 to 93 °C a controller begins to throttle, is reported, and drops a step out of its throttle that was asked for or granted. -/
theorem State.stackTemp_hot (h90 : 90 < temp) (h93 : temp ≤ 93) :
    let s2 := (s.setFld (stackBlk m) 0 6 14 temp).setFld (mcBlk m) 0 3 3 1
    let s3 : State := { s2 with
      steps := s2.steps.filter (· ≠ (.unthrottle m, false)), granted := s2.granted.filter (·.1 ≠ .unthrottle m) }
    s3.rbit (mcBlk m) 0 2 = false →
    let s4 := (s3.setFld (mcBlk m) 0 2 2 1).fault (mcBlk m) 4 (w36 temp)
    s.stackTemp m temp = s4.setMc m { s4.mc m with hot := false } := by
  intro s2 s3 unthrottled s4
  unfold State.stackTemp
  extract_lets s1 rated want dropped stepped k
  have hrated : rated = s2 := by simp only [rated, if_pos (show 85 < temp by omega)]; rfl
  have others : (fun g : StepKind × Bool => g.1 != .unthrottle m) = fun g => decide (g.1 ≠ .unthrottle m) := by
    funext g
    rw [bne, beq_eq_decide, decide_not]
  have unasked : (fun x : StepKind × Bool => x != (.unthrottle m, false)) = fun x => decide (x ≠ (.unthrottle m, false)) := by
    funext x
    rw [bne, beq_eq_decide, decide_not]
  have hstepped : stepped = s4 := by
    simp only [stepped, dropped, hrated, if_pos h90, others, want, unasked]
    exact if_neg (ne_true_of_eq_false unthrottled)
  simp only [k, hstepped, if_neg (show ¬ 95 ≤ temp by omega), if_pos h93]
  rfl

end

end
end Sys2Proof.Machine

open Sys2Proof Sys2Proof.Machine

/-- Settles O40, by what the read finds first (`State.mcLine`). -/
theorem memoryReads : Obligations.MemoryReads := by
  intro m ls a b s ha up l poisonSeen
  have read : exec (.memcRead m ls a b) s =
    .next ((s.mcLine m.val ls.val a b).2.2.emit (.lineOut m.val (s.mcLine m.val ls.val a b).1)).follow := by
    rw [exec_memcRead, execMemcRead, ends_whenAlive ha, State.memcRead_up up]
  refine ⟨?good, ?corrected, ?poisoned, ?poisonedBad, ?bad, ?misdirected, ?write, ?patrol⟩
  case good =>
    intro x h
    rw [read, State.mcLine_ok h, State.scrubbed, if_pos rfl]
  case corrected =>
    intro x n h hn
    rw [read, State.mcLine_ok h, State.scrubbed_corrected hn, mcBlk_val, State.memLast_eq]
    rfl
  case poisoned =>
    intro h
    rw [read, State.mcLine_poison h, if_neg Bool.false_ne_true, mcBlk_val, State.memLast_eq]
  case poisonedBad =>
    intro h
    rw [read, State.mcLine_poison h, if_pos rfl, mcBlk_val, State.memLast_eq]
  case bad =>
    intro h
    rw [read, State.mcLine_bad h, mcBlk_val, State.memLast_eq]
    rfl
  case misdirected =>
    intro n x h h2
    rw [read, State.mcLine_misdir h h2, mcBlk_val, State.memLast_eq]
  case write =>
    intro x h
    rw [exec_memcWrite, execMemcWrite, ends_whenAlive ha, State.memcWrite, if_pos up, State.memWrite_unpatrolled m.isLt ls.isLt h]
  case patrol =>
    intro x acts on pos last s1 h
    rw [← mcBlk_val] at on pos
    rw [exec_patrolScrub, execPatrolScrub, ends_onDuty ha acts, State.patrol_good on pos up last (by rw [mcBlk_val]; exact h), mcBlk_val]

/-- Settles O41, clause by clause, where the triptych that has the duty does it. -/
theorem memoryUpkeep : Obligations.MemoryUpkeep := by
  intro m s ha duty
  refine ⟨?repair, ?deferred, ?spare, ?start, ?aborts, fun pc bank row => rfl, fun temp => ?temperature⟩
  case repair =>
    intro ls x newer h s1
    rw [exec_patrolRepair, execPatrolRepair, ends_onDuty ha duty, State.patrolRepair_found h]
  case deferred =>
    intro r up unnamed one new s1 s2
    rw [exec_deferredPoison, execDeferredPoison, ends_whenAlive ha, State.deferredPoison_region (by rwa [mcBlk_val]) unnamed one new]
  case spare =>
    intro pc bank row errs key h s1 k s2
    rw [exec_rowSpareDone, execRowSpareDone, ends_onDuty ha duty,
      State.rowSpared_copying (key := key) (s1 := s1) (k := k) (s2 := s2) (stackBlk_val m) rfl h rfl rfl rfl]
  case start =>
    intro die h s1 s2
    rw [← stackBlk_val] at h
    rw [exec_migrationStart, execMigrationStart, ends_onDuty ha duty, State.migrate_start h, stackBlk_val]
  case aborts =>
    intro aborted
    have abort : s.migAbort m.val = aborted := by
      rw [State.migAbort, stackBlk_val]
      rfl
    refine ⟨fun half a b h => ?_, fun pc h hd => ?_, fun pc fails h => ?_⟩
    · rw [← stackBlk_val] at h
      rw [exec_migrationCopy, execMigrationCopy, ends_onDuty ha duty, State.migCopy_fails h, abort]
    · rw [exec_recalibration, execRecalibration, ends_onDuty ha duty, State.recalibrate_eq, stackBlk_val, if_pos ⟨rfl, h, hd⟩, abort]
    · rw [exec_recalibration, execRecalibration, ends_onDuty ha duty, State.recalibrate_eq, stackBlk_val, if_neg]
      rintro ⟨hf, hm, hd⟩
      rcases h with h | h | h <;> simp_all
  case temperature =>
    intro s1
    rw [exec_stackTempSample, execStackTempSample, ends_whenAlive ha]
    refine ⟨?cool, ?warm, ?hot⟩
    case cool =>
      intro ht s2 s3 throttled unasked ungranted
      rw [State.stackTemp_cool ht (by rwa [mcBlk_val, stackBlk_val]) (by rwa [mcBlk_val, stackBlk_val]) (by rwa [mcBlk_val, stackBlk_val]),
        mcBlk_val, stackBlk_val]
    case warm =>
      intro h85 h88 s2 free
      rw [State.stackTemp_warm h85 h88 (by rwa [mcBlk_val, stackBlk_val]), mcBlk_val, stackBlk_val]
    case hot =>
      intro h90 h93 s2 s3 free s4
      rw [State.stackTemp_hot h90 h93 (by rwa [mcBlk_val, stackBlk_val]), mcBlk_val, stackBlk_val]
      rfl

end

section
/-! The Easel (O42): the grant of a bank, its two ports, retention and scrubbing. -/

namespace Sys2Proof.Machine
open Sys2Proof

theorem easelBlk_val (t : TileId) : easelBlk t.val = .easel t := by rw [easelBlk, tileFin, Fin.ofNat_val_eq_self]

/-- A master that asks alone is granted, whichever was last (R411). -/
theorem nextSlot_alone (last : Nat) (r : EaselReq) : nextSlot last [r] = some r := by
  have turn : ∃ i ∈ List.range 15, r.slot.val = (last + 1 + i) % 15 :=
    ⟨(r.slot.val + 15 - (last + 1) % 15) % 15, List.mem_range.2 (Nat.mod_lt _ (by decide)), by have := r.slot.isLt; omega⟩
  obtain ⟨i, hi, same⟩ := turn
  have found : (nextSlot last [r]).isSome := List.findSome?_isSome_iff.2 ⟨i, hi, by simp [same]⟩
  obtain ⟨q, hq⟩ := Option.isSome_iff_exists.1 found
  obtain ⟨j, -, hj⟩ := List.exists_of_findSome?_eq_some hq
  rw [hq, ← List.mem_singleton.1 (List.mem_of_find?_eq_some hj)]

section
variable {s : State} {t b : Nat} {r : EaselReq} {errors : Nat}

section
variable (here : r.addr.val % 32 = b)
include here

/-- One master's access to a bank that is awake is served, and the master goes last (R411). -/
theorem State.easelCycle_alone (awake : s.retained t b = false) : s.easelCycle t b [r] none errors =
    ({ s with easelRot := Tab.set (fun _ => 14) s.easelRot (t * 32 + b) r.slot.val } : State).easelServe
      t r.slot.val r.addr.val r.write errors := by
  simp [State.easelCycle, here, awake, nextSlot_alone]

/-- Both ports at one dual-ported word (R412, R413). -/
theorem State.easelCycle_both {p : EaselPortB} (awake : s.retained t b = false) (same : p.addr = r.addr)
    (dual : dualPorted r.addr.val = true) :
    s.easelCycle t b [r] (some p) errors =
    ({ s with easelRot := Tab.set (fun _ => 14) s.easelRot (t * 32 + b) r.slot.val } : State).bothPorts
      t r.slot.val r.addr.val r.write p.write errors := by
  have kept : Option.filter (fun p : EaselPortB => dualPorted p.addr.val) (some p) = some p := by
    rw [Option.filter_some, same, dual, if_pos rfl]
  simp [State.easelCycle, here, awake, nextSlot_alone, kept, same]

/-- An access to a bank in retention waits (R414). -/
theorem State.easelCycle_retained (asleep : s.retained t b = true) : s.easelCycle t b [r] none errors =
    ({ s with
      easelWait := Tab.set (fun _ => []) s.easelWait (t * 32 + b) (Tab.get (fun _ => []) s.easelWait (t * 32 + b) ++ [r]) } : State) := by
  simp [State.easelCycle, here, asleep]

end

/-- A bank for which no access waits has nothing to do when it wakes. -/
theorem State.easelWake_idle (h : Tab.get (fun _ => []) s.easelWait (t * 32 + b) = []) : s.easelWake t b = s := by
  rw [State.easelWake, h]
  rfl

/-- A write of EASEL_RET where no access waits (R414). -/
theorem State.easelRet_idle (v : BitVec 32) (h : ∀ b < 32, Tab.get (fun _ => []) s.easelWait (t * 32 + b) = []) :
    s.easelRet t v = s.setFld (easelBlk t) 0 1 31 v.toNat := by
  have kept (u : State) (hu : u.easelWait = s.easelWait) (l : List Nat) (hl : ∀ b ∈ l, b < 32) :
      l.foldl (fun s b => if s.retained t b then s else s.easelWake t b) u = u := by
    induction l with
    | nil => rfl
    | cons b l ih =>
      rw [List.foldl_cons, State.easelWake_idle (by rw [hu, h b (hl b List.mem_cons_self)]), ite_self]
      exact ih fun x hx => hl x (List.mem_cons_of_mem _ hx)
  exact kept _ (by rw [State.setFld, State.setReg_easelWait]) _ fun b => List.mem_range.1

/-- The one access that waited for a bank completes when it has woken (R414). -/
theorem State.easelWake_one (h : Tab.get (fun _ => []) s.easelWait (t * 32 + b) = [r]) : s.easelWake t b =
    ({ s.setFld (easelBlk t) 0 b b 0 with
      easelWait := Tab.set (fun _ => []) (s.setFld (easelBlk t) 0 b b 0).easelWait (t * 32 + b) [] } : State).easelServe t
        r.slot.val r.addr.val r.write 0 := by
  simp only [State.easelWake, h, List.isEmpty_cons, Bool.false_eq_true, if_false, List.foldl_cons, List.foldl_nil, State.setFld,
    State.setReg_easelWait]

/-- What a scrub reports of no bit error, of one and of two (R409). -/
theorem State.easelScrub_none (e : Nat) : s.easelScrub t e (0 : Fin 3).val = s := if_pos rfl

theorem State.easelScrub_single (e : Nat) : s.easelScrub t e (1 : Fin 3).val = s.fault (easelBlk t) 0 (w36 e) := by
  simp [State.easelScrub]

theorem State.easelScrub_double (e : Nat) : s.easelScrub t e (2 : Fin 3).val = s.fault (easelBlk t) 1 (w36 e) := by
  simp [State.easelScrub]

end

end Sys2Proof.Machine

open Sys2Proof Sys2Proof.Machine

/-- Settles O42, by the ports in use and what they do (R409-R414). -/
theorem easelCommands : Obligations.EaselCommands := by
  intro t s ha
  refine ⟨fun b r here => ?granted, fun b r here asleep => ?waits, fun e => ?scrub, fun v idle => ?retention, fun b r w hw one => ?wakes⟩
  case granted =>
    intro s1 awake
    have alone (e : Fin 3) : exec (.easelAccess t b [r] none e) s =
      .next (s1.easelServe t.val r.slot.val r.addr.val r.write e.val).follow := by
      rw [exec_easelAccess, execEaselAccess, ends_whenAlive ha, State.easelCycle_alone here awake]
    refine ⟨fun w hw => ?write, fun hw => ⟨?good, ?single, fun h8 h9 => ?double⟩, fun p v same even small => ?both⟩
    case write => rw [alone, hw, State.easelServe]
    case good =>
      rw [alone, hw]
      rfl
    case single =>
      rw [alone, hw, State.easelServe, easelBlk_val]
      rfl
    case double =>
      have triptych : r.slot.val = 8 ∨ r.slot.val = 9 := by omega
      have high : ¬ r.slot.val < 8 := by omega
      rw [alone, hw, State.easelServe, State.easelBad, easelBlk_val, if_neg high, if_pos triptych]
      rfl
    case both =>
      have dual : dualPorted r.addr.val = true := by simp [dualPorted, even, small]
      have served : exec (.easelAccess t b [r] (some p) 0) s =
          .next (s1.bothPorts t.val r.slot.val r.addr.val r.write p.write 0).follow := by
        rw [exec_easelAccess, execEaselAccess, ends_whenAlive ha]
        exact congrArg (fun u : State => Host.Outcome.next u.follow) (State.easelCycle_both here awake same dual)
      refine ⟨fun w hr hp => ?writes, fun hr hp => ?readA, fun hr hp => ?readB⟩
      case writes =>
        rw [served, hr, hp, State.bothPorts, easelBlk_val, State.collision, easelBlk_val]
      case readA =>
        rw [served, hr, hp, State.bothPorts, State.collision, State.easelBusy, State.conf, easelBlk_val]
        rfl
      case readB =>
        rw [served, hr, hp, State.bothPorts, State.collision, State.easelBusy, State.conf, easelBlk_val]
        rfl
  case waits => rw [exec_easelAccess, execEaselAccess, ends_whenAlive ha, State.easelCycle_retained here asleep]
  case scrub =>
    have scrubbed (n : Fin 3) : exec (.easelScrub t e n) s = .next (s.easelScrub t.val e.val n.val).follow := by
      rw [exec_easelScrub, execEaselScrub, ends_whenAlive ha]
    rw [scrubbed, scrubbed, scrubbed, State.easelScrub_none, State.easelScrub_single, State.easelScrub_double, easelBlk_val]
    exact ⟨rfl, rfl, rfl⟩
  case retention => rw [exec_easelRetention, execEaselRetention, ends_whenAlive ha, State.easelRet_idle v idle, easelBlk_val]
  case wakes =>
    intro s1
    rw [exec_easelWakeDone, execEaselWakeDone, ends_whenAlive ha, State.easelWake_one one, hw, easelBlk_val]
    rfl

end

section
/-! Exchanges (O43): what the vats do of themselves, and what they make of their partners' messages. -/

namespace Sys2Proof.Machine
open Sys2Proof

theorem vatBlk_val (v : VatId) : vatBlk v.val = .vat v := by rw [vatBlk, Fin.ofNat_val_eq_self]

/-! A unit's actions in turn. -/

section
variable {α β : Type} {x : U α} {f : α → U β} {s s1 : State}

/-- What ends well goes on. -/
theorem unit_bind_ok {a : α} (h : x.run s = some (.ok a, s1)) : (x >>= f).run s = (f a).run s1 := by
  rw [ExceptT.run_bind]
  exact (congrArg (Option.bind · _) h).trans rfl

/-- What fails ends there. -/
theorem unit_bind_error {e : UErr} (h : x.run s = some (.error e, s1)) : (x >>= f).run s = some (.error e, s1) := by
  rw [ExceptT.run_bind]
  exact (congrArg (Option.bind · _) h).trans rfl

theorem unit_get_bind (f : State → U β) : ((get : U State) >>= f).run s = (f s).run s := rfl

theorem unit_set_bind (f : PUnit → U β) : ((set s1 : U PUnit) >>= f).run s = (f ⟨⟩).run s1 := rfl

theorem unit_modify (g : State → State) : (modify g : U PUnit).run s = some (.ok ⟨⟩, g s) := rfl

theorem unit_modify_bind (g : State → State) (f : PUnit → U β) : ((modify g : U PUnit) >>= f).run s = (f ⟨⟩).run (g s) := rfl

end

section
variable {s s1 s2 : State} {n : Nat}

/-- The journal entry's first word when a slot is granted (R450). -/
theorem journalWord_granted : setField (setField (0 : Word) 0 0 1) 3 18 n = BitVec.ofNat 36 (2 ^ 35 + n % 2 ^ 16 * 2 ^ 17) := by
  have small : n % 2 ^ 16 * 2 ^ 17 < 2 ^ 35 := by omega
  have joined : 2 ^ 35 * 1 + n % 2 ^ 16 * 2 ^ 17 = 2 ^ 35 * 1 ||| n % 2 ^ 16 * 2 ^ 17 := Nat.two_pow_add_eq_or_of_lt small 1
  have granted : setField (0 : Word) 0 0 1 &&& ~~~BitVec.ofNat 36 ((2 ^ (18 + 1 - 3) - 1) * 2 ^ (36 - 1 - 18)) =
    BitVec.ofNat 36 (2 ^ 35) := by
    decide
  rw [setField, granted, ← Nat.mul_one (2 ^ 35), joined, BitVec.ofNat_or]

/-- A waiting subchannel takes the lowest free slot of its vat (R425, R447, R450). -/
theorem State.slotGrant_waiting {v x : Nat} {rest : List Nat} (up : s.inReset.contains (vatBlk v) = false)
    (waits : Tab.get (fun _ => []) s.vatWait v = n :: rest) (lowest : (List.range 1024).find? (fun x => !dbit (s.jw v x 0) 0) = some x) :
    s.slotGrant v =
      let s1 : State := { s with vatWait := Tab.set (fun _ => []) s.vatWait v rest }
      let s2 := (s1.setCbF n 6 20 29 x).setSubSt n 2
      let s3 := s2.setEasel (v / 2) (jAt v x 0) (BitVec.ofNat 36 (2 ^ 35 + n % 2 ^ 16 * 2 ^ 17))
      let s4 := s3.setEasel (v / 2) (jAt v x 1) (setField (0 : Word) 0 19 (s3.subGen n))
      let s5 := s4.setEasel (v / 2) (jAt v x 2) (setField (0 : Word) 0 11 (s4.cbF n 4 4 15))
      s5.setEasel (v / 2) (jAt v x 3) 0 := by
  rw [State.slotGrant, up, if_neg Bool.false_ne_true]
  simp only [waits, lowest, journalWord_granted]

/-! What a unit's actions leave of an exchange. -/

theorem State.chanRun_ok {f : U Unit} (h : f.run s = some (.ok (), s1)) : s.chanRun n f = s1 := by rw [State.chanRun, h]

theorem State.chanRun_error {f : U Unit} {e : UErr} (h : f.run s = some (.error e, s1)) : s.chanRun n f = s1.chanFail n e := by
  rw [State.chanRun, h]

/-! Fetching a packet (R436-R446). -/

section
variable (may : s.mayFetch n = true)
include may

theorem State.packetFetch_fails {e : UErr} (h : (fetchNext n).run s = some (.error e, s1)) : s.packetFetch n = s1.chanFail n e := by
  rw [State.packetFetch, may, if_neg (by decide)]
  exact State.chanRun_error (unit_bind_error h)

theorem State.packetFetch_suspends (h : (fetchNext n).run s = some (.ok .suspend, s1)) : s.packetFetch n = s1.chanEnd n 0 0 true false := by
  rw [State.packetFetch, may, if_neg (by decide)]
  exact State.chanRun_ok (unit_bind_ok h)

/-- The command leaves with its first packet, where it needs no data or has them all (R441). -/
theorem State.packetFetch_leaves {data : List Octet} (h : (fetchNext n).run s = some (.ok (.added data none), s1))
    (unsent : (s1.xc n).sent = false) (ready : (s1.xc n).isIn = true ∨ (s1.xc n).xf = 0) :
    s.packetFetch n = (s1.setXc n { s1.xc n with ready := true }).commandSend n := by
  rw [State.packetFetch, may, if_neg (by decide)]
  refine State.chanRun_ok ((unit_bind_ok h).trans ((unit_get_bind _).trans ?_))
  cases inward : (s1.xc n).isIn with
  | true =>
    simp only [inward, unsent, Bool.false_eq_true, if_false, if_true]
    rfl
  | false =>
    have plain : (s1.xc n).xf = 0 := ready.resolve_left (by simp [inward])
    simp only [inward, plain, unsent, Bool.false_eq_true, if_false, if_true]
    rfl

variable {data : List Octet} {i p : Nat} (h : (fetchNext n).run s = some (.ok (.added data (some i)), s1)) (plain : (s1.xc n).xf = 0)
include h plain

/-- A format error ends the exchange once the data before it have left, with the command (R442). -/
theorem State.packetFetch_format (unsent : (s1.xc n).sent = false) :
    s.packetFetch n = ((s1.setXc n { s1.xc n with ready := true }).commandSend n).chanFail n (.fmt i) := by
  rw [State.packetFetch, may, if_neg (by decide)]
  refine State.chanRun_error ((unit_bind_ok h).trans ((unit_get_bind _).trans ?_))
  rw [if_pos plain, if_neg (by rw [unsent]; exact Bool.false_ne_true)]
  rfl

/-- ... or after it (R442). -/
theorem State.packetFetch_formatSent (sent : (s1.xc n).sent = true) (path : (s1.xc n).path = some p) :
    s.packetFetch n = (s1.sendData n p data false).chanFail n (.fmt i) := by
  rw [State.packetFetch, may, if_neg (by decide)]
  refine State.chanRun_error ((unit_bind_ok h).trans ((unit_get_bind _).trans ?_))
  rw [if_pos plain, if_pos sent, path]
  rfl

end

/-! Acknowledgements (R439, R445, R451). -/

section
variable {m : FeltHdr} {status ds moved : Nat} (mine : s.openFor m [2, 4, 5] = true)
include mine

/-- One that ends a halted or cleared exchange (R457). -/
theorem State.xackIn_stopped (st : s.subSt m.xid.val ≠ 2) (plain : (s.xc m.xid.val).xf = 0) : s.xackIn m 0 ds moved =
    (s.setXc m.xid.val { s.xc m.xid.val with dstat := ds, moved := moved }).resolve m.xid.val .ok := by
  simp only [State.xackIn, mine, Bool.not_true, Bool.false_eq_true, if_false, st, plain, if_true, ne_eq, not_false_eq_true]

variable (active : s.subSt m.xid.val = 2)
include active

/-- One of a command that had failed before (R445). -/
theorem State.xackIn_failed {st : Nat} (plain : (s.xc m.xid.val).xf = 0) (err : (s.xc m.xid.val).err = some st) :
    s.xackIn m status ds moved =
    (s.setXc m.xid.val { s.xc m.xid.val with dstat := ds, moved := moved }).chanEnd m.xid.val 1 st false (st == 0o005) := by
  simp only [State.xackIn, mine, Bool.not_true, Bool.false_eq_true, if_false, active, plain, err, if_true, ne_eq, not_true_eq_false]

variable (good : (s.xc m.xid.val).err = none)
include good

/-- One with an error status (R451). -/
theorem State.xackIn_error (plain : (s.xc m.xid.val).xf = 0) (bad : status ≠ 0) (op : (s.xc m.xid.val).op ≠ 4) :
    s.xackIn m status ds moved =
    (s.setXc m.xid.val { s.xc m.xid.val with
      dstat := if ds = 0 then status else ds, moved := moved }).chanEnd m.xid.val 1 1 false false := by
  have other : ((s.xc m.xid.val).op == 4) = false := beq_eq_false_iff_ne.2 op
  simp only [State.xackIn, mine, Bool.not_true, Bool.false_eq_true, if_false, active, plain, good, bad, if_true, ne_eq, not_true_eq_false,
    not_false_eq_true, other, Bool.false_and]

end

/-- A command whose last packet is fetched has nothing more to fetch. -/
theorem fetchRest_done {fuel : Nat} (h : (s.xc n).more = false) : (fetchRest fuel n).run s = some (.ok (), s) := by
  cases fuel with
  | zero => rfl
  | succ f =>
    simp only [fetchRest, unit_get_bind, h]
    rfl

@[simp] theorem State.xc_setXc (x : Xch) : (s.setXc n x).xc n = x := Tab.get_set_self _ _ _ _

/-- One with status 0 of a command whose packets are all fetched: a short transfer that its packet does not allow, the next command, or the
end of the exchange (R439, R447, R451). -/
theorem State.xackIn_good {m : FeltHdr} {ds moved : Nat} {p : Pkt} (mine : s.openFor m [2, 4, 5] = true) (active : s.subSt m.xid.val = 2)
    (good : (s.xc m.xid.val).err = none) (plain : (s.xc m.xid.val).xf = 0) (last : (s.xc m.xid.val).packets.getLast? = some p)
    (ends : p.link ≠ 2) : s.xackIn m 0 ds moved =
      let x := s.xc m.xid.val
      let s1 := s.setXc m.xid.val { x with dstat := ds, moved := moved }
      if moved ≠ (x.packets.map (·.count)).sum ∧ p.lenok = false then s1.chanEnd m.xid.val 1 2 false false
      else if p.link = 1 then s1.advance m.xid.val else s1.chanEnd m.xid.val 0 0 false false := by
  extract_lets x s1
  have same : s1.xc m.xid.val = { x with dstat := ds, moved := moved } := State.xc_setXc _
  have done : (s1.xc m.xid.val).more = false := by rw [same, Xch.more]; simp only [x, last, beq_eq_false_iff_ne.2 ends]
  simp only [State.xackIn, mine, Bool.not_true, Bool.false_eq_true, if_false, active, good, ne_eq, not_true_eq_false]
  refine State.chanRun_ok ((unit_modify_bind _ _).trans ?_)
  simp only [plain, if_true]
  refine (unit_bind_ok (s := s1) (fetchRest_done done)).trans ((unit_modify _).trans ?_)
  simp only [same, x, last]

/-- Data of a READ or SENSE that fill packets already there (R439, R442). -/
theorem State.xdataIn_fills {m : FeltHdr} {os : List Octet} {last : Bool} (mine : s.openFor m [2, 4] = true) :
    let x := s.xc m.xid.val
    let all := x.inb ++ os
    x.isIn = true → x.err = none → x.xf = 0 → (fetchRoom 4096 m.xid.val all.length).run s = some (.ok (), s1) →
    (fillPackets (s1.xc m.xid.val) all x.inb.length last).run (s1.setXc m.xid.val { s1.xc m.xid.val with
      inb := all, moved := all.length }) =
      some (.ok (), s2) → s.xdataIn m os last false = s2 := by
  intro x all inward good plain room filled
  have fine : ((s.xc m.xid.val).err.getD 7 == 7) = true := by rw [show (s.xc m.xid.val).err = none from good]; rfl
  simp only [State.xdataIn, mine, fine, show (s.xc m.xid.val).isIn = true from inward, Bool.not_true, Bool.or_self, Bool.false_eq_true,
    if_false]
  refine State.chanRun_ok ((unit_get_bind _).trans ?_)
  rw [if_pos plain]
  exact (unit_bind_ok room).trans ((unit_get_bind _).trans ((unit_set_bind _).trans filled))

/-- The partner's record of a halted or cleared exchange resolves it (R457). -/
theorem State.recordIn_resolves {m : FeltHdr} {found : Bool} {g hi status : Nat} (valid : s.subV m.xid.val = true)
    (st : s.subSt m.xid.val = 4 ∨ s.subSt m.xid.val = 5) (asked : (s.xc m.xid.val).queried = true) (gen : s.subGen m.xid.val = m.gen.val) :
    s.recordIn m found g hi status = s.resolve m.xid.val
      (if found = true ∧ g = s.subGen m.xid.val ∧ s.cseqOf m.xid.val ≤ hi then (if status = 0 then .ok else .error status 0) else .no) := by
  have stopped : (s.subSt m.xid.val == 4 || s.subSt m.xid.val == 5) = true := by simpa using st
  have mine : (s.subGen m.xid.val == m.gen.val) = true := beq_iff_eq.2 gen
  simp only [State.recordIn, valid, stopped, asked, mine, Bool.and_self, Bool.not_true, Bool.false_eq_true, if_false, Bool.and_eq_true,
    beq_iff_eq,
    decide_eq_true_eq, and_assoc]
  split <;> rfl

/-! Time-outs (R452-R454, R457). -/

/-- An open command is not acknowledged in time: its path has failed (R453). -/
theorem State.ackTimeout_fails {p : Nat} (active : s.subSt n = 2) (sent : (s.xc n).sent = true) (valid : s.subV n = true)
    (path : (s.xc n).path = some p) (good : (s.xc n).err = none) :
    s.ackTimeout n = (s.setPst n p 3).afterFailure n (s.pathVer n p) := by
  simp only [State.ackTimeout, State.pathFail, active, sent, valid, path, good, and_self, if_true, ne_eq, not_true_eq_false, if_false]

/-- ... and so where the command was abandoned, which ends the exchange (R445, R453). -/
theorem State.ackTimeout_abandoned {p st : Nat} (active : s.subSt n = 2) (sent : (s.xc n).sent = true) (valid : s.subV n = true)
    (path : (s.xc n).path = some p) (err : (s.xc n).err = some st) (told : st ≠ 7 ∨ (s.xc n).isIn = false) :
    s.ackTimeout n = (s.setPst n p 3).chanEnd n 1 st false (st == 0o005) := by
  have told : ¬ (st = 7 ∧ (s.xc n).isIn = true) := by rintro ⟨h7, hin⟩; simp [h7, hin] at told
  simp only [State.ackTimeout, State.pathFail, active, sent, valid, path, err, and_self, if_true, ne_eq, not_true_eq_false, if_false, told]

section
variable (nopath : s.pathChoice n = none)
include nopath

/-- A resolving exchange finds no path in time (R454). -/
theorem State.pathWaitTimeout_resolving (st : s.subSt n = 6) : s.pathWaitTimeout n = s.chanEnd n 3 0o013 false false := by
  simp only [State.pathWaitTimeout, nopath, st, Option.isSome_none, Bool.false_eq_true, if_false, if_true]

/-- A command that was never sent finds none (R452). -/
theorem State.pathWaitTimeout_ready (st : s.subSt n = 2) (ready : (s.xc n).ready = true) (path : (s.xc n).path = none) :
    s.pathWaitTimeout n =
      if s.phaseOf n = 0 then s.chanEnd n 2 0o013 false false else (s.setSubSt n 6).setJF n 0 1 2 2 := by
  simp [State.pathWaitTimeout, nopath, st, ready, path]

end

/-- A halt or clear is not answered, and there is none to ask, or no answer (R457). -/
theorem State.haltTimeout_unknown (st : s.subSt n = 4 ∨ s.subSt n = 5) (mute : s.pathChoice n = none ∨ (s.xc n).queried = true) :
    s.haltTimeout n = s.resolve n .unknown := by
  have stopped : ¬ (s.subSt n ≠ 4 ∧ s.subSt n ≠ 5) := by omega
  rw [State.haltTimeout, if_neg stopped]
  rcases mute with h | h
  · simp only [h]
  · simp only [h, Bool.not_true, Bool.and_false, Bool.false_and, Bool.false_eq_true, if_false]
    split <;> rfl

/-- ... and the partner is asked for its record (R457). -/
theorem State.haltTimeout_asks {p p0 : Nat} (st : s.subSt n = 4 ∨ s.subSt n = 5) (choice : s.pathChoice n = some p)
    (path : (s.xc n).path = some p0) (sent : (s.xc n).sent = true) (unasked : (s.xc n).queried = false) (ver : 2 ≤ s.pathVer n p0) :
    s.haltTimeout n = (s.setXc n { s.xc n with queried := true, path := some p }).chanMsg n p 7 0 .none false := by
  have stopped : ¬ (s.subSt n ≠ 4 ∧ s.subSt n ≠ 5) := by omega
  simp only [State.haltTimeout, if_neg stopped, choice, path, sent, unasked, ver, Bool.not_false, Bool.and_self, decide_true, if_true]

/-! Moves, paths and the restart of a vat (R424, R428, R458). -/

/-- The first entry of a list with a key is the one found. -/
theorem find?_key {β : Type} {a b : List (Nat × β)} {y : β} (first : ∀ x ∈ a, x.1 ≠ n) :
    (a ++ (n, y) :: b).find? (fun x => x.1 == n) = some (n, y) := by
  rw [List.find?_append, List.find?_eq_none.2 fun x hx => by simpa using first x hx, Option.none_or, List.find?_cons_of_pos (by simp)]

/-- An idle subchannel's control block moves (R424). -/
theorem State.moveSub_idle {a b : List (Nat × Nat × Nat)} {v k : Nat} (due : s.moves = a ++ (n, v, k) :: b) (first : ∀ y ∈ a, y.1 ≠ n)
    (idle : s.subSt n = 0 ∨ s.subSt n = 3) : s.moveSub n =
      let v2 := s.fld .deckle (subAt n) 7 10
      let k2 := s.fld .deckle (subAt n) 23 35
      let s1 := (List.range 16).foldl (fun s w => s.setEasel (v2 / 2) (cbAt k2 w) (s.easelWord (v / 2) (cbAt k w))) s
      ({ s1 with moves := s1.moves.filter fun y => y.1 ≠ n } : State) := by
  have still : ¬ (s.subSt n ≠ 0 ∧ s.subSt n ≠ 3) := by omega
  rw [State.moveSub, due, find?_key first]
  simp only [still, if_false, bne, beq_eq_decide, decide_not]

/-- A vat that leaves reset takes up each exchange of its journal (R458). -/
theorem State.vatRestart_up {v : Nat} (up : s.inReset.contains (vatBlk v) = false) : s.vatRestart v =
    (List.range 1024).foldl (fun (s : State) j =>
      let n := field (s.jw v j 0) 3 18
      let x := s.xc n
      if dbit (s.jw v j 0) 0 = false ∨ s.subSt n ≠ 2 then s
      else if field (s.jw v j 0) 1 2 = 0 then if x.ready then (s.setXc n { x with path := none }).commandSend n else s
      else if x.sent then s.afterFailure n (match x.path with | some p => s.pathVer n p | none => 0) else s) s := by
  rw [State.vatRestart, up, if_neg Bool.false_ne_true]
  congr 1
  funext s j
  cases used : dbit (s.jw v j 0) 0 with
  | false => simp only [used, Bool.not_false, if_true, true_or]
  | true =>
    simp only [used, Bool.not_true, Bool.false_eq_true, if_false, false_or, reduceCtorEq]
    refine if_congr Iff.rfl rfl ?_
    split
    · next h => rw [if_pos h]
    · next h => rw [if_neg h] <;> rfl

end

end Sys2Proof.Machine

open Sys2Proof Sys2Proof.Machine

/-- Settles O43, by what a vat, a partner's message or a timer finds the exchange doing (R424-R458). -/
theorem exchangeEvents : Obligations.ExchangeEvents := by
  refine ⟨?grant, ?fetch, ?ack, ?stoppedAck, ?data, ?record, ?timers, ?path, ?restart⟩
  case grant =>
    intro v s n x rest ha up waits lowest
    have up : s.inReset.contains (vatBlk v.val) = false := by simpa [vatBlk_val] using up
    rw [exec_slotGrant, execSlotGrant, ends_whenAlive ha, State.slotGrant_waiting up waits lowest]
  case fetch =>
    intro n s s1 ha may
    have fetches : exec (.packetFetch n) s = .next (s.packetFetch n.val).follow := by
      rw [exec_packetFetch, execPacketFetch, ends_whenAlive ha]
    refine ⟨fun e h => ?_, fun h => ?_, fun data h unsent ready => ?_, fun data i p h plain => ⟨fun unsent => ?_, fun sent path => ?_⟩⟩
    · rw [fetches, State.packetFetch_fails may h]
    · rw [fetches, State.packetFetch_suspends may h]
    · rw [fetches, State.packetFetch_leaves may h unsent ready]
    · rw [fetches, State.packetFetch_format may h plain unsent]
    · rw [fetches, State.packetFetch_formatSent may h plain sent path]
  case ack =>
    intro m status ds moved s p ha mine active n x plain
    have taken (status : Octet) : exec (.xack m status ds moved) s = .next (s.xackIn m status.toNat ds.toNat moved).follow := by
      rw [exec_xack, execXack, ends_whenAlive ha]
    have zero : ds = 0 ↔ ds.toNat = 0 := ⟨fun h => by rw [h]; rfl, fun h => BitVec.eq_of_toNat_eq h⟩
    refine ⟨fun st err => ?_, fun good bad op => ?_, fun good last ends => ?_⟩
    · rw [taken, State.xackIn_failed mine active plain err]
    · have bad : status.toNat ≠ 0 := fun h => bad (BitVec.eq_of_toNat_eq h)
      simp only [taken, State.xackIn_error mine active good plain bad op, zero, n, x]
    · intro s1
      rw [taken]
      exact congrArg (fun u : State => Host.Outcome.next u.follow) (State.xackIn_good mine active good plain last ends)
  case stoppedAck =>
    intro m ds moved s ha mine n stopped plain
    rw [exec_xack, execXack, ends_whenAlive ha]
    exact congrArg (fun u : State => Host.Outcome.next u.follow) (State.xackIn_stopped mine stopped plain)
  case data =>
    intro m os last s s1 s2 ha mine n x all inward good plain room filled
    rw [exec_xdata, execXdata, ends_whenAlive ha, State.xdataIn_fills mine inward good plain room filled]
  case record =>
    intro m found g hi status s ha n valid st asked gen
    have zero : status = 0 ↔ status.toNat = 0 := ⟨fun h => by rw [h]; rfl, fun h => BitVec.eq_of_toNat_eq h⟩
    rw [exec_record, execRecord, ends_whenAlive ha, State.recordIn_resolves valid st asked gen]
    simp only [zero, n]
  case timers =>
    intro n s ha x
    refine ⟨fun p active sent valid path => ⟨fun good => ?_, fun st err told => ?_⟩,
      fun nopath => ⟨fun st => ?_, fun st ready path => ⟨fun ph => ?_, fun ph => ?_⟩⟩,
      fun st => ⟨fun mute => ?_, fun p p0 choice path sent un ver => ?_⟩,
      fun a v k b due first idle => ?_⟩
    · rw [exec_ackTimeout, execAckTimeout, ends_whenAlive ha, State.ackTimeout_fails active sent valid path good]
    · rw [exec_ackTimeout, execAckTimeout, ends_whenAlive ha, State.ackTimeout_abandoned active sent valid path err told]
    · rw [exec_pathWaitTimeout, execPathWaitTimeout, ends_whenAlive ha, State.pathWaitTimeout_resolving nopath st]
    · rw [exec_pathWaitTimeout, execPathWaitTimeout, ends_whenAlive ha, State.pathWaitTimeout_ready nopath st ready path, if_pos ph]
    · rw [exec_pathWaitTimeout, execPathWaitTimeout, ends_whenAlive ha, State.pathWaitTimeout_ready nopath st ready path, if_neg ph]
    · rw [exec_haltTimeout, execHaltTimeout, ends_whenAlive ha, State.haltTimeout_unknown st mute]
    · rw [exec_haltTimeout, execHaltTimeout, ends_whenAlive ha, State.haltTimeout_asks st choice path sent un ver]
    · rw [exec_subchannelMove, execSubchannelMove, ends_whenAlive ha, State.moveSub_idle due first idle]
  case path =>
    intro l s ha duty link
    simp only [exec_pathUpdate, execPathUpdate, ends_onDuty ha duty, State.pathUpdate, link, Bool.not_true, Bool.false_eq_true, if_false]
  case restart =>
    intro v s ha up
    have up : s.inReset.contains (vatBlk v.val) = false := by simpa [vatBlk_val] using up
    rw [exec_vatRestart, execVatRestart, ends_whenAlive ha, State.vatRestart_up up] <;> rfl

end

section
/-! The module as recipient on group C (O45). -/

namespace Sys2Proof.Machine
open Sys2Proof

section
variable {s s1 : State} {m : FeltHdr} {dev : BitVec 16} {os : List Octet} {poison : Bool} {code st sh : Nat}
  (up : s.reqUp m = true)
include up

/-! Where the module is no recipient every request is answered with status 1 (R490). -/

section
variable (other : s.recipient m = false)
include other

theorem State.wwriteIn_other : s.wwriteIn m dev os poison = s.answer m 64 3 1 (.ack 0 0) false := by simp [State.wwriteIn, up, other]

theorem State.sessionSense_other : s.sessionSense m = s.answer m 64 3 1 (.ack 0 0) false := by simp [State.sessionSense, up, other]

theorem State.xreqReject_other : s.xreqReject m code = s.answer m 64 3 1 (.ack 0 0) false := by simp [State.xreqReject, up, other]

end

section
variable (mine : s.recipient m = true)
include mine

/-- A WWRITE seen before is answered as then (R491). -/
theorem State.wwriteIn_again (seen : s.seen m = .again st) : s.wwriteIn m dev os poison = s.answer m 64 3 st (.ack 0 0) false := by
  simp [State.wwriteIn, up, mine, seen]

variable (new : s.seen m = .act)
include new

/-- A new one writes its words, is recorded and answered (R490, R491). -/
theorem State.wwriteIn_new (written : s.winWrite m dev (unpack os) poison = some (st, sh, s1)) :
    s.wwriteIn m dev os poison = s1.acted m sh st (if st = 0 ∨ st = 4 then os.length else 0) := by
  simp [State.wwriteIn, up, mine, new, written]

/-- A session SENSE gives the sender's previous session and the record (R460, R491). -/
theorem State.sessionSense_new {p : Nat} {prev : Word} {serial : DWord} {sess : Word}
    (table : s.recOf (s.lnk (linkNo m.link)).serial = some p)
    (known : Tab.get (fun _ => none) s.recTabs p = some (serial, sess, some prev)) : s.sessionSense m =
      (s.answer m 64 2 0 (.data (packOf [prev, setField (s.recWord m) 32 35 0])) true).acted m 64 0 9 := by
  simp [State.sessionSense, up, mine, new, table, known]

/-- Any other request (R490). -/
theorem State.xreqReject_new (window : code ≠ 0o100) (session : code ≠ 0o376) : s.xreqReject m code = s.acted m 64 1 0 := by
  simp only [State.xreqReject, up, mine, new, Bool.not_true, Bool.false_eq_true, if_false, window, session, or_self]

end

end

/-- ARM makes a window's shadow active, word by word (R492). -/
theorem State.windowArm_eq (s : State) (t : TileId) (w : Nat) :
    let copy (s : State) (i : Nat) : State := s.setReg (.linkgrp t 2) (0o1000 + 4 * w + i) (s.reg (.linkgrp t 2) (0o1100 + 4 * w + i))
    s.windowArm t.val w = copy (copy (copy s 0) 1) 2 := by
  intro copy
  have same : tileFin t.val = t := by rw [tileFin, Fin.ofNat_val_eq_self]
  have three : List.range 3 = [0, 1, 2] := by decide
  simp only [State.windowArm, same, three, List.foldl_cons, List.foldl_nil, copy]

end Sys2Proof.Machine

open Sys2Proof Sys2Proof.Machine

/-- Settles O45, by what the module is on the link and what its record says of the request (R456, R490-R492). -/
theorem recipientRows : Obligations.RecipientRows := by
  refine ⟨fun m s ha up => ?requests, fun t w s ha => ?arm⟩
  case requests =>
    have write (dev : BitVec 16) (os : List Octet) (bad : Bool) : exec (.wwrite m dev os bad) s =
      .next (s.wwriteIn m dev os bad).follow := by
      rw [exec_wwrite, execWwrite, ends_whenAlive ha]
    have sense : exec (.sessionSense m) s = .next (s.sessionSense m).follow := by
      rw [exec_sessionSense, execSessionSense, ends_whenAlive ha]
    have reject (code : Octet) : exec (.xreqReject m code) s = .next (s.xreqReject m code.toNat).follow := by
      rw [exec_xreqReject, execXreqReject, ends_whenAlive ha]
    refine ⟨fun other dev os code bad => ⟨?_, ?_, ?_⟩, fun mine new => ⟨fun dev os bad st sh s1 written => ?_,
      fun p prev serial sess table known => ?_,
      fun code window session => ?_⟩, fun mine st dev os seen => ?_⟩
    · rw [write, State.wwriteIn_other up other]
    · rw [sense, State.sessionSense_other up other]
    · rw [reject, State.xreqReject_other up other]
    · rw [write, State.wwriteIn_new up mine new written]
    · rw [sense, State.sessionSense_new up mine new table known]
    · rw [reject, State.xreqReject_new up mine new (fun h => window (BitVec.eq_of_toNat_eq h)) fun h => session (BitVec.eq_of_toNat_eq h)]
    · rw [write, State.wwriteIn_again up mine seen]
  case arm =>
    rw [exec_windowArm, execWindowArm, ends_whenAlive ha]
    exact congrArg (fun u : State => Host.Outcome.next u.follow) (State.windowArm_eq s t w)

end

section
/-! The felt links (O44): the flits of a link's stream, and how a link trains, sleeps, wakes and goes down. -/

namespace Sys2Proof.Machine
open Sys2Proof

section
variable {s : State} {n : Nat}

/-! A link's own state and its registers are apart. -/

@[simp] theorem State.lstate_setLnk (i : Nat) (x : Link) : (s.setLnk i x).lstate n = s.lstate n := rfl

@[simp] theorem State.lwidth_setLnk (i : Nat) (x : Link) : (s.setLnk i x).lwidth n = s.lwidth n := rfl

@[simp] theorem State.isLink_setLnk (i : Nat) (x : Link) : (s.setLnk i x).isLink n = s.isLink n := rfl

@[simp] theorem State.linkUp_setLnk (i : Nat) (x : Link) : (s.setLnk i x).linkUp n = s.linkUp n := rfl

@[simp] theorem State.linkUp_takeAck (h : FlitHdr) : (s.takeAck n h).linkUp n = s.linkUp n := rfl

@[simp] theorem State.lnk_setLnk (x : Link) : (s.setLnk n x).lnk n = x := Tab.get_set_self _ _ _ _

@[simp] theorem State.setLnk_setLnk (x y : Link) : (s.setLnk n x).setLnk n y = s.setLnk n y := by simp only [State.setLnk, Tab.set_set]

theorem State.linkUp_of_active (active : s.lstate n = 5) : s.linkUp n = true := by simp [State.linkUp, active]

/-! A flit taken in turn (R470-R476). -/

section
variable {h : FlitHdr}

theorem State.flitTake_badCrc : s.flitTake n h false = (s.count (linkBlk n) (lcntAt n 2) 0 35).nakFlit n := by simp [State.flitTake]

theorem State.flitTake_badType (other : h.type.val = 0 ∨ 5 < h.type.val) : s.flitTake n h true = s.linkDown n 4 := by
  simp only [State.flitTake, Bool.not_true, Bool.false_eq_true, if_false, other, if_true]

variable (up : s.linkUp n = true) (ack : h.nak = false)
include up ack

/-- A header without data gives its ACK and credits (R473, R476). -/
theorem State.flitTake_idle (low : 2 ≤ h.type.val) (high : h.type.val ≤ 5) : s.flitTake n h true = (s.takeAck n h).feltFlush n := by
  have known : ¬ (h.type.val = 0 ∨ 5 < h.type.val) := by omega
  have idle : ¬ h.type.val = 1 := by omega
  simp only [State.flitTake, Bool.not_true, Bool.false_eq_true, if_false, known, ack, Bool.false_and, State.linkUp_takeAck, up, idle,
    if_true]

/-- An expected DATA flit within its credits is accepted (R473, R476). -/
theorem State.flitTake_data (data : h.type.val = 1) :
    let s1 := s.takeAck n h
    let k := s1.lnk n
    h.seq.val = k.rxNext → vget k.rxCred h.vc.val 0 ≠ 0 → k.unacked + 1 < 32 →
    s.flitTake n h true = (s1.setLnk n { k with
      rxNext := (k.rxNext + 1) % 1024, nakSent := false, sleepReq := false, unacked := k.unacked + 1
      rxCred := vset k.rxCred h.vc.val (vget k.rxCred h.vc.val 0 - 1)
      owed := vset k.owed h.vc.val (vget k.owed h.vc.val 0 + 1) }).feltFlush n := by
  intro s1 k next credit room
  have known : ¬ (h.type.val = 0 ∨ 5 < h.type.val) := by omega
  have upAck : s1.linkUp n = true := (State.linkUp_takeAck h).trans up
  have few : ¬ 32 ≤ k.unacked + 1 := by omega
  have taken : s1.dataIn n h = s1.setLnk n { k with
      rxNext := (k.rxNext + 1) % 1024, nakSent := false, sleepReq := false, unacked := k.unacked + 1
      rxCred := vset k.rxCred h.vc.val (vget k.rxCred h.vc.val 0 - 1)
      owed := vset k.owed h.vc.val (vget k.owed h.vc.val 0 + 1) } := by
    rw [State.dataIn, if_neg (not_not.2 next), if_neg credit]
    exact if_neg few
  simp only [State.flitTake, Bool.not_true, Bool.false_eq_true, if_false, known, ack, Bool.false_and, State.linkUp_takeAck, up]
  rw [if_pos data, show (s.takeAck n h).dataIn n h = _ from taken, State.linkUp_setLnk, upAck, if_pos rfl]

end

/-! The order of the lanes (R466). -/

section
variable {lane : Nat} {h : FlitHdr} {good : Bool} (active : s.lstate n = 5)
include active

/-- The flit of the lane whose turn it is is taken. -/
theorem State.flitTurn_takes {f : Nat}
    (found : (s.lnk n).rxHeld.find? (fun x => x.1 == (s.lnk n).rxFlit % s.lwidth n) = some (lane, h, good)) : s.flitTurn n (f + 1) =
      ((s.setLnk n { s.lnk n with
        rxFlit := (s.lnk n).rxFlit + 1, rxHeld := (s.lnk n).rxHeld.erase (lane, h, good) }).flitTake n h good).flitTurn n f := by
  simp only [State.flitTurn, active, bne_self_eq_false, Bool.false_eq_true, if_false, stripe, found]

/-- None is taken while that lane has none. -/
theorem State.flitTurn_waits {f : Nat} (missing : ∀ x ∈ (s.lnk n).rxHeld, x.1 ≠ (s.lnk n).rxFlit % s.lwidth n) : s.flitTurn n f = s := by
  have nobody : (s.lnk n).rxHeld.find? (fun x => x.1 == (s.lnk n).rxFlit % s.lwidth n) = none :=
    List.find?_eq_none.2 fun x hx => by simpa using missing x hx
  cases f with
  | zero => rfl
  | succ f => simp only [State.flitTurn, active, bne_self_eq_false, Bool.false_eq_true, if_false, stripe, nobody]

variable (link : s.isLink n = true) (inside : lane < s.lwidth n)
include link inside

theorem State.flitIn_arrives : s.flitIn n lane h good =
    (s.setLnk n { s.lnk n with rxHeld := (s.lnk n).rxHeld ++ [(lane, h, good)] }).flitTurn n ((s.lnk n).rxHeld.length + 1) := by
  simp [State.flitIn, active, link, inside]

/-- A flit that is early on its lane is held. -/
theorem State.flitIn_early (other : lane ≠ (s.lnk n).rxFlit % s.lwidth n)
    (missing : ∀ x ∈ (s.lnk n).rxHeld, x.1 ≠ (s.lnk n).rxFlit % s.lwidth n) :
    s.flitIn n lane h good = s.setLnk n { s.lnk n with rxHeld := (s.lnk n).rxHeld ++ [(lane, h, good)] } := by
  rw [State.flitIn_arrives active link inside, State.flitTurn_waits (by simpa using active)]
  simpa [or_imp, forall_and, other] using missing

variable (turn : lane = (s.lnk n).rxFlit % s.lwidth n)
include turn

/-- A flit in turn is taken. -/
theorem State.flitIn_turn (held : (s.lnk n).rxHeld = []) : s.flitIn n lane h good =
    (s.setLnk n { s.lnk n with rxFlit := (s.lnk n).rxFlit + 1, rxHeld := [] }).flitTake n h good := by
  rw [State.flitIn_arrives active link inside, held, List.length_nil, List.nil_append,
    State.flitTurn_takes (lane := lane) (h := h) (good := good) (by simpa using active) (by simp [turn])]
  simp [State.flitTurn]

/-- One in turn is followed by the one held for the next lane. -/
theorem State.flitIn_both {b : Nat × FlitHdr × Bool} (next : b.1 ≠ lane) (held : (s.lnk n).rxHeld = [b]) : s.flitIn n lane h good =
    ((s.setLnk n { s.lnk n with rxFlit := (s.lnk n).rxFlit + 1, rxHeld := [b] }).flitTake n h good).flitTurn n 1 := by
  have distinct : b ≠ (lane, h, good) := fun e => next (by rw [e])
  rw [State.flitIn_arrives active link inside, held, List.length_singleton, List.singleton_append,
    State.flitTurn_takes (lane := lane) (h := h) (good := good) (by simpa using active)
      (by simp [← turn, next])]
  simp [distinct]

end

/-! Time-outs (R473, R474). -/

theorem State.replayTimeout_active (link : s.isLink n = true) (active : s.lstate n = 5) (sent : (s.lnk n).inFlight ≠ 0) :
    s.replayTimeout n = if 8 ≤ (s.lnk n).replays then s.linkDown n 2
      else ((s.setLnk n { s.lnk n with replays := (s.lnk n).replays + 1 }).count (linkBlk n) (lcntAt n 3) 0 35).resend n := by
  simp [State.replayTimeout, link, active, sent, State.replay]

theorem State.ackTimer_active (link : s.isLink n = true) (active : s.lstate n = 5) (owed : (s.lnk n).unacked ≠ 0) :
    s.ackTimer n = s.flitOut n 2 0 0 false := by
  simp [State.ackTimer, link, active, owed]

/-! Training, sleep and the way down (R467, R479-R485). -/

theorem State.ctrlIn_eq : s.ctrlIn n =
    if s.lstate n = 5 then s.setLnk n { s.lnk n with rxFlit := (s.lnk n).rxFlit + 1 } else s := by
  simp [State.ctrlIn]

section
variable (may : (s.ctrlIn n).maySleep n = true)
include may

theorem State.sleepIn_quiet (quiet : (s.ctrlIn n).quietEnd n = true) : s.sleepIn n = ((s.ctrlIn n).ctrlOut n 3 []).setLstate n 6 := by
  simp [State.sleepIn, may, quiet]

theorem State.sleepAckIn_asked (asked : ((s.ctrlIn n).lnk n).sleepReq = true) : s.sleepAckIn n =
    ((s.ctrlIn n).setLnk n { (s.ctrlIn n).lnk n with sleepReq := false }).setLstate n 6 := by
  simp [State.sleepAckIn, may, asked]

end

section
variable (link : s.isLink n = true)
include link

/-- A partner identifies itself on a group A or B link (R481-R483). -/
theorem State.identify_felt {ws : Vector Word 8} (ident : s.lstate n = 4) (kind : field ws[0] 0 8 = 1) (felt : laneGroup n ≠ 2) :
    let b := linkBlk n
    let ver := if dbit ws[0] 14 then 3 else if dbit ws[0] 13 then 2 else if dbit ws[0] 12 then 1 else 0
    let s1 := ((s.setReg b (pidAt n 0) ws[1]).setReg b (pidAt n 1) ws[2]).setReg b (pidAt n 2) ws[3]
    let s2 := s1.setReg b (pidAt n 3) (setField (setField (0 : Word) 0 2 (field ws[4] 0 2)) 3 5 (field ws[0] 12 14))
    let s3 := (s2.setFld b (lstatAt n) 10 11 ver).setFld b (lstatAt n) 12 14 (field ws[0] 9 11)
    let k := s3.lnk n
    s.identify n ws =
      if ver = 0 then (s3.setLstate n 7).fault b 2 (BitVec.ofNat 36 n)
      else (s3.setLnk n { linkReset with
        rate := k.rate, serial := dword ws[1] ws[2], session := ws[3], seen := true, cameUp := true
        changed := k.seen && (k.serial != dword ws[1] ws[2] || k.session != ws[3])
        txCred := #v[field ws[5] 0 17, field ws[5] 18 35, field ws[6] 0 17, field ws[6] 18 35]
        maxb := field ws[7] 0 12 }).setLstate n 5 := by
  intro b ver s1 s2 s3 k
  have word (i : Nat) (hi : i < 8) : vget ws i 0 = ws[i] := vget_eq ws 0 hi
  have called : (s.isLink n && s.lstate n == 4 && field (vget ws 0 0) 0 8 == 1) = true := by rw [word 0 (by decide), link, ident, kind]; rfl
  rw [State.identify]
  simp only [called, Bool.not_true, Bool.false_eq_true, if_false, if_neg felt]
  simp only [word _ (by decide : 0 < 8), word _ (by decide : 1 < 8), word _ (by decide : 2 < 8), word _ (by decide : 3 < 8),
    word _ (by decide : 4 < 8), word _ (by decide : 5 < 8), word _ (by decide : 6 < 8), word _ (by decide : 7 < 8)]
  rfl

/-- Loss of a lane that the link needs (R467, R485). -/
theorem State.laneLoss_down {lane a w : Nat} (active : s.lstate n = 5) (block : s.laneBlock n = some (a, w)) (low : a ≤ lane)
    (high : lane < a + w)
    (whole : w < 2 ∨ s.rbit (linkBlk n) (0o40 + laneIdx n) 4 = false) : s.laneLoss n lane = s.linkDown n 1 := by
  have used : ¬ (lane < a ∨ a + w ≤ lane) := by omega
  simp only [State.laneLoss, link, Bool.not_true, Bool.false_eq_true, if_false, active, block, used, whole, if_true]

theorem State.detectPoll_found (detect : s.lstate n = 1) :
    let r := s.fld (linkBlk n) (0o40 + laneIdx n) 0 1
    s.detectPoll n true =
      ((s.setLnk n { s.lnk n with rate := if r = 3 then 0 else r }).setLstate n 2).setFld (linkBlk n) (lstatAt n) 4 7 (s.linkWidth n) := by
  simp only [State.detectPoll, link, detect, beq_self_eq_true, Bool.and_self, if_true]

theorem State.trainTimeout_slower (train : s.lstate n = 2) (any : s.fld (linkBlk n) (0o40 + laneIdx n) 0 1 = 3)
    (rate : (s.lnk n).rate < 2) :
    s.trainTimeout n = s.setLnk n { s.lnk n with rate := (s.lnk n).rate + 1 } := by
  simp [State.trainTimeout, link, train, any, rate]

theorem State.trainTimeout_detect (st : s.lstate n = 3 ∨ s.lstate n = 4) :
    s.trainTimeout n = (s.setLstate n 1).setFld (linkBlk n) (lstatAt n) 19 26 0 := by
  rcases st with h | h <;> simp [State.trainTimeout, link, h, State.toDetect]

theorem State.trainDone_train (train : s.lstate n = 2) :
    s.trainDone n = (s.setFld (linkBlk n) (lstatAt n) 8 9 (s.lnk n).rate).setLstate n 3 := by
  simp [State.trainDone, link, train]

theorem State.trainDone_align (align : s.lstate n = 3) :
    s.trainDone n = (s.setLstate n 4).ctrlOut n 1 ((s.setLstate n 4).identifyOut n) := by
  simp [State.trainDone, link, align]

theorem State.linkWake_asleep (asleep : s.lstate n = 6) : s.linkWake n = (s.setLstate n 5).feltFlush n := by
  simp [State.linkWake, link, asleep]

/-- EN cleared (R479, R495). -/
theorem State.linkEn_clear :
    let s1 := s.setFld (linkBlk n) (0o40 + laneIdx n) 2 2 0
    s.linkEn n false = if s1.linkUp n then s1.linkDown n 6 else s1.setLstate n 0 := by
  simp [State.linkEn, link, b2n, State.linkDisable]

/-- EN set (R479, R495). -/
theorem State.linkEn_set :
    let s1 := s.setFld (linkBlk n) (0o40 + laneIdx n) 2 2 1
    s1.isLink n = true → s1.lstate n = 0 → s1.rbit (linkBlk n) (0o40 + laneIdx n) 2 = true → linkBlk n ∉ s1.inReset →
    s.linkEn n true = (s1.setLstate n 1).setFld (linkBlk n) (lstatAt n) 19 26 0 := by
  intro s1 link1 disabled en up
  have up : s1.inReset.contains (linkBlk n) = false := by simpa using up
  have released : s1.linkRelease n = (s1.setLstate n 1).setFld (linkBlk n) (lstatAt n) 19 26 0 := by
    simp only [State.linkRelease, State.toDetect, link1, disabled, en, up, beq_self_eq_true, Bool.not_false, Bool.and_self, if_true]
  simp only [State.linkEn, link, Bool.not_true, Bool.false_eq_true, if_false, if_true, b2n]
  exact released

theorem State.partnerLeave_up (up : s.linkUp n = true) (ver : s.lver n = 3) : s.partnerLeave n = s.linkDown n 5 := by
  simp [State.partnerLeave, link, up, ver]

end

end

/-- The lanes of a group that is no root port are a felt link's (R462). -/
theorem State.onLanes_felt {s : State} {l : LinkId} (felt : l.group.val = 2 ∨ s.isRootPort l.tile.val l.group.val = false)
    (port : State → Nat → Nat → State) (f : State → Nat → State) : s.onLanes l port f = f s (linkNo l) := by
  rcases felt with h | h <;> simp [State.onLanes, h]

end Sys2Proof.Machine

open Sys2Proof Sys2Proof.Machine

/-- Settles O44, by the flit in turn and the state of the link (R466-R485). -/
theorem linkEvents : Obligations.LinkEvents := by
  refine ⟨fun l lane h s ha => ?flits, fun l s ha => ?links⟩
  case flits =>
    intro n link active
    have arrives (good : Bool) : ∀ q ∈ [Instr.dataFlit, Instr.idleFlit], ∀ s : State, s.alive = true →
        exec (q l lane h good) s = .next (s.flitIn n lane.val h good).follow := by
      simp only [List.forall_mem_cons, List.not_mem_nil, false_implies, implies_true, and_true]
      refine ⟨fun s ha => ?_, fun s ha => ?_⟩
      · rw [exec_dataFlit, execDataFlit, ends_whenAlive ha]
      · rw [exec_idleFlit, execIdleFlit, ends_whenAlive ha]
    refine ⟨fun good inside other missing q hq => ?_, fun inside turn held => ?_, fun sent => ?_, fun owed => ?_⟩
    · rw [arrives good q hq s ha, State.flitIn_early active link inside other missing]
    · intro s0
      have up : s0.linkUp n = true := State.linkUp_of_active (s := s0) active
      have takes (good : Bool) : s.flitIn n lane.val h good = s0.flitTake n h good := State.flitIn_turn active link inside turn held
      refine ⟨fun q hq => ?_, fun q hq ack low high => ?_, fun q hq ack data => ?_, fun q hq other => ?_,
        fun h2 good2 wide ack low high => ?_⟩
      · rw [arrives false q hq s ha, takes, State.flitTake_badCrc]
      · rw [arrives true q hq s ha, takes, State.flitTake_idle up ack low high]
      · intro s1 k next credit room
        rw [arrives true q hq s ha, takes, State.flitTake_data up ack data next credit room]
      · rw [arrives true q hq s ha, takes, State.flitTake_badType other]
      · intro s1 s2
        have next : ((s.lnk n).rxFlit + 1) % s.lwidth n ≠ lane.val := by
          rw [turn]
          exact fun e => absurd ((Nat.modEq_iff_dvd' (Nat.le_succ _)).1 (Nat.ModEq.symm e)) (by simpa using (show s.lwidth n ≠ 1 by omega))
        have up2 : s2.linkUp n = true := State.linkUp_of_active (s := s2) active
        have lnk1 : s1.lnk n = { s.lnk n with rxHeld := [(((s.lnk n).rxFlit + 1) % s.lwidth n, h2, good2)] } := State.lnk_setLnk _
        have same : (s1.lnk n).rxFlit = (s.lnk n).rxFlit := by rw [lnk1]
        have kept : s1.setLnk n { s1.lnk n with
            rxFlit := (s1.lnk n).rxFlit + 1, rxHeld := [(((s.lnk n).rxFlit + 1) % s.lwidth n, h2, good2)] } = s2 := by simp [s1, s2]
        have both := State.flitIn_both (s := s1) (h := h) (good := true) active link inside
          (turn.trans (congrArg (· % s.lwidth n) same.symm)) next
          (by rw [lnk1])
        rw [arrives true _ (List.mem_cons_self) s1 ha, both, kept, State.flitTake_idle up2 ack low high]
    · rw [exec_replayTimeout, execReplayTimeout, ends_whenAlive ha, State.replayTimeout_active link active sent]
    · rw [exec_ackTimer, execAckTimer, ends_whenAlive ha, State.ackTimer_active link active owed]
  case links =>
    intro n b turned sent link
    refine ⟨fun ws ident kind felt => ?_, fun may quiet => ?_, ?sleep, fun asleep => ?_, fun lane a w active block low high whole => ?_,
      fun felt duty => ?train, ?clear, ?set, fun up ver => ?_⟩
    · intro ver s1 s2 s3 k
      rw [exec_linkIdentify, execLinkIdentify, ends_whenAlive ha]
      exact congrArg (fun u : State => Host.Outcome.next u.follow) (State.identify_felt link ident kind felt)
    · rw [exec_sleepIdle, execSleepIdle, ends_whenAlive ha, State.sleepIdle, may, quiet, Bool.and_self, if_pos rfl, State.ctrlOut]
    case sleep =>
      intro s1 may
      have taken : s.ctrlIn n = s1 := State.ctrlIn_eq
      refine ⟨fun quiet => ?_, fun asked => ?_⟩
      · rw [exec_sleep, execSleep, ends_whenAlive ha, State.sleepIn_quiet (by rw [taken, may]) (by rw [taken, quiet]), taken, State.ctrlOut]
      · rw [exec_sleepAck, execSleepAck, ends_whenAlive ha, State.sleepAckIn_asked (by rw [taken, may]) (by rw [taken, asked]), taken]
    · rw [exec_linkWake, execLinkWake, ends_whenAlive ha, State.linkWake_asleep link asleep]
    · rw [exec_laneLoss, execLaneLoss, ends_whenAlive ha, State.laneLoss_down link active block low high whole]
    case train =>
      refine ⟨fun detect => ?_, fun train any rate => ?_, fun st => ?_, fun train => ?_, fun align => ?_⟩
      · intro r
        rw [exec_detectPoll, execDetectPoll, ends_onDuty ha duty, State.onLanes_felt felt, State.detectPoll_found link detect]
      · rw [exec_trainingTimeout, execTrainingTimeout, ends_onDuty ha duty, State.onLanes_felt felt,
          State.trainTimeout_slower link train any rate]
      · rw [exec_trainingTimeout, execTrainingTimeout, ends_onDuty ha duty, State.onLanes_felt felt, State.trainTimeout_detect link st]
      · rw [exec_trainingDone, execTrainingDone, ends_onDuty ha duty, State.onLanes_felt felt, State.trainDone_train link train]
      · rw [exec_trainingDone, execTrainingDone, ends_onDuty ha duty, State.onLanes_felt felt, State.trainDone_align link align,
          State.ctrlOut]
    case clear =>
      intro s1
      rw [exec_linkEnWrite, execLinkEnWrite, ends_whenAlive ha, State.linkEn_clear link]
    case set =>
      intro s1 link1 disabled en up
      rw [exec_linkEnWrite, execLinkEnWrite, ends_whenAlive ha, State.linkEn_set link link1 disabled en up]
    · rw [exec_partnerLeave, execPartnerLeave, ends_whenAlive ha, State.partnerLeave_up link up ver]

end

section
/-! The pins (O60): the SMBus target and the test access port. -/

namespace Sys2Proof.Machine
open Sys2Proof

section
variable {s : State}

theorem State.strapSample_eq (a : Nat) :
    s.strapSample a = if s.smbAddr = none then { s with smbAddr := some a } else s := by
  cases h : s.smbAddr <;> simp [State.strapSample, h]

/-- A target without an address is silent (R662). -/
theorem State.smb_silent (h : s.smbAddr = none) (os : List Octet) : s.smb os = s := by simp [State.smb, h]

/-- The target answers once it has its address (R662, R665). -/
theorem State.smb_answers (h : s.smbAddr ≠ none) (os : List Octet) : s.smb os = s.emit (.smbus os) :=
  if_pos (Option.isSome_iff_ne_none.2 h)

/-- A reading, or 0xFFFF where there is none yet (R665). -/
theorem smbWord_none : smbWord 0xFFFF = [0xFF, 0xFF] := by decide

/-- What an instruction of the boundary register does to the pins (R668). -/
theorem State.jtagPins_eq (code : Nat) : s.jtagPins code =
    if s.pins.modResetN then ({ s with jtagIr := BitVec.ofNat 8 code } : State).emit (.jtag 0 1)
    else { s with jtagIr := BitVec.ofNat 8 code } := rfl

end

end Sys2Proof.Machine

open Sys2Proof Sys2Proof.Machine

/-- Settles O60, by the target's address, its readings and the instruction loaded (R662, R665-R668). -/
theorem pinRows : Obligations.PinRows := by
  intro s ir
  refine ⟨fun a => ?sample, fun known => ⟨?ident, ?status, ?lastrst, fun no => ?silent, fun yes => ?reads⟩, fun unknown => ?mute, ?bypass,
    ?idcode,
    ?preload, ?pins⟩
  case sample => rw [exec_smbaddrSample, execSmbaddrSample, State.strapSample_eq, ends_follow]
  case ident => rw [exec_smbusIdent, execSmbusIdent, State.smb_answers known, ends_follow]
  case status => rw [exec_smbusStatus, execSmbusStatus, State.smb_answers known, ends_follow]
  case lastrst => rw [exec_smbusLastrst, execSmbusLastrst, State.smb_answers known, ends_follow]
  case silent =>
    simp only [exec_smbusTemp, execSmbusTemp, exec_smbusVin, execSmbusVin, exec_smbusIin, execSmbusIin, State.smbReading, no,
      Bool.false_eq_true,
      if_false, smbWord_none, State.smb_answers known, ends_follow, and_self]
  case reads =>
    simp only [exec_smbusTemp, execSmbusTemp, exec_smbusVin, execSmbusVin, exec_smbusIin, execSmbusIin, State.smbReading, yes, if_true,
      State.smb_answers known, ends_follow, and_self]
  case mute => rw [exec_smbusIdent, execSmbusIdent, State.smb_silent unknown, ends_follow]
  case bypass =>
    rw [exec_bypass, execBypass, ends_follow]
    rfl
  case idcode =>
    rw [exec_idcode, execIdcode, ends_follow]
    rfl
  case preload =>
    rw [exec_samplePreload, execSamplePreload, ends_follow]
    rfl
  case pins =>
    simp only [List.forall_mem_cons, List.not_mem_nil, false_implies, implies_true, and_true, ir]
    refine ⟨?_, ?_, ?_, ?_, ?_⟩
    · rw [exec_extest, execExtest, State.jtagPins_eq, ends_follow]
      rfl
    · rw [exec_extestPulse, execExtestPulse, State.jtagPins_eq, ends_follow]
      rfl
    · rw [exec_extestTrain, execExtestTrain, State.jtagPins_eq, ends_follow]
      rfl
    · rw [exec_highz, execHighz, State.jtagPins_eq, ends_follow]
      rfl
    · rw [exec_clamp, execClamp, State.jtagPins_eq, ends_follow]
      rfl

end

section
/-! The message queues of PF1 (O49). -/

namespace Sys2Proof.Machine
open Sys2Proof

section
variable {s s1 : State} {q : Nat}

theorem State.htail_served {t : BitVec 16} (ok : s.memOk 1 = true) : s.htail q t = s.hostTraffic.setPf1 q 0xC t.toNat := if_pos ok

theorem State.qLine_mapped {sa kind mp : Nat} (h : s.deckleMap (s.qSheet q) sa = some mp) : s.qLine q sa kind = .ok mp := by
  rw [State.qLine, h]

/-- A host message becomes a line of a sheet ring that holds others already (R557, R559, R564). -/
theorem State.h2sMove_stored {os : List Octet} {ep : Bool} {mp : Nat} (ready : s.h2sReady q = true)
    (mapped : s.deckleMap (s.qSheet q) (s.qBase q + 16 * (s.sq q 0 % s.qSlots q)) = some mp)
    (written : s.ncWrite (ncIndex 0) (mp / 16) (fun _ => if ep then poisonLine else
      { words := Vector.ofFn fun (i : Fin 16) => (unpack ((os ++ List.replicate 72 0).take 72)).getD i.val 0, poison := false }) = some s1)
    (more : s1.sq q 0 ≠ s1.sq q 1) : s.h2sMove q os ep =
      let s2 := (s1.setSq q 0 (s.sq q 0 + 1)).setPf1 q 0x10 ((s1.pf1 q 0x10 + 1) % 65536)
      if ep then s2.setPf1 q 0x1C (s2.pf1 q 0x1C % 8 + 8) else s2 := by
  have full : (s1.sq q 0 == s1.sq q 1) = false := beq_eq_false_iff_ne.2 more
  simp only [State.h2sMove, ready, Bool.not_true, Bool.false_eq_true, if_false, State.qLine_mapped mapped, written, full, Bool.false_and]

/-- A sheet line becomes a host message, and its vector is due (R557, R559, R564). -/
theorem State.s2hMove_sent {mp : Nat} {x : Line} (moves : s.qMoves q = true) (waits : s.sq q 2 ≠ s.sq q 3)
    (room : (s.pf1 q 0x14 + 65536 - s.pf1 q 0x18) % 65536 < s.qSlots q)
    (mapped : s.deckleMap (s.qSheet q) (s.qBase q + 16 * (s.qSlots q + s.sq q 3 % s.qSlots q)) = some mp)
    (read : s.ncRead (ncIndex 0) (mp / 16) = some (x, s1)) : s.s2hMove q =
      let h := s1.pf1 q 0x14
      let s2 := s1.hostTraffic.emit (.hostWrite (s1.qHost q + 128 * (s1.qSlots q + h % s1.qSlots q))
        (packOf x.words.toList ++ List.replicate 56 0) x.poison)
      ((s2.setPf1 q 0x14 ((h + 1) % 65536)).setSq q 3 (s.sq q 3 + 1)).msiDue 1 q := by
  have due : (!s.qMoves q || s.sq q 2 == s.sq q 3 || !decide ((s.pf1 q 0x14 + 65536 - s.pf1 q 0x18) % 65536 < s.qSlots q)) = false := by
    simp [moves, waits, room]
  simp only [State.s2hMove, due, Bool.false_eq_true, if_false, State.qLine_mapped mapped, read]

theorem State.readTimeout_ready (ready : s.h2sReady q = true) :
    s.readTimeout q = (s.setPf1 q 0x1C (s.pf1 q 0x1C % 8 + 8)).aer 1 14 false := if_pos ready

/-- A due interrupt message leaves by MSI-X (R562). -/
theorem State.msiSend_msix {f v : Nat} (due : (f, v) ∈ s.endpt.msi) (may : s.mayMaster f = true) (msix : (s.cfg f 0x2C).getLsbD 31 = true)
    (unmasked : (s.cfg f 0x2C).getLsbD 30 = false) : s.msiSend f v =
      (({ s with endpt := { s.endpt with msi := s.endpt.msi.filter (· ≠ (f, v)) } } : State).hostTraffic).emit (.msi f v) := by
  have held : (s.endpt.msi.contains (f, v) && s.mayMaster f) = true := by rw [List.contains_iff_mem.2 due, may, Bool.and_self]
  simp only [State.msiSend, held, Bool.not_true, Bool.false_eq_true, if_false, msix, if_true, unmasked, bne, beq_eq_decide, decide_not]

end

end Sys2Proof.Machine

open Sys2Proof Sys2Proof.Machine

/-- Settles O49, by the queue's conditions for each move (R557-R564). -/
theorem hostQueueEvents : Obligations.HostQueueEvents := by
  intro s ha
  refine ⟨fun q t ok => ?htail, fun q os ep mp s1 ready mapped written more => ?h2s, fun q mp x s1 moves waits room mapped read => ?s2h,
    fun q t => ?stail, fun q ready => ?timeout, fun f v due may msix unmasked => ?msi⟩
  case htail => rw [exec_htailDoorbell, execHtailDoorbell, ends_whenAlive ha, State.htail_served ok]
  case h2s =>
    intro s2 s3
    rw [exec_h2sMove, execH2sMove, ends_whenAlive ha, State.h2sMove_stored ready mapped written more]
  case s2h =>
    intro h s2
    rw [exec_s2hMove, execS2hMove, ends_whenAlive ha, State.s2hMove_sent moves waits room mapped read]
  case stail => rw [exec_stailDoorbell, execStailDoorbell, ends_whenAlive ha, State.stail]
  case timeout => rw [exec_completionTimeout, execCompletionTimeout, ends_whenAlive ha, State.readTimeout_ready ready]
  case msi => rw [exec_msiSend, execMsiSend, ends_whenAlive ha, State.msiSend_msix due may msix unmasked]

end

section
/-! The host link (O48): configuration space, the registers and the mailbox of PF0, resets and link power. -/

namespace Sys2Proof.Machine
open Sys2Proof

section
variable {s : State}

@[simp] theorem State.memOk_hostTraffic (f : Nat) : s.hostTraffic.memOk f = s.memOk f := rfl

/-! Configuration requests (R547, R567, R649). -/

section
variable {f r : Nat} {be : BitVec 4} (present : s.endpt.perst = false)
include present

theorem State.configRequest_retry {w : Option (BitVec 32)} (ready : s.endpt.ready = false) (staging : s.staging = none) :
    s.configRequest f r w be = s.hostTraffic.emit .configRetry := by
  simp [State.configRequest, State.hostTraffic, present, ready, staging]

variable (up : s.endpt.ready = true ∨ s.staging ≠ none)
include up

theorem State.configRequest_read : s.configRequest f r none be = s.hostTraffic.emit (.configReply (s.hostTraffic.cfgRead f r)) := by
  rcases up with h | h <;> simp [State.configRequest, State.hostTraffic, present, h]

theorem State.configRequest_write {v : BitVec 32} :
    s.configRequest f r (some v) be = (s.hostTraffic.cfgWrite f r v be).emit .configDone := by
  rcases up with h | h <;> simp [State.configRequest, State.hostTraffic, present, h]

end

/-! The registers and the mailbox of PF0 (R551-R555). -/

/-- A read of mailbox words that port A does not write meanwhile gives their host forms (R554). -/
theorem State.bar2Units_read (i n : Nat) (bad : Bool) : s.bar2Units i n false bad =
    s.emit (.bar2Reply ((List.range n).map fun k => hostForm (s.easelWord 0 (32 * ((i + k) % 65536)))) bad) := by
  have units (l : List Nat) (acc : List (BitVec 64)) :
      l.foldl (fun (x : State × List (BitVec 64)) k => (x.1, x.2 ++ [hostForm (x.1.easelWord 0 (32 * ((i + k) % 65536)))])) (s, acc) =
        (s, acc ++ l.map fun k => hostForm (s.easelWord 0 (32 * ((i + k) % 65536)))) := by
    induction l generalizing acc with
    | nil => simp
    | cons k l ih => simp [ih]
  simp only [State.bar2Units, Bool.and_false, Bool.false_eq_true, if_false, units, List.nil_append]

section
variable (ok : s.memOk 0 = true)
include ok

theorem State.crtail_served (t : BitVec 16) : s.crtail t = s.hostTraffic.setBar 0 0xC (t.setWidth 32) := if_pos ok

/-- A write of a register of PF0 other than SVRST. -/
theorem State.bar0Write_pf0 {off : Nat} {v : BitVec 32} (ready : s.endpt.ready = true) (other : off ≠ 0x30) :
    s.bar0Write 0 off v = s.hostTraffic.pf0Write off v := by
  have up : s.hostTraffic.endpt.ready = true := ready
  simp only [State.bar0Write, ok, up, other, Bool.not_true, Bool.false_and, Bool.false_eq_true, if_false, if_true]

variable (ready : s.endpt.ready = true)
include ready

theorem State.bar2Read_served {i n : Nat} {bad : Bool} (up : easelBlk 0 ∉ s.inReset) : s.bar2Read i n false bad =
    s.hostTraffic.emit (.bar2Reply ((List.range n).map fun k => hostForm (s.easelWord 0 (32 * ((i + k) % 65536)))) bad) := by
  have awake : s.hostTraffic.inReset.contains (easelBlk 0) = false := by simpa [State.hostTraffic] using up
  have words : ((List.range n).all fun k => s.hostTraffic.wordServed ((i + k) % 65536)) = true := by
    simp [State.wordServed, State.hostTraffic, ready]
  rw [State.bar2Read, State.memOk_hostTraffic, ok, words, awake, if_neg (by decide), if_neg (by decide),
    State.bar2Units_read]
  rfl

/-- A write of mailbox octets is stored, or dropped and logged where it is poisoned (R554, R555). -/
theorem State.bar2Write_served {off : Nat} {os : List Octet} {en : List Bool} {ep : Bool} (up : easelBlk 0 ∉ s.inReset) :
    s.bar2Write off os en ep = if ep then s.hostTraffic.aer 0 12 false else s.hostTraffic.bar2Store off os en := by
  have awake : s.hostTraffic.inReset.contains (easelBlk 0) = false := by simpa [State.hostTraffic] using up
  have words : ((List.range ((off % 8 + os.length + 7) / 8)).all fun k => s.hostTraffic.wordServed (off / 8 + k)) = true := by
    simp [State.wordServed, State.hostTraffic, ready]
  simp only [State.bar2Write, State.memOk_hostTraffic, ok, words, awake, Bool.not_true, Bool.or_self, Bool.false_eq_true, if_false]

end

/-! Resets and link power (R563-R567). -/

/-- Bus Master Enable is cleared, while requests of PF1 may be outstanding (R565, R566). -/
theorem State.bmeClear_set {f : Nat} (on : s.bme f = true) : s.bmeClear f =
    (((if f = 1 ∧ (∃ q < 64, s.h2sReady q = true) then s.setBar 0 0x20 (s.bar 0 0x20 ||| 0x10#32) else s).setCfg f 1
      (s.cfg f 1 &&& ~~~4#32)).flipEpoch f) := by
  have asked : s.outstanding f = true ↔ f = 1 ∧ ∃ q < 64, s.h2sReady q = true := by simp [State.outstanding]
  by_cases h : s.outstanding f = true
  · simp only [State.bmeClear, on, Bool.not_true, Bool.false_eq_true, if_false, if_pos h, if_pos (asked.1 h)]
    rfl
  · simp only [State.bmeClear, on, Bool.not_true, Bool.false_eq_true, if_false, if_neg h, if_neg (mt asked.2 h)]

theorem State.aspmL1_enabled (ready : s.endpt.ready = true) (present : s.endpt.perst = false) (on : (s.cfg 0 0x20).getLsbD 1 = true) :
    s.aspmL1 = { s with endpt := { s.endpt with linkState := 2 } } := by simp [State.aspmL1, ready, present, on]

theorem State.aspmL0s_enabled (ready : s.endpt.ready = true) (present : s.endpt.perst = false) (on : (s.cfg 0 0x20).getLsbD 0 = true)
    (active : s.endpt.linkState = 0) : s.aspmL0s = { s with endpt := { s.endpt with linkState := 1 } } := by
  simp [State.aspmL0s, ready, present, on, active]

/-! The key of SVRST (R382, R553). -/

theorem State.svKey_first : s.svKey 0xA5 = { s with endpt := { s.endpt with svArm := some s.clock.toNat } } := by
  rw [State.svKey]
  exact if_pos rfl

/-- The second key, without the first, does nothing. -/
theorem State.svKey_unarmed (late : s.endpt.svArm = none) : s.svKey 0x5A = { s with endpt := { s.endpt with svArm := none } } := by
  have other : (0x5A : Octet) ≠ 0xA5 := by decide
  simp only [State.svKey, late, other, if_false, Bool.false_eq_true, and_false]

/-- The second key in time resets the module triptych, unless a reset of it runs. -/
theorem State.svKey_armed (armed : s.endpt.svArm = some s.clock.toNat) :
    let u : State := { s with endpt := { s.endpt with svArm := none } }
    s.svKey 0x5A = if u.bar 0 0x20 &&& 8#32 = 8#32 then u else u.superReset false := by
  have other : (0x5A : Octet) ≠ 0xA5 := by decide
  have soon : s.clock.toNat ≤ s.clock.toNat + 650000 := Nat.le_add_right _ _
  simp only [State.svKey, armed, other, if_false, soon, decide_true, and_self, if_true]

end

end Sys2Proof.Machine

open Sys2Proof Sys2Proof.Machine

/-- Settles O48, by the register or request of the host (R547-R567). -/
theorem hostLinkEvents : Obligations.HostLinkEvents := by
  refine ⟨fun s ha => ⟨fun f r be v present up => ?config, fun present ready staging f r w be => ?retry, fun ok => ?pf0, fun f on => ?bme,
    fun f => ?flr, ?hot, fun ready present => ?aspm⟩, fun s => ⟨fun ha ok => ?svrst, fun ns short => ?pulse, fun ns long => ?perst,
      ?release⟩⟩
  case config =>
    refine ⟨?_, ?_⟩
    · rw [exec_configRequest, execConfigRequest, ends_whenAlive ha, State.configRequest_read present up]
    · rw [exec_configRequest, execConfigRequest, ends_whenAlive ha, State.configRequest_write present up]
  case retry => rw [exec_configRequest, execConfigRequest, ends_whenAlive ha, State.configRequest_retry present ready staging]
  case pf0 =>
    refine ⟨fun t => ?tail, fun ready => ⟨fun t => ?ring, fun v => ?mask⟩,
      fun ready up => ⟨fun i n bad => ?read, fun off os en => ?store, fun off os en => ?poison⟩⟩
    case tail => rw [exec_crtailDoorbell, execCrtailDoorbell, ends_whenAlive ha, State.crtail_served ok]
    case ring =>
      rw [exec_bar0Write, execBar0Write, ends_whenAlive ha]
      exact congrArg (fun u : State => Host.Outcome.next u.follow) (State.bar0Write_pf0 ok ready (by decide))
    case mask =>
      rw [exec_bar0Write, execBar0Write, ends_whenAlive ha]
      exact congrArg (fun u : State => Host.Outcome.next u.follow) (State.bar0Write_pf0 ok ready (by decide))
    case read => rw [exec_bar2Read, execBar2Read, ends_whenAlive ha, State.bar2Read_served ok ready up]
    case store => rw [exec_bar2Write, execBar2Write, ends_whenAlive ha, State.bar2Write_served ok ready up, if_neg Bool.false_ne_true]
    case poison => rw [exec_bar2Write, execBar2Write, ends_whenAlive ha, State.bar2Write_served ok ready up, if_pos rfl]
  case bme => rw [exec_busMasterEnableClear, execBusMasterEnableClear, ends_whenAlive ha, State.bmeClear_set on]
  case flr => rw [exec_flr, execFlr, ends_whenAlive ha]
  case hot => rw [exec_hotReset, execHotReset, ends_whenAlive ha, State.hotReset]
  case aspm =>
    refine ⟨fun on => ?_, fun on active => ?_⟩
    · rw [exec_aspmL1Entry, execAspmL1Entry, ends_whenAlive ha, State.aspmL1_enabled ready present on]
    · rw [exec_aspmL0sEntry, execAspmL0sEntry, ends_whenAlive ha, State.aspmL0s_enabled ready present on active]
  case svrst =>
    intro u
    refine ⟨?_, ?_⟩
    · simp only [exec_svrst, execSvrst, ends_whenAlive ha, State.svPair, ok, Bool.not_true, Bool.false_eq_true, if_false, if_true,
        State.svKey_first]
      rw [State.svKey_armed rfl]
    · simp only [exec_svrst, execSvrst, ends_whenAlive ha, State.svPair, ok, Bool.not_true, Bool.false_eq_true, if_false, State.svKey_first]
      rw [State.svKey_unarmed rfl]
  case pulse => rw [exec_perstNAssert, execPerstNAssert, if_pos short, ends_follow]
  case perst => rw [exec_perstNAssert, execPerstNAssert, if_neg (by omega), ends_follow, State.perstOn]
  case release => rw [exec_perstNDeassert, execPerstNDeassert, ends_follow, State.perstOff]

end

section
/-! Resets (O58): pins and keys, the steps of the gesso sequence, and a staged image. -/

namespace Sys2Proof.Machine
open Sys2Proof

/-! Resets (R625, R640-R642, R648). -/

section
variable {s : State}

theorem State.alive_of_ready (ready : s.phase = .ready) : s.alive = true := by simp [State.alive, ready]

/-- A module reset that no block asks for, from READY (R640, R641). -/
theorem State.moduleReset_ready {cause : Nat} {why : List Nat} (ready : s.phase = .ready) : s.moduleReset cause none why =
    { s.resetModule.setReg .rst 0 (setField (setField (0 : Word) 0 3 2) 4 8 cause) with phase := .hold false, holdFor := why } := by
  generalize h : s.resetModule.setReg .rst 0 (setField (setField (0 : Word) 0 3 2) 4 8 cause) = u
  rw [State.moduleReset]
  simp -zeta only [ready]
  extract_lets cold t w w' u' u''
  have same : u' = u := h
  clear_value u'
  subst same
  have all : [] ++ why.filter (fun x => !([] : List Nat).contains x) = why := by simp
  exact congrArg (fun l => ({ u' with phase := .hold false, holdFor := l } : State)) all

/-- MOD_RESET_N held low, from READY (R641). -/
theorem State.modResetLow_ready (ready : s.phase = .ready) : s.modResetLow =
    { ({ s with pins := { s.pins with modResetN := false } } : State).resetModule.setReg .rst 0
      (setField (setField (0 : Word) 0 3 2) 4 8 2) with
      phase := .hold false, holdFor := [] } :=
  State.moduleReset_ready ready

/-- PWROK rises (R640, R646, R652). -/
theorem State.pwrokRise_off {boot : Nat} (off : s.pins.pwrok = false) : s.pwrokRise boot =
    { (s.setReg .rst 0 (setField (setField (0 : Word) 0 3 1) 4 8 1)).setReg .rst 2 (setField (0 : Word) 0 1 boot) with
      phase := .gesso 1 true, pins := { s.pins with pwrok := true } } := by
  simp only [State.pwrokRise, off, Bool.false_eq_true, if_false, State.setReg_pins]

theorem State.rstKey_first : s.rstKey 0o525 = { s with rstArm := some s.clock.toNat } := by
  rw [State.rstKey]
  exact if_pos rfl

/-- The second key in time (R642). -/
theorem State.rstKey_armed (armed : s.rstArm = some s.clock.toNat) :
    s.rstKey 0o252 = ({ s with rstArm := none } : State).moduleReset 4 none [] := by
  have other : (0o252 : Nonet) ≠ 0o525 := by decide
  have soon : s.clock.toNat ≤ s.clock.toNat + 650000 := Nat.le_add_right _ _
  simp only [State.rstKey, armed, other, if_false, soon, decide_true, and_self, if_true]

/-- Both keys of RST_MOD from READY: in time they reset the module, otherwise they do nothing (R642). -/
theorem State.rstPair_ready (ready : s.phase = .ready) : s.rstPair 0o525 0o252 true =
    { ({ s with rstArm := none } : State).resetModule.setReg .rst 0 (setField (setField (0 : Word) 0 3 2) 4 8 4) with
      phase := .hold false, holdFor := [] } := by
  simp only [State.rstPair, State.rstKey_first, if_true]
  rw [State.rstKey_armed rfl]
  exact State.moduleReset_ready (s := { s with rstArm := none }) ready

/-- ... and too late. -/
theorem State.rstKey_unarmed (late : s.rstArm = none) : s.rstKey 0o252 = { s with rstArm := none } := by
  have other : (0o252 : Nonet) ≠ 0o525 := by decide
  simp only [State.rstKey, late, other, if_false, Bool.false_eq_true, and_false]

theorem State.rstPair_late : s.rstPair 0o525 0o252 false = { s with rstArm := none } := by
  simp only [State.rstPair, State.rstKey_first, Bool.false_eq_true, if_false]
  rw [State.rstKey_unarmed rfl]

/-- The hold of a reset ends (R641, R648). -/
theorem State.holdEnd_free {cold : Bool} (hold : s.phase = .hold cold) (free : s.jtagFree = true) :
    let s1 := if 1 ∈ s.holdFor then s.setReg .clk 0 (setField (0 : Word) 0 1 3) else s
    s.holdEnd = { s1 with phase := .gesso 1 cold, holdFor := [], pins := { s1.pins with modResetN := true } } := by
  simp only [State.holdEnd, hold, free, Bool.not_true, Bool.false_eq_true, if_false, List.contains_eq_mem, decide_eq_true_eq]

end

/-! The gesso sequence, step by step (R646-R648). -/

section
variable {s : State} {a b : DunulHdr} {fails : List (Nat × Nat)} {failed : List Nat} {ports spares : List (Nat × Nat)} {cold : Bool}

theorem State.gessoEnd_clocks (h : s.phase = .gesso 1 true) (boot : s.fld .rst 2 0 1 ≠ 1) : s.gessoEnd a b fails failed ports spares =
    { (s.setReg .clk 0 (setField (0 : Word) 0 1 3)).powerSample with phase := .gesso 2 true } := by
  simp only [State.gessoEnd, h, if_true, beq_eq_false_iff_ne.2 boot, Bool.and_false, Bool.false_eq_true, if_false]

theorem State.gessoEnd_clear (h : s.phase = .gesso 1 false) : s.gessoEnd a b fails failed ports spares =
    { ((List.range 64).foldl (fun s n => s.clearSheetIo n 0o020 2) s).powerSample with phase := .gesso 2 false } := by
  simp only [State.gessoEnd, h, Bool.false_and, Bool.false_eq_true, if_false]

/-- The module triptych takes the first copy of its image that it accepts, or waits for one, or halts (R645, R646). -/
theorem State.gessoEnd_image (h : s.phase = .gesso 2 true) (chosen : s.fld .rst 2 2 3 = 0) (staging : s.staging = none)
    (up : s.tripOut .module = false) : s.gessoEnd a b fails failed ports spares =
      if dunulOk a then { s.setFld .rst 2 2 3 1 with phase := .gesso 3 true }
      else if dunulOk b then { s.setFld .rst 2 2 3 2 with phase := .gesso 3 true }
      else if s.fld .rst 2 0 1 = 0 then s.stage 0 else s.tripHalt .module := by
  simp only [State.gessoEnd, h, chosen, staging, up, Bool.not_true, bne_self_eq_false, Bool.or_self, Bool.false_eq_true, if_false,
    Option.isSome_none]

theorem State.gessoEnd_warm (h : s.phase = .gesso 2 false) : s.gessoEnd a b fails failed ports spares =
    { s with phase := .gesso 3 false } := by
  simp only [State.gessoEnd, h, Bool.not_false, Bool.true_or, if_true]

theorem State.gessoEnd_load (h : s.phase = .gesso 3 false) :
    let r := currentRec s.records
    let s1 := s.loadImage ((r.map (·.image)).getD []) false
    let s2 : State := { s1 with assign := (r.map (·.assign)).getD assignReset }
    s.gessoEnd a b fails failed ports spares =
      { (List.range 16).foldl (fun s v => s.setReg (vatBlk v) 1 s.session) s2 with phase := .gesso 4 false } := by
  simp only [State.gessoEnd, h, Bool.false_eq_true, if_false]

theorem State.gessoEnd_four (h : s.phase = .gesso 4 cold) : s.gessoEnd a b fails failed ports spares =
    { s with phase := .gesso 5 cold } := by
  simp only [State.gessoEnd, h]

theorem State.gessoEnd_memory (h : s.phase = .gesso 5 cold) : s.gessoEnd a b fails failed ports spares =
    { s.gessoMemory cold fails with phase := .gesso 6 cold } := by
  simp only [State.gessoEnd, h]

theorem State.gessoEnd_tests (h : s.phase = .gesso 6 cold) : s.gessoEnd a b fails failed ports spares =
    { ports.foldl (fun s x => s.webFence x.1 x.2)
        (failed.foldl (fun s c => s.setCore c { coreReset with cstate := .failed }) s) with phase := .gesso 7 cold } := by
  simp only [State.gessoEnd, h]

theorem State.gessoEnd_build (h : s.phase = .gesso 7 cold) : s.gessoEnd a b fails failed ports spares =
    { s.gessoBuild spares with phase := .gesso 8 cold } := by
  simp only [State.gessoEnd, h]

theorem State.gessoEnd_ready (h : s.phase = .gesso 8 cold) (present : s.endpt.perst = false) : s.gessoEnd a b fails failed ports spares =
    { s.endLong.mailHeader with phase := .ready, endpt := { s.endLong.mailHeader.endpt with ready := true } } := by
  simp only [State.gessoEnd, h, present, Bool.false_eq_true, if_false]

end

/-! A staged image (R645, R649). -/

/-- What makes an image acceptable (R645). -/
theorem dunulOk_iff (h : DunulHdr) : dunulOk h = true ↔
    h.magic = 0x444E554C ∧ h.format = 1 ∧ h.len.toNat + 0x200 ≤ 2 ^ 23 ∧ h.keyMatches = true ∧ h.sigValid = true := by
  rw [dunulOk]
  simp only [Bool.and_eq_true, beq_iff_eq, decide_eq_true_eq, and_assoc]

/-- The chunk that was due is taken (R649). -/
theorem State.stagingChunk_due {s : State} {n : Nat} {key sig : Bool} (staging : s.staging = some n)
    (due : field (s.mail 1) 4 19 = n % 65536)
    (filled : field (s.mail 1) 20 35 ≠ 0) (fits : field (s.mail 1) 20 35 ≤ 0xFC00) :
    let seq := n % 65536 * 2 ^ 16
    let s0 : State := if n = 0 then { s with stageHdr := (packOf ((List.range 4).map fun i => s.mail (1024 + i))).take 12 } else s
    let num (i : Nat) : BitVec 32 := BitVec.ofNat 32 (numOf ((s0.stageHdr.drop (4 * i)).take 4))
    s.stagingChunk key sig =
      if dbit (s.mail 1) 0 = false then ({ s0.setMail 2 (w36 (2 ^ 34 + seq)) with staging := some (n + 1) } : State).istat 1
      else if dunulOk { magic := num 0, format := num 1, len := num 2, keyMatches := key, sigValid := sig } then
        { ((s0.setMail 2 (w36 (2 * 2 ^ 34 + seq))).istat 1).setFld .rst 2 2 3 3 with staging := none, phase := .gesso 3 true }
      else { (s0.setMail 2 (w36 (3 * 2 ^ 34 + seq))).istat 1 with staging := some 0 } := by
  have taken : ¬ (field (s.mail 1) 4 19 ≠ n % 65536 ∨ field (s.mail 1) 20 35 = 0 ∨ 0xFC00 < field (s.mail 1) 20 35) := by
    rintro (h | h | h)
    · exact h due
    · exact filled h
    · exact absurd fits (Nat.not_le.2 h)
  simp only [State.stagingChunk, staging, if_neg taken]

end Sys2Proof.Machine

open Sys2Proof Sys2Proof.Machine

/-- Settles O58, by the pin, the key, the step of the sequence and the chunk (R625, R640-R649, R660). -/
theorem resetRows : Obligations.ResetRows := by
  refine ⟨fun s => ⟨fun q ha => ?quire, fun t ha => ?tile, fun ns => ⟨fun long power => ?fall, fun short => ?dip, fun short => ?low⟩, ?vaux,
    fun b off => ?rise, fun ready => ?module, fun cold hold free => ?release⟩, fun s a b fails cores ports spares => ?gesso,
    fun s n staging due filled fits => ?staged⟩
  case quire => rw [exec_quireReset, execQuireReset, ends_whenAlive ha, State.quireReset]
  case tile => rw [exec_tileReset, execTileReset, ends_whenAlive ha]
  case fall => rw [exec_pwrokFall, execPwrokFall, if_neg (by omega), ends_follow, State.pwrokFall, if_pos power]
  case dip => rw [exec_pwrokFall, execPwrokFall, if_pos short, ends_follow]
  case low => rw [exec_modResetNAssert, execModResetNAssert, if_pos short, ends_follow]
  case vaux => rw [exec_vauxLoss, execVauxLoss, ends_follow, State.vauxLoss]
  case rise =>
    rw [exec_pwrokRise, execPwrokRise, ends_follow, State.pwrokRise_off off]
  case module =>
    intro held
    have ha := State.alive_of_ready ready
    refine ⟨fun ns long => ?_, fun mv => ?_, ?_, ?_⟩
    · rw [exec_modResetNAssert, execModResetNAssert, if_neg (by omega), ends_follow, State.modResetLow_ready ready]
    · rw [exec_vinFault, execVinFault, ends_follow, State.vinFault, State.moduleReset_ready ready]
    · rw [exec_rstModKey, execRstModKey, ends_whenAlive ha, State.rstPair_ready ready]
    · rw [exec_rstModKey, execRstModKey, ends_whenAlive ha, State.rstPair_late]
  case release =>
    intro s1
    rw [exec_moduleResetHoldEnd, execModuleResetHoldEnd, ends_follow, State.holdEnd_free hold free]
  case gesso =>
    intro go ended
    have step (u : State) (h : s.gessoEnd a b (fails.map fun x => (x.1.val, x.2.val)) (cores.map (·.val))
      (ports.map fun x => (x.1.val, x.2.val))
        (spares.map fun x => (x.1.val, x.2.val)) = u) : ended = .next u.follow := by
      rw [← h, ← ends_follow]
      exact exec_gessoStepEnd a b fails cores ports spares s
    refine ⟨fun h boot => step _ (State.gessoEnd_clocks h boot), fun h => step _ (State.gessoEnd_clear h),
      fun h chosen staging up => ?image,
      fun h => step _ (State.gessoEnd_warm h), fun h => ?load, fun cold h => step _ (State.gessoEnd_four h),
      fun cold h => step _ (State.gessoEnd_memory h), fun cold h => ?tests, fun cold h => step _ (State.gessoEnd_build h),
      fun cold h present => step _ (State.gessoEnd_ready h present)⟩
    case image =>
      have image := State.gessoEnd_image (a := a) (b := b) (fails := fails.map fun x => (x.1.val, x.2.val)) (failed := cores.map (·.val))
        (ports := ports.map fun x => (x.1.val, x.2.val)) (spares := spares.map fun x => (x.1.val, x.2.val)) h chosen staging up
      refine ⟨fun good => step _ ?_, fun bad good => step _ ?_, fun bad bad' => step _ ?_⟩
      · rw [image, if_pos good]
      · rw [image, bad, if_neg Bool.false_ne_true, if_pos good]
      · rw [image, bad, bad', if_neg Bool.false_ne_true, if_neg Bool.false_ne_true]
    case load =>
      intro r s1 s2
      exact step _ (State.gessoEnd_load h)
    case tests =>
      intro s1
      refine step _ ((State.gessoEnd_tests h).trans ?_)
      rw [List.foldl_map, List.foldl_map]
  case staged =>
    intro seq s0 num
    have taken (key sig : Bool) : exec (.stagingChunk key sig) s = .next (s.stagingChunk key sig).follow := by
      rw [exec_stagingChunk, execStagingChunk, ends_follow]
    have image (key sig : Bool) := State.stagingChunk_due (key := key) (sig := sig) staging due filled fits
    refine ⟨fun more key sig => ?_, fun last key sig => ⟨fun ok => ?_, fun bad => ?_⟩⟩
    · rw [taken, image, if_pos more]
    · rw [taken, image, if_neg (by rw [last]; decide), if_pos ((dunulOk_iff _).2 ok)]
    · have refused : ¬ (dunulOk { magic := num 0, format := num 1, len := num 2, keyMatches := key, sigValid := sig } = true) := by
        rw [dunulOk_iff]
        rintro ⟨magic, format, len, hkey, hsig⟩
        rcases bad with h | h | h | h | h
        · exact h magic
        · exact h format
        · exact absurd len (Nat.not_le.2 h)
        · exact Bool.false_ne_true (h.symm.trans hkey)
        · exact Bool.false_ne_true (h.symm.trans hsig)
      rw [taken, image, if_neg (by rw [last]; decide), if_neg refused]

end

section
/-! Clocks, frames, large steps and temperature (O59). -/

namespace Sys2Proof.Machine
open Sys2Proof

theorem qpwrBlk_val (q : QuireId) : qpwrBlk q.val = .qpwr q := by rw [qpwrBlk, quireFin, Fin.ofNat_val_eq_self]

theorem quireFin_val (q : QuireId) : quireFin q.val = q := Fin.ofNat_val_eq_self q

section
variable {s : State}

theorem State.clocked_of_ready (ready : s.phase = .ready) : s.clocked = true := by simp [State.clocked, ready]

/-! Frames (R629-R632). -/

/-- A published frame shows the current the forecast may give. -/
theorem State.frame_shown {amps : Nat} {shed : Bool} (out : s.frames = true) :
    let u := (s.capped amps).2
    let a := Nat.min 0xFF (((s.capped amps).1 + 4) / 8)
    let urg := if shed then 3 else if u.fld .lfi 1 0 7 < a then 1 else if a < u.fld .lfi 1 0 7 then 2 else 0
    let u1 := u.emit (.frame (frameOf a urg u.frameSeq))
    let u2 : State := { u1 with
      frameSeq := !u.frameSeq, granted := u.granted.map fun g => (g.1, true)
      reserve := (List.range 8).foldl (fun r t =>
        if Tab.get (fun _ => 0) r t = 1 then Tab.set (fun _ => 0) r t (u.clock.toNat + 1300)
        else if u1.reserveFree t then Tab.set (fun _ => 0) r t 0 else r) u.reserve }
    s.frame amps shed = (u2.setFld .lfi 1 0 7 a).setFld .lfi 1 8 9 urg := by
  simp only [State.frame, out, Bool.not_true, Bool.false_eq_true, if_false, State.emit_frameSeq, State.emit_granted, State.emit_reserve,
    State.emit_clock]

theorem State.capped_low {amps : Nat} (low : amps ≤ s.fld .pwr 0 7 17) (calm : s.surge.1 = none) : s.capped amps = (amps, s) := by
  simp only [State.capped, low, if_true, calm, Option.isSome_none, Bool.false_eq_true, if_false]

/-- The first forecast above ICAP (R629). -/
theorem State.capped_first {amps : Nat} (high : s.fld .pwr 0 7 17 < amps) (calm : s.surge = (none, none)) :
    s.capped amps = (Nat.min amps 1300, { s with surge := (some s.clock.toNat, none) }) := by
  simp only [State.capped, if_neg (Nat.not_le.2 high), calm]

/-- One that comes later than 1 ms after it (R629). -/
theorem State.capped_late {amps t : Nat} {e : Option Nat} (high : s.fld .pwr 0 7 17 < amps) (surge : s.surge = (some t, e))
    (late : t + 650000 < s.clock.toNat) : s.capped amps = (s.fld .pwr 0 7 17, { s with surge := (none, some s.clock.toNat) }) := by
  simp only [State.capped, if_neg (Nat.not_le.2 high), surge, if_neg (Nat.not_le.2 late)]

/-! Large steps (R630). -/

/-- The next step to grant: the first couching wake, or else the one that waits longest. -/
theorem nextStep_middle {a b : List (StepKind × Bool)} {x : StepKind × Bool}
    (first : (x.2 = true ∧ ∀ y ∈ a, y.2 = false) ∨ (a = [] ∧ ∀ y ∈ x :: b, y.2 = false)) : nextStep (a ++ x :: b) = some x := by
  rcases first with ⟨urgent, before⟩ | ⟨rfl, calm⟩
  · have found : (a ++ x :: b).find? (·.2) = some x := by
      rw [List.find?_append, List.find?_eq_none.2 fun y hy => by simp [before y hy], Option.none_or, List.find?_cons_of_pos urgent]
    rw [nextStep, found]
    rfl
  · have nobody : ([] ++ x :: b).find? (fun y : StepKind × Bool => y.2) = none :=
      List.find?_eq_none.2 fun y hy => by rw [calm y hy]; exact Bool.false_ne_true
    rw [nextStep, nobody]
    rfl

theorem State.grantStep_next {x : StepKind × Bool} (idle : s.granted = none) (next : nextStep s.steps = some x) :
    s.grantStep = { s with steps := s.steps.erase x, granted := some (x.1, false) } := by
  simp only [State.grantStep, idle, next]

/-! Temperature (R639, R653). -/

/-- The power monitor writes its own registers (R650). -/
theorem State.powerSample_eq : ∃ w x, s.powerSample = (s.free 24).2.setReg .pwr 1 w ∨
    s.powerSample = ((s.free 24).2.setReg .pwr 1 w).setReg .pwr 2 x := by
  have sample := State.powerSample.eq_1 s
  rw [State.setFld] at sample
  split at sample
  · exact ⟨_, _, .inr sample⟩
  · exact ⟨_, 0, .inl sample⟩

theorem State.reg_powerSample {b : Blk} {o : Nat} (apart1 : regKey b o ≠ regKey .pwr 1) (apart2 : regKey b o ≠ regKey .pwr 2) :
    s.powerSample.reg b o = s.reg b o := by
  have once (u : State) (i : Nat) (w : Word) (apart : regKey b o ≠ regKey .pwr i) : (u.setReg .pwr i w).reg b o = u.reg b o := by
    rw [State.reg, State.setReg, Tab.get_set_ne _ _ _ apart, State.reg]
  obtain ⟨w, x, h | h⟩ := s.powerSample_eq
  · rw [h, once _ _ _ apart1]
    rfl
  · rw [h, once _ _ _ apart2, once _ _ _ apart1]
    rfl

theorem State.warned_powerSample : s.powerSample.warned = s.warned := by
  obtain ⟨w, x, h | h⟩ := s.powerSample_eq <;> simp only [h, State.setReg_warned] <;> rfl

theorem State.memctl_powerSample : s.powerSample.memctl = s.memctl := by
  obtain ⟨w, x, h | h⟩ := s.powerSample_eq <;> simp only [h, State.setReg_memctl] <;> rfl

end

/-- The hottest reading is one of the readings. -/
theorem hottest_mem {xs : List (Nat × Nat)} (filled : xs ≠ []) : hottest xs ∈ xs := by
  have step (l : List (Nat × Nat)) (b : Nat × Nat) : l.foldl (fun b x => if b.2 < x.2 then x else b) b ∈ b :: l := by
    induction l generalizing b with
    | nil => exact List.mem_cons_self
    | cons x l ih =>
      rw [List.foldl_cons]
      split
      · exact List.mem_cons_of_mem _ (ih x)
      · rcases List.mem_cons.1 (ih b) with h | h
        · exact h.symm ▸ List.mem_cons_self
        · exact List.mem_cons_of_mem _ (List.mem_cons_of_mem _ h)
  obtain ⟨x, l, rfl⟩ := List.exists_cons_of_ne_nil filled
  rcases List.mem_cons.1 (step (x :: l) x) with h | h
  · exact (show hottest (x :: l) = x from h).symm ▸ List.mem_cons_self
  · exact h

/-- A field of a register beside the one that is written. -/
theorem State.fld_setFld_apart {s : State} {b : Blk} {o lo hi x y : Nat} (v : Nat) (hlo : lo ≤ hi) (hhi : hi < 36) (hy : y < 36)
    (apart : y < lo ∨ hi < x) : (s.setFld b o lo hi v).fld b o x y = s.fld b o x y := by
  rw [State.fld, State.setFld, State.reg_setReg, field_setField_ne _ _ hlo hhi hy apart, State.fld]

/-- A field of another register of the block. -/
theorem State.fld_setFld_ne {s : State} {b : Blk} {o o' lo hi x y : Nat} (v : Nat) (h : o' ≠ o) :
    (s.setFld b o lo hi v).fld b o' x y = s.fld b o' x y := by
  rw [State.fld, State.setFld, State.reg_setReg_ne _ _ _ h, State.fld]

/-- A fold whose steps all leave a state leaves it. -/
theorem foldl_stays {α β : Type} {f : α → β → α} {a : α} {l : List β} (h : ∀ x ∈ l, f a x = a) : l.foldl f a = a := by
  induction l with
  | nil => rfl
  | cons x l ih =>
    rw [List.foldl_cons, h x List.mem_cons_self]
    exact ih fun y hy => h y (List.mem_cons_of_mem _ hy)

/-- The readings of a sample, with their sensors (R653). -/
def sensorsOf (temps : Vector (Fin 512) 64) : List (Nat × Nat) :=
  (List.range 8).flatMap fun t => (List.range 8).map fun k => (16 * t + k, (vget temps (8 * t + k) 0).val)

/-- A sample at which no tile is warm and none was leaves THERM with the hottest sensor (R639, R653). -/
theorem State.thermSample_cool {s : State} {temps : Vector (Fin 512) 64} (ready : s.phase = .ready)
    (cool : ∀ x ∈ sensorsOf temps, x.2 < s.fld .therm 0 0 8 ∧ x.2 < 95) (calm : s.warned = [])
    (below : ∀ t < 8, s.rbit .therm 1 (18 + t) = false) (cold : ∀ m < 16, (s.mc m).hot = false) :
    s.thermSample temps =
      (s.powerSample.setFld .therm 1 0 8 (hottest (sensorsOf temps)).2).setFld .therm 1 9 17 (hottest (sensorsOf temps)).1 := by
  have top : (hottest (sensorsOf temps)).2 < 95 := (cool _ (hottest_mem (by simp [sensorsOf, List.range_succ]))).2
  rw [State.thermSample]
  simp -zeta only [ready]
  extract_lets at_ all t0 u tile v
  have warn : u.fld .therm 0 0 8 = s.fld .therm 0 0 8 := by
    rw [State.fld_setFld_ne _ (by decide), State.fld_setFld_ne _ (by decide), State.fld, State.reg_powerSample (by decide) (by decide),
      State.fld]
  have floors (t : Nat) (ht : t < 8) : u.rbit .therm 1 (18 + t) = false := by
    rw [State.rbit, State.fld_setFld_apart _ (by decide) (by decide) (by omega) (by omega),
      State.fld_setFld_apart _ (by decide) (by decide) (by omega) (by omega), State.fld, State.reg_powerSample (by decide) (by decide)]
    exact below t ht
  have warned : u.warned = [] := by
    simp only [u, State.setFld, State.setReg_warned, State.warned_powerSample, calm]
  have modules (m : Nat) (hm : m < 16) : (u.mc m).hot = false := by
    simp only [u, State.mc, State.setFld, State.setReg_memctl, State.memctl_powerSample]
    exact cold m hm
  have still : v = u := by
    refine foldl_stays fun t ht => ?_
    have ht : t < 8 := List.mem_range.1 ht
    have mine : hottest ((List.range 8).map fun k => (16 * t + k, at_ t k)) ∈ sensorsOf temps :=
      List.mem_flatMap.2 ⟨t, List.mem_range.2 ht, hottest_mem (by simp [List.range_succ])⟩
    obtain ⟨mild, low⟩ := cool _ mine
    simp only [tile, warn, warned, floors t ht, modules (2 * t) (by omega), modules (2 * t + 1) (by omega), List.contains_nil,
      Bool.false_and,
      Bool.or_false, decide_eq_false (Nat.not_le.2 mild), decide_eq_false (Nat.not_le.2 low), if_true, Bool.not_false, Bool.false_eq_true,
      if_false]
  exact (if_neg (Nat.not_le.2 (Nat.lt_of_lt_of_le top (by decide)))).trans still

/-- One at which a sensor reads 105 trips (R639). -/
theorem State.thermSample_trips {s : State} {temps : Vector (Fin 512) 64} (ready : s.phase = .ready)
    (hot : 105 ≤ (hottest (sensorsOf temps)).2) :
    ∃ u : State, s.thermSample temps = (u.fault .therm 1 (w36 (hottest (sensorsOf temps)).1)).thermTrip := by
  rw [State.thermSample]
  simp -zeta only [ready]
  extract_lets at_ all top u tile v
  exact ⟨v, if_pos hot⟩

/-! CK_CORE steps (R635, R636). -/

section
variable {s : State} {q : QuireId}

/-- A write of STEP waits while a change is in progress. -/
theorem State.stepWrite_held {n : Nat} (going : Tab.get (fun _ => none) s.stepGoing q.val ≠ none) :
    s.stepWrite q.val n = { s with stepHeld := Tab.set (fun _ => none) s.stepHeld q.val (some n) } :=
  if_pos (Option.isSome_iff_ne_none.2 going)

/-- A quire goes to the step it is to run at: down at once, up by a large step. -/
theorem State.chase_to {n : Nat} (idle : Tab.get (fun _ => none) s.stepGoing q.val = none) (target : s.stepTarget q.val = n) :
    let b := qpwrBlk q.val
    let s1 : State := { s with stepGoing := Tab.set (fun _ => none) s.stepGoing q.val (some n) }
    s.chase q.val =
      if s.acts (.quire q) = false ∨ n = s.fld b 1 0 1 then s
      else if n < s.fld b 1 0 1 then s1.askStep (.stepUp q.val n) false
      else (s1.setFld b 1 0 1 n).setFld b 1 2 12 (Config.setPoint q.val n) := by
  cases duty : s.acts (.quire q) with
  | false => simp only [State.chase, quireFin_val, duty, Bool.not_false, Bool.true_or, if_true, true_or]
  | true =>
    simp only [State.chase, quireFin_val, duty, idle, target, Option.isSome_none, Bool.not_true, Bool.or_self, Bool.false_eq_true, if_false,
      false_or, reduceCtorEq, State.stepNow]

/-- A write of STEP to a quire that no floor holds. -/
theorem State.stepWrite_free (n : Fin 4) (idle : Tab.get (fun _ => none) s.stepGoing q.val = none) (free : q.val ∉ s.forced) :
    let b := qpwrBlk q.val
    let s1 := s.setFld b 0 0 1 n.val
    let s2 : State := { s1 with stepGoing := Tab.set (fun _ => none) s1.stepGoing q.val (some n.val) }
    s.stepWrite q.val n.val =
      if s1.acts (.quire q) = false ∨ n.val = s.fld b 1 0 1 then s1
      else if n.val < s.fld b 1 0 1 then s2.askStep (.stepUp q.val n.val) false
      else (s2.setFld b 1 0 1 n.val).setFld b 1 2 12 (Config.setPoint q.val n.val) := by
  intro b s1 s2
  have idle1 : Tab.get (fun _ => none) s1.stepGoing q.val = none := by simp only [s1, State.setFld, State.setReg_stepGoing, idle]
  have target : s1.stepTarget q.val = n.val := by
    have free1 : s1.forced.contains q.val = false := by simpa [s1, State.setFld] using free
    have written : s1.fld b 0 0 1 = n.val := by
      simp only [s1, State.fld, State.setFld, State.reg_setReg, field_setField _ _ (Nat.zero_le 1) (by decide : 1 < 36)]
      exact Nat.mod_eq_of_lt (by omega)
    rw [State.stepTarget, free1, if_neg Bool.false_ne_true, written]
  have now : s1.fld b 1 0 1 = s.fld b 1 0 1 := State.fld_setFld_ne _ (by decide)
  rw [State.stepWrite, idle, Option.isSome_none, if_neg Bool.false_ne_true, State.chase_to idle1 target, now]

/-- A change that has taken effect, with no write held meanwhile. -/
theorem State.stepDone_free {n : Nat} (going : Tab.get (fun _ => none) s.stepGoing q.val = some n)
    (begun : s.stepOpen (.stepUp q.val n) = false)
    (free : q.val ∉ s.forced) (nothing : Tab.get (fun _ => none) s.stepHeld q.val = none) :
    let b := qpwrBlk q.val
    let s1 := (s.setFld b 1 0 1 n).setFld b 1 2 12 (Config.setPoint q.val n)
    s.stepDone q.val = ({ s1 with stepGoing := Tab.set (fun _ => none) s1.stepGoing q.val none } : State).chase q.val := by
  intro b s1
  have free : s.forced.contains q.val = false := by simpa using free
  simp only [State.stepDone, going, begun, free, Bool.false_eq_true, if_false, State.stepNow, State.setFld, State.setReg_stepHeld, nothing,
    s1, b]

theorem State.stretch_new (new : q.val ∉ s.stretched) :
    let s1 := ({ s with stretched := s.stretched ++ [q.val] } : State).count (qpwrBlk q.val) 2 0 35
    s.stretch q.val = s1.fault (qpwrBlk q.val) 0 (s1.reg (qpwrBlk q.val) 2) := by
  have new : s.stretched.contains q.val = false := by simpa using new
  simp only [State.stretch, new, Bool.false_eq_true, if_false]

end

end Sys2Proof.Machine

open Sys2Proof Sys2Proof.Machine

/-- Settles O59, by the reading, the frame or the step (R629-R639). -/
theorem powerRows : Obligations.PowerRows := by
  refine ⟨fun s ready => ⟨?loss, ?unlock, fun amps shed out => ?frame, fun a x b idle steps first => ?grant, fun k granted => ?begin,
    fun temps => ?thermal⟩, fun q s ha => ?quire⟩
  case loss => rw [exec_refclkLoss, execRefclkLoss, State.clocked_of_ready ready, if_pos rfl, ends_follow, State.refLoss]
  case unlock => rw [exec_pllUnlock, execPllUnlock, State.clocked_of_ready ready, if_pos rfl, ends_follow, State.pllLoss]
  case frame =>
    intro shown cap now
    have published : exec (.lfiFrame amps shed) s = .next (shown (s.capped amps.val).2 (s.capped amps.val).1).follow := by
      rw [exec_lfiFrame, execLfiFrame, ends_follow, State.frame_shown out]
    refine ⟨fun low calm => ?_, fun high calm => ?_, fun t e high surge late => ?_⟩
    · rw [published, State.capped_low low calm]
    · rw [published, State.capped_first high calm]
    · rw [published, State.capped_late high surge late]
  case grant =>
    rw [exec_largeStepGrant, execLargeStepGrant, ends_whenAlive (State.alive_of_ready ready),
      State.grantStep_next idle (by rw [steps]; exact nextStep_middle first)]
  case begin =>
    intro s1
    rw [exec_largeStepBegin, execLargeStepBegin, ends_whenAlive (State.alive_of_ready ready)]
    simp only [State.beginStep, granted]
    rfl
  case thermal =>
    intro sensors
    refine ⟨fun cool calm below cold => ?_, fun hot => ?_⟩
    · rw [exec_thermalSample, execThermalSample, ends_follow, State.thermSample_cool ready cool calm below cold]
      rfl
    · obtain ⟨u, h⟩ := State.thermSample_trips (temps := temps) ready hot
      exact ⟨u, by rw [exec_thermalSample, execThermalSample, ends_follow, h]; rfl⟩
  case quire =>
    intro b
    refine ⟨fun n => ⟨fun going => ?_, fun idle free => ?_⟩, fun n going begun free nothing => ?_, fun new => ?_, ?_⟩
    · rw [exec_stepChange, execStepChange, ends_whenAlive ha, State.stepWrite_held going]
    · intro s1 s2
      rw [exec_stepChange, execStepChange, ends_whenAlive ha, State.stepWrite_free n idle free]
    · intro s1
      rw [exec_stepChangeDone, execStepChangeDone, ends_whenAlive ha, State.stepDone_free going begun free nothing]
    · intro s1
      rw [exec_clockStretch, execClockStretch, ends_whenAlive ha, State.stretch_new new]
    · simp only [exec_stretchEnd, execStretchEnd, ends_whenAlive ha, State.stretchEnd, bne, beq_eq_decide, ne_eq, decide_not]

end

section
/-! Firmware's console (O50): packets, the short commands, and the codes of refused ones. -/

namespace Sys2Proof.Machine
open Sys2Proof

section
variable {s s1 : State} {h : ConHdr}

/-! Taking a packet (R552, R576, R580). -/

section
variable {os : List Octet} {ep : Bool} (up : s.consoleUp = true) (may : s.mayMaster 0 = true) (free : s.taken = none)
  (posted : s.bar 0 0x10 ≠ s.bar 0 0xC)
include up may free posted

/-- What firmware makes of the packet it takes, which `s1` has in hand. -/
theorem State.takePacket_due :
    let tag : BitVec 16 := BitVec.ofNat 16 (packetU32 os 0 / 65536)
    let s1 : State := { s.setBar 0 0x10 (BitVec.ofNat 32 (((s.bar 0 0x10).toNat + 1) % 65536)) with
      taken := some { opcode := packetU32 os 0 % 256, tag := tag.toNat, index := (s.bar 0 0x10).toNat } }
    let fail (code : Nat) : State := (if packetU32 os 4 % 2 = 1 then { s1 with nonce := none } else s1).reply tag code 0 []
    s.takePacket os ep =
      if ep then s1.reply tag 0xB 0 [] else
      match opInfo (packetU32 os 0 % 256) with
      | none => fail 2
      | some (ver, len) =>
        if s.conVer < ver then fail 3
        else if packetU32 os 0 / 256 % 256 ≠ 0 ∨ packetU32 os 4 / 2 ≠ 0 ∨ packetU32 os 12 ≠ 0 ∨
          packetU32 os 8 ≠ len.getD (16 + 8 * packetU32 os 0x18) ∨ 0x70 < packetU32 os 8 then fail 4
        else s1 := by
  have waits : ¬ (s.bar 0 0x10).toNat = (s.bar 0 0xC).toNat := fun e => posted (BitVec.eq_of_toNat_eq e)
  simp only [State.takePacket, up, may, free, waits, Bool.not_true, Option.isSome_none, Bool.or_self, decide_false, Bool.false_eq_true,
    if_false, State.setBar_conVer] <;>
    rfl

end

/-! The commands, heard (R577-R581). -/

theorem State.conVersion_heard {v : Nat} (H : Hears h 0x02 1 s s1) : s.conVersion h v =
    if v ≠ 0x100 ∧ v ≠ 0x200 then s1.conAns h 3 []
    else if !s1.longOps.isEmpty then s1.conAns h 6 []
    else (({ s1 with conVer := v / 256 } : State).setMail 5 (w36 v)).conAns h 0 [] := by
  rw [State.conVersion, conCmd_go H _ _ rfl]

/-- OP_ABORT of a token in range (R585). -/
theorem State.opAbort_heard {tok : Nat} (H : Hears h 0x05 2 s s1) (small : tok < 65536) : s.opAbort h tok =
    if (s1.slotStat (tok % 256)).1 ≠ tok / 256 then s1.conAns h 7 [] else
    match s1.svcOf (tok % 256), s1.longOps.find? fun o => o.slot == tok % 256 && o.op == 0x73 with
    | some j, _ => (({ s1 with waits := s1.waits.filter (· != .svc j) } : State).conAns h 0 []).svcEnd j 0xD
    | none, some o =>
      ((s1.setCalQueue (o.target / 64) (o.target % 64)
        ((s1.calQueue (o.target / 64) (o.target % 64)).filter fun j => j.console != some (tok % 256))).conAns h 0 []).slotDone
        (tok % 256) 0xD
    | none, none => s1.conAns h 7 [] := by
  rw [State.opAbort, conCmd_go H _ _ (decide_eq_false (Nat.not_le.2 small))] <;> rfl

theorem State.sheetNotice_heard {sh v : Nat} (H : Hears h 0x15 1 s s1) (sheet : sh < 64) (value : v < 2 ^ 27) : s.sheetNoticeOp h sh v =
    if s1.validSheet sh = false then s1.conAns h 7 []
    else if s1.sheetHeld sh ∨ s1.hostPending sh then s1.conAns h 6 []
    else (s1.notice sh 5 v 0).conAns h 0 [] := by
  have fine : (decide (64 ≤ sh) || decide (2 ^ 27 ≤ v)) = false := by
    rw [decide_eq_false (Nat.not_le.2 sheet), decide_eq_false (Nat.not_le.2 value), Bool.or_self]
  rw [State.sheetNoticeOp, conCmd_go H _ _ fine]
  simp only [Bool.not_eq_true', Bool.or_eq_true]

/-! Commands that firmware refuses (R579, R580, R594). -/

section
variable {op ver : Nat} {bad : State → Bool} {f : State → Bool → State} (up : s.consoleUp = true) (free : s.taken = none)
include up free

theorem conCmd_early (unsigned : h.sig = .none) (old : s.conVer < ver) : s.conCmd h op ver bad f = s.reply h.tag 3 0 [] := by
  simp [State.conCmd, up, free, unsigned, old]

theorem conCmd_unverified (unverified : h.sig = .invalid) (known : ver ≤ s.conVer) (fine : ∀ u, bad u = false) :
    s.conCmd h op ver bad f = ({ s with nonce := none } : State).reply h.tag 5 0 [] := by
  have signed : (SigState.invalid != .none) = true := by decide
  have wrong : (SigState.invalid == .valid) = false := by decide
  simp only [State.conCmd, up, free, unverified, signed, wrong, fine, Bool.not_true, Bool.or_self, Bool.false_and, Bool.not_false,
    Bool.and_self,
    Bool.false_eq_true, if_false, if_true, Nat.not_lt.2 known]

end

end

end Sys2Proof.Machine

open Sys2Proof Sys2Proof.Machine

/-- Settles O50, by the packet or the command that firmware hears (R576-R586, R594-R602). -/
theorem consoleRows : Obligations.ConsoleRows := by
  refine ⟨fun s os ep up may free posted => ?take, fun h s s1 H => ?identify, fun h s s1 v H => ?version, fun h s s1 H => ?status,
    fun h s s1 tok H => ?release, fun h s s1 tok H small => ?abort, fun h s s1 sh v H sheet value => ?notice, fun h s s1 H => ?query,
    fun h s s1 H => ?nonce, fun h s v up free unverified known => ?unverified, fun h s tok up free unsigned old => ?early,
    fun s up => ?beat⟩
  case take =>
    intro i tag s1
    have taken := State.takePacket_due (os := os) (ep := ep) up may free posted
    rw [exec_consolePacketTake, execConsolePacketTake, ends_follow, taken]
    refine ⟨fun poisoned => ?_, fun good unknown unsigned => ?_, fun good v n known ver flags sig rsv len fits => ?_⟩
    · rw [if_pos poisoned]
    · rw [good, if_neg Bool.false_ne_true, unknown, unsigned]
      rfl
    · have fine : ¬ (packetU32 os 0 / 256 % 256 ≠ 0 ∨ packetU32 os 4 / 2 ≠ 0 ∨ packetU32 os 12 ≠ 0 ∨
          packetU32 os 8 ≠ (some n).getD (16 + 8 * packetU32 os 0x18) ∨ 0x70 < packetU32 os 8) := by
        rw [Option.getD_some]
        omega
      rw [good, if_neg Bool.false_ne_true, known]
      simp only [if_neg (Nat.not_lt.2 ver), if_neg fine]
      rfl
  case identify => rw [exec_identify, execIdentify, ends_follow, State.conIdentify, conCmd_go H _ _ rfl]
  case version =>
    have one : v = 0x100 ↔ v.toNat = 0x100 := BitVec.toNat_inj.symm
    have two : v = 0x200 ↔ v.toNat = 0x200 := BitVec.toNat_inj.symm
    rw [exec_setVersion, execSetVersion, ends_follow, State.conVersion_heard H]
    simp only [ne_eq, one, two, Bool.not_eq_true', List.isEmpty_eq_false_iff]
  case status => rw [exec_moduleStatus, execModuleStatus, ends_follow, State.conStatus, conCmd_go H _ _ rfl]
  case release =>
    intro k st
    rw [exec_opRelease, execOpRelease, ends_follow, State.opRelease_heard H]
  case abort =>
    intro k
    have heard : exec (.opAbort h tok) s = .next (s.opAbort h tok.toNat).follow := by rw [exec_opAbort, execOpAbort, ends_follow]
    rw [heard, State.opAbort_heard H small]
    refine ⟨fun other => ?_, fun idle noJob => ?_, fun j mine waits => ?_, fun o mine idle job => ?_⟩
    · rw [if_pos other]
    · have nobody : (s1.longOps.find? fun o => o.slot == tok.toNat % 256 && o.op == 0x73) = none :=
        List.find?_eq_none.2 fun o ho => by simpa using noJob o ho
      rw [idle, nobody, ite_self]
    · rw [if_neg (not_not.2 mine), waits]
      simp only [bne, beq_eq_decide, ne_eq, decide_not]
    · rw [if_neg (not_not.2 mine), idle, job]
  case notice => rw [exec_sheetNotice, execSheetNotice, ends_follow, State.sheetNotice_heard H sheet value]
  case query => rw [exec_wmQuery, execWmQuery, ends_follow, State.wmQueryOp, conCmd_go H _ _ rfl]
  case nonce => rw [exec_authNonce, execAuthNonce, ends_follow, State.nonceOp, conCmd_go H _ _ rfl]
  case unverified => rw [exec_setVersion, execSetVersion, ends_follow, State.conVersion,
    conCmd_unverified up free unverified known fun _ => rfl]
  case early => rw [exec_opAbort, execOpAbort, ends_follow, State.opAbort, conCmd_early up free unsigned old]
  case beat => rw [exec_heartbeat, execHeartbeat, ends_follow, State.beat, if_pos up]

end

section
/-! The console's accesses to registers and memory, and CAL_JOB (O53). -/

namespace Sys2Proof.Machine
open Sys2Proof

/-- The offset that a console address names is its 18 low bits (R575). -/
theorem conAddr_offset {a : HostWord} {core o : Nat} {b : Blk} (names : conAddr a core = some (b, o)) : a.toNat % 2 ^ 18 = o := by
  unfold conAddr at names
  split at names
  · cases names
  · split at names
    · split at names
      · cases names
      · exact congrArg Prod.snd (Option.some.inj names)
    · cases names

theorem wordBad_eq_false {a : HostWord} : wordBad a = false ↔ a.toNat < 2 ^ 36 := by
  rw [wordBad, decide_eq_false_iff_not, Nat.not_le]

/-- No command without a signature is refused on a sheet that is not confidential (R588). -/
theorem unauthorised_eq_false {sig : SigState} {confid : Bool} (may : sig = .valid ∨ confid = false) :
    (!(sig == .valid) && confid) = false := by
  rcases may with rfl | rfl
  · rfl
  · rw [Bool.and_false]

section
variable {s s1 : State} {h : ConHdr}

/-! Registers (R581, R588, R590). -/

section
variable {a : HostWord} {n core o : Nat} {b : Blk} (names : conAddr a core = some (b, o)) (count : 1 ≤ n) (inBlock : o + n ≤ 2 ^ 18)
include names count inBlock

/-- The parameters of a register access in range, of at most `most` registers. -/
theorem regRange_fine {most : Nat} (few : n ≤ most) :
    ((conAddr a core).isNone || n == 0 || decide (most < n) || decide (2 ^ 18 < a.toNat % 2 ^ 18 + n)) = false := by
  simp only [names, conAddr_offset names, Option.isNone_some, Bool.false_or, Bool.or_eq_false_iff, beq_eq_false_iff_ne,
    decide_eq_false_iff_not]
  omega

theorem State.regReadOp_heard (H : Hears h 0x60 1 s s1) (few : n ≤ 14) : s.regReadOp h a n core =
    if h.sig ≠ .valid ∧ s1.regConf b o n = true then s1.conAns h 5 []
    else if b ∈ s1.inReset then s1.heldAtPort (.read h b ((List.range n).map (o + ·)))
    else (s1.readRegs b ((List.range n).map (o + ·))).2.conAns h 0 (replyWords (s1.readRegs b ((List.range n).map (o + ·))).1) := by
  rw [State.regReadOp, conCmd_go H _ _ (regRange_fine names count inBlock few), names]
  simp only [State.conRead, State.consoleHeld_eq, Bool.and_eq_true, Bool.not_eq_true', beq_eq_false_iff_ne]
  rfl

theorem State.regWriteOp_heard {vs : List HostWord} (H : Hears h 0x61 1 s s1) (few : n ≤ 12) (each : vs.length = n)
    (words : ∀ v ∈ vs, v.toNat < 2 ^ 36) : s.regWriteOp h a n core vs =
    if h.sig ≠ .valid ∧ s1.regConf b o n = true then s1.conAns h 5 []
    else if b ∈ s1.inReset then s1.heldAtPort (.write h b ((vs.zipIdx).map fun x => (o + x.2, devWord x.1)))
    else ((vs.zipIdx).foldl (fun s x => s.portWrite true b (o + x.2) (devWord x.1)) s1).conAns h 0 [] := by
  have good : vs.any wordBad = false := List.any_eq_false.2 fun v hv => by rw [wordBad_eq_false.2 (words v hv)]; exact Bool.false_ne_true
  have fine : ((conAddr a core).isNone || n == 0 || decide (12 < n) || vs.length != n || vs.any wordBad ||
      decide (2 ^ 18 < a.toNat % 2 ^ 18 + n)) = false := by
    have range := regRange_fine names count inBlock few
    simp only [Bool.or_eq_false_iff] at range ⊢
    obtain ⟨⟨⟨named, nonzero⟩, most⟩, last⟩ := range
    exact ⟨⟨⟨⟨⟨named, nonzero⟩, most⟩, by rw [each, bne_self_eq_false]⟩, good⟩, last⟩
  rw [State.regWriteOp, conCmd_go H _ _ fine, names]
  simp only [State.conWrite, State.consoleHeld_eq, Bool.and_eq_true, Bool.not_eq_true', beq_eq_false_iff_ne, State.regWriteGo,
    List.foldl_map]

end

theorem State.shadowReadOp_heard {a : HostWord} {n o : Nat} {b : Blk} (names : conAddr a 0 = some (b, o)) (count : 1 ≤ n) (few : n ≤ 14)
    (inBlock : o + n ≤ 2 ^ 18) (H : Hears h 0x62 1 s s1) (may : h.sig = .valid ∨ s1.regConf b o n = false) :
    s.shadowReadOp h a n = if b ∈ s1.inReset then s1.heldAtPort (.shadow h b ((List.range n).map (o + ·)))
      else s1.shadowGo h b ((List.range n).map (o + ·)) := by
  rw [State.shadowReadOp, conCmd_go H _ _ (regRange_fine names count inBlock few), names]
  simp only [unauthorised_eq_false may, Bool.false_eq_true, if_false, State.consoleHeld_eq]

/-! Memory-service commands (R582, R585, R588). -/

section
variable {op sh n img k : Nat} {a : HostWord} {host : Bool} (job : Nat → SvcJob) (H : Hears h op 1 s s1) (sheet : sh < 64)
  (addr : a.toNat < 2 ^ 36) (image : img ≤ 2) (may : h.sig = .valid ∨ s1.confid sh = false) (free : s1.sheetHeld sh = false)
  (slot : s1.tokenSlot = some k)
include H sheet addr image may free slot

/-- A memory-service command that firmware takes up: it runs where its words lie in the sheet and it needs no host access
that is revoked. -/
theorem State.memOp_taken :
    let s2 := (s1.started h op sh k).setPartial k 1 (w36 n)
    s.memOp h op sh a n img host job =
      if s2.inSheet sh a.toNat n = false then s2.slotDone k 8
      else if host = true ∧ s2.mayMaster 0 = false then s2.slotDone k 0xA
      else s2.svcRun (job k) := by
  intro s2
  have fine : (decide (64 ≤ sh) || wordBad a || decide (2 < img)) = false := by
    rw [decide_eq_false (Nat.not_le.2 sheet), wordBad_eq_false.2 addr, decide_eq_false (Nat.not_lt.2 image), Bool.or_self, Bool.or_self]
  rw [State.memOp, conCmd_go H _ _ fine, unauthorised_eq_false may, free, if_neg Bool.false_ne_true, if_neg Bool.false_ne_true,
    conLong_go slot]
  simp only [Bool.and_eq_true, Bool.not_eq_true']
  rfl

theorem State.memOp_outside (outside : ((s1.started h op sh k).setPartial k 1 (w36 n)).inSheet sh a.toNat n = false) :
    s.memOp h op sh a n img host job = ((s1.started h op sh k).setPartial k 1 (w36 n)).slotDone k 8 := by
  rw [State.memOp_taken job H sheet addr image may free slot, if_pos outside]

section
variable (inside : ((s1.started h op sh k).setPartial k 1 (w36 n)).inSheet sh a.toNat n = true)
include inside

theorem State.memOp_revoked (revoked : ((s1.started h op sh k).setPartial k 1 (w36 n)).mayMaster 0 = false) :
    s.memOp h op sh a n img true job = ((s1.started h op sh k).setPartial k 1 (w36 n)).slotDone k 0xA := by
  rw [State.memOp_taken job H sheet addr image may free slot, if_neg (by rw [inside]; exact nofun), if_pos ⟨rfl, revoked⟩]

theorem State.memOp_runs (allowed : host = true → ((s1.started h op sh k).setPartial k 1 (w36 n)).mayMaster 0 = true) :
    s.memOp h op sh a n img host job = ((s1.started h op sh k).setPartial k 1 (w36 n)).svcRun (job k) := by
  have granted : ¬ (host = true ∧ ((s1.started h op sh k).setPartial k 1 (w36 n)).mayMaster 0 = false) :=
    fun ⟨needs, revoked⟩ => Bool.false_ne_true (revoked.symm.trans (allowed needs))
  rw [State.memOp_taken job H sheet addr image may free slot, if_neg (by rw [inside]; exact nofun), if_neg granted]

end

end

section
variable {j : SvcJob} {fuel : Nat} (up : s.moduleOut = false)
include up

/-- A write of no more words ends. -/
theorem State.svcGo_written (writes : j.write = true) (rest : j.put = []) :
    State.svcGo (fuel + 1) s j = (s.slotProgress j.slot j.done).slotDone j.slot j.reply := by
  simp [State.svcGo, State.svcEnd, up, writes, rest]

/-- A write of words of one line, which is not busy, goes on with none left. -/
theorem State.svcGo_write_line {mp : Nat} {s3 : State} (writes : j.write = true) (more : j.put ≠ [])
    (at_ : s.deckleMap j.sheet j.addr = some mp)
    (oneLine : mp % 16 + j.put.length ≤ 16) (taken : s.ncWrite (ncIndex 0) (mp / 16) (fun x => linePutWords x (mp % 16) j.put) = some s3) :
    State.svcGo (fuel + 1) s j = State.svcGo fuel s3 { j with
      addr := j.addr + j.put.length, left := j.left - j.put.length, put := [], done := j.done + j.put.length } := by
  have whole : Nat.min j.put.length (16 - mp % 16) = j.put.length := Nat.min_eq_left (by omega)
  have unfinished : j.put.isEmpty = false := List.isEmpty_eq_false_iff.2 more
  simp [State.svcGo, up, writes, unfinished, at_, whole, taken]

section
variable (reads : j.write = false) (may : s.mayMaster 0 = true)
include reads may

/-- A read of no more words gives the host those read. -/
theorem State.svcGo_read {os : List Octet} (rest : j.left = 0) (form : (imageOf j.image).ofWords j.got = (os, none)) (octets : os ≠ []) :
    State.svcGo (fuel + 1) s j = ((s.emit (.hostWrite j.buffer os false)).slotProgress j.slot j.done).slotDone j.slot j.reply := by
  simp [State.svcGo, State.svcEnd, up, reads, may, rest, form, octets]

section
variable {mp : Nat} (more : j.left ≠ 0) (at_ : s.deckleMap j.sheet j.addr = some mp)
include more at_

theorem State.svcGo_read_busy (busy : s.ncRead (ncIndex 0) (mp / 16) = none) :
    State.svcGo (fuel + 1) s j = (s.slotProgress j.slot j.done).addWait (.svc j) := by
  simp [State.svcGo, up, reads, may, more, at_, busy]

theorem State.svcGo_read_poison {x : Line} {s3 : State} (taken : s.ncRead (ncIndex 0) (mp / 16) = some (x, s3)) (poison : x.poison = true) :
    State.svcGo (fuel + 1) s j = s3.svcEnd j 0xC := by
  simp [State.svcGo, up, reads, may, more, at_, taken, poison]

/-- A read of words of one line goes on with none left, where the image has a form for them. -/
theorem State.svcGo_read_line {x : Line} {s3 : State} {os : List Octet} (taken : s.ncRead (ncIndex 0) (mp / 16) = some (x, s3))
    (good : x.poison = false) (oneLine : mp % 16 + j.left ≤ 16)
    (form : (imageOf j.image).ofWords (j.got ++ (List.range j.left).map fun i => vget x.words (mp % 16 + i) 0) = (os, none)) :
    State.svcGo (fuel + 1) s j = State.svcGo fuel s3 { j with
      addr := j.addr + j.left, left := 0, put := j.put.drop j.left
      got := j.got ++ (List.range j.left).map fun i => vget x.words (mp % 16 + i) 0, done := j.done + j.left } := by
  have whole : Nat.min j.left (16 - mp % 16) = j.left := Nat.min_eq_left (by omega)
  rw [BitVec.ofNat_eq_ofNat] at form
  simp [State.svcGo, up, reads, may, more, at_, taken, good, whole, form]

end

end

end

/-- A read that has no words yet ends without a write to the host (R582). -/
theorem State.svcEnd_nothing {j : SvcJob} {reply : Nat} (reads : j.write = false) (nothing : j.got = []) :
    s.svcEnd j reply = (s.slotProgress j.slot j.done).slotDone j.slot reply := by
  have empty : (imageOf j.image).ofWords [] = ([], none) := by
    cases imageOf j.image <;> rfl
  simp [State.svcEnd, reads, nothing, empty]

section
variable {k sh sa mp buffer image : Nat} {s3 : State} (up : s.moduleOut = false) (still : s3.moduleOut = false)
  (at_ : s.deckleMap sh sa = some mp)
include up still at_

/-- A write of words of one line, which is not busy, is done at once. -/
theorem State.svcRun_write_line {ws : List Word} (more : ws ≠ []) (oneLine : mp % 16 + ws.length ≤ 16)
    (taken : s.ncWrite (ncIndex 0) (mp / 16) (fun x => linePutWords x (mp % 16) ws) = some s3) :
    s.svcRun {
      slot := k, sheet := sh, write := true, addr := sa, left := 0, put := ws, got := [], done := 0, reply := 0, buffer := buffer
      image := image } = (s3.slotProgress k ws.length).slotDone k 0 := by
  obtain ⟨l, hl⟩ : ∃ l, ws.length = l + 1 := Nat.exists_eq_succ_of_ne_zero fun none => more (List.length_eq_zero_iff.1 none)
  rw [State.svcRun, State.svcGo_write_line (mp := mp) (s3 := s3) up, Nat.zero_add, hl, State.svcGo_written still rfl rfl]
  exacts [rfl, more, at_, oneLine, taken]

/-- A read of words of one line, which is not busy, is done at once. -/
theorem State.svcRun_read_line {n : Nat} {x : Line} {os : List Octet} (may : s.mayMaster 0 = true) (may3 : s3.mayMaster 0 = true)
    (more : n ≠ 0)
    (oneLine : mp % 16 + n ≤ 16) (taken : s.ncRead (ncIndex 0) (mp / 16) = some (x, s3)) (good : x.poison = false)
    (form : (imageOf image).ofWords ((List.range n).map fun i => vget x.words (mp % 16 + i) 0) = (os, none)) (octets : os ≠ []) :
    s.svcRun {
      slot := k, sheet := sh, write := false, addr := sa, left := n, put := [], got := [], done := 0, reply := 0, buffer := buffer
      image := image } = ((s3.emit (.hostWrite buffer os false)).slotProgress k n).slotDone k 0 := by
  obtain ⟨l, rfl⟩ : ∃ l, n = l + 1 := Nat.exists_eq_succ_of_ne_zero more
  rw [State.svcRun, List.length_nil, Nat.add_zero, State.svcGo_read_line up rfl may more at_ taken good oneLine form,
    State.svcGo_read still rfl may3 rfl form octets, Nat.zero_add]

end

/-- MEM_WRITE of words that arrived whole (R85, R582). -/
theorem State.memWriteOp_whole {sh n img : Nat} {a : HostWord} {os : List Octet} {ws : List Word}
    (form : (imageOf img).toWords os = (ws, none))
    (each : ws.length = n) : s.memWriteOp h sh a n os false img = s.memOp h 0x71 sh a n img true fun k =>
      { slot := k, sheet := sh, write := true, addr := a.toNat, left := 0, put := ws, got := [], done := 0, reply := 0, buffer := 0,
        image := img } := by
  simp [State.memWriteOp, form, ← each]

/-! CAL_JOB (R505, R519). -/

theorem State.calJobOp_heard {sh k : Nat} {ex : Bool} {blk : Vector HostWord 12} (H : Hears h 0x73 2 s s1) (sheet : sh < 64)
    (words : ∀ w ∈ blk.toList, w.toNat < 2 ^ 36) (good : calBad 0 (blk.map devWord) ex = false)
    (may : h.sig = .valid ∨ s1.confid sh = false) (free : s1.sheetHeld sh = false) (slot : s1.tokenSlot = some k) :
    let ws := blk.map devWord
    let t := field ws[0] 24 26
    let s2 := s1.started h 0x73 (sh + 64 * t) k
    s2.inSheet sh (ptrAddr (blkDw ws 2)) (calRanges ws ex).1 = true →
    s2.inSheet sh (ptrAddr (blkDw ws 6)) (calRanges ws ex).2 = true →
    s2.inSheet sh (ptrAddr (blkDw ws 10)) 65792 = true →
    s.calJobOp h sh ex blk =
      if s2.calCc t sh = 0 then s2.setCalQueue t sh (s2.calQueue t sh ++ [
        { block := 0, words := ws, expand := ex, ctx := { tile := t, sheet := sh, dat := false, prob := false, org := 0, asn := 0 },
          running := false, console := some k, result := none }])
      else if s2.calCc t sh = 2 then s2.slotDone k 6 else s2.slotDone k 7 := by
  intro ws t s2 input output state
  have whole : blk.toList.any wordBad = false :=
    List.any_eq_false.2 fun w hw => by rw [wordBad_eq_false.2 (words w hw)]; exact Bool.false_ne_true
  have fine : (decide (64 ≤ sh) || blk.toList.any wordBad || calBad 0 (blk.map devWord) ex) = false := by
    rw [decide_eq_false (Nat.not_le.2 sheet), whole, good, Bool.or_self, Bool.or_self]
  have inSheet : (!(s2.inSheet sh (ptrAddr (blkDw ws 2)) (calRanges ws ex).1 && s2.inSheet sh (ptrAddr (blkDw ws 6)) (calRanges ws ex).2 &&
      s2.inSheet sh (ptrAddr (blkDw ws 10)) 65792)) = false := by
    rw [input, output, state]
    rfl
  rw [State.calJobOp, conCmd_go H _ _ fine]
  dsimp only
  rw [unauthorised_eq_false may, free, if_neg Bool.false_ne_true, if_neg Bool.false_ne_true, conLong_go slot]
  rw [if_neg (by rw [inSheet]; exact Bool.false_ne_true)]
  split
  case h_1 ready => rw [if_pos ready]; rfl
  case h_2 full => rw [if_neg (by rw [full]; decide), if_pos full]
  case h_3 notReady notFull => rw [if_neg notReady, if_neg notFull]

end

end Sys2Proof.Machine

open Sys2Proof Sys2Proof.Machine

/-- Settles O53, by the command that firmware hears and, for the memory service, by what its line answers (R581-R590). -/
theorem consoleAccessRows : Obligations.ConsoleAccessRows := by
  intro h s s1
  refine ⟨fun a n core b o names count inBlock => ⟨fun H few => ?registerRead, fun vs H few each words => ?registerWrite⟩,
    fun a n b o names count few inBlock H may => ?shadow,
    fun sh a n im k sheet addr image may free slot => ⟨fun buf H => ?memoryRead, fun os H => ?memoryWrite, fun H mp s3 => ?zero⟩,
    fun sh ex blk k H sheet words good may free slot => ?calender⟩
  case registerRead => rw [exec_regRead, execRegRead, ends_follow, State.regReadOp_heard names count inBlock H few]
  case registerWrite => rw [exec_regWrite, execRegWrite, ends_follow, State.regWriteOp_heard names count inBlock H few each words]
  case shadow =>
    intro os
    rw [exec_shadowRead, execShadowRead, ends_follow, State.shadowReadOp_heard names count few inBlock H may]
    rfl
  case memoryRead =>
    intro s2
    rw [exec_memRead, execMemRead, ends_follow, State.memReadOp]
    refine ⟨fun outside => ?_, fun inside => ⟨fun revoked => ?_, fun mp allowed up at_ more => ?_⟩⟩
    · rw [State.memOp_outside _ H sheet addr image may free slot outside]
    · rw [State.memOp_revoked _ H sheet addr image may free slot inside revoked]
    · have left : n.toNat ≠ 0 := fun none => more (BitVec.eq_of_toNat_eq none)
      rw [State.memOp_runs _ H sheet addr image may free slot inside fun _ => allowed]
      refine ⟨fun busy => ?_, fun x s3 taken poison => ?_, fun x s3 os taken good oneLine allowed3 up3 form octets => ?_⟩
      · rw [State.svcRun, State.svcGo_read_busy up rfl allowed left at_ busy]
      · rw [State.svcRun, State.svcGo_read_poison up rfl allowed left at_ taken poison, State.svcEnd_nothing rfl rfl]
      · rw [State.svcRun_read_line up up3 at_ allowed allowed3 left oneLine taken good form octets]
  case memoryWrite =>
    intro s2 inside allowed up
    refine ⟨?_, fun ws mp s3 form each more at_ oneLine taken up3 => ?_⟩
    · rw [exec_memWrite, execMemWrite, ends_follow, State.memWriteOp,
        State.memOp_runs _ H sheet addr image may free slot inside fun _ => allowed,
        State.svcRun, State.svcGo_written up rfl rfl]
      rfl
    · have left : ws ≠ [] := fun none => more (BitVec.eq_of_toNat_eq (by rw [← each, none]; rfl))
      rw [exec_memWrite, execMemWrite, ends_follow, State.memWriteOp_whole form each,
        State.memOp_runs _ H sheet addr image may free slot inside fun _ => allowed,
        State.svcRun_write_line up up3 at_ left (each ▸ oneLine) taken, each]
  case zero =>
    intro s2 inside up more at_ oneLine taken up3
    have each : (List.replicate n.toNat (0 : Word)).length = n.toNat := List.length_replicate
    rw [exec_memZero, execMemZero, ends_follow, State.memZeroOp,
      State.memOp_runs _ H sheet addr (Nat.zero_le 2) may free slot inside fun none => absurd none Bool.false_ne_true]
    generalize List.replicate n.toNat (0 : Word) = ws at each taken ⊢
    have left : ws ≠ [] := fun none => more (BitVec.eq_of_toNat_eq (by rw [← each, none]; rfl))
    rw [State.svcRun_write_line up up3 at_ left (each ▸ oneLine) taken, each]
  case calender =>
    intro ws t s2 input output state
    rw [exec_calJob, execCalJob, ends_follow, State.calJobOp_heard H sheet words good may free slot input output state]

end

section
/-! Watermark commits (O54): the commands, the flash write, and the waves. -/

namespace Sys2Proof.Machine
open Sys2Proof

section
variable {s s1 : State} {h : ConHdr} {as : Assign} {k : Nat}

/-! The commands (R591, R593, R595). -/

/-- A snapshot that breaks no rule: its record is being written (R591). -/
theorem State.beginCommit_valid {auth : Bool} {img : Tab Word} {ver : Option (Nat × Nat)} (valid : s.firstBreak img as = none) :
    s.beginCommit k auth img as ver =
      let v := ver.getD ((s.records.foldl (fun m r => Nat.max m r.version) 0 + 1) % 2 ^ 32, imageCrc img)
      { s.setFld .wmark 4 0 2 2 with commit := some {
        snapshot := img, slot := k, auth := auth, stamped := false, wave := 1, version := v.1, crc := v.2, waiting := []
        assign := as } } := by
  rw [State.beginCommit, valid]

theorem State.wmCommit_busy (H : Hears h 0x22 1 s s1) (held : s1.wmHeld = true) : s.wmCommit h as = s1.conAns h 6 [] := by
  rw [State.wmCommit, conCmd_go H _ _ rfl, if_pos held]

theorem State.wmCommit_starts (H : Hears h 0x22 1 s s1) (free : s1.wmHeld = false) (slot : s1.tokenSlot = some k) :
    s.wmCommit h as = (s1.started h 0x22 0 k).beginCommit k (h.sig == .valid) (s1.started h 0x22 0 k).takeSnapshot as none := by
  rw [State.wmCommit, conCmd_go H _ _ rfl, free, if_neg Bool.false_ne_true, conLong_go slot]

section
variable (H : Hears h 0x23 1 s s1) (free : s1.wmHeld = false) (slot : s1.tokenSlot = some k)
include H free slot

theorem State.wmRevert_alone (alone : pentimento (s1.started h 0x23 0 k).records = none) :
    s.wmRevert h = (s1.started h 0x23 0 k).slotDone k 7 := by
  rw [State.wmRevert, conCmd_go H _ _ rfl, free, if_neg Bool.false_ne_true, conLong_go slot, alone]

/-- A revert whose staged pentimento breaks no rule begins with that record's image, version and CRC (R593). -/
theorem State.wmRevert_valid {r : WmRec} (pent : pentimento (s1.started h 0x23 0 k).records = some r) :
    let staged := (s1.started h 0x23 0 k).stageImage r.image
    staged.firstBreak staged.takeSnapshot r.assign = none →
    s.wmRevert h = staged.beginCommit k (h.sig == .valid) staged.takeSnapshot r.assign (some (r.version, r.crc)) := by
  intro staged valid
  have kept : (staged.firstBreak staged.takeSnapshot r.assign).isSome = false := by rw [valid]; rfl
  rw [State.wmRevert, conCmd_go H _ _ rfl, free, if_neg Bool.false_ne_true, conLong_go slot, pent]
  dsimp only
  rw [kept, if_neg Bool.false_ne_true]

end

theorem State.stageDiscardOp_heard (H : Hears h 0x24 1 s s1) : s.stageDiscardOp h =
    if s1.wmHeld then s1.conAns h 6 []
    else ({ s1 with shadow := s1.regs.filter fun e => keyStaged e.1 ≠ 0 } : State).conAns h 0 [] := by
  rw [State.stageDiscardOp, conCmd_go H _ _ rfl]
  simp only [bne, beq_eq_decide, ne_eq, decide_not]

/-! The flash write and the waves (R591, R592). -/

section
variable {c : Commit} (up : s.consoleUp = true) (runs : s.commit = some c)
include up runs

theorem State.flashDone_unstamped {ok : Bool} (fresh : c.stamped = false) : s.flashDone ok =
    if ok then s.stampCommit c
    else ((({ s with commit := none, records := s.recordsLess } : State).setFld .wmark 4 0 2 0).fault .wmark 0 0).slotDone c.slot 0xF := by
  simp only [State.flashDone, runs, up, fresh, Bool.not_true, Bool.or_self, Bool.false_eq_true, if_false]

section
variable (stamped : c.stamped = true)
include stamped

/-- Wave 1 goes on while a withdrawal is left (R592). -/
theorem State.commitWave_one (one : c.wave = 1) :
    let n := ((s.applyAll (s.waveOne c)).confidAll false).commitProgress c s
    n.waveOne c ≠ [] → s.commitWave = n := by
  intro n left
  have more : (n.waveOne c).isEmpty = false := List.isEmpty_eq_false_iff.2 left
  simp only [State.commitWave, runs, up, stamped, one, Bool.not_true, Bool.or_self, Bool.false_eq_true, if_false]
  exact if_neg (by rw [more]; exact Bool.false_ne_true)

theorem State.commitWave_two (two : c.wave = 2) : s.commitWave = s.idleSheets := by
  simp only [State.commitWave, runs, up, stamped, two, Bool.not_true, Bool.or_self, Bool.false_eq_true, if_false]

/-- Wave 3 ends the commit when no field is left (R592). -/
theorem State.commitWave_three (three : c.wave = 3) :
    let n := ((s.applyAll (s.waveThree c)).confidAll false).commitProgress c s
    s.commitWave = if n.waveThree c = [] then n.endCommit c else n := by
  intro n
  simp only [State.commitWave, runs, up, stamped, three, Bool.not_true, Bool.or_self, Bool.false_eq_true, if_false, List.isEmpty_iff]
  rfl

/-- The quiesce point of a waiting sheet and of those that give to it, their stores drained (R54, R275, R592). -/
theorem State.quiesceOp_drained {sh : Nat} {n : State} (two : c.wave = 2) (waits : sh ∈ c.waiting)
    (quiet : ∀ x ∈ s.together c sh, s.quiet c x = true)
    (drained : (s.together c sh).foldlM (fun s x => s.drainSheet x) s = some n) : s.quiesceOp sh =
      if ∃ x ∈ s.together c sh, n.outsWait c x = true then n
      else ((n.sheetApply c (s.together c sh)).commitProgress c n).sheetDone c (s.together c sh) := by
  have ready : (!c.stamped || !s.consoleUp || c.wave != 2 || !c.waiting.contains sh || !(s.together c sh).all (s.quiet c)) = false := by
    rw [stamped, up, two, List.contains_iff_mem.2 waits, List.all_eq_true.2 quiet]
    rfl
  simp only [State.quiesceOp, runs, ready, Bool.false_eq_true, if_false, drained, List.any_eq_true]

end

end

end

end Sys2Proof.Machine

open Sys2Proof Sys2Proof.Machine

/-- Settles O54, by the command that firmware hears, and by the wave of the commit that runs (R591-R595). -/
theorem watermarkRows : Obligations.WatermarkRows := by
  refine ⟨fun h as s s1 => ⟨fun H held => ?busy, fun k H free slot => ?commit, fun k H free slot alone => ?alone,
      fun k r H free slot => ?revert, fun H => ?discard⟩,
    fun s c up runs => ⟨fun fresh => ?flash, fun stamped => ⟨fun one => ?waveOne, fun two => ?waveTwo, fun three => ?waveThree,
      fun sh n two waits => ?quiesce⟩⟩⟩
  case busy => rw [exec_watermarkCommit, execWatermarkCommit, ends_follow, State.wmCommit_busy H held]
  case commit =>
    intro s2 valid
    rw [exec_watermarkCommit, execWatermarkCommit, ends_follow, State.wmCommit_starts H free slot, State.beginCommit_valid valid,
      beq_eq_decide]
    rfl
  case alone => rw [exec_watermarkRevert, execWatermarkRevert, ends_follow, State.wmRevert_alone H free slot alone]
  case revert =>
    intro s2 pent valid
    rw [exec_watermarkRevert, execWatermarkRevert, ends_follow, State.wmRevert_valid H free slot pent valid, beq_eq_decide]
  case discard => rw [exec_stageDiscard, execStageDiscard, ends_follow, State.stageDiscardOp_heard H]
  case flash =>
    constructor <;> rw [exec_flashWriteDone, execFlashWriteDone, ends_follow, State.flashDone_unstamped up runs fresh]
    · rw [if_pos rfl]
    · rw [if_neg Bool.false_ne_true]
  case waveOne =>
    intro n left
    rw [exec_commitWave, execCommitWave, ends_whenAlive (alive_of_consoleUp up), State.commitWave_one up runs stamped one left]
  case waveTwo =>
    rw [exec_commitWave, execCommitWave, ends_whenAlive (alive_of_consoleUp up), State.commitWave_two up runs stamped two]
  case waveThree =>
    intro n
    rw [exec_commitWave, execCommitWave, ends_whenAlive (alive_of_consoleUp up), State.commitWave_three up runs stamped three]
  case quiesce =>
    intro ns quiet drained
    rw [exec_quiescePoint, execQuiescePoint, ends_whenAlive (alive_of_consoleUp up),
      State.quiesceOp_drained up runs stamped two waits quiet drained]

end
